-- ==== Sys2Proof/Word.lean ====
section
/-! DEFINITION. The machine's words (R3, R5, R29): the 20-bit word, the 40-bit pair, the 80-bit
accumulator, the byte and the 32-bit host register, with the few bit-field readers every file uses. -/

namespace Sys2Proof

/-- R3, R29: the device word. -/
abbrev Word := BitVec 20
/-- R29, R136: a 40-bit value: an address, a stride, a pair D2k:D2k+1. -/
abbrev W40 := BitVec 40
/-- R136: an accumulator AC0-AC3. -/
abbrev W80 := BitVec 80
/-- R3: a host byte. -/
abbrev Byte := BitVec 8
/-- R6: a host register. -/
abbrev W32 := BitVec 32
/-- R171, R172: a register field of an instruction. -/
abbrev Reg := BitVec 4
/-- The control core 2l + c of logical bent l (R22, R139): c is 0 for the primary and 1 for the shadow. -/
abbrev CoreIx := Fin 64
/-- R348: a function of the module: 0 the PF, n VF n. -/
abbrev FuncIx := Fin 64

/-- R5: bits [lo + w - 1 : lo] of a value, as a number. -/
def bitsOf {n : Nat} (v : BitVec n) (lo w : Nat) : Nat := (v.toNat >>> lo) % 2 ^ w

/-- R5: one bit of a value. -/
def bitAt {n : Nat} (v : BitVec n) (i : Nat) : Bool := v.toNat.testBit i

end Sys2Proof
end

