-- ==== Sys2Proof/Syntax.lean ====
section
/-! DEFINITION. The commands of the block: one constructor per row of spec/opcode_table.json. The table
gives no bits and no operands; the operands are the fields the row's rule names (DESIGN CHOICE, assumption 1). A control-core
row is one core issuing that instruction, whose operands are the fields of R171, R172, R233 and R322. -/

namespace Sys2Proof

/-- R381, R385: a 64-byte descriptor, byte i in bits [8i + 7 : 8i] (R4). -/
abbrev Descriptor := BitVec 512

/-- R436, R442, R443, R439: what makes a pair roll back. -/
inductive RollbackWhy where
  | miscompare
  | signature
  | checker (stage : BitVec 8)
  | replayMismatch
  deriving DecidableEq, Repr

/-- R463: an event source: a module source, or signal source j of logical bent l. -/
inductive EvSource where
  | module (n : Fin 64)
  | signal (l : Fin 32) (j : Fin 16)
  deriving DecidableEq, Repr

/-- R404, R401: the two moments of a service row: its descriptor is fetched, and the started job runs to its end; port says that the
parity of a word the engine writes fails once or twice (R98). -/
inductive ServiceStep where
  | fetch (q : BitVec 15) (desc : Descriptor)
  | run (job : Nat) (port : Fin 3)
  deriving DecidableEq, Repr

/-- R127, R128: what a Translation Response says of a 4 KiB page: present, with its permissions, the
translated page and the count of pages the response spans; or not present. -/
inductive XlResult where
  | present (read write : Bool) (page : BitVec 52) (span : Nat)
  | notPresent
  deriving DecidableEq, Repr

/-- R549: the strap pins: HEAD# asserted, MOD_ID[2:0], SMB_ADDR[1:0]. -/
structure Straps where
  head : Bool
  modId : BitVec 3
  smbAddr : BitVec 2
  deriving DecidableEq, Repr

/-- R504: what the peer of a scarf link sends when the link has trained. -/
structure Peer where
  mod : BitVec 3
  link : BitVec 2
  head : Bool
  clocksAgree : Bool
  deriving DecidableEq, Repr

/-- R512: a request from another module: a block read, a write, or a locked sequence that adds. -/
inductive RemoteReq where
  | read (addr : Nat)
  | write (addr : Nat) (v : Word)
  | lockedAdd (addr : Nat) (v : Word)
  deriving DecidableEq, Repr

/-- R10, R346, R358: where a host write to a register goes: BAR0, the MSI-X table in BAR4, or configuration space. -/
inductive RegSpace where
  | bar0
  | bar4
  | config
  deriving DecidableEq, Repr

/-- R342, R343: a link width the module trains to. -/
inductive PcieWidth where
  | x1
  | x4
  | x8
  | x16
  deriving DecidableEq, Repr

/-- R342, R343: a link rate in GT/s. -/
inductive PcieRate where
  | g2_5
  | g5
  | g8
  | g16
  | g32
  | g64
  deriving DecidableEq, Repr

/-- R97: a word of a bent's SRAM: of the bench, the vector registers, a chain slot, or a cache line, by its block. -/
inductive SramAt where
  | bench (w : Nat)
  | vreg (w : Nat)
  | slot (w : Nat)
  | dline (blk : Nat)
  | iline (blk : Nat)
  deriving DecidableEq, Repr

/-- R97: an error that has come into a stored SRAM word: of one bit, or of two (DESIGN CHOICE, assumption 96). -/
structure Upset where
  where_ : SramAt
  double : Bool
  deriving DecidableEq, Repr

/-- R98: a parity mismatch at a port, on a word read or on a word written, whose second copy is good or fails too. -/
structure PortError where
  write : Bool
  twice : Bool
  deriving DecidableEq, Repr

/-- R100, R97, R98: what befalls an element group: how many of its residue checks fail, the errors that have come into the bent's
SRAM words before it, and a parity mismatch on its port. -/
structure GroupEvents where
  fails : Fin 4
  hits : List Upset
  port : Option PortError
  deriving DecidableEq, Repr

/-- R336, R100: a core's vector instruction that finishes, and how many of its residue checks fail. -/
structure VectorEnd where
  core : CoreIx
  fails : Fin 4
  deriving DecidableEq, Repr

/-- R75, R90: a read request at a controller: the lane that fails in it, its class, and whether it waits behind others. -/
structure ReadRequest where
  lane : Option (Fin 32)
  cls : Fin 5
  waits : Bool
  deriving DecidableEq, Repr

/-- R75, R98: a write request at a controller: how many of its copies mismatch in parity, its class, and whether it waits. -/
structure WriteRequest where
  parity : Fin 3
  cls : Fin 5
  waits : Bool
  deriving DecidableEq, Repr

/-- R86, R97: the masters that contend for a yard bank, and an error that has come into one of its words (two bits where true). -/
structure YardTurn where
  masters : List Nat
  hit : Option (BitVec 20 × Bool)
  deriving DecidableEq, Repr

/-- R504, R508: a trained scarf link between two modules: module and link number at each end. -/
structure Edge where
  a : BitVec 3
  al : BitVec 2
  b : BitVec 3
  bl : BitVec 2
  deriving DecidableEq, Repr

/-- The commands (spec/opcode_table.json, one constructor a row). -/
inductive Instr where
  /-- ADD (R176). Adds DY to DX modulo 2^20. -/
  | add (k : CoreIx) (x y : Reg)
  /-- SUB (R176). Subtracts DY from DX modulo 2^20. -/
  | sub (k : CoreIx) (x y : Reg)
  /-- AND (R176). Bitwise AND of DX and DY into DX. -/
  | and (k : CoreIx) (x y : Reg)
  /-- OR (R176). Bitwise OR of DX and DY into DX. -/
  | or (k : CoreIx) (x y : Reg)
  /-- XOR (R176). Bitwise XOR of DX and DY into DX. -/
  | xor (k : CoreIx) (x y : Reg)
  /-- ANDN (R176). DX AND NOT DY into DX. -/
  | andn (k : CoreIx) (x y : Reg)
  /-- SHL (R176). Shifts DX left by DY[4:0], giving 0 at 20 or more. -/
  | shl (k : CoreIx) (x y : Reg)
  /-- SHR (R176). Shifts DX right with zero fill. -/
  | shr (k : CoreIx) (x y : Reg)
  /-- SAR (R176). Shifts DX right with sign fill. -/
  | sar (k : CoreIx) (x y : Reg)
  /-- MOV (R176). Copies DY to DX. -/
  | mov (k : CoreIx) (x y : Reg)
  /-- NEG (R176). Writes 0 minus DY to DX. -/
  | neg (k : CoreIx) (x y : Reg)
  /-- NOT (R176). Writes NOT DY to DX. -/
  | not (k : CoreIx) (x y : Reg)
  /-- CC (R176). Writes 1 or 0 to DX as the condition (a parameter) holds for DX and DY. -/
  | cc (k : CoreIx) (x y cond : Reg)
  /-- ADDI (R177). Adds the sign-extended IMM10 to DX. -/
  | addi (k : CoreIx) (x : Reg) (imm : BitVec 10)
  /-- LDI (R177). Loads the sign-extended IMM10 into DX. -/
  | ldi (k : CoreIx) (x : Reg) (imm : BitVec 10)
  /-- LUI (R177). Writes IMM10 to DX[19:10] and keeps DX[9:0]. -/
  | lui (k : CoreIx) (x : Reg) (imm : BitVec 10)
  /-- ANDI (R177). ANDs DX with the zero-extended IMM10. -/
  | andi (k : CoreIx) (x : Reg) (imm : BitVec 10)
  /-- ORI (R177). ORs DX with IMM10. -/
  | ori (k : CoreIx) (x : Reg) (imm : BitVec 10)
  /-- XORI (R177). XORs DX with IMM10. -/
  | xori (k : CoreIx) (x : Reg) (imm : BitVec 10)
  /-- SHLI (R177). Shifts DX left by an immediate count. -/
  | shli (k : CoreIx) (x : Reg) (imm : BitVec 10)
  /-- SHRI (R177). Shifts DX right by an immediate count with zero fill. -/
  | shri (k : CoreIx) (x : Reg) (imm : BitVec 10)
  /-- SARI (R177). Shifts DX right by an immediate count with sign fill. -/
  | sari (k : CoreIx) (x : Reg) (imm : BitVec 10)
  /-- LDI20 (R177). Loads IMM20 into DXA. -/
  | ldi20 (k : CoreIx) (xa xb xc : Reg) (imm : Word)
  /-- CMPI (R177). Compares DXB with an immediate under a condition into DXA. -/
  | cmpi (k : CoreIx) (xa xb xc : Reg) (imm : Word)
  /-- CMP (R177). Compares DXB with DXC under a condition into DXA. -/
  | cmp (k : CoreIx) (xa xb xc : Reg) (imm : Word)
  /-- MUL (R178). Multiplies DX by DY modulo 2^20. -/
  | mul (k : CoreIx) (x y : Reg)
  /-- MULWU (R178). Unsigned widening multiply into the pair DX:X+1. -/
  | mulwu (k : CoreIx) (x y : Reg)
  /-- MULWS (R178). Signed widening multiply into the pair DX:X+1. -/
  | mulws (k : CoreIx) (x y : Reg)
  /-- MACU (R178). Adds the unsigned product of DX and DY to ACn, trapping on overflow. -/
  | macu (k : CoreIx) (x y : Reg) (n : BitVec 2)
  /-- MACS (R178). Adds the signed product of DX and DY to ACn, trapping on overflow. -/
  | macs (k : CoreIx) (x y : Reg) (n : BitVec 2)
  /-- AC5 (R178). Multiplies ACn by 100,000, trapping on overflow. -/
  | ac5 (k : CoreIx) (x y : Reg) (n : BitVec 2)
  /-- LADC (R180). Limb add with carry word in base 100,000. -/
  | ladc (k : CoreIx) (x y : Reg)
  /-- LSBB (R180). Limb subtract with borrow in base 100,000. -/
  | lsbb (k : CoreIx) (x y : Reg)
  /-- LADZ (R180). Lazy unsigned limb add, trapping above 1,048,575. -/
  | ladz (k : CoreIx) (x y : Reg)
  /-- LADZS (R180). Lazy signed limb add, trapping outside the word range. -/
  | ladzs (k : CoreIx) (x y : Reg)
  /-- LTOP (R180). Top-limb add with carry, trapping outside the normalised top range. -/
  | ltop (k : CoreIx) (x y : Reg)
  /-- LTOPB (R180). Top-limb subtract with borrow, trapping outside the normalised top range. -/
  | ltopb (k : CoreIx) (x y : Reg)
  /-- LNRM (R180). Normalises a limb with its carry word. -/
  | lnrm (k : CoreIx) (x y : Reg)
  /-- PDADD (R181). Five-digit packed decimal add with carry. -/
  | pdadd (k : CoreIx) (x y : Reg)
  /-- PDSUB (R181). Five-digit packed decimal subtract with borrow. -/
  | pdsub (k : CoreIx) (x y : Reg)
  /-- ACZ (R182). Sets ACn to 0. -/
  | acz (k : CoreIx) (xa xb xc : Reg) (imm : Word)
  /-- ACMOV (R182). Copies ACm to ACn. -/
  | acmov (k : CoreIx) (xa xb xc : Reg) (imm : Word)
  /-- ACNEG (R182). Writes minus ACm to ACn, trapping for -2^79. -/
  | acneg (k : CoreIx) (xa xb xc : Reg) (imm : Word)
  /-- ACLQ (R182). Loads the value of a Q-amount in memory into ACn. -/
  | aclq (k : CoreIx) (xa xb xc : Reg) (imm : Word)
  /-- ACSQ (R182). Stores ACn to memory as a normalised Q-amount. -/
  | acsq (k : CoreIx) (xa xb xc : Reg) (imm : Word)
  /-- ACSCL (R284). Scales ACn by 10^k, rounding by mode when k is negative. -/
  | acscl (k : CoreIx) (xa xb xc : Reg) (imm : Word)
  /-- ADIV (R289). Divides ACn by a 40-bit divisor with rounding, holding issue until done. -/
  | adiv (k : CoreIx) (xa xb xc : Reg) (imm : Word)
  /-- ACCMP (R182). Compares ACn with 0 under a condition into DXA. -/
  | accmp (k : CoreIx) (xa xb xc : Reg) (imm : Word)
  /-- AADD (R184). Adds AY to AX. -/
  | aadd (k : CoreIx) (x y : Reg)
  /-- ASUB (R184). Subtracts AY from AX. -/
  | asub (k : CoreIx) (x y : Reg)
  /-- AADDS (R184). Adds stride SY to AX. -/
  | aadds (k : CoreIx) (x y : Reg)
  /-- AMOV (R184). Copies AY to AX. -/
  | amov (k : CoreIx) (x y : Reg)
  /-- ADW (R184). Loads AX from a data pair. -/
  | adw (k : CoreIx) (x y : Reg)
  /-- DWA (R184). Copies AY to a data pair. -/
  | dwa (k : CoreIx) (x y : Reg)
  /-- SMOV (R184). Copies SY to SX. -/
  | smov (k : CoreIx) (x y : Reg)
  /-- SDW (R184). Loads SX from a data pair. -/
  | sdw (k : CoreIx) (x y : Reg)
  /-- DWS (R184). Copies SY to a data pair. -/
  | dws (k : CoreIx) (x y : Reg)
  /-- AADDD (R184). Adds the sign-extended DY to AX. -/
  | aaddd (k : CoreIx) (x y : Reg)
  /-- SNEG (R184). Writes minus SY to SX. -/
  | sneg (k : CoreIx) (x y : Reg)
  /-- AADDI (R184). Adds a sign-extended IMM10 to AX. -/
  | aaddi (k : CoreIx) (x : Reg) (imm : BitVec 10)
  /-- LAI (R184). Loads a sign-extended IMM20 into AXA. -/
  | lai (k : CoreIx) (xa xb xc : Reg) (imm : Word)
  /-- LAHI (R184). Writes IMM20 into AXA[39:20]. -/
  | lahi (k : CoreIx) (xa xb xc : Reg) (imm : Word)
  /-- SAI (R184). Loads a sign-extended IMM20 into SXA. -/
  | sai (k : CoreIx) (xa xb xc : Reg) (imm : Word)
  /-- AADDL (R184). Writes AXB plus a sign-extended IMM20 to AXA. -/
  | aaddl (k : CoreIx) (xa xb xc : Reg) (imm : Word)
  /-- CMPA (R184). Compares two A registers under a condition into DXA. -/
  | cmpa (k : CoreIx) (xa xb xc : Reg) (imm : Word)
  /-- LD (R185). Loads one word into DX. -/
  | ld (k : CoreIx) (x y : Reg) (off : BitVec 6)
  /-- ST (R185). Stores DX to one word through the store buffer. -/
  | st (k : CoreIx) (x y : Reg) (off : BitVec 6)
  /-- LD2 (R185). Loads two words into a data pair. -/
  | ld2 (k : CoreIx) (x y : Reg) (off : BitVec 6)
  /-- ST2 (R185). Stores a data pair to two words. -/
  | st2 (k : CoreIx) (x y : Reg) (off : BitVec 6)
  /-- LDA (R185). Loads two words into AX. -/
  | lda (k : CoreIx) (x y : Reg) (off : BitVec 6)
  /-- STA (R185). Stores AX to two words. -/
  | sta (k : CoreIx) (x y : Reg) (off : BitVec 6)
  /-- LDL (R185). Long-displacement one-word load. -/
  | ldl (k : CoreIx) (xa xb xc : Reg) (imm : Word)
  /-- STL (R185). Long-displacement one-word store. -/
  | stl (k : CoreIx) (xa xb xc : Reg) (imm : Word)
  /-- LD2L (R185). Long-displacement two-word load into a data pair. -/
  | ld2l (k : CoreIx) (xa xb xc : Reg) (imm : Word)
  /-- ST2L (R185). Long-displacement two-word store of a data pair. -/
  | st2l (k : CoreIx) (xa xb xc : Reg) (imm : Word)
  /-- LDAL (R185). Long-displacement two-word load into an A register. -/
  | ldal (k : CoreIx) (xa xb xc : Reg) (imm : Word)
  /-- STAL (R185). Long-displacement two-word store of an A register. -/
  | stal (k : CoreIx) (xa xb xc : Reg) (imm : Word)
  /-- LDX (R185). Indexed record-field load. -/
  | ldx (k : CoreIx) (xa xb xc : Reg) (imm : Word)
  /-- STX (R185). Indexed record-field store. -/
  | stx (k : CoreIx) (xa xb xc : Reg) (imm : Word)
  /-- PUSH (R186). Pushes one word DX with the SILL check. -/
  | push (k : CoreIx) (x y : Reg)
  /-- POP (R186). Pops one word into DX. -/
  | pop (k : CoreIx) (x y : Reg)
  /-- PUSHA (R186). Pushes AX as two words. -/
  | pusha (k : CoreIx) (x y : Reg)
  /-- POPA (R186). Pops two words into AX. -/
  | popa (k : CoreIx) (x y : Reg)
  /-- PUSH2 (R186). Pushes a data pair. -/
  | push2 (k : CoreIx) (x y : Reg)
  /-- POP2 (R186). Pops into a data pair. -/
  | pop2 (k : CoreIx) (x y : Reg)
  /-- LXADD (R187). Locked fetch-and-add of one word. -/
  | lxadd (k : CoreIx) (xa xb xc : Reg) (imm : Word)
  /-- LXCHG (R187). Locked exchange of one word. -/
  | lxchg (k : CoreIx) (xa xb xc : Reg) (imm : Word)
  /-- LCAS (R187). Locked compare-and-swap of one word. -/
  | lcas (k : CoreIx) (xa xb xc : Reg) (imm : Word)
  /-- LQADD (R187). Locked exact Q-amount add into memory, trapping on overflow. -/
  | lqadd (k : CoreIx) (xa xb xc : Reg) (imm : Word)
  /-- BZ (R189). Branches when DX is zero. -/
  | bz (k : CoreIx) (x : Reg) (imm : BitVec 10)
  /-- BNZ (R189). Branches when DX is not zero. -/
  | bnz (k : CoreIx) (x : Reg) (imm : BitVec 10)
  /-- BR (R189). Unconditional branch. -/
  | br (k : CoreIx) (disp : BitVec 14)
  /-- CALL (R189). Pushes the return address and branches. -/
  | call (k : CoreIx) (disp : BitVec 14)
  /-- BZL (R189). Long branch when DXA is zero. -/
  | bzl (k : CoreIx) (xa xb xc : Reg) (imm : Word)
  /-- BNZL (R189). Long branch when DXA is not zero. -/
  | bnzl (k : CoreIx) (xa xb xc : Reg) (imm : Word)
  /-- BRL (R189). Long unconditional branch. -/
  | brl (k : CoreIx) (xa xb xc : Reg) (imm : Word)
  /-- CALLL (R189). Long call. -/
  | calll (k : CoreIx) (xa xb xc : Reg) (imm : Word)
  /-- RET (R189). Pops two words into the PC. -/
  | ret (k : CoreIx) (imm : BitVec 10)
  /-- JR (R189). Jumps to AX. -/
  | jr (k : CoreIx) (imm : BitVec 10)
  /-- CALLR (R189). Pushes the return address and jumps to AX. -/
  | callr (k : CoreIx) (imm : BitVec 10)
  /-- LOOP (R190). Opens a hardware loop counted by DX, or traps LOOP_NEST. -/
  | loop (k : CoreIx) (x : Reg) (imm : BitVec 10)
  /-- LOOPL (R190). Opens a hardware loop counted by a 40-bit A register. -/
  | loopl (k : CoreIx) (xa xb xc : Reg) (imm : Word)
  /-- LEXIT (R192). Lowers STATUS.LD by one. -/
  | lexit (k : CoreIx) (imm : BitVec 10)
  /-- BCHK (R194). Traps BOUNDS unless DX lies within the bound pair. -/
  | bchk (k : CoreIx) (x y : Reg) (off : BitVec 6)
  /-- MOVC (R140). Moves a control register to or from an A register, D register or data pair, with width and level checks. -/
  | movc (k : CoreIx) (xa xb xc : Reg) (imm : Word)
  /-- XLCOMMIT (R113). MOVC of 1 to XLCOMMIT bit 0 commits the staged CTXID and PTROOT or sets CERR. -/
  | xlcommit (k : CoreIx) (xa : Reg)
  /-- DINV (R164). Write of 1 to CACHECTL.DINV invalidates the data cache. -/
  | dinv (k : CoreIx) (xa : Reg)
  /-- IINV (R165). Write of 1 to CACHECTL.IINV invalidates the instruction cache. -/
  | iinv (k : CoreIx) (xa : Reg)
  /-- TICKCMP_WRITE (R225). MOVC write to TICKCMP sets the compare value and clears the TIMER latch. -/
  | tickcmpWrite (k : CoreIx) (xa : Reg) (cls : BitVec 2)
  /-- NOP (R196). Does nothing. -/
  | nop (k : CoreIx) (imm : BitVec 10)
  /-- TRAP (R196). Raises trap TRAP with IMM10 in DETAIL. -/
  | trap (k : CoreIx) (imm : BitVec 10)
  /-- BRK (R196). Raises trap BREAKPOINT with IMM10 in DETAIL. -/
  | brk (k : CoreIx) (imm : BitVec 10)
  /-- RETE (R221). Returns from a trap frame, restoring level, mask and SILL and resuming or abandoning suspended pipe work. -/
  | rete (k : CoreIx) (imm : BitVec 10)
  /-- WAIT (R197). Stops issue until an event above THRESH is pending or the TIMER latch is set. -/
  | wait (k : CoreIx) (imm : BitVec 10)
  /-- WAIT_END (R197). An event or the TIMER latch ends a WAIT, taking the trap or continuing as EVMASK.M gives. -/
  | waitEnd (k : CoreIx)
  /-- FENCE (R266). Stops issue until the accesses of its scope have completed. -/
  | fence (k : CoreIx) (imm : BitVec 10)
  /-- FENCE_COMPLETE (R266). The waited accesses have been performed and issue resumes, invalidating the data cache for scope X. -/
  | fenceComplete (k : CoreIx)
  /-- SPLIT (R454). Hands the shadow core a context block and enters split execution. -/
  | split (k : CoreIx) (imm : BitVec 10)
  /-- JOIN (R455). Stops the shadow, saves its context and seal partials, and rejoins the pair. -/
  | join (k : CoreIx) (imm : BitVec 10)
  /-- XINV_PAGE (R124). Invalidates the page of one virtual address in the current CTXID across the cascade. -/
  | xinvPage (k : CoreIx) (imm : BitVec 10)
  /-- XINV_CONTEXT (R124). Invalidates every translation of the current CTXID across the cascade. -/
  | xinvContext (k : CoreIx) (imm : BitVec 10)
  /-- XINV_FUNCTION (R124). Invalidates every context of the issuing function, at service level only. -/
  | xinvFunction (k : CoreIx) (imm : BitVec 10)
  /-- SEALCHK (R313). Tests this core's seal partials named by MASK and traps SEAL_MISMATCH if any is not zero. -/
  | sealchk (k : CoreIx) (imm : BitVec 10)
  /-- SEALCHK_MERGED (R314). SEALCHK with G 1: waits at a barrier for every core of the job, then tests the merged seals. -/
  | sealchkMerged (k : CoreIx) (imm : BitVec 10)
  /-- SEAL_BARRIER_RELEASE (R314). The last core arrives at the merged SEALCHK, merged values are formed and each core tests them. -/
  | sealBarrierRelease (job : Nat)
  /-- SEALCLR (R313). Sets this core's partials of the named seals to 0. -/
  | sealclr (k : CoreIx) (imm : BitVec 10)
  /-- VSETC (R321). Sets VGRP.VCNT for elements of w words and returns it in DX. -/
  | vsetc (k : CoreIx) (imm : BitVec 10)
  /-- JEND (R389). Abandons suspended pipe work, waits as a full FENCE and ends the bent share. -/
  | jend (k : CoreIx) (imm : BitVec 10)
  /-- EVCLM (R466). Claims the presented event or returns 1023. -/
  | evclm (k : CoreIx) (imm : BitVec 10)
  /-- EVCMP (R467). Conditionally completes an event in service, returning its status word. -/
  | evcmp (k : CoreIx) (imm : BitVec 10)
  /-- EVRD (R470). Reads an event controller register by index. -/
  | evrd (k : CoreIx) (imm : BitVec 10)
  /-- EVWR (R470). Writes an event controller register by index. -/
  | evwr (k : CoreIx) (imm : BitVec 10)
  /-- EVSET (R469). Fires a signal source of this or another share, ORing bits into its status word. -/
  | evset (k : CoreIx) (imm : BitVec 10)
  /-- SADD (R273). Stream add of words or Q-amounts with normalisation. -/
  | sadd (k : CoreIx) (xa xb xc : Reg) (w1 : Word)
  /-- SSUB (R273). Stream subtract of words or Q-amounts with normalisation. -/
  | ssub (k : CoreIx) (xa xb xc : Reg) (w1 : Word)
  /-- SLADD (R274). Stream lazy add of Q-amounts without carry propagation. -/
  | sladd (k : CoreIx) (xa xb xc : Reg) (w1 : Word)
  /-- SNORM (R272). Stream normalisation of Q-amounts. -/
  | snorm (k : CoreIx) (xa xb xc : Reg) (w1 : Word)
  /-- SCMP (R276). Stream compare under a condition, writing one word per element. -/
  | scmp (k : CoreIx) (xa xb xc : Reg) (w1 : Word)
  /-- SLOG_AND (R238). Stream bitwise AND. -/
  | slogAnd (k : CoreIx) (xa xb xc : Reg) (w1 : Word)
  /-- SLOG_OR (R238). Stream bitwise OR. -/
  | slogOr (k : CoreIx) (xa xb xc : Reg) (w1 : Word)
  /-- SLOG_XOR (R238). Stream bitwise XOR. -/
  | slogXor (k : CoreIx) (xa xb xc : Reg) (w1 : Word)
  /-- SLOG_ANDN (R238). Stream b AND NOT c. -/
  | slogAndn (k : CoreIx) (xa xb xc : Reg) (w1 : Word)
  /-- SLOG_NOT (R238). Stream NOT b. -/
  | slogNot (k : CoreIx) (xa xb xc : Reg) (w1 : Word)
  /-- SCVT_PEPIXO_IN (R292). Stream conversion of Pepixo packed amounts to normalised Q-amounts. -/
  | scvtPepixoIn (k : CoreIx) (xa xb xc : Reg) (w1 : Word)
  /-- SCVT_PEPIXO_OUT (R292). Stream conversion of Q-amounts to Pepixo packed amounts. -/
  | scvtPepixoOut (k : CoreIx) (xa xb xc : Reg) (w1 : Word)
  /-- SCVT_WORD_TO_AMOUNT (R292). Stream conversion of signed words to Q-amounts. -/
  | scvtWordToAmount (k : CoreIx) (xa xb xc : Reg) (w1 : Word)
  /-- SCVT_AMOUNT_TO_WORD (R292). Stream conversion of Q-amounts to signed words. -/
  | scvtAmountToWord (k : CoreIx) (xa xb xc : Reg) (w1 : Word)
  /-- SMOVE (R238). Stream copy of elements. -/
  | smove (k : CoreIx) (xa xb xc : Reg) (w1 : Word)
  /-- SMUL (R285). Stream exact decimal multiply with rounding to the destination scale. -/
  | smul (k : CoreIx) (xa xb xc : Reg) (w1 : Word)
  /-- SMAC (R286). Stream multiply-accumulate into the destination. -/
  | smac (k : CoreIx) (xa xb xc : Reg) (w1 : Word)
  /-- SSCALE (R283). Stream rescaling of Q-amounts with rounding. -/
  | sscale (k : CoreIx) (xa xb xc : Reg) (w1 : Word)
  /-- SDIV (R288). Stream exact decimal division with rounding. -/
  | sdiv (k : CoreIx) (xa xb xc : Reg) (w1 : Word)
  /-- SMITRE_LEFT (R298). Mitre join writing one summed amount per master record. -/
  | smitreLeft (k : CoreIx) (xa xb xc : Reg) (w1 : Word)
  /-- SMITRE_INNER (R298). Mitre join writing matched master records with summed amount, compacted. -/
  | smitreInner (k : CoreIx) (xa xb xc : Reg) (w1 : Word)
  /-- SMITRE_ANTI (R298). Mitre join writing unmatched master records, compacted. -/
  | smitreAnti (k : CoreIx) (xa xb xc : Reg) (w1 : Word)
  /-- SSEG_COMPACT (R301). Segmented reduction writing one record per run with its sum. -/
  | ssegCompact (k : CoreIx) (xa xb xc : Reg) (w1 : Word)
  /-- SSEG_RUNNING (R301). Segmented reduction writing running sums per element. -/
  | ssegRunning (k : CoreIx) (xa xb xc : Reg) (w1 : Word)
  /-- SSEG_MARK (R301). Segmented reduction marking the last element of each run. -/
  | ssegMark (k : CoreIx) (xa xb xc : Reg) (w1 : Word)
  /-- SSORT_FORM (R302). Forms sorted runs of RUNLEN records through the bench run area. -/
  | ssortForm (k : CoreIx) (xa xb xc : Reg) (w1 : Word)
  /-- SSORT_MERGE (R303). Merges FANIN input runs into each output run. -/
  | ssortMerge (k : CoreIx) (xa xb xc : Reg) (w1 : Word)
  /-- SKCMP (R297). Stream key compare under a condition. -/
  | skcmp (k : CoreIx) (xa xb xc : Reg) (w1 : Word)
  /-- SKCMP_ORDER (R297). Stream three-way key compare writing -1, 0 or 1. -/
  | skcmpOrder (k : CoreIx) (xa xb xc : Reg) (w1 : Word)
  /-- STREAM_START (R246). A queued stream operation starts once the one before has finished and its pipes are free. -/
  | streamStart (k : CoreIx)
  /-- ELEMENT_GROUP (R244). A pipe completes an element group, writing elements, updating progress and adding seals. -/
  | elementGroup (k : CoreIx) (ev : GroupEvents)
  /-- STREAM_FINISH (R246). A stream operation finishes with SPROG at its group count and SDONE 0. -/
  | streamFinish (k : CoreIx)
  /-- STREAM_STOP (R260). A faulting element stops the operation at a group boundary, suspended for its trap. -/
  | streamStop (k : CoreIx)
  /-- VLD (R329). Vector load from memory. -/
  | vld (k : CoreIx) (xa xb xc : Reg) (w1 : Word)
  /-- VST (R329). Vector store to memory. -/
  | vst (k : CoreIx) (xa xb xc : Reg) (w1 : Word)
  /-- VGATH (R329). Vector gather by an index group. -/
  | vgath (k : CoreIx) (xa xb xc : Reg) (w1 : Word)
  /-- VSCAT (R331). Vector scatter by an index group. -/
  | vscat (k : CoreIx) (xa xb xc : Reg) (w1 : Word)
  /-- VADD (R326). Vector add. -/
  | vadd (k : CoreIx) (xa xb xc : Reg) (w1 : Word)
  /-- VSUB (R326). Vector subtract. -/
  | vsub (k : CoreIx) (xa xb xc : Reg) (w1 : Word)
  /-- VCMP (R326). Vector compare into a predicate. -/
  | vcmp (k : CoreIx) (xa xb xc : Reg) (w1 : Word)
  /-- VLOG (R326). Vector logic operation. -/
  | vlog (k : CoreIx) (xa xb xc : Reg) (w1 : Word)
  /-- VNORM (R326). Vector normalisation of Q-amounts. -/
  | vnorm (k : CoreIx) (xa xb xc : Reg) (w1 : Word)
  /-- VNORM_ADD (R326). Vector lazy add without carry. -/
  | vnormAdd (k : CoreIx) (xa xb xc : Reg) (w1 : Word)
  /-- VMUL (R326). Vector exact multiply with rounding. -/
  | vmul (k : CoreIx) (xa xb xc : Reg) (w1 : Word)
  /-- VMAC (R326). Vector multiply-accumulate. -/
  | vmac (k : CoreIx) (xa xb xc : Reg) (w1 : Word)
  /-- VKCMP (R326). Vector key compare into a predicate. -/
  | vkcmp (k : CoreIx) (xa xb xc : Reg) (w1 : Word)
  /-- PSETN (R325). Sets the first n predicate bits. -/
  | psetn (k : CoreIx) (xa xb xc : Reg) (w1 : Word)
  /-- PAND (R325). Predicate AND. -/
  | pand (k : CoreIx) (xa xb xc : Reg) (w1 : Word)
  /-- POR (R325). Predicate OR. -/
  | por (k : CoreIx) (xa xb xc : Reg) (w1 : Word)
  /-- PANDN (R325). Predicate AND NOT. -/
  | pandn (k : CoreIx) (xa xb xc : Reg) (w1 : Word)
  /-- PNOT (R325). Predicate NOT. -/
  | pnot (k : CoreIx) (xa xb xc : Reg) (w1 : Word)
  /-- PLD (R325). Loads a predicate from 52 words. -/
  | pld (k : CoreIx) (xa xb xc : Reg) (w1 : Word)
  /-- PST (R325). Stores a predicate to 52 words. -/
  | pst (k : CoreIx) (xa xb xc : Reg) (w1 : Word)
  /-- PCNT (R325). Counts set predicate bits below VCNT into DXA. -/
  | pcnt (k : CoreIx) (xa xb xc : Reg) (w1 : Word)
  /-- VRED_SUM (R327). Sums the active elements into element 0. -/
  | vredSum (k : CoreIx) (xa xb xc : Reg) (w1 : Word)
  /-- VRED_MIN (R327). Writes the least active element to element 0. -/
  | vredMin (k : CoreIx) (xa xb xc : Reg) (w1 : Word)
  /-- VRED_MAX (R327). Writes the greatest active element to element 0. -/
  | vredMax (k : CoreIx) (xa xb xc : Reg) (w1 : Word)
  /-- VRED_SEAL_ADD (R327). Adds the exact sum of the active elements to a seal. -/
  | vredSealAdd (k : CoreIx) (xa xb xc : Reg) (w1 : Word)
  /-- VRED_SEAL_SUBTRACT (R327). Subtracts the exact sum of the active elements from a seal. -/
  | vredSealSubtract (k : CoreIx) (xa xb xc : Reg) (w1 : Word)
  /-- VTBL (R330). Indexed lookup in a bench table. -/
  | vtbl (k : CoreIx) (xa xb xc : Reg) (w1 : Word)
  /-- VECTOR_START (R333). A queued vector instruction starts once its registers are free and a pipe is granted. -/
  | vectorStart (k : CoreIx)
  /-- VECTOR_FINISH (R336). A vector instruction finishes with VSTART at VCNT. -/
  | vectorFinish (v : VectorEnd)
  /-- VECTOR_STOP (R337). A faulting element stops a vector instruction with VSTART and VDONE, suspended for its trap. -/
  | vectorStop (k : CoreIx)
  /-- TRAP_ENTRY (R216). Takes the highest ready cause at an instruction boundary, writing the frame and starting the handler. -/
  | trapEntry (k : CoreIx) (word : Option (Word × Word))
  /-- TIMER (R225). TICK reaches TICKCMP and sets the TIMER latch. -/
  | timer (k : CoreIx)
  /-- STORE_DRAIN (R167). A released store-buffer entry drains and is performed. -/
  | storeDrain (k : CoreIx)
  /-- CHECKPOINT (R438). The pair compares state signatures, saves its checkpoint copy and releases gated stores. -/
  | checkpoint (k : CoreIx)
  /-- ROLLBACK (R440). A miscompare, signature difference or checker fault rolls the pair back to its checkpoint. -/
  | rollback (k : CoreIx) (why : RollbackWhy)
  /-- SPARE_CHECK_COMPLETE (R447). The spare's check ends and the share is restored and released, or the spare is retired. -/
  | spareCheckComplete (p : Nat) (pass : Bool)
  /-- EVENT_PRESENTATION (R465). The controller presents the highest pending event above a target's running priority. -/
  | eventPresentation (k : CoreIx)
  /-- SETP (R472). Write of 1 to SRCSTATE.SETP fires the source with status bit 0. -/
  | setp (src : EvSource)
  /-- TARGET_COMMIT (R473). SRCTGT.COMMIT commits TARGET and ALT, retargeting the event. -/
  | targetCommit (src : EvSource) (v : Word)
  /-- PREEMPTION (R402). The dispatcher pre-empts a job's shares to meet a reservation, saving their state. -/
  | preemption
  /-- PREEMPT_NOTICE_TIMEOUT (R230). 2 us after the notice, a core not yet in WAIT is stopped. -/
  | preemptNoticeTimeout (k : CoreIx)
  /-- PAGE_WAIT_PREEMPT (R130). A bent waiting 20 us on a page request is pre-empted when other work is ready. -/
  | pageWaitPreempt (l : Nat)
  /-- SHARE_RESTORE (R231). A pre-empted share is restored on free bents and resumes. -/
  | shareRestore (job : Nat)
  /-- REGISTER_WRITE (R10). Host write to a register field with no row of its own, under its access type. -/
  | registerWrite (f : FuncIx) (sp : RegSpace) (off : BitVec 26) (v : W32)
  /-- UNSUPPORTED_ACCESS (R6). A BAR0 access of another width or alignment completes as an unsupported request. -/
  | unsupportedAccess (f : FuncIx) (off : BitVec 26) (bytes : Nat)
  /-- TRACT_RECODE (R63). TRCTL.COMMIT with OP 0 sets the code of a tract range and zeroes it. -/
  | tractRecode (v : W32)
  /-- TRACT_ZERO (R63). TRCTL.COMMIT with OP 1 zeroes a tract range keeping its code. -/
  | tractZero (v : W32)
  /-- TRACT_OPERATION_DONE (R63). A committed recode or zeroing finishes its last tract and BUSY clears. -/
  | tractOperationDone
  /-- YARD_REGION_COMMIT (R83). YRATTR.COMMIT commits a region's YRBASE and YRLIM or sets CERR. -/
  | yardRegionCommit (m : Fin 50) (r : Fin 8) (v : W32)
  /-- ECCFLIP_ARM (R102). ECCCTL.ARM commits and arms a one-time corruption of a block. -/
  | eccflipArm (v : W32)
  /-- ECCFLIP_DISARM (R101). ECCCTL.DISARM disarms ECCFLIP without firing. -/
  | eccflipDisarm
  /-- ERRL_POP (R108). Write of 1 to POP removes the oldest error-log entry. -/
  | errlPop
  /-- ERRL_CLRCNT (R108). Write of 1 to CLRCNT clears the ERRL counters. -/
  | errlClrcnt
  /-- WINDOW_COMMIT (R354). WINCTL.COMMIT commits the aperture window or sets CERR. -/
  | windowCommit (f : FuncIx) (v : W32)
  /-- DOORBELL_PAGE_COMMIT (R370). DBCTL.COMMIT commits the doorbell page and reads every group. -/
  | doorbellPageCommit (f : FuncIx) (v : W32)
  /-- KNOCK_GROUP (R373). Write to KNOCK with ALL 0 requests a read of one group. -/
  | knockGroup (f : FuncIx) (g : BitVec 10)
  /-- KNOCK_ALL (R373). Write to KNOCK with ALL 1 requests a read of every group. -/
  | knockAll (f : FuncIx)
  /-- GROUP_READ (R372). The dispatcher reads a bitmap word and its doorbell words and takes new tails and heads. -/
  | groupRead (f : FuncIx) (g : BitVec 10)
  /-- DOORBELL_READ_RETRY (R376). A failed doorbell read is retried after 1 us, logging RING_READ_FAIL if it fails again. -/
  | doorbellReadRetry (f : FuncIx) (g : BitVec 10) (ok : Bool)
  /-- POLL (R374). Every POLL us the dispatcher reads each group that was active. -/
  | poll
  /-- ADMIN_QUEUE_COMMIT (R378). ACTL.COMMIT commits the admin rings after fetched commands complete. -/
  | adminQueueCommit (f : FuncIx) (v : W32)
  /-- MODERATION_COMMIT (R379). CQMOD.COMMIT applies COUNT and TIME to the CQ that CQMSEL names. -/
  | moderationCommit (f : FuncIx) (v : W32)
  /-- CREATE_CQ (R381). Admin command creating a completion queue. -/
  | createCq (f : FuncIx) (desc : Descriptor)
  /-- DELETE_CQ (R381). Admin command deleting a completion queue. -/
  | deleteCq (f : FuncIx) (desc : Descriptor)
  /-- CREATE_SQ (R381). Admin command creating a submission queue. -/
  | createSq (f : FuncIx) (desc : Descriptor)
  /-- DELETE_SQ (R383). Admin command that stops an SQ and completes after its started jobs. -/
  | deleteSq (f : FuncIx) (desc : Descriptor)
  /-- SET_CONTEXT (R111). Admin command creating or changing a context record. -/
  | setContext (f : FuncIx) (desc : Descriptor)
  /-- DELETE_CONTEXT (R381). Admin command deleting a context. -/
  | deleteContext (f : FuncIx) (desc : Descriptor)
  /-- ABORT (R383). Admin command that ends a fetched or started job with ABORTED_BY_HOST. -/
  | abort (f : FuncIx) (desc : Descriptor)
  /-- SCRUB (R105). Admin command scrubbing a tract range and writing a summary record. -/
  | scrub (f : FuncIx) (desc : Descriptor)
  /-- SCRUB_DONE (R106). A scrub ends, writes its summary record and completes. -/
  | scrubDone
  /-- ASSIGN_TRACTS (R384). Admin command assigning and zeroing a tract range for a function. -/
  | assignTracts (f : FuncIx) (desc : Descriptor)
  /-- JOB_NOP (R385). Job descriptor OPC 0x00 completes DONE with no job. -/
  | jobNop (q : BitVec 15) (desc : Descriptor)
  /-- NATIVE (R388). Job descriptor OPC 0x01 runs job code on a gang of bent shares. -/
  | native (q : BitVec 15) (desc : Descriptor)
  /-- SORT (R413). Service job sorting a file by key. -/
  | sort (svc : ServiceStep)
  /-- POST (R415). Service job posting transactions against a master. -/
  | post (svc : ServiceStep)
  /-- ACCRUE (R418). Service job computing tiered interest per account. -/
  | accrue (svc : ServiceStep)
  /-- RECONCILE (R420). Service job pairing two files and writing breaks. -/
  | reconcile (svc : ServiceStep)
  /-- CONVERT (R422). Service job moving records through gauges. -/
  | convert (svc : ServiceStep)
  /-- ZERO (R424). Service job zeroing pages or tracts. -/
  | zero (svc : ServiceStep)
  /-- JOB_START (R401). A chosen job's bents are assigned, checked, loaded and released together. -/
  | jobStart
  /-- COMMIT_POINT (R425). A journalled service reaches COMMITN records or a pass end and writes a commit unit. -/
  | commitPoint (job : Nat)
  /-- COMPLETION_ENTRY_WRITE (R392). The dispatcher writes a completion entry with phase and may send a message. -/
  | completionEntryWrite (q : BitVec 15)
  /-- CQ_HEAD_RECHECK (R395). Every 1 us a full CQ's doorbell is read again until its head moves. -/
  | cqHeadRecheck (q : BitVec 15)
  /-- CQ_WRITE_RETRY (R567). A failed CQ slot translation is retried after 1 us and disables the CQ if it fails again. -/
  | cqWriteRetry (q : BitVec 15) (ok : Bool)
  /-- MODERATION_TIMER (R396). A CQ's moderation timer reaches CURTIME and a message is sent. -/
  | moderationTimer (q : BitVec 15)
  /-- CONTROLLER_READ (R93). A pseudo-channel controller serves a block read, correcting, poisoning or overlaying merge entries. -/
  | controllerRead (blk : Nat) (r : ReadRequest)
  /-- CONTROLLER_WRITE (R67). A controller accepts a write, merging a partial write or writing a full block. -/
  | controllerWrite (blk : Nat) (words : List (Nat × Word)) (r : WriteRequest)
  /-- MERGE_RETIRE (R68). A merge-buffer entry reaches 256 ns and retires by read-modify-write. -/
  | mergeRetire (blk : Nat)
  /-- REQUEST_AGING (R77). A request waiting 2 us is promoted to class-1 rank. -/
  | requestAging (ch : Nat)
  /-- YARD_ACCESS (R86). A yard bank serves one contending master by priority and starvation rule. -/
  | yardAccess (bank : Nat) (turn : YardTurn)
  /-- FIRST_TOUCH_ZEROING_DONE (R122). Every controller reports zeroing done and the claimant clears Z and ZB. -/
  | firstTouchZeroingDone (entry : Nat)
  /-- ZB_REWALK (R122). A walker finding ZB set walks again after 0.1 us. -/
  | zbRewalk (entry : Nat)
  /-- ZB_TAKEOVER (R122). After 100 us of finding ZB set, the walker takes the claim itself. -/
  | zbTakeover (entry : Nat) (kind unit : Nat) (ctx : BitVec 12)
  /-- TRANSLATION_COMPLETION (R127). An ATS translation response arrives and is cached, fails, or starts a page request. -/
  | translationCompletion (f : FuncIx) (pasid : Option (BitVec 20)) (page : BitVec 52) (res : XlResult)
  /-- RESPONSE_SUCCESS (R128). Page Request response Success triggers a new Translation Request. -/
  | responseSuccess (f : FuncIx) (pasid : Option (BitVec 20)) (page : BitVec 52)
  /-- RESPONSE_INVALID_REQUEST (R128). Page Request response Invalid Request fails the access with PRI_INVALID. -/
  | responseInvalidRequest (f : FuncIx) (pasid : Option (BitVec 20)) (page : BitVec 52)
  /-- RESPONSE_FAILURE (R128). Page Request response Failure fails the access and every waiting access of the function. -/
  | responseFailure (f : FuncIx) (pasid : Option (BitVec 20)) (page : BitVec 52)
  /-- PRI_TIMEOUT (R128). No page response within 2 s fails the access with PRI_FAILURE. -/
  | priTimeout (f : FuncIx) (pasid : Option (BitVec 20)) (page : BitVec 52)
  /-- ATS_INVALIDATE_REQUEST (R129). An ATS Invalidate Request drops matching entries and stalls their pages. -/
  | atsInvalidateRequest (f : FuncIx) (pasid : Option (BitVec 20)) (page : BitVec 52) (pages : Nat)
  /-- INVALIDATE_COMPLETION (R129). Once earlier translated requests complete, the module sends the Invalidate Completion. -/
  | invalidateCompletion
  /-- BAR2_READ (R355). A host read of the aperture is served by the window space in force. -/
  | bar2Read (f : FuncIx) (off : BitVec 32)
  /-- BAR2_WRITE (R355). A host write to the aperture is served, discarded or refused by the window space in force. -/
  | bar2Write (f : FuncIx) (off : BitVec 32) (v : W32) (be : BitVec 4) (ep : Bool)
  /-- POWERSTATE_D3HOT (R362). A PMCSR write of D3hot drains the module, completes and enters dormant. -/
  | powerstateD3hot
  /-- POWERSTATE_D0 (R491). A PMCSR write of D0 wakes the module to READY within 250 us. -/
  | powerstateD0
  /-- CASCADE_DORMANT_REQUEST (R517). A member receives the head's dormant request, saves its shares and enters dormant. -/
  | cascadeDormantRequest
  /-- CASCADE_WAKE_REQUEST (R517). A member receives the head's wake request and runs the wake. -/
  | cascadeWakeRequest
  /-- ASPM_L1_ENTRY (R363). After 8 us idle the module requests L1. -/
  | aspmL1Entry
  /-- BUS_MASTER_ENABLE (R360). Bus Master Enable returns to 1 and waiting fetches, writes and messages resume. -/
  | busMasterEnable (f : FuncIx)
  /-- VECTOR_UNMASK (R358). Unmasking an MSI-X vector latches its address and data and sends a pending message. -/
  | vectorUnmask (f : FuncIx) (vec : BitVec 11)
  /-- PF_FLR (R364). Function-level reset of the PF ends every job and recodes every tract strong. -/
  | pfFlr
  /-- VF_FLR (R365). Function-level reset of a VF ends its jobs and clears its state. -/
  | vfFlr (f : FuncIx)
  /-- HOT_RESET (R364). Hot Reset resets all functions as a PF FLR does. -/
  | hotReset
  /-- PCIE_LINK_DOWN (R364). Loss of the PCI Express link resets all functions as a PF FLR does. -/
  | pcieLinkDown
  /-- COMPLETION_TIMEOUT (R366). A module read times out, fails and logs HOST_READ_FAIL. -/
  | completionTimeout (f : FuncIx) (addr : BitVec 64) (ctx : BitVec 12) (va : W40)
  /-- POISONED_TLP_RECEIVED (R366). A poisoned completion to a module read fails the read. -/
  | poisonedTlpReceived (f : FuncIx) (addr : BitVec 64) (ctx : BitVec 12) (va : W40)
  /-- UNEXPECTED_COMPLETION (R366). An unexpected completion is discarded. -/
  | unexpectedCompletion
  /-- ECRC_ERROR (R366). A TLP failing ECRC is discarded. -/
  | ecrcError
  /-- MALFORMED_TLP (R366). A malformed TLP is discarded as a fatal error. -/
  | malformedTlp
  /-- RECEIVER_ERROR (R366). A link-level error is recovered by replay. -/
  | receiverError
  /-- PRECHARGE (R551). VIN54 applied: the hot-swap stage limits inrush and precharges the stores. -/
  | precharge (mv : Nat)
  /-- BOOT (R527). VAUX33 reaches 3.0 V and the boot ROM verifies and boots a firmware slot. -/
  | boot (straps : Straps)
  /-- RAISING (R529). PERST# release starts the power-up sequence to READY. -/
  | raising (straps : Straps) (failed : List Nat) (stuck : Option Nat)
  /-- PERST_ASSERT (R554). PERST# low switches the main rails off and loses device memory. -/
  | perstAssert
  /-- VAUX_LOSS (R554). VAUX33 below 3.0 V for 10 us switches the main rails off. -/
  | vauxLoss
  /-- SUPPLY_WARNING (R492). Low input or SUPPLY_WARN# enters supply warning, refusing writes and throttling to 60 W. -/
  | supplyWarning (mv : Nat) (pin : Bool)
  /-- SUPPLY_WARNING_END (R492). After 10 ms of good supply the warning ends. -/
  | supplyWarningEnd
  /-- SAFE_STOP (R493). Input below 40 V for 20 us stops the module safely. -/
  | safeStop
  /-- OVERVOLTAGE_STOP (R550). Input above 62 V for 20 us stops the module as a safe stop does. -/
  | overvoltageStop
  /-- THERMAL_SAMPLE (R494). Every 100 us the steward core reads sensors and adjusts throttling. -/
  | thermalSample (die dram : Nat) (held : Bool)
  /-- POWER_BRAKE (R495). PWR_BRAKE# asserted limits power to BRAKECAP. -/
  | powerBrake
  /-- POWER_BRAKE_RELEASE (R495). PWR_BRAKE# released lets power rise again. -/
  | powerBrakeRelease
  /-- SEQUENCER_ADMISSION (R486). The power sequencer admits the next queued island power-up or power-down. -/
  | sequencerAdmission
  /-- BENT_POWER_DOWN (R487). An unassigned bent is powered down after GCTL.IDLE us. -/
  | bentPowerDown (l : Nat)
  /-- ISLAND_CLOCK_STOP (R482). An island's clock stops after 32 idle cycles. -/
  | islandClockStop (island : Fin 50)
  /-- ISLAND_CLOCK_SWITCH (R484). ISLCLK.COMMIT switches the selected island's source and divider. -/
  | islandClockSwitch (v : W32) (toggles : Bool)
  /-- CLKSW_FORCED (R484). An old clock silent for 640 ns makes the switch forced. -/
  | clkswForced (island : Fin 50)
  /-- TRIM_HOLD (R481). The trim source stops and the oscillator holds its last trim. -/
  | trimHold (src : Fin 3) (other : Bool)
  /-- JOURNAL_WRITE_COMPLETE (R535). A journal unit write completes and fires event source 6. -/
  | journalWriteComplete
  /-- PAIR_CLRCNT (R459). Write of 1 to PAIRCTL.CLRCNT clears every PAIR counter. -/
  | pairClrcnt
  /-- CMPTEST_ARM (R460). CMPTEST.ARM commits and arms a forced comparator event. -/
  | cmptestArm (v : W32)
  /-- CMPTEST_DISARM (R459). CMPTEST.DISARM disarms the test without firing. -/
  | cmptestDisarm
  /-- LINK_CONFIG_COMMIT (R523). LINKCFG.COMMIT commits EN and MAXW through a retrain. -/
  | linkConfigCommit (l : Nat) (v : W32)
  /-- LINK_RETRAIN (R522). Write of 1 to LINKCFG.RETRAIN retrains the scarf link. -/
  | linkRetrain (l : Nat)
  /-- LANE_LOCK_LOSS (R506). Lanes of a scarf link lose lock and the link retrains, holding flits. -/
  | laneLockLoss (l : Nat) (lanes : BitVec 8)
  /-- LINK_TRAINING_COMPLETE (R504). A scarf link finishes training at 8 or 4 lanes or goes down. -/
  | linkTrainingComplete (l : Nat) (lanes : BitVec 8) (peer : Peer)
  /-- LINK_RETRY (R506). Every 100 ms a down link is tried again. -/
  | linkRetry (l : Nat)
  /-- FLIT_RECEIVE (R505). A flit arrives; a CRC or FEC failure sends a NAK. -/
  | flitReceive (l : Nat) (seq : BitVec 12) (good : Bool)
  /-- NAK (R505). A NAK makes the sender replay from the bad flit, retraining after 8 replays. -/
  | nak (l : Nat) (seq : BitVec 12)
  /-- ROUTE_CHANGE (R511). The head recomputes routes and unanswered requests are resent. -/
  | routeChange (link : Fin 4) (edges : List Edge)
  /-- REMOTE_REQUEST (R512). A request from another module is served at the target or answered from its kept response. -/
  | remoteRequest (l : Nat) (origin : BitVec 3) (tag : Nat) (req : RemoteReq)
  /-- FORMATION_WINDOW_CLOSE (R508). The head closes its formation window, numbers the cascade and sends routes. -/
  | formationWindowClose (headMod : BitVec 3) (edges : List Edge)
  /-- MODULE_LOST (R518). A module unreachable for 10 ms or reporting a stop is removed from the cascade. -/
  | moduleLost (m : BitVec 3)
  /-- MODULE_JOINED (R521). A raised module's links train and the head adds it to the cascade. -/
  | moduleJoined (m : BitVec 3) (edges : List Edge)
  /-- FW_WRITE (R532). Mailbox command writing a chunk into the inactive slot. -/
  | fwWrite (ok : Bool)
  /-- FW_VERIFY (R538). Mailbox command verifying the inactive slot. -/
  | fwVerify
  /-- FW_ACTIVATE (R533). Mailbox command verifying and activating the inactive slot. -/
  | fwActivate (ok : Bool)
  /-- SVN_COMMIT (R531). Mailbox command raising the minimum SVN to the running image. -/
  | svnCommit (ok : Bool)
  /-- JREAD (R538). Mailbox command copying host-area journal bytes to the buffer. -/
  | jread
  /-- JWRITE (R538). Mailbox command writing the buffer into the host area unit by unit. -/
  | jwrite
  /-- LOG_READ (R538). Mailbox command copying error-log copy entries. -/
  | logRead
  /-- SET_SLEEP (R538). Mailbox command setting EVCFG.SLEEP. -/
  | setSleep
  /-- CLEAR_RETIRED (R538). Mailbox command removing a bent from the retired list. -/
  | clearRetired
  /-- RUN_DISCARD (R538). Mailbox command freeing a run's journal units. -/
  | runDiscard
  /-- SENSORS (R538). Mailbox command writing sensor readings to the buffer. -/
  | sensors
  /-- MAILBOX_COMPLETE (R537). A mailbox command ends, setting MBRSP and DONE and sending a message if enabled. -/
  | mailboxComplete
  /-- SET_ENDPOINT_ID (R540). MCTP control command setting the endpoint ID. -/
  | setEndpointId (eid : Byte)
  /-- GET_ENDPOINT_ID (R540). MCTP control command returning the endpoint ID. -/
  | getEndpointId
  /-- GET_ENDPOINT_UUID (R540). MCTP control command returning the endpoint UUID. -/
  | getEndpointUuid
  /-- GET_MCTP_VERSION_SUPPORT (R540). MCTP control command returning supported versions. -/
  | getMctpVersionSupport (typ : Byte)
  /-- GET_MESSAGE_TYPE_SUPPORT (R540). MCTP control command returning supported message types. -/
  | getMessageTypeSupport
  /-- GETTID (R540). PLDM base command returning the terminus ID. -/
  | gettid
  /-- SETTID (R540). PLDM base command setting the terminus ID. -/
  | settid (tid : Byte)
  /-- GETPLDMVERSION (R540). PLDM base command returning a type's version. -/
  | getpldmversion (typ : Byte)
  /-- GETPLDMTYPES (R540). PLDM base command returning supported types. -/
  | getpldmtypes
  /-- GETPLDMCOMMANDS (R540). PLDM base command returning supported commands. -/
  | getpldmcommands (typ : Byte)
  /-- GETPDRREPOSITORYINFO (R540). PLDM command returning repository information. -/
  | getpdrrepositoryinfo
  /-- GETPDR (R541). PLDM command returning a PDR. -/
  | getpdr (rec : Nat)
  /-- GETSENSORREADING (R541). PLDM command returning a numeric sensor reading. -/
  | getsensorreading (id : Nat)
  /-- GETSTATESENSORREADINGS (R541). PLDM command returning state sensor readings. -/
  | getstatesensorreadings (id : Nat)
  /-- SET_CAP_EFFECTER (R541). SetNumericEffecterValue on effecter 1 sets PWRCAP.CAP. -/
  | setCapEffecter (watts : Nat)
  /-- SET_BRAKECAP_EFFECTER (R541). SetNumericEffecterValue on effecter 2 sets PWRCAP.BRAKECAP. -/
  | setBrakecapEffecter (watts : Nat)
  /-- WAKE_REQUEST (R543). Effecter 3 written with 1 makes the steward core request a wake by PME or WAKE#. -/
  | wakeRequest (value : Nat)
  /-- SVN_COMMIT_EFFECTER (R541). Effecter 4 written with 1 runs SVN_COMMIT. -/
  | svnCommitEffecter (value : Nat) (ok : Bool)
  /-- GETNUMERICEFFECTERVALUE (R540). PLDM command returning an effecter value. -/
  | getnumericeffectervalue (id : Nat)
  /-- POLLFORPLATFORMEVENTMESSAGE (R542). PLDM command returning and acknowledging queued events, releasing ALERT# when empty. -/
  | pollforplatformeventmessage (ack : Bool)
  /-- QUERYDEVICEIDENTIFIERS (R540). PLDM firmware update command returning device identifiers. -/
  | querydeviceidentifiers
  /-- GETFIRMWAREPARAMETERS (R540). PLDM firmware update command returning firmware parameters. -/
  | getfirmwareparameters
  /-- REQUESTUPDATE (R532). PLDM command starting an update and taking the update lock. -/
  | requestupdate
  /-- PASSCOMPONENTTABLE (R540). PLDM command passing the component table. -/
  | passcomponenttable
  /-- UPDATECOMPONENT (R540). PLDM command starting the component update. -/
  | updatecomponent
  /-- REQUESTFIRMWAREDATA (R540). PLDM firmware data transfer into the inactive slot. -/
  | requestfirmwaredata (offset : Nat) (data : List Byte) (ok : Bool)
  /-- TRANSFERCOMPLETE (R540). PLDM transfer-complete exchange. -/
  | transfercomplete
  /-- VERIFYCOMPLETE (R540). PLDM verify-complete exchange. -/
  | verifycomplete
  /-- APPLYCOMPLETE (R540). PLDM apply-complete, leaving the slot as FW_VERIFY does. -/
  | applycomplete
  /-- ACTIVATEFIRMWARE (R540). PLDM command running FW_ACTIVATE. -/
  | activatefirmware (ok : Bool)
  /-- GETSTATUS (R540). PLDM command returning update status. -/
  | getstatus
  /-- CANCELUPDATECOMPONENT (R540). PLDM command cancelling the component update. -/
  | cancelupdatecomponent
  /-- CANCELUPDATE (R532). PLDM command cancelling the update and freeing the lock. -/
  | cancelupdate
  /-- DRAM_REFRESH (R75). A pseudo-channel controller performs a DRAM refresh as a class-0 request, delaying other requests by up to 120 ns. -/
  | dramRefresh (ch : Nat)
  /-- POWER_LOOP (R488). The steward core's power loop samples input power and sets THROT so that power stays within 1,000 W of its 1 ms minimum and within the limit in force. -/
  | powerLoop (milliwatts : Nat)
  /-- READ_COMPLETION (R372). A successful completion arrives for a module read of host memory, such as a doorbell, ring, descriptor, parameter, host-window or transfer-engine read, and the waiting requester proceeds. -/
  | readCompletion (f : FuncIx) (addr : BitVec 64) (data : List Byte)
  /-- RESERVE_CHARGED (R552). The journal reserve finishes charging, and raising that was waiting for it begins. -/
  | reserveCharged
  /-- PCIE_LINK_UP (R364). The PCI Express link finishes training and comes up, and the functions become ready within 20 ms. -/
  | pcieLinkUp
  /-- RESET_COMPLETE (R365). A function-level or Hot Reset finishes its clearing and zeroing, and IDENT.READY returns to 1. -/
  | resetComplete (f : FuncIx)
  deriving DecidableEq, Repr

end Sys2Proof
end

