-- ==== Sys2Proof/Decode.lean ====
section
/-! DEFINITION. Words and instructions. spec/opcode_table.json gives no row any bits, so no word of the table
spells a command. The control core's own words have an encoding (R170 to R174, R233, R322): the first words
that DETAIL reports (R209), the words that stand for no instruction (R173), and the command the other words spell. -/

namespace Sys2Proof

/-- The command a table word spells: none, since the table gives no bits. -/
def decodeTableWord (_nbits _w : Nat) : Option Instr := none

/-- R171: an RR word. -/
def encRR (op : Nat) (x y : Reg) (fn : Nat) : Word := BitVec.ofNat 20 (op * 2 ^ 14 + x.toNat * 2 ^ 10 + y.toNat * 2 ^ 6 + fn)
/-- R171: an RI or BR word. -/
def encRI (op : Nat) (x : Reg) (imm : BitVec 10) : Word := BitVec.ofNat 20 (op * 2 ^ 14 + x.toNat * 2 ^ 10 + imm.toNat)
/-- R171: a J word. -/
def encJ (op : Nat) (disp : BitVec 14) : Word := BitVec.ofNat 20 (op * 2 ^ 14 + disp.toNat)
/-- R171: a SYS word. -/
def encSYS (op sub : Nat) (imm : BitVec 10) : Word := BitVec.ofNat 20 (op * 2 ^ 14 + sub * 2 ^ 10 + imm.toNat)
/-- R172: the first word of a long form. -/
def encL (lop : Nat) (xa xb xc : Reg) : Word := BitVec.ofNat 20 (0xC0000 + lop * 2 ^ 12 + xa.toNat * 2 ^ 8 + xb.toNat * 2 ^ 4 + xc.toNat)

/-- R173: FN or SUB values a short opcode assigns; none where the opcode has no such field or is unassigned. -/
def shortAssigned (op fn sub : Nat) : Bool :=
  match op with
  | 0x00 => decide (sub ≤ 8)
  | 0x01 => decide (fn ≤ 0x0B) || (decide (0x10 ≤ fn) && decide (fn ≤ 0x19))
  | 0x0C => decide (fn ≤ 2) || (decide (0x10 ≤ fn) && decide (fn ≤ 0x17)) || (decide (0x1C ≤ fn) && decide (fn ≤ 0x1F))
  | 0x0D => decide (fn ≤ 1)
  | 0x16 => decide (fn ≤ 5)
  | 0x18 => decide (fn ≤ 0x0A)
  | 0x21 => decide (fn ≤ 1)
  | 0x28 => decide (sub ≤ 12)
  | 0x29 => decide (fn ≤ 6)
  | 0x0B | 0x0E | 0x0F | 0x17 | 0x1A | 0x1B => false
  | n => decide (n ≤ 0x20)

/-- R173, R238, R326: FN values a stream or vector opcode assigns. -/
def longAssigned (lop fn sel : Nat) : Bool :=
  match lop with
  | 0x1A => decide (sel ≤ 2)
  | 0x20 | 0x21 | 0x24 | 0x25 | 0x2E | 0x30 | 0x31 | 0x32 | 0x33 | 0x37 => decide (fn = 0)
  | 0x22 | 0x23 | 0x28 | 0x3E => decide (fn ≤ 1)
  | 0x26 | 0x2B | 0x34 => decide (fn ≤ 5)
  | 0x27 | 0x2D | 0x35 => decide (fn ≤ 4)
  | 0x2F => false
  | 0x36 => decide (fn ≤ 3)
  | 0x3C | 0x3D => decide (fn ≤ 2)
  | 0x3F => decide (fn ≤ 6)
  | _ => true

/-- R173: the word, or pair of words, stands for no instruction: its opcode, FN or SUB is not assigned. -/
def illegalWord (w0 w1 : Word) : Bool :=
  if bitsOf w0 18 2 = 3 then !longAssigned (bitsOf w0 12 6) (bitsOf w1 9 3) (bitsOf w1 0 2)
  else if bitsOf w0 14 6 = 0x28 ∧ bitsOf w0 10 4 = 3 then decide (bitsOf w0 0 2 = 3)
  else !shortAssigned (bitsOf w0 14 6) (bitsOf w0 0 6) (bitsOf w0 10 4)

/-- R170: words of an instruction with this first word. -/
def instrLen (w0 : Word) : Nat := if bitsOf w0 18 2 = 3 then 2 else 1

/-! ### The command a word of job code spells (R171 to R174, R196, R238, R325 to R327) -/

/-- OP 0x01 (R176). -/
def decodeAlu (k : CoreIx) (x y : Reg) (fn : Nat) : Option Instr :=
  match fn with
  | 0x00 => some (.add k x y)
  | 0x01 => some (.sub k x y)
  | 0x02 => some (.and k x y)
  | 0x03 => some (.or k x y)
  | 0x04 => some (.xor k x y)
  | 0x05 => some (.andn k x y)
  | 0x06 => some (.shl k x y)
  | 0x07 => some (.shr k x y)
  | 0x08 => some (.sar k x y)
  | 0x09 => some (.mov k x y)
  | 0x0A => some (.neg k x y)
  | 0x0B => some (.not k x y)
  | n => some (.cc k x y (BitVec.ofNat 4 (n - 0x10)))

/-- OP 0x0C (R178). -/
def decodeMul (k : CoreIx) (x y : Reg) (fn : Nat) : Option Instr :=
  match fn with
  | 0x00 => some (.mul k x y)
  | 0x01 => some (.mulwu k x y)
  | 0x02 => some (.mulws k x y)
  | n => some (if n < 0x14 then .macu k x y (BitVec.ofNat 2 n) else if n < 0x18 then .macs k x y (BitVec.ofNat 2 n) else .ac5 k x y (BitVec.ofNat 2 n))

/-- OP 0x18 (R184). -/
def decodeAddr (k : CoreIx) (x y : Reg) (fn : Nat) : Option Instr :=
  match fn with
  | 0x00 => some (.aadd k x y)
  | 0x01 => some (.asub k x y)
  | 0x02 => some (.aadds k x y)
  | 0x03 => some (.amov k x y)
  | 0x04 => some (.adw k x y)
  | 0x05 => some (.dwa k x y)
  | 0x06 => some (.smov k x y)
  | 0x07 => some (.sdw k x y)
  | 0x08 => some (.dws k x y)
  | 0x09 => some (.aaddd k x y)
  | 0x0A => some (.sneg k x y)
  | _ => none

/-- OP 0x16 (R186). -/
def decodeStack (k : CoreIx) (x y : Reg) (fn : Nat) : Option Instr :=
  match fn with
  | 0 => some (.push k x y)
  | 1 => some (.pop k x y)
  | 2 => some (.pusha k x y)
  | 3 => some (.popa k x y)
  | 4 => some (.push2 k x y)
  | 5 => some (.pop2 k x y)
  | _ => none

/-- OP 0x29 (R180). -/
def decodeLimb (k : CoreIx) (x y : Reg) (fn : Nat) : Option Instr :=
  match fn with
  | 0 => some (.ladc k x y)
  | 1 => some (.lsbb k x y)
  | 2 => some (.ladz k x y)
  | 3 => some (.ladzs k x y)
  | 4 => some (.ltop k x y)
  | 5 => some (.ltopb k x y)
  | 6 => some (.lnrm k x y)
  | _ => none

/-- OP 0x00 (R189, R192, R196). -/
def decodeSys (k : CoreIx) (sub : Nat) (imm : BitVec 10) : Option Instr :=
  match sub with
  | 0 => some (.nop k imm)
  | 1 => some (.trap k imm)
  | 2 => some (.brk k imm)
  | 3 => some (.rete k imm)
  | 4 => some (.ret k imm)
  | 5 => some (.jr k imm)
  | 6 => some (.callr k imm)
  | 7 => some (.lexit k imm)
  | 8 => some (.wait k imm)
  | _ => none

/-- OP 0x28 (R124, R196, R313, R314, R321, R389, R469). -/
def decodeSys2 (k : CoreIx) (sub : Nat) (imm : BitVec 10) : Option Instr :=
  match sub with
  | 0 => some (.fence k imm)
  | 1 => some (.split k imm)
  | 2 => some (.join k imm)
  | 3 => some (if bitsOf imm 0 2 = 0 then .xinvPage k imm else if bitsOf imm 0 2 = 1 then .xinvContext k imm else .xinvFunction k imm)
  | 4 => some (if bitAt imm 8 then .sealchkMerged k imm else .sealchk k imm)
  | 5 => some (.sealclr k imm)
  | 6 => some (.vsetc k imm)
  | 7 => some (.jend k imm)
  | 8 => some (.evclm k imm)
  | 9 => some (.evcmp k imm)
  | 10 => some (.evrd k imm)
  | 11 => some (.evwr k imm)
  | 12 => some (.evset k imm)
  | _ => none

/-- R171, R173: a short form by its fields. -/
def decodeShort (k : CoreIx) (op : Nat) (x y : Reg) (fn sub : Nat) (imm : BitVec 10) (disp : BitVec 14) : Option Instr :=
  let off := BitVec.ofNat 6 fn
  match op with
  | 0x00 => decodeSys k sub imm
  | 0x01 => decodeAlu k x y fn
  | 0x02 => some (.addi k x imm)
  | 0x03 => some (.ldi k x imm)
  | 0x04 => some (.lui k x imm)
  | 0x05 => some (.andi k x imm)
  | 0x06 => some (.ori k x imm)
  | 0x07 => some (.xori k x imm)
  | 0x08 => some (.shli k x imm)
  | 0x09 => some (.shri k x imm)
  | 0x0A => some (.sari k x imm)
  | 0x0C => decodeMul k x y fn
  | 0x0D => some (if fn = 0 then .pdadd k x y else .pdsub k x y)
  | 0x10 => some (.ld k x y off)
  | 0x11 => some (.st k x y off)
  | 0x12 => some (.ld2 k x y off)
  | 0x13 => some (.st2 k x y off)
  | 0x14 => some (.lda k x y off)
  | 0x15 => some (.sta k x y off)
  | 0x16 => decodeStack k x y fn
  | 0x18 => decodeAddr k x y fn
  | 0x19 => some (.aaddi k x imm)
  | 0x1C => some (.bz k x imm)
  | 0x1D => some (.bnz k x imm)
  | 0x1E => some (.br k disp)
  | 0x1F => some (.call k disp)
  | 0x20 => some (.loop k x imm)
  | 0x21 => some (.bchk k x y off)
  | 0x28 => decodeSys2 k sub imm
  | 0x29 => decodeLimb k x y fn
  | _ => none

/-- LOP 0x00 to 0x1F (R174). -/
def decodeScalar (k : CoreIx) (lop : Nat) (xa xb xc : Reg) (imm : Word) : Option Instr :=
  match lop with
  | 0x00 => some (.ldl k xa xb xc imm)
  | 0x01 => some (.stl k xa xb xc imm)
  | 0x02 => some (.ld2l k xa xb xc imm)
  | 0x03 => some (.st2l k xa xb xc imm)
  | 0x04 => some (.ldal k xa xb xc imm)
  | 0x05 => some (.stal k xa xb xc imm)
  | 0x06 => some (.ldx k xa xb xc imm)
  | 0x07 => some (.stx k xa xb xc imm)
  | 0x08 => some (.ldi20 k xa xb xc imm)
  | 0x09 => some (.lai k xa xb xc imm)
  | 0x0A => some (.lahi k xa xb xc imm)
  | 0x0B => some (.sai k xa xb xc imm)
  | 0x0C => some (.cmpi k xa xb xc imm)
  | 0x0D => some (.cmpa k xa xb xc imm)
  | 0x0E => some (.aaddl k xa xb xc imm)
  | 0x0F => some (.cmp k xa xb xc imm)
  | 0x10 => some (.lxadd k xa xb xc imm)
  | 0x11 => some (.lxchg k xa xb xc imm)
  | 0x12 => some (.lcas k xa xb xc imm)
  | 0x13 => some (.lqadd k xa xb xc imm)
  | 0x14 => some (.bzl k xa xb xc imm)
  | 0x15 => some (.bnzl k xa xb xc imm)
  | 0x16 => some (.brl k xa xb xc imm)
  | 0x17 => some (.calll k xa xb xc imm)
  | 0x18 => some (.loopl k xa xb xc imm)
  | 0x19 => some (.movc k xa xb xc imm)
  | 0x1A => some (if bitsOf imm 0 2 = 0 then .acz k xa xb xc imm else if bitsOf imm 0 2 = 1 then .acmov k xa xb xc imm else .acneg k xa xb xc imm)
  | 0x1B => some (.aclq k xa xb xc imm)
  | 0x1C => some (.acsq k xa xb xc imm)
  | 0x1D => some (.acscl k xa xb xc imm)
  | 0x1E => some (.adiv k xa xb xc imm)
  | 0x1F => some (.accmp k xa xb xc imm)
  | _ => none

/-- LOP 0x2C (R325). -/
def decodePred (k : CoreIx) (xa xb xc : Reg) (w1 : Word) : Option Instr :=
  match bitsOf w1 9 3 with
  | 0 => some (.psetn k xa xb xc w1)
  | 1 => some (.pand k xa xb xc w1)
  | 2 => some (.por k xa xb xc w1)
  | 3 => some (.pandn k xa xb xc w1)
  | 4 => some (.pnot k xa xb xc w1)
  | 5 => some (.pld k xa xb xc w1)
  | 6 => some (.pst k xa xb xc w1)
  | _ => some (.pcnt k xa xb xc w1)

/-- LOP 0x2D (R327). -/
def decodeRed (k : CoreIx) (xa xb xc : Reg) (w1 : Word) : Option Instr :=
  match bitsOf w1 9 3 with
  | 0 => some (.vredSum k xa xb xc w1)
  | 1 => some (.vredMin k xa xb xc w1)
  | 2 => some (.vredMax k xa xb xc w1)
  | 3 => some (.vredSealAdd k xa xb xc w1)
  | _ => some (.vredSealSubtract k xa xb xc w1)

/-- LOP 0x20 to 0x2E (R326). -/
def decodeVector (k : CoreIx) (lop : Nat) (xa xb xc : Reg) (w1 : Word) : Option Instr :=
  match lop with
  | 0x20 => some (.vld k xa xb xc w1)
  | 0x21 => some (.vst k xa xb xc w1)
  | 0x22 => some (.vgath k xa xb xc w1)
  | 0x23 => some (.vscat k xa xb xc w1)
  | 0x24 => some (.vadd k xa xb xc w1)
  | 0x25 => some (.vsub k xa xb xc w1)
  | 0x26 => some (.vcmp k xa xb xc w1)
  | 0x27 => some (.vlog k xa xb xc w1)
  | 0x28 => some (if bitsOf w1 9 3 = 0 then .vnorm k xa xb xc w1 else .vnormAdd k xa xb xc w1)
  | 0x29 => some (.vmul k xa xb xc w1)
  | 0x2A => some (.vmac k xa xb xc w1)
  | 0x2B => some (.vkcmp k xa xb xc w1)
  | 0x2C => decodePred k xa xb xc w1
  | 0x2D => decodeRed k xa xb xc w1
  | 0x2E => some (.vtbl k xa xb xc w1)
  | _ => none

/-- LOP 0x35 (R238). -/
def decodeSlog (k : CoreIx) (xa xb xc : Reg) (w1 : Word) : Option Instr :=
  match bitsOf w1 9 3 with
  | 0 => some (.slogAnd k xa xb xc w1)
  | 1 => some (.slogOr k xa xb xc w1)
  | 2 => some (.slogXor k xa xb xc w1)
  | 3 => some (.slogAndn k xa xb xc w1)
  | _ => some (.slogNot k xa xb xc w1)

/-- LOP 0x36 (R292). -/
def decodeScvt (k : CoreIx) (xa xb xc : Reg) (w1 : Word) : Option Instr :=
  match bitsOf w1 9 3 with
  | 0 => some (.scvtPepixoIn k xa xb xc w1)
  | 1 => some (.scvtPepixoOut k xa xb xc w1)
  | 2 => some (.scvtWordToAmount k xa xb xc w1)
  | _ => some (.scvtAmountToWord k xa xb xc w1)

/-- LOP 0x30 to 0x3F (R238, R297 to R303). -/
def decodeStream (k : CoreIx) (lop : Nat) (xa xb xc : Reg) (w1 : Word) : Option Instr :=
  let fn := bitsOf w1 9 3
  match lop with
  | 0x30 => some (.sadd k xa xb xc w1)
  | 0x31 => some (.ssub k xa xb xc w1)
  | 0x32 => some (.sladd k xa xb xc w1)
  | 0x33 => some (.snorm k xa xb xc w1)
  | 0x34 => some (.scmp k xa xb xc w1)
  | 0x35 => decodeSlog k xa xb xc w1
  | 0x36 => decodeScvt k xa xb xc w1
  | 0x37 => some (.smove k xa xb xc w1)
  | 0x38 => some (.smul k xa xb xc w1)
  | 0x39 => some (.smac k xa xb xc w1)
  | 0x3A => some (.sscale k xa xb xc w1)
  | 0x3B => some (.sdiv k xa xb xc w1)
  | 0x3C => some (if fn = 0 then .smitreLeft k xa xb xc w1 else if fn = 1 then .smitreInner k xa xb xc w1 else .smitreAnti k xa xb xc w1)
  | 0x3D => some (if fn = 0 then .ssegCompact k xa xb xc w1 else if fn = 1 then .ssegRunning k xa xb xc w1 else .ssegMark k xa xb xc w1)
  | 0x3E => some (if fn = 0 then .ssortForm k xa xb xc w1 else .ssortMerge k xa xb xc w1)
  | 0x3F => some (if fn = 6 then .skcmpOrder k xa xb xc w1 else .skcmp k xa xb xc w1)
  | _ => none

/-- R172, R174: a long form by its fields. -/
def decodeLong (k : CoreIx) (lop : Nat) (xa xb xc : Reg) (w1 : Word) : Option Instr :=
  if lop < 0x20 then decodeScalar k lop xa xb xc w1 else if lop < 0x30 then decodeVector k lop xa xb xc w1 else decodeStream k lop xa xb xc w1

/-- R170 to R174: the command that core k meets in the word w0 of job code, with w1 the word after it; none where R173 assigns none. A field that
must be 0 and is not is met by the command itself, which traps. -/
def decodeWords (k : CoreIx) (w0 w1 : Word) : Option Instr :=
  if illegalWord w0 w1 then none
  else if bitsOf w0 18 2 = 3 then
    decodeLong k (bitsOf w0 12 6) (w0.extractLsb' 8 4) (w0.extractLsb' 4 4) (w0.extractLsb' 0 4) w1
  else
    decodeShort k (bitsOf w0 14 6) (w0.extractLsb' 10 4) (w0.extractLsb' 6 4) (bitsOf w0 0 6) (bitsOf w0 10 4) (w0.extractLsb' 0 10) (w0.extractLsb' 0 14)

end Sys2Proof
end

