-- ==== Sys2Proof/Machine/Flags.lean ====
section
/-! DEFINITION. Conditions (R175): the machine has no flags; a compare writes 1 or 0, and every computation of a
condition is here. -/

namespace Sys2Proof.Machine

/-- R175: whether condition code c holds for a and b; none for codes 10 to 15. -/
def condHolds {w : Nat} (c : Nat) (a b : BitVec w) : Option Bool :=
  match c with
  | 0 => some (a == b)
  | 1 => some (a != b)
  | 2 => some (decide (a.toInt < b.toInt))
  | 3 => some (decide (a.toInt ≤ b.toInt))
  | 4 => some (decide (b.toInt < a.toInt))
  | 5 => some (decide (b.toInt ≤ a.toInt))
  | 6 => some (decide (a.toNat < b.toNat))
  | 7 => some (decide (a.toNat ≤ b.toNat))
  | 8 => some (decide (b.toNat < a.toNat))
  | 9 => some (decide (b.toNat ≤ a.toNat))
  | _ => none

/-- R184: the conditions CMPA has: 0, 1 and 6 to 9. -/
def addrCond (c : Nat) : Bool := decide (c = 0) || decide (c = 1) || (decide (6 ≤ c) && decide (c ≤ 9))

/-- R238: SCMP's conditions EQ, NE, LT, LE, GT, GE on exact values. -/
def intCond (c : Nat) (a b : Int) : Bool :=
  match c with
  | 0 => decide (a = b)
  | 1 => decide (a ≠ b)
  | 2 => decide (a < b)
  | 3 => decide (a ≤ b)
  | 4 => decide (b < a)
  | _ => decide (b ≤ a)

/-- R175: a compare's result word. -/
def boolWord (b : Bool) : Word := if b then 1 else 0

end Sys2Proof.Machine
end

