-- ==== Sys2Proof/Config.lean ====
section
/-! DEFINITION. What the spec leaves open: the free values, constants with no body that nothing can
evaluate, and what an implementation fixes. Each is named in the assumption log. -/

namespace Sys2Proof

/-- R150, R164, R265, R257: the n-th free yes or no, at place j (DESIGN CHOICE, assumption 2). -/
opaque Config.freeBit : Nat → Nat → Bool
/-- A free word: the n-th draw, at place j (DESIGN CHOICE, assumption 2). -/
opaque Config.freeWord : Nat → Nat → Word
/-- A free number: the n-th draw, at place j (DESIGN CHOICE, assumption 2). -/
opaque Config.freeNat : Nat → Nat → Nat
/-- A byte of host memory that no command has delivered (DESIGN CHOICE, assumption 3). -/
opaque Config.hostByte : Nat → Byte
/-- A byte of the journal store before its first write (DESIGN CHOICE, assumption 4). -/
opaque Config.journalByte : Nat → Byte
/-- A byte of a firmware slot before its first write: slot, offset (DESIGN CHOICE, assumption 4). -/
opaque Config.flashByte : Nat → Nat → Byte
/-- R526: SHA-384 of a byte string, as a number (DESIGN CHOICE, assumption 5). -/
opaque Config.sha384 : List Byte → Nat
/-- R526: ECDSA P-384: signature, public key and message (DESIGN CHOICE, assumption 5). -/
opaque Config.ecdsaValid : List Byte → List Byte → List Byte → Bool
/-- R526: the key digest in the one-time fuses (DESIGN CHOICE, assumption 5). -/
opaque Config.keyDigest : Nat
/-- R453: CRC-32C of the words 0 to 4,093 of a context block (DESIGN CHOICE, assumption 6). -/
opaque Config.contextCrc : List Word → BitVec 32
/-- R426: CRC-32 of parameter bytes, and of a unit (DESIGN CHOICE, assumption 6). -/
opaque Config.crc32 : List Byte → BitVec 32
/-- R453: pipe state in the form only the module reads (DESIGN CHOICE, assumption 6). -/
opaque Config.pipeWord : Nat → Nat → Word
/-- R540: the endpoint's UUID (PRESUMED, assumption 7). -/
opaque Config.endpointUuid : BitVec 128
/-- R540: a PDR's bytes (PRESUMED, assumption 7). -/
opaque Config.pdr : Nat → List Byte
/-- R540, R541: what the PLDM tables of the named standards answer (PRESUMED, assumption 7). -/
opaque Config.pldmTable : Nat → Nat → List Byte
/-- R212: a word of the service firmware in the image of a slot: slot B or A, offset in the service store (DESIGN CHOICE, assumption 22). -/
opaque Config.serviceWord : Bool → Nat → Word
/-- R56, R57: another module of the cascade is a KL8-256 (DESIGN CHOICE, assumption 16). -/
opaque Config.largeModule : Nat → Bool
/-- R346: Subsystem Vendor ID and Subsystem ID, from the firmware slot that runs (PRESUMED, assumption 76). -/
opaque Config.subsystem : Bool → BitVec 32
/-- R347: the device serial number (PRESUMED, assumption 76). -/
opaque Config.serial : BitVec 64
/-- R481: a trim value the steward core applies (DESIGN CHOICE, assumption 8). -/
opaque Config.trim : Nat → BitVec 12

end Sys2Proof
end

