-- ==== Sys2Proof/Machine/Table.lean ====
section
/-! DEFINITION. Sparse tables: the one canonical form in which the state keeps registers, memories and
records that are many (a list of key and value pairs, keys strictly rising, no entry equal to what an
unlisted key reads as). -/

namespace Sys2Proof.Machine

/-- A table from numbers to values: keys strictly rising, no entry equal to its default. -/
abbrev Tbl (α : Type) := List (Nat × α)

/-- The value at key k: d where no entry is listed (DESIGN CHOICE, assumption 63). -/
def tget {α : Type} (d : α) : Tbl α → Nat → α
  | [], _ => d
  | (k', v) :: m, k => if k' = k then v else tget d m k

/-- The table without an entry at k. -/
def terase {α : Type} : Tbl α → Nat → Tbl α
  | [], _ => []
  | (k', v) :: m, k => if k' = k then terase m k else (k', v) :: terase m k

/-- Insert before the first greater key. -/
def tinsert {α : Type} (k : Nat) (v : α) : Tbl α → Tbl α
  | [] => [(k, v)]
  | (k', v') :: m => if k < k' then (k, v) :: (k', v') :: m else (k', v') :: tinsert k v m

/-- The table with v at k; writing what an unlisted key reads as removes the entry. -/
def tset {α : Type} [DecidableEq α] (d : α) (m : Tbl α) (k : Nat) (v : α) : Tbl α :=
  if v = d then terase m k else tinsert k v (terase m k)

/-- Write consecutive keys from k. -/
def tsetMany {α : Type} [DecidableEq α] (d : α) (m : Tbl α) (k : Nat) : List α → Tbl α
  | [] => m
  | v :: vs => tsetMany d (tset d m k v) (k + 1) vs

/-- Read n consecutive keys from k. -/
def tgetMany {α : Type} (d : α) (m : Tbl α) (k : Nat) : Nat → List α
  | 0 => []
  | n + 1 => tget d m k :: tgetMany d m (k + 1) n

/-- The table without the entries whose key meets p. -/
def tdrop {α : Type} (p : Nat → Bool) (m : Tbl α) : Tbl α := m.filter (fun e => !p e.1)

/-- Change every listed value; an entry that becomes the default goes. -/
def tmap {α : Type} [DecidableEq α] (d : α) (f : Nat → α → α) (m : Tbl α) : Tbl α :=
  (m.map (fun e => (e.1, f e.1 e.2))).filter (fun e => decide (e.2 ≠ d))

/-- Keys strictly rising from a bound and no entry equal to d. -/
def twfFrom {α : Type} [DecidableEq α] (d : α) : Option Nat → Tbl α → Bool
  | _, [] => true
  | none, (k, v) :: m => decide (v ≠ d) && twfFrom d (some k) m
  | some b, (k, v) :: m => decide (b < k) && decide (v ≠ d) && twfFrom d (some k) m

/-- The canonical form of a table. -/
def twf {α : Type} [DecidableEq α] (d : α) (m : Tbl α) : Bool := twfFrom d none m

end Sys2Proof.Machine
end

