-- ==== Sys2Proof/Machine/State.lean ====
section
/-! DEFINITION. The state of one KL8 module as plain data (R1, R21): its cores and bents, its memories, its
host interface, queues, jobs, event controller, pairs, power, links and steward core, the queue of waiting
commands, and State.reset. The rule beside each field is where the spec names it. -/

namespace Sys2Proof.Machine

/-- R1: the variant. -/
inductive Variant where
  | kl8x256
  | kl8x128
  deriving DecidableEq, Repr

/-! ### Control cores -/

/-- R148, R150: a result still on its way: the register (file 0 A, 1 D, 2 AC), what it held, in how many
instructions it arrives, and whether R150 fixes the early value in plumb mode. -/
structure Inflight where
  file : Nat
  n : Nat
  old : W80
  left : Nat
  exact : Bool
  deriving DecidableEq, Repr

/-- R149: a MOVC write that still runs in the shadow of two instructions. -/
structure CtlWrite where
  idx : Nat
  val : W40
  left : Nat
  deriving DecidableEq, Repr

/-- R136 to R142: the registers of one core that a checkpoint copies (R438), and its emergency area (R218),
which a rollback takes back with the traps that filled it (DEDUCED, assumption 15). YRSEL is the core's, and the region it selects the
bent's (DESIGN CHOICE, assumption 93). -/
structure Arch where
  pc : W40
  a : Tbl W40
  s : Tbl W40
  d : Tbl Word
  ac : Tbl W80
  corecfg : Word
  pl : BitVec 2
  ld : BitVec 2
  sill : W40
  pxbase : W40
  sln : W40
  vgrp : Word
  ls : Tbl W40
  le : Tbl W40
  lc : Tbl W40
  evmask : Word
  tickcmp : W40
  yrsel : Word
  inflight : List Inflight
  shadow : List CtlWrite
  emerg : List (List Word)
  deriving DecidableEq, Repr

/-- R168: where a word is after translation, in the space in which stores are compared. -/
inductive Place where
  | dev (a : Nat)
  | host (a : Nat)
  | yard (w : Nat)
  | bench (w : Nat)
  deriving DecidableEq, Repr

/-- R167: a store-buffer entry: its words with their places, the function whose requester ID a host store
carries (R127), and whether a checkpoint has released it. -/
structure StoreEntry where
  at_ : List Place
  words : List Word
  func : Nat
  released : Bool
  deriving DecidableEq, Repr

/-- What issue of a core is held by (R197, R266, R314), or that no share runs on it; mismatch: SEALCHK's trap with this DETAIL waits for
the page of its frame (R314). -/
inductive Run where
  | idle
  | running
  | waiting
  | fenced (scope : BitVec 4)
  | barrier (mask : BitVec 8)
  | mismatch (detail : Word)
  | stopped
  deriving DecidableEq, Repr

/-- R209: what a trap records. -/
structure Trap where
  cause : Nat
  pc : W40
  addr : W40
  detail : Word
  deriving DecidableEq, Repr

/-- R114: the translation settings an access carries: its context, table root, level, and the record's
host settings (R111). -/
structure Xl where
  ctx : Nat
  root : W40
  lvl : Nat
  func : Nat
  pasid : BitVec 20
  hostBase : BitVec 64
  prien : Bool
  supv : Bool
  htrap : Bool
  deriving DecidableEq, Repr

/-- R236: a record format. -/
structure RecFmt where
  len : Nat
  koff : Nat
  klen : Nat
  a0 : Option (Nat × Nat)
  a1 : Option (Nat × Nat)
  deriving DecidableEq, Repr

/-- R235: an element format: its type with limbs, key length or record, and the scale. -/
inductive Fmt where
  | word
  | amount (limbs scale : Nat)
  | key (len : Nat)
  | record (r : RecFmt) (scale : Nat)
  deriving DecidableEq, Repr

/-- R234, R240: an operand of a stream: memory with its base and stride, a chain slot, or a chain port. -/
inductive Operand where
  | none
  | mem (base stride : W40)
  | slot (n : Nat)
  | port (n : Nat)
  deriving DecidableEq, Repr

/-- R241: one issued stream instruction with what it took at issue. -/
structure Member where
  lop : Nat
  fn : Nat
  dst : Operand
  b : Operand
  c : Operand
  fd : Fmt
  fb : Fmt
  fc : Fmt
  sealNo : Nat
  sub : Bool
  xl : Xl
  deriving DecidableEq, Repr

/-- R295: a key block as read at issue. -/
structure KeyBlock where
  addr : Nat
  clen : Nat
  xaddr : W40
  xstride : W40
  xen : Bool
  xsub : Bool
  xseal : Nat
  fanin : Nat
  runlen : Nat
  rarea : Nat
  deriving DecidableEq, Repr

/-- R307: what a key operation holds for the start of group SPROG: the position in source C, the compacted
and exception counts, the open run's sum and first record or a sorted run's words, the read position in each run, and
the keys of the records consumed last (R300). -/
structure KeyState where
  cpos : Nat
  ocount : Nat
  xcount : Nat
  sum : Int
  first : List Word
  pos : List Nat
  held : List (List Word)
  deriving DecidableEq, Repr

/-- R97: what the check bits of a stored SRAM word or cache line find: nothing, a single-bit or a double-bit error. -/
inductive Cell where
  | good
  | single
  | double
  deriving DecidableEq, Repr

/-- R222: the frame recorded with suspended work: its address, or its emergency slot. -/
inductive FrameRef where
  | stack (addr : W40)
  | slot (n : Nat)
  deriving DecidableEq, Repr

/-- R246, R260: the life of an operation. -/
inductive OpState where
  | queued
  | running
  | stopped
  | suspended
  deriving DecidableEq, Repr

/-- R265: the words that a finished operation has written, which no FENCE S has ordered: n elements of w words in a context. -/
structure Past where
  ctx : Nat
  base : W40
  stride : W40
  w : Nat
  n : Nat
  deriving DecidableEq, Repr

/-- R246: a stream operation, one stream or one whole chain, with its progress (R258); olds: the words it has overwritten that its own
elements also read, as they stood (R257); left: its core has committed another CTXID since
it stopped (R132). -/
structure StreamOp where
  members : List Member
  sln : Nat
  key : Option KeyBlock
  prog : Nat
  done : BitVec 64
  ks : KeyState
  st : OpState
  trap : Option Trap
  frame : Option FrameRef
  olds : Tbl (Option Word)
  left : Bool
  deriving DecidableEq, Repr

/-- R322, R319, R336: an issued vector instruction with what it took at issue, its progress, and whether it has been
stopped (R331). Register numbers count from V0 and P0 of the bent (R318). -/
structure VecOp where
  lop : Nat
  fn : Nat
  xa : Nat
  xb : Nat
  xc : Nat
  base : W40
  stride : W40
  scalar : Word
  pr : Nat
  pm : Bool
  pz : Bool
  fd : Fmt
  fb : Fmt
  fc : Fmt
  vcnt : Nat
  g : Nat
  xl : Xl
  start : Nat
  done : BitVec 128
  again : Bool
  st : OpState
  trap : Option Trap
  frame : Option FrameRef
  deriving DecidableEq, Repr

/-- One control core: its architectural registers, the pair's checkpoint copy, and what a rollback leaves. A stop
asked for waits in stop: 1 until no chain is open (R230), 2 also until the core leaves service level (R455). sent holds the D registers
that each committing output since the checkpoint wrote, replay those of the outputs that a rollback has yet to pass again (R439); outside:
the instruction in hand reaches outside the bench (R150); past: what its pipe work has written since the last FENCE S (R265). -/
structure Core where
  arch : Arch
  ckpt : Arch
  since : Nat
  run : Run
  stores : List StoreEntry
  sprog : W40
  sdone : BitVec 64
  vstart : Word
  vdone : BitVec 128
  timer : Bool
  seals : Tbl Int
  merged : Nat
  chain : List (Member × W40)
  chainSln : W40
  chainKey : Option KeyBlock
  ops : List StreamOp
  vops : List VecOp
  past : List Past
  notice : Option (BitVec 4)
  rolls : Nat
  checkerRolls : Nat
  stop : Nat
  sent : List (List (Nat × Word))
  replay : List (List (Nat × Word))
  outside : Bool
  deriving DecidableEq, Repr

/-! ### Bents -/

/-- One logical bent: the bent-scope control registers (R139, R113), its SRAMs with what their check bits find (R97), and its
share. A cache line is numbered by its block. service is the firmware slot whose image the service store holds (R212; true: B); lastOp and
lastVop say which core of a split bent last started a stream operation and a vector instruction (R247, R334; true: the shadow). -/
structure Bent where
  ctxid : BitVec 12
  ptroot : W40
  stCtxid : BitVec 20
  stPtroot : W40
  staged : Bool
  cerr : Bool
  split : Bool
  bench : Tbl Word
  bad : Tbl Cell
  v : Tbl Word
  vBad : Tbl Cell
  p : Tbl (BitVec 1024)
  slots : Tbl Word
  slotBad : Tbl Cell
  dcache : Tbl (List Word)
  dBad : Tbl Cell
  icache : Tbl Bool
  iBad : Tbl Cell
  tlb : Tbl (Option W40)
  service : Option Bool
  lastOp : Bool
  lastVop : Bool
  share : Option (Nat × Nat)
  deriving DecidableEq, Repr

/-! ### Device memory, yard and integrity -/

/-- R89, R92, R93: what a fetch of a stored block comes to: its words as written, the same with n symbols corrected, uncorrectable,
or words of draw n returned wrong, after what the decoder takes for a correction of ce symbols (0: it finds nothing). -/
inductive Found where
  | clean
  | corrected (n : Nat)
  | bad
  | wrong (draw ce : Nat)
  deriving DecidableEq, Repr

/-- R67, R93: a request at a pseudo-channel controller, with the lane whose transfer and retry fail, or the copies that fail parity. -/
inductive ChanReq where
  | read (blk : Nat) (lane : Option (Fin 32))
  | write (blk : Nat) (words : List (Nat × Word)) (parity : Fin 3)
  deriving DecidableEq, Repr

/-- R75, R77: a request that waits at a controller, with its class and whether it has waited 2 microseconds. -/
structure Waiting where
  cls : Nat
  aged : Bool
  req : ChanReq
  deriving DecidableEq, Repr

/-- R67: a merge-buffer entry: its block and the words it holds by offset. -/
structure Merge where
  blk : Nat
  words : Tbl (Option Word)
  deriving DecidableEq, Repr

/-- R61 to R63: the tract registers of MEMC and the running operation. -/
structure Memc where
  trfirst : BitVec 16
  trlast : BitVec 16
  op : Bool
  code : Bool
  staged : Bool
  cerr : Bool
  busy : Bool
  done : BitVec 17
  curFirst : Nat
  curLast : Nat
  curOp : Bool
  curCode : Bool
  flr : Bool
  deriving DecidableEq, Repr

/-- R101: the ECCFLIP registers, staged and armed. -/
structure EccFlip where
  addr : BitVec 37
  mask : BitVec 64
  heldAddr : Option W32
  heldMask : Option W32
  mode : Bool
  window : BitVec 5
  staged : Bool
  cerr : Bool
  armed : Bool
  fired : Bool
  curBlk : Nat
  curMask : BitVec 64
  curMode : Bool
  curWindow : BitVec 5
  deriving DecidableEq, Repr

/-- R82: a yard region. -/
structure Region where
  base : BitVec 25
  lim : BitVec 25
  stBase : BitVec 25
  stLim : BitVec 25
  staged : Bool
  cerr : Bool
  en : Bool
  tag : BitVec 12
  anyctx : Bool
  w : Bool
  rd : Bool
  deriving DecidableEq, Repr

/-- R104, R106: a SCRUB fetched and not yet done: its function and CID, module, range, summary address, and the lanes newly
marked dead while it runs. -/
structure Scrub where
  func : Nat
  cid : BitVec 16
  module : Nat
  first : Nat
  last : Nat
  rewrite : Bool
  addr : BitVec 64
  lanes : Nat
  deriving DecidableEq, Repr

/-- Device memory of this module and its controllers. Blocks are numbered by local physical address / 64. saved lists
the pages a pre-emption save has written, in a form the spec does not give: the draw of their free words, and the
blocks written since (DESIGN CHOICE, assumption 20). poison holds the three marks of a block (R94), fetched the bent that reads for the
element group or locked sequence in hand and the blocks fetched for it, each once for each bent (R59, R310), waits the requests that wait at each pseudo-channel (R75), oldest
first, scrub the SCRUBs fetched, the first of them running. -/
structure Mem where
  words : Tbl Word
  saved : Tbl (Option (Nat × List Nat))
  poison : Tbl (BitVec 3)
  fetched : Option (Nat × List ((Nat × Nat) × Found))
  flips : Tbl (List Nat)
  merge : List Merge
  tcmap : Tbl Bool
  owner : Tbl Nat
  dead : Tbl W32
  memc : Memc
  ecc : EccFlip
  scrub : List Scrub
  yard : Tbl Word
  yardBad : Tbl Cell
  region : Tbl Region
  yardLoss : Tbl Nat
  refresh : Tbl Nat
  waits : Tbl (List Waiting)
  claims : Tbl (Option W40)
  deriving DecidableEq, Repr

/-- R109: an error-log entry. -/
structure ErrEntry where
  code : Nat
  kind : Nat
  unit : Nat
  addr : Nat
  detail : Nat
  ctx : Nat
  time : Nat
  ue : Bool
  deriving DecidableEq, Repr

/-- R108: the ERRL block, its ring and counters, and the per-second count of each CE code. -/
structure Errl where
  ring : List ErrEntry
  ovf : Bool
  ue : Bool
  vec : BitVec 11
  ueie : Bool
  ceie : Bool
  cnt : Tbl Nat
  second : Nat
  rate : Tbl Nat
  deriving DecidableEq, Repr

/-! ### Contexts and translation -/

/-- R111: a context record with the function that owns it. -/
structure Ctx where
  func : Nat
  supv : Bool
  htrap : Bool
  prien : Bool
  pasid : BitVec 20
  ptroot : W40
  hostBase : BitVec 64
  saveVa : W40
  deriving DecidableEq, Repr

/-- R127: one entry of the address translation cache: span pages from page lie at to. -/
structure AtcEntry where
  func : Nat
  pasid : Option (BitVec 20)
  page : Nat
  read : Bool
  write : Bool
  dest : Nat
  span : Nat
  deriving DecidableEq, Repr

/-- Who makes an access: core k and what it issued, transfer engine e, the dispatcher, the BAR2 aperture of f. -/
inductive Who where
  | core (k : Nat)
  | engine (e : Nat)
  | dispatcher
  | aperture (f : Nat)
  | steward
  deriving DecidableEq, Repr

/-- R128: an access that waits for a host page: who makes it, its write need and PRIEN, and its CTXID and virtual word address (R566). -/
structure Waiter where
  who : Who
  write : Bool
  prien : Bool
  ctx : Nat
  addr : Nat
  deriving DecidableEq, Repr

/-- R127: an outstanding Translation Request with the accesses that wait for it. -/
structure Asked where
  func : Nat
  pasid : Option (BitVec 20)
  page : Nat
  waiters : List Waiter
  deriving DecidableEq, Repr

/-- R128: an outstanding page request: rounds begun, whether it has been sent or waits for a free slot, and the accesses that wait. -/
structure PageReq where
  func : Nat
  pasid : Option (BitVec 20)
  page : Nat
  round : Nat
  sent : Bool
  waiters : List Waiter
  deriving DecidableEq, Repr

/-- R121, R128: a host access that has failed, until it reports the reason. -/
structure XlFail where
  func : Nat
  pasid : Option (BitVec 20)
  page : Nat
  who : Who
  addr : Nat
  reason : Nat
  deriving DecidableEq, Repr

/-- R129: an Invalidate Request that waits for its completion: its pages, and the host pages (first, count) that the entries it dropped
led to. -/
structure Stalled where
  func : Nat
  pasid : Option (BitVec 20)
  page : Nat
  pages : Nat
  dests : List (Nat × Nat)
  deriving DecidableEq, Repr

/-- R127 to R129: host translation; held are the page responses that arrived in dormant (R490): 0 Success, 1 Invalid Request,
2 Failure. -/
structure Ats where
  atc : List AtcEntry
  asked : List Asked
  reqs : List PageReq
  fails : List XlFail
  stalled : List Stalled
  held : List (Nat × Nat × Option (BitVec 20) × Nat)
  opra : Nat
  deriving DecidableEq, Repr

/-! ### Functions: BAR0 blocks, MSI-X and configuration space -/

/-- R358, R359: an MSI-X vector: its table entry, the address and data it sends with, its mask and PBA bit. -/
structure Vector where
  addr : BitVec 64
  data : W32
  curAddr : BitVec 64
  curData : W32
  mask : Bool
  pba : Bool
  deriving DecidableEq, Repr

/-- R353: the WIN block. -/
structure Win where
  stBase : W40
  held : Option W32
  stSpace : BitVec 2
  stCtx : BitVec 12
  staged : Bool
  cerr : Bool
  fault : Bool
  base : W40
  space : BitVec 2
  ctx : BitVec 12
  deriving DecidableEq, Repr

/-- R370: the DBPG block. -/
structure Dbpg where
  stBase : BitVec 64
  held : Option W32
  stEn : Bool
  staged : Bool
  cerr : Bool
  base : BitVec 64
  en : Bool
  deriving DecidableEq, Repr

/-- R377: the staged group of the admin rings. -/
structure Rings where
  asq : BitVec 64
  acq : BitVec 64
  asqSize : BitVec 17
  acqSize : BitVec 17
  vec : BitVec 11
  ien : Bool
  en : Bool
  deriving DecidableEq, Repr

/-- R377: the ADMQ block; due is a commit that waits for the admin commands already fetched (R378), cur the group in force. -/
structure Admq where
  st : Rings
  heldAsq : Option W32
  heldAcq : Option W32
  due : Option Rings
  cur : Rings
  staged : Bool
  cerr : Bool
  cqmsel : BitVec 16
  stCount : BitVec 8
  stTime : BitVec 12
  modStaged : Bool
  modCerr : Bool
  deriving DecidableEq, Repr

/-- One function: its readiness, blocks, MSI-X and enables (R346 to R361), and cfg, the registers of its configuration space that
software has written and that have no field of their own. -/
structure Func where
  ready : Bool
  resetting : Bool
  enabled : Bool
  bme : Bool
  cfg : Tbl W32
  msixEn : Bool
  fmask : Bool
  vec : Tbl Vector
  win : Win
  dbpg : Dbpg
  admq : Admq
  deriving DecidableEq, Repr

/-- R342, R361, R366: the PCI Express port: link with the width, rate and mode it has trained to (R343), power state, the enables of
configuration space, errors by kind, the last answer to an access of the host (data, EP, unsupported request), the messages that wait for
Bus Master Enable (R360), and whether the last memory write sent carries Relaxed Ordering (R344). -/
structure Port where
  up : Bool
  width : PcieWidth
  rate : PcieRate
  flit : Bool
  ro : Bool
  l1 : Bool
  aspm : Bool
  d3hot : Bool
  cfg : Bool
  pasidEn : Bool
  priEn : Bool
  vfEn : Bool
  numVfs : BitVec 16
  aer : Tbl Nat
  data : W32
  ep : Bool
  ur : Bool
  waits : List (Nat × Nat)
  deriving DecidableEq, Repr

/-- A message the module has sent on MSI-X: its function, vector, address and data (R359). -/
structure Msg where
  func : Nat
  vec : Nat
  addr : BitVec 64
  data : W32
  deriving DecidableEq, Repr

/-! ### Event controller -/

/-- R472: one event source; a target is a core number, or 64 for the steward core. -/
structure Src where
  prio : BitVec 4
  stAlt : BitVec 7
  stTgt : BitVec 7
  staged : Bool
  cerr : Bool
  stat : Word
  alt : BitVec 7
  tgt : BitVec 7
  pend : Bool
  pres : Option Nat
  insv : Option Nat
  held : Bool
  deriving DecidableEq, Repr

/-! ### Queues and jobs -/

/-- R391: a completion entry before it has a slot; bar: of a job with BARRIER (R385). -/
structure Entry where
  cid : BitVec 16
  sqid : Nat
  status : BitVec 16
  cause : Nat
  detail : Word
  sealZero : BitVec 8
  reason : Nat
  field : Nat
  info : BitVec 64
  rcount : BitVec 32
  share : Nat
  hostOff : Bool
  bar : Bool
  deriving DecidableEq, Repr

/-- R367, R399: a submission queue. -/
structure Sq where
  func : Nat
  base : BitVec 64
  size : Nat
  cq : Nat
  prio : Nat
  weight : Nat
  head : Nat
  tail : Nat
  disabled : Bool
  fetched : List Descriptor
  deleting : Option (BitVec 16)
  passes : Nat
  deriving DecidableEq, Repr

/-- R367, R392, R396: a completion queue. -/
structure Cq where
  func : Nat
  base : BitVec 64
  size : Nat
  vec : BitVec 11
  ien : Bool
  count : Nat
  time : Nat
  head : Nat
  tail : Nat
  phase : Bool
  disabled : Bool
  retry : Bool
  held : List Entry
  n : Nat
  timer : Option Nat
  deriving DecidableEq, Repr

/-- R372: a group of queues of one function. -/
structure Group where
  reading : Bool
  again : Bool
  active : Bool
  failed : Bool
  deriving DecidableEq, Repr

/-- R388, R402, R447: a bent share: its logical bent, or saved, or ended. -/
inductive Share where
  | on (l : Nat)
  | saved (b : Bent) (c0 c1 : Core) (regions : List Region) (srcs : List Src)
  | ended (seals : Tbl Int)
  deriving DecidableEq, Repr

/-- R426: a journal unit. -/
structure Unit_ where
  runid : BitVec 32
  func : Nat
  service : Nat
  seq : Nat
  paramCrc : BitVec 32
  inPos : Nat
  inPos2 : Nat
  outCount : Nat
  outCount2 : Nat
  sealA : Int
  sealB : Int
  counts : List Nat
  complete : Bool
  status : BitVec 16
  good : Bool
  deriving DecidableEq, Repr

/-- R425: how far a service has come; keyA and keyB are the keys of the records its inputs gave last (R300). -/
structure Progress where
  pos : Nat
  pos2 : Nat
  out : Nat
  out2 : Nat
  counts : List Nat
  keyA : Option Nat
  keyB : Option Nat
  commits : Nat
  resumed : Nat
  deriving DecidableEq, Repr

/-- R390: what a job that has ended still has to write before its entry: the entry, the frame words of the trap
that ended it, its RUNTIME and its merged seals. -/
structure Ending where
  entry : Entry
  frame : List Word
  runtime : Nat
  seals : List Int
  deriving DecidableEq, Repr

/-- R385, R389, R401: a job that has been chosen; others are the other modules of its MODMASK, save holds the pages of each
share's save area (R133), awaits the host pages a pre-emption of R130 left outstanding. -/
structure Job where
  func : Nat
  sq : Nat
  desc : Descriptor
  prio : Nat
  others : List Nat
  shares : List Share
  preempted : Bool
  param : List Byte
  prog : Progress
  started : Nat
  startedAt : Nat
  chain : List (BitVec 16)
  save : List (List Nat)
  awaits : List (Option (BitVec 20) × Nat)
  ending : Option Ending
  deriving DecidableEq, Repr

/-- The dispatcher (R367 to R403), with the translation caches of the transfer engines, by number, and its own, at 16 (R123). -/
structure Disp where
  tlbs : Tbl (Tbl (Option W40))
  sq : Tbl (Option Sq)
  cq : Tbl (Option Cq)
  group : Tbl Group
  jobs : Tbl (Option Job)
  next : Nat
  starts : Nat
  reserve : Option Nat
  fetching : Bool
  deriving DecidableEq, Repr

/-! ### Pairs and spares -/

/-- R459: a physical bent in the PAIR block: STATE, LBENT, REASON and the six counters. -/
structure Phys where
  state : Nat
  lbent : Nat
  reason : Nat
  cnt : Tbl Nat
  deriving DecidableEq, Repr

/-- R453, R455: pipe work of a shadow that JOIN has written into a context block, by the draw of its words. -/
structure Parked where
  draw : Nat
  ops : List StreamOp
  vops : List VecOp
  deriving DecidableEq, Repr

/-- R447: a takeover that runs: the logical number, the spare, and the share to restore on it. -/
structure Takeover where
  lbent : Nat
  spare : Nat
  share : Option (Nat × Nat)
  deriving DecidableEq, Repr

/-- R459: the PAIR block. -/
structure Pair where
  nosplit : Bool
  bent : BitVec 6
  mode : BitVec 2
  staged : Bool
  cerr : Bool
  armed : Bool
  fired : Bool
  curBent : Nat
  curMode : Nat
  phys : Tbl Phys
  lmap : Tbl (Option Nat)
  retiredList : Tbl Bool
  takeover : List Takeover
  checkers : Tbl (List Nat)
  parked : List Parked
  deriving DecidableEq, Repr

/-! ### Clocks, power and supply -/

/-- R479, R483, R498: an island; heldPair is a committed pair that waits for the old clock or for power (R484). -/
structure Island where
  src : Bool
  div : BitVec 2
  forced : Bool
  powered : Bool
  running : Bool
  locked : Bool
  heldPair : Option (Bool × BitVec 2)
  deriving DecidableEq, Repr

/-- The phases of the module's supply (R361, R490, R493, R528, R529). -/
inductive Phase where
  | off
  | aux
  | recovery
  | raised
  | ready
  | dormant
  | stopped
  deriving DecidableEq, Repr

/-- R497, R498: power, clocks and supply; samples are the input powers of the last 1 ms in mW, with their time (R488). -/
structure Power where
  phase : Phase
  vin : Nat
  iin : Nat
  warn : Bool
  warnPin : Bool
  brake : Bool
  therm : Bool
  throt : BitVec 5
  pin : Nat
  tdie : Nat
  tdram : Nat
  cap : BitVec 10
  brakecap : BitVec 10
  ttrip : BitVec 8
  tthr : BitVec 8
  clkForced : Bool
  stopPrev : Bool
  thermSeen : Bool
  brakeSeen : Bool
  warnSeen : Bool
  locked : Bool
  hold : Bool
  refuse : BitVec 2
  trim : BitVec 12
  refsel : BitVec 2
  islsel : BitVec 6
  stSrc : Bool
  stDiv : BitVec 2
  islStaged : Bool
  islCerr : Bool
  island : Tbl Island
  seqQueue : List (Bool × Nat)
  samples : List (Nat × Nat)
  wakes : BitVec 16
  wakeUs : BitVec 16
  idle : BitVec 16
  poll : BitVec 16
  precharged : Bool
  reserve : Bool
  hotRefresh : Bool
  fault : Bool
  wakePin : Bool
  pme : Bool
  clkreq : Bool
  deriving DecidableEq, Repr

/-! ### Scarf links -/

/-- R522, R505: a scarf link: expect is the sequence number of the next flit, asked whether a NAK for it is out, and replayed the flit
that the last NAK named, with how often in a row. -/
structure Link where
  en : Bool
  maxw : Bool
  stEn : Bool
  stMaxw : Bool
  staged : Bool
  cerr : Bool
  peerMod : BitVec 3
  peerLink : BitVec 2
  laneOk : BitVec 8
  width : BitVec 4
  state : Nat
  retry : Nat
  fecUnc : Nat
  fecCorr : Nat
  retrain : Nat
  expect : BitVec 12
  asked : Bool
  replayed : Option (BitVec 12 × Nat)
  heldDown : Bool
  deriving DecidableEq, Repr

/-- R511: a response this module keeps: of which module's request, by tag, its word and whether it was poisoned, and when. -/
structure Kept where
  origin : BitVec 3
  tag : Nat
  word : Word
  poisoned : Bool
  at_ : Nat
  deriving DecidableEq, Repr

/-- R508 to R522: the cascade as this module sees it: the links known to join its modules (R508), and the responses this
module keeps (R511). -/
structure Scarf where
  formed : Bool
  headLost : Bool
  headMod : BitVec 3
  present : BitVec 8
  lostSeen : BitVec 8
  route : Tbl Nat
  link : Tbl Link
  edges : List Edge
  kept : List Kept
  deriving DecidableEq, Repr

/-! ### Firmware, journal store and management -/

/-- R525, R531 to R533: the firmware slots and fuses: a slot written byte by byte or erased, the slot the activation record names, the
slot that runs (true: B), the update lock (true: PLDM), and whether its update has written. -/
structure Flash where
  slot : Tbl (Option Byte)
  erased : Tbl Bool
  active : Bool
  running : Bool
  minSvn : Nat
  lock : Option Bool
  begun : Bool
  deriving DecidableEq, Repr

/-- R536: the STWD block, the command GO captured, and how far a JWRITE has come (R538). -/
structure Stwd where
  busy : Bool
  done : Bool
  vec : BitVec 11
  ien : Bool
  tag : Byte
  opc : Byte
  addr : BitVec 64
  held : Option W32
  len : BitVec 13
  arg0 : W32
  arg1 : W32
  status : BitVec 16
  rtag : Byte
  res0 : W32
  res1 : W32
  cOpc : Byte
  cTag : Byte
  cAddr : BitVec 64
  cLen : Nat
  cArg0 : Nat
  cPos : Nat
  result : Option (BitVec 16)
  deriving DecidableEq, Repr

/-- R542: an event for polling: a UE-class entry's code, a state sensor, or a physical bent retired. -/
inductive PollEvent where
  | entry (code : Nat)
  | sensor (id : Nat)
  | retired (p : Nat)
  deriving DecidableEq, Repr

/-- R540: the state of a PLDM firmware update. -/
inductive Update where
  | idle
  | learn
  | ready
  | download
  | verify
  | apply
  | activate
  deriving DecidableEq, Repr

/-- R534, R540 to R542: the journal store and the management endpoint. -/
structure Steward where
  journal : Tbl (Option Byte)
  runs : List (Unit_ × Option Unit_)
  log : List ErrEntry
  writes : Nat
  eid : Byte
  tid : Byte
  smbAddr : BitVec 2
  update : Update
  reply : List Byte
  cc : Nat
  polled : List PollEvent
  alert : Bool
  recovery : Bool
  deriving DecidableEq, Repr

/-! ### The module -/

/-- The whole state of one module. -/
structure State where
  variant : Variant
  straps : Straps
  tick : W40
  cores : Tbl Core
  bents : Tbl Bent
  mem : Mem
  errl : Errl
  ctxs : Tbl (Option Ctx)
  ats : Ats
  funcs : Tbl Func
  port : Port
  host : Tbl (Option Byte)
  hostBad : List Nat
  sent : List Msg
  disp : Disp
  srcs : Tbl Src
  sleep : Bool
  pair : Pair
  power : Power
  scarf : Scarf
  flash : Flash
  stwd : Stwd
  steward : Steward
  draw : Nat
  pending : List Instr
  deriving DecidableEq, Repr

/-- Stops of the model. -/
inductive Fault where
  /-- Raised by a command that names a link, bent or bank number beyond the largest the spec gives any module
  (R21, R22): there is no such unit. Safe: the hardware has no such command. -/
  | noSuchUnit
  deriving DecidableEq, Repr

/-- Commands without a meaning. -/
inductive Refusal where
  /-- Raised by an arm of exec that has no meaning yet. Safe. -/
  | notModelled (mnemonic : String)
  deriving DecidableEq, Repr

/-! ### Reset values: the defaults of the tables -/

/-- R139, R141: every register of a core at module reset. -/
def Arch.reset : Arch :=
  { pc := 0, a := [], s := [], d := [], ac := [], corecfg := 0, pl := 2, ld := 0, sill := 0, pxbase := 0, sln := 0,
    vgrp := 0, ls := [], le := [], lc := [], evmask := 1, tickcmp := 0, yrsel := 0, inflight := [], shadow := [], emerg := [] }

/-- R139: a core at module reset. -/
def Core.reset : Core :=
  { arch := Arch.reset, ckpt := Arch.reset, since := 0, run := .idle, stores := [], sprog := 0, sdone := 0,
    vstart := 0, vdone := 0, timer := false, seals := [], merged := 0, chain := [], chainSln := 0,
    chainKey := none, ops := [], vops := [], past := [], notice := none, rolls := 0, checkerRolls := 0, stop := 0, sent := [], replay := [], outside := false }

/-- R139, R88: a bent at module reset. -/
def Bent.reset : Bent :=
  { ctxid := 0, ptroot := 0, stCtxid := 0, stPtroot := 0, staged := false, cerr := false, split := false, bench := [],
    bad := [], v := [], vBad := [], p := [], slots := [], slotBad := [], dcache := [], dBad := [], icache := [], iBad := [], tlb := [],
    service := none, lastOp := false, lastVop := false, share := none }

/-- R82: a region at reset. -/
def Region.reset : Region :=
  { base := 0, lim := 0, stBase := 0, stLim := 0, staged := false, cerr := false, en := false, tag := 0,
    anyctx := false, w := false, rd := false }

/-- R82: every region of master 48, the steward core, is fixed over the whole yard. -/
def Region.steward : Region :=
  { Region.reset with lim := BitVec.ofNat 25 (2 ^ 25 - 1), stLim := BitVec.ofNat 25 (2 ^ 25 - 1), en := true, anyctx := true, w := true, rd := true }

/-- R358: a vector at reset: masked, as PCI Express has it (PRESUMED, assumption 9). -/
def Vector.reset : Vector := { addr := 0, data := 0, curAddr := 0, curData := 0, mask := true, pba := false }

/-- R353: SPACE resets to 0 on the PF and to 3 on a VF. -/
def Win.reset (f : Nat) : Win :=
  { stBase := 0, held := none, stSpace := if f = 0 then 0 else 3, stCtx := 0, staged := false, cerr := false, fault := false,
    base := 0, space := if f = 0 then 0 else 3, ctx := 0 }

/-- R370. -/
def Dbpg.reset : Dbpg := { stBase := 0, held := none, stEn := false, staged := false, cerr := false, base := 0, en := false }

/-- R377. -/
def Rings.reset : Rings := { asq := 0, acq := 0, asqSize := 0, acqSize := 0, vec := 0, ien := false, en := false }

/-- R377. -/
def Admq.reset : Admq :=
  { st := Rings.reset, heldAsq := none, heldAcq := none, due := none, cur := Rings.reset, staged := false, cerr := false, cqmsel := 0,
    stCount := 0, stTime := 0, modStaged := false, modCerr := false }

/-- R352, R353, R370, R377: function f at reset; VFs are not enabled (R364). -/
def Func.reset (f : Nat) : Func :=
  { ready := false, resetting := false, enabled := f = 0, bme := false, cfg := [], msixEn := false, fmask := false, vec := [],
    win := Win.reset f, dbpg := Dbpg.reset, admq := Admq.reset }

/-- R372: a group no read has touched. -/
def Group.reset : Group := { reading := false, again := false, active := false, failed := false }

/-- R472: a source at reset. A signal source's TARGET 0 is core 0 of its bent; a module source reads 64. -/
def Src.reset : Src :=
  { prio := 0, stAlt := 64, stTgt := 0, staged := false, cerr := false, stat := 0, alt := 64, tgt := 0, pend := false,
    pres := none, insv := none, held := false }

/-- R459: a physical bent that is not present. -/
def Phys.absent : Phys := { state := 0, lbent := 0, reason := 0, cnt := [] }

/-- R498: an island at reset. -/
def Island.reset : Island :=
  { src := false, div := 0, forced := false, powered := true, running := true, locked := true, heldPair := none }

/-- R522: a link at reset: EN 1, down. -/
def Link.reset : Link :=
  { en := true, maxw := false, stEn := true, stMaxw := false, staged := false, cerr := false, peerMod := 0, peerLink := 0,
    laneOk := 0, width := 0, state := 0, retry := 0, fecUnc := 0, fecCorr := 0, retrain := 0, expect := 0, asked := false,
    replayed := none, heldDown := false }

/-- R1: bents in service. -/
def Variant.bents : Variant → Nat
  | .kl8x256 => 32
  | .kl8x128 => 16

/-- R1: physical bents enabled. -/
def Variant.physBents : Variant → Nat
  | .kl8x256 => 34
  | .kl8x128 => 17

/-- R1: tracts. -/
def Variant.tracts : Variant → Nat
  | .kl8x256 => 65536
  | .kl8x128 => 32768

/-- R1: scarf links. -/
def Variant.links : Variant → Nat
  | .kl8x256 => 4
  | .kl8x128 => 2

/-- R54: pseudo-channels. -/
def Variant.channels : Variant → Nat
  | .kl8x256 => 256
  | .kl8x128 => 128

/-- R61. -/
def Memc.reset : Memc :=
  { trfirst := 0, trlast := 0, op := false, code := true, staged := false, cerr := false, busy := false, done := 0,
    curFirst := 0, curLast := 0, curOp := false, curCode := true, flr := false }

/-- R101. -/
def EccFlip.reset : EccFlip :=
  { addr := 0, mask := 0, heldAddr := none, heldMask := none, mode := false, window := 0, staged := false, cerr := false,
    armed := false, fired := false, curBlk := 0, curMask := 0, curMode := false, curWindow := 0 }

/-- R31, R61, R88: memory after reset: every word reads 0, every tract strong and the PF's (R384). -/
def Mem.reset : Mem :=
  { words := [], saved := [], poison := [], fetched := none, flips := [], merge := [], tcmap := [], owner := [], dead := [], memc := Memc.reset,
    ecc := EccFlip.reset, scrub := [], yard := [], yardBad := [], region := [], yardLoss := [], refresh := [], waits := [], claims := [] }

/-- R108. -/
def Errl.reset : Errl :=
  { ring := [], ovf := false, ue := false, vec := 0, ueie := false, ceie := false, cnt := [], second := 0, rate := [] }

/-- R127; no page request is granted until host software writes the allocation, as in PCI Express (PRESUMED, assumption 10). -/
def Ats.reset : Ats := { atc := [], asked := [], reqs := [], fails := [], stalled := [], held := [], opra := 0 }

/-- R342, R361 (PRESUMED, assumption 10). -/
def Port.reset : Port :=
  { up := false, width := .x16, rate := .g2_5, flit := false, ro := false, l1 := false, aspm := false, d3hot := false, cfg := false, pasidEn := false, priEn := false, vfEn := false, numVfs := 0,
    aer := [], data := 0, ep := false, ur := false, waits := [] }

/-- R367. -/
def Disp.reset : Disp :=
  { tlbs := [], sq := [], cq := [], group := [], jobs := [], next := 0, starts := 0, reserve := none, fetching := false }

/-- R459: the map before raising has changed anything: logical bent l on physical bent l, the rest spares (R446). -/
def physOf (v : Variant) : Nat → Tbl Phys
  | 0 => []
  | n + 1 =>
    physOf v n ++ [(n, if n < v.bents then { Phys.absent with state := 1, lbent := n } else { Phys.absent with state := 2 })]

/-- R459: LMAP with logical bent l on physical bent l. -/
def lmapOf : Nat → Tbl (Option Nat)
  | 0 => []
  | n + 1 => lmapOf n ++ [(n, some n)]

/-- R459 (DEDUCED, assumption 13). -/
def Pair.reset (v : Variant) : Pair :=
  { nosplit := false, bent := 0, mode := 0, staged := false, cerr := false, armed := false, fired := false, curBent := 0,
    curMode := 0, phys := physOf v v.physBents, lmap := lmapOf v.bents, retiredList := [], takeover := [], checkers := [], parked := [] }

/-- R497, R498: the power registers at reset, in the auxiliary phase: PERST# has not been released. -/
def Power.reset : Power :=
  { phase := .aux, vin := 54000, iin := 0, warn := false, warnPin := false, brake := false, therm := false, throt := 16,
    pin := 0, tdie := 25, tdram := 25, cap := 720, brakecap := 300, ttrip := 110, tthr := 95, clkForced := false,
    stopPrev := false, thermSeen := false, brakeSeen := false, warnSeen := false, locked := false, hold := false, refuse := 0,
    trim := 0, refsel := 0, islsel := 0, stSrc := false, stDiv := 0, islStaged := false, islCerr := false, island := [],
    seqQueue := [], samples := [], wakes := 0, wakeUs := 0, idle := 1000, poll := 0, precharged := true, reserve := true,
    hotRefresh := false, fault := false, wakePin := false, pme := false, clkreq := true }

/-- R522. -/
def Scarf.reset : Scarf :=
  { formed := false, headLost := false, headMod := 0, present := 0, lostSeen := 0, route := [], link := [], edges := [], kept := [] }

/-- R525 (DESIGN CHOICE, assumption 4): slot A is named, verified and running. -/
def Flash.reset : Flash :=
  { slot := [], erased := [], active := false, running := false, minSvn := 0, lock := none, begun := false }

/-- R536. -/
def Stwd.reset : Stwd :=
  { busy := false, done := false, vec := 0, ien := false, tag := 0, opc := 0, addr := 0, held := none, len := 0, arg0 := 0,
    arg1 := 0, status := 0, rtag := 0, res0 := 0, res1 := 0, cOpc := 0, cTag := 0, cAddr := 0, cLen := 0, cArg0 := 0, cPos := 0, result := none }

/-- R534, R540. -/
def Steward.reset : Steward :=
  { journal := [], runs := [], log := [], writes := 0, eid := 0, tid := 0, smbAddr := 3, update := .idle, reply := [], cc := 0,
    polled := [], alert := false, recovery := false }

/-- The straps of a module used alone: HEAD# asserted, MOD_ID 0, SMB_ADDR open (R549; DESIGN CHOICE, assumption 11). -/
def Straps.alone : Straps := { head := true, modId := 0, smbAddr := 3 }

/-- The module after a module reset and before raising has run: IDENT.READY is 0 (R352), every register at its
reset value (R139, R141) and nothing listed in any memory (DESIGN CHOICE, assumption 12). -/
def State.reset : State :=
  { variant := .kl8x256, straps := Straps.alone, tick := 0, cores := [], bents := [], mem := Mem.reset, errl := Errl.reset,
    ctxs := [], ats := Ats.reset, funcs := [], port := Port.reset, host := [], hostBad := [], sent := [], disp := Disp.reset,
    srcs := [], sleep := false, pair := Pair.reset .kl8x256, power := Power.reset, scarf := Scarf.reset, flash := Flash.reset,
    stwd := Stwd.reset, steward := Steward.reset, draw := 0, pending := [] }

end Sys2Proof.Machine
end

