-- ==== Sys2Proof/Machine/Log.lean ====
section
/-! DEFINITION. Reading and writing one unit of the state, and the three ways the module tells the outside:
the error log (R108, R109), MSI-X messages (R358 to R360) and firing an event source (R463, R468). -/

namespace Sys2Proof.Machine

/-- Core number k. -/
def State.core (s : State) (k : Nat) : Core := tget Core.reset s.cores k
/-- Write core number k. -/
def State.setCore (s : State) (k : Nat) (c : Core) : State := { s with cores := tset Core.reset s.cores k c }
/-- Logical bent l. -/
def State.bent (s : State) (l : Nat) : Bent := tget Bent.reset s.bents l
/-- Write logical bent l. -/
def State.setBent (s : State) (l : Nat) (b : Bent) : State := { s with bents := tset Bent.reset s.bents l b }
/-- The architectural registers of core k. -/
def State.arch (s : State) (k : Nat) : Arch := (s.core k).arch
/-- Write the architectural registers of core k. -/
def State.setArch (s : State) (k : Nat) (a : Arch) : State := s.setCore k { s.core k with arch := a }
/-- Function f. -/
def State.fn (s : State) (f : Nat) : Func := tget (Func.reset f) s.funcs f
/-- Write function f. -/
def State.setFn (s : State) (f : Nat) (v : Func) : State := { s with funcs := tset (Func.reset f) s.funcs f v }
/-- Event source by its table key. -/
def State.src (s : State) (n : Nat) : Src := tget Src.reset s.srcs n
/-- Write an event source. -/
def State.setSrc (s : State) (n : Nat) (v : Src) : State := { s with srcs := tset Src.reset s.srcs n v }
/-- Context record of a CTXID. -/
def State.ctx (s : State) (n : Nat) : Option Ctx := tget none s.ctxs n
/-- Physical bent p of the PAIR block. -/
def State.phys (s : State) (p : Nat) : Phys := tget Phys.absent s.pair.phys p
/-- Write physical bent p. -/
def State.setPhys (s : State) (p : Nat) (v : Phys) : State :=
  { s with pair := { s.pair with phys := tset Phys.absent s.pair.phys p v } }
/-- R459: the physical bent of logical bent l; l itself where LMAP holds none. -/
def State.physOf (s : State) (l : Nat) : Nat := (tget none s.pair.lmap l).getD l
/-- Yard region r of master m (R82); master 48 is fixed. -/
def State.region (s : State) (m r : Nat) : Region :=
  if m = 48 then Region.steward else tget Region.reset s.mem.region (8 * m + r)
/-- Write yard region r of master m. -/
def State.setRegion (s : State) (m r : Nat) (v : Region) : State :=
  if m = 48 then s else { s with mem := { s.mem with region := tset Region.reset s.mem.region (8 * m + r) v } }
/-- Submission queue q. -/
def State.sq (s : State) (q : Nat) : Option Sq := tget none s.disp.sq q
/-- Write submission queue q. -/
def State.setSq (s : State) (q : Nat) (v : Option Sq) : State := { s with disp := { s.disp with sq := tset none s.disp.sq q v } }
/-- Completion queue q. -/
def State.cq (s : State) (q : Nat) : Option Cq := tget none s.disp.cq q
/-- Write completion queue q. -/
def State.setCq (s : State) (q : Nat) (v : Option Cq) : State := { s with disp := { s.disp with cq := tset none s.disp.cq q v } }
/-- Job j. -/
def State.job (s : State) (j : Nat) : Option Job := tget none s.disp.jobs j
/-- Write job j. -/
def State.setJob (s : State) (j : Nat) (v : Option Job) : State := { s with disp := { s.disp with jobs := tset none s.disp.jobs j v } }
/-- Advance the counter of free draws (DESIGN CHOICE, assumption 2). -/
def State.drawn (s : State) : State := { s with draw := s.draw + 1 }
/-- Scarf link l. -/
def State.link (s : State) (l : Nat) : Link := tget Link.reset s.scarf.link l
/-- Write scarf link l. -/
def State.setLink (s : State) (l : Nat) (v : Link) : State :=
  { s with scarf := { s.scarf with link := tset Link.reset s.scarf.link l v } }
/-- Island i (R479, R498). -/
def State.island (s : State) (i : Nat) : Island := tget Island.reset s.power.island i
/-- Write island i. -/
def State.setIsland (s : State) (i : Nat) (v : Island) : State :=
  { s with power := { s.power with island := tset Island.reset s.power.island i v } }

/-! ### Messages (R358 to R360) -/

/-- R358: vectors of function f: 2,048 on the PF, 64 on a VF. -/
def vectorCount (f : Nat) : Nat := if f = 0 then 2048 else 64

/-- R344, R358, R359, R360, R363: a message on vector v of function f: nothing with MSI-X Enable 0 or on a vector the
function lacks; held in the PBA while masked; waiting while Bus Master Enable is 0; else sent. -/
def sendVec (f v : Nat) (s : State) : State :=
  let fn := s.fn f
  if !fn.msixEn || v ≥ vectorCount f then s
  else
    let e := tget Vector.reset fn.vec v
    if e.mask || fn.fmask then s.setFn f { fn with vec := tset Vector.reset fn.vec v { e with pba := true } }
    else if !fn.bme then { s with port := { s.port with waits := s.port.waits ++ [(f, v)] } }
    else { s with sent := s.sent ++ [{ func := f, vec := v, addr := e.curAddr, data := e.curData }], port := { s.port with l1 := false, ro := false } }

/-! ### Event sources (R463 to R468) -/

/-- The table key of signal source j of logical bent l. -/
def signalKey (l j : Nat) : Nat := 64 + 16 * l + j

/-- R467, R468: a source after a firing. -/
def Src.fire (e : Src) (bits : Word) : Src := { e with stat := e.stat ||| bits, pend := e.pend || e.insv.isNone }

/-- R477, R543: the steward core requests a wake: by PME in dormant, by WAKE# in D3cold. -/
def requestWake (s : State) : State :=
  if s.power.phase = .dormant then { s with power := { s.power with pme := true } }
  else if s.power.phase = .aux then { s with power := { s.power with wakePin := true } }
  else s

/-- R467, R468: a firing ORs its bits into the status word and, unless the event is in service, sets pending. An
enabled module source that fires in dormant with SLEEP 1 makes the steward core request a wake (R477). -/
def fireSrc (n : Nat) (bits : Word) (s : State) : State :=
  let t := s.setSrc n ((s.src n).fire bits)
  if n < 64 ∧ s.sleep = true ∧ (s.src n).prio ≠ 0 ∧ s.power.phase = .dormant then requestWake t else t

/-- R463: module sources 0 to 9 fire, with status bit 0 (DEDUCED, assumption 14). -/
def fireModule (n : Nat) (s : State) : State := if n < 10 then fireSrc n 1 s else s

/-! ### The error log (R108 to R110) -/

/-- The low 32 bits of TICK (R109) (DESIGN CHOICE, assumption 65). -/
def State.time (s : State) : Nat := s.tick.toNat % 2 ^ 32

/-- Remove the oldest CE-class entry. -/
def dropOldestCe : List ErrEntry → Option (List ErrEntry)
  | [] => none
  | e :: r => if e.ue then (dropOldestCe r).map (e :: ·) else some r

/-- R108, R110: what follows a new entry: source ERRLOG fires, and VEC is sent where its class is enabled. -/
def errInterrupt (ue : Bool) (s : State) : State :=
  let s := fireModule 1 s
  if (ue && s.errl.ueie) || (!ue && s.errl.ceie) then sendVec 0 s.errl.vec.toNat s else s

/-- R542: an event for polling: the queue holds 64, the oldest goes; ALERT# is asserted. -/
def queueEvent (n : PollEvent) (s : State) : State :=
  { s with steward := { s.steward with polled := (s.steward.polled ++ [n]).drop (s.steward.polled.length - 63), alert := true } }

/-- R534: the error-log copy in the journal store holds 524,288 entries, the oldest overwritten. -/
def copyEntry (e : ErrEntry) (s : State) : State :=
  { s with steward := { s.steward with log := (s.steward.log ++ [e]).drop (s.steward.log.length - 524287) } }

/-- R108: the entry goes into the ring: a CE-class entry at most 16 times a second for one code and never into
a full ring; a UE-class entry replaces the oldest CE-class one of a full ring and is copied to the journal. A CE-class entry dropped by a
full ring counts toward the 16, and one held back by the limit leaves OVF (DESIGN CHOICE, assumption 69). -/
def logEntry (e : ErrEntry) (s : State) : State :=
  if e.ue then
    let s := queueEvent (.entry e.code) (copyEntry e s)
    if s.errl.ring.length < 1024 then
      errInterrupt true { s with errl := { s.errl with ring := s.errl.ring ++ [e], ue := true } }
    else match dropOldestCe s.errl.ring with
      | some r => errInterrupt true { s with errl := { s.errl with ring := r ++ [e], ue := true } }
      | none => { s with errl := { s.errl with ovf := true } }
  else
    let sec := s.tick.toNat / 1000000
    let rate := if s.errl.second = sec then s.errl.rate else []
    let n := tget 0 rate e.code
    if n ≥ 16 then { s with errl := { s.errl with second := sec, rate := rate } }
    else
      let s := { s with errl := { s.errl with second := sec, rate := tset 0 rate e.code (n + 1) } }
      if s.errl.ring.length < 1024 then errInterrupt false { s with errl := { s.errl with ring := s.errl.ring ++ [e] } }
      else { s with errl := { s.errl with ovf := true } }

/-- R109: log a code with its class, source, address, DETAIL and CTXID. -/
def logErr (ue : Bool) (code kind unit addr detail ctx : Nat) (s : State) : State :=
  logEntry { code := code, kind := kind, unit := unit, addr := addr, detail := detail, ctx := ctx, time := s.time, ue := ue } s

/-- R108: saturating counters CNT_CE_DRAM, CNT_UE_DRAM, CNT_SRAM_CE, CNT_SRAM_UE, CNT_PARITY_RETRY,
CNT_RESIDUE_REPLAY, numbered 0 to 5. -/
def countErr (n : Nat) (s : State) : State :=
  { s with errl := { s.errl with cnt := tset 0 s.errl.cnt n (min (2 ^ 32 - 1) (tget 0 s.errl.cnt n + 1)) } }

/-- R459: a saturating counter of physical bent p: 0 MISCOMPARE, 1 LATENT, 2 CHECKER, 3 ROLLBACK, 4 RESIDUE, 5 INJECTED. -/
def countPair (p n : Nat) (s : State) : State :=
  let v := s.phys p
  s.setPhys p { v with cnt := tset 0 v.cnt n (min (2 ^ 32 - 1) (tget 0 v.cnt n + 1)) }

/-! ### Host accesses (R6, R361, R530) -/

/-- R366: an error of a kind is counted: 0 correctable, 1 advisory, 2 a failed read, 3 unsupported request, 4 unexpected completion,
5 ECRC, 6 malformed, 7 a read that came poisoned. -/
def countAer (n : Nat) (s : State) : State := { s with port := { s.port with aer := tset 0 s.port.aer n (tget 0 s.port.aer n + 1) } }

/-- R6, R361: an access completes as an unsupported request. -/
def unsupported (s : State) : State :=
  let s := countAer 3 s
  { s with port := { s.port with ur := true, ep := false, data := 0 } }

/-- R349, R352, R361: the registers of function f answer: it is enabled and ready and the module is raised and not dormant.
(DEDUCED, assumption 41). -/
def hostOpen (f : Nat) (s : State) : Bool := decide (s.power.phase = .ready) && (s.fn f).enabled && (s.fn f).ready

/-- R361, R530: a host write to a register of function f: it reaches the register of a ready function, is an unsupported request in dormant, and is
otherwise ignored. -/
def hostWrite (f : Nat) (body : State → State) (s : State) : State :=
  if hostOpen f s then body s else if s.power.phase = .dormant then unsupported s else s

end Sys2Proof.Machine
end

