-- ==== Sys2Proof/Machine/ConfigSpace.lean ====
section
/-! DEFINITION. Configuration space (R342 to R349, R358, R361, R363): the header, the capability structures and what a read of a register
returns. The offsets of the structures and the values are the spec's; the layout inside a structure and the reset values it does not
give are those of PCI Express (PRESUMED, assumption 76). -/

namespace Sys2Proof.Machine

/-! ### Registers that software writes -/

/-- The registers that hold a value other than 0 at reset: PF Device Control, Link Control 2, AER severity and correctable mask. -/
def cfgReset (f off : Nat) : W32 :=
  if f ≠ 0 then 0
  else match off with
    | 0x68 => 0x2110
    | 0x90 => 6
    | 0x10C => 0x40000
    | 0x114 => 0x2000
    | _ => 0

/-- R346 to R350: the bits of a register that software writes and that have no field of their own in the state. -/
def cfgMask (f off : Nat) : W32 :=
  if f ≠ 0 then (if off = 0x28C then 0x80000000 else 0)
  else match off with
    | 0x04 => 0x542
    | 0x10 => 0xFC000000
    | 0x14 => 0xFFFFFFFF
    | 0x1C => 0xFFFFFFFF
    | 0x20 => 0xFFFF0000
    | 0x24 => 0xFFFFFFFF
    | 0x44 => 0x100
    | 0x68 => 0x71FF
    | 0x88 => 0x101F
    | 0x90 => 0xF
    | 0x108 => 0x1D5000
    | 0x10C => 0x1D5000
    | 0x114 => 0x2001
    | 0x118 => 0x140
    | 0x250 => 0x18
    | 0x26C => 0xFFE00000
    | 0x270 => 0xFFFFFFFF
    | 0x278 => 0xFFFFFFFF
    | 0x27C => 0xFFFFF000
    | 0x280 => 0xFFFFFFFF
    | 0x28C => 0x801F0000
    | _ => 0

/-- The written bits of a register of configuration space. -/
def cfgReg (f off : Nat) (s : State) : W32 := tget (cfgReset f off) (s.fn f).cfg off

/-- Software writes a register of configuration space: the bits of its mask. -/
def putCfg (f off : Nat) (v : W32) (s : State) : State :=
  let fn := s.fn f
  s.setFn f { fn with cfg := tset (cfgReset f off) fn.cfg off ((cfgReg f off s &&& ~~~(cfgMask f off)) ||| (v &&& cfgMask f off)) }

/-! ### What the controls set (R344) -/

/-- R344: the Max_Payload_Size in force, in bytes, up to 512. -/
def maxPayload (s : State) : Nat := min 512 (128 * 2 ^ bitsOf (cfgReg 0 0x68 s) 5 3)
/-- R344: the Max_Read_Request_Size in force, in bytes, at most 4,096. -/
def maxRead (s : State) : Nat := min 4096 (128 * 2 ^ bitsOf (cfgReg 0 0x68 s) 12 3)
/-- R344: Relaxed Ordering is enabled. -/
def relaxedOn (s : State) : Bool := bitAt (cfgReg 0 0x68 s) 4
/-- R344: Completion Timeout Disable. -/
def timeoutOff (s : State) : Bool := bitAt (cfgReg 0 0x88 s) 4
/-- R342, R366: ECRC checking is enabled. -/
def ecrcChecked (s : State) : Bool := bitAt (cfgReg 0 0x118 s) 8
/-- R348: ARI Capable Hierarchy. -/
def ariOn (s : State) : Bool := bitAt (cfgReg 0 0x250 s) 4

/-- R344: a transfer-engine data write carries Relaxed Ordering where it is enabled. -/
def relaxed (s : State) : State := { s with port := { s.port with ro := relaxedOn s } }

/-- R344: a completion entry, a result record or another write of the module never carries it. -/
def ordered (s : State) : State := { s with port := { s.port with ro := false } }

/-- R348: functions 0 to 7 are reached with 3 function bits, the others with ARI only. -/
def reached (f : Nat) (s : State) : Bool := decide (f < 8) || ariOn s

/-! ### Capability structures (R347) -/

/-- R347: the offset, identifier and version of each extended capability of the PF. -/
def pfCaps : List (Nat × Nat × Nat) :=
  [(0x100, 0x0001, 2), (0x148, 0x0003, 1), (0x158, 0x0019, 1), (0x178, 0x0025, 1), (0x184, 0x0026, 1), (0x1B0, 0x002A, 1), (0x1E0, 0x0031, 1),
   (0x200, 0x0027, 1), (0x240, 0x000E, 1), (0x248, 0x0010, 1), (0x288, 0x000F, 1), (0x290, 0x0013, 1), (0x2A0, 0x001B, 1), (0x2A8, 0x0022, 1)]

/-- R347: those of a VF. -/
def vfCaps : List (Nat × Nat × Nat) := [(0x100, 0x0001, 2), (0x240, 0x000E, 1), (0x288, 0x000F, 1)]

/-- The header of the extended capability at an offset: identifier, version and the offset of the next. -/
def capHeader (off : Nat) : List (Nat × Nat × Nat) → Option Nat
  | [] => none
  | (o, id, ver) :: r => if o = off then some (id + ver * 2 ^ 16 + ((r.head?.map Prod.fst).getD 0) * 2 ^ 20) else capHeader off r

/-- R343: the rate a link has trained to, as Link Status gives it. -/
def rateCode : PcieRate → Nat
  | .g2_5 => 1
  | .g5 => 2
  | .g8 => 3
  | .g16 => 4
  | .g32 => 5
  | .g64 => 6

/-- R343: the width a link has trained to, in lanes. -/
def widthCode : PcieWidth → Nat
  | .x1 => 1
  | .x4 => 4
  | .x8 => 8
  | .x16 => 16

/-- A bit at a place. -/
def bitTo (b : Bool) (i : Nat) : Nat := if b then 2 ^ i else 0

/-- An error of a kind has been counted since its status bit was cleared (R366). -/
def seen (n : Nat) (s : State) : Bool := decide (tget 0 s.port.aer n ≠ 0)

/-- R366: the AER uncorrectable status bits with the kinds of error they stand for. -/
def aerBits : List (Nat × Nat) := [(12, 7), (14, 2), (16, 4), (18, 6), (19, 5), (20, 3)]
/-- R366: the AER correctable status bits with their kinds. -/
def aerSoft : List (Nat × Nat) := [(0, 0), (13, 1)]

/-- The status bits of a list of kinds. -/
def aerStatus (l : List (Nat × Nat)) (s : State) : Nat := (l.map (fun e => bitTo (seen e.2 s) e.1)).foldl (· + ·) 0

/-- A status bit is cleared by writing 1. -/
def clearAer (l : List (Nat × Nat)) (v : W32) (s : State) : State :=
  { s with port := { s.port with aer := tdrop (fun n => l.any (fun e => decide (e.2 = n) && bitAt v e.1)) s.port.aer } }

/-- R348: TotalVFs and InitialVFs; a member of a cascade has no VF (R514). -/
def totalVfs (member : Bool) : Nat := if member then 0 else 63

/-- R346: the Device ID of a variant. -/
def deviceId : Variant → Nat
  | .kl8x256 => 0x0C80
  | .kl8x128 => 0x0C81

/-! ### Reads -/

/-- R346, R350: the configuration header of function f. -/
def headerRead (f off : Nat) (s : State) : Nat :=
  let own := (cfgReg f off s).toNat
  match off with
  | 0x00 => if f = 0 then deviceId s.variant * 2 ^ 16 + 0x1D7E else 0xFFFFFFFF
  | 0x04 => 0x100000 + own + bitTo (s.fn f).bme 2
  | 0x08 => 0x12000001
  | 0x10 => if f = 0 then own + 0x4 else 0
  | 0x14 => own
  | 0x18 => if f = 0 then 0xC else 0
  | 0x1C => own
  | 0x20 => if f = 0 then own + 0x4 else 0
  | 0x24 => own
  | 0x2C => (Config.subsystem s.flash.running).toNat
  | 0x34 => if f = 0 then 0x40 else 0x50
  | _ => 0

/-- R347, R358, R361: the capabilities at 0x40 and 0x50: Power Management of the PF, and MSI-X. -/
def lowCaps (f off : Nat) (s : State) : Nat :=
  let own := (cfgReg f off s).toNat
  let fn := s.fn f
  match off with
  | 0x40 => if f = 0 then 0xC0035001 else 0
  | 0x44 => if f = 0 then own + bitTo s.power.pme 15 + 8 + (if s.port.d3hot then 3 else 0) else 0
  | 0x50 => bitTo fn.msixEn 31 + bitTo fn.fmask 30 + (vectorCount f - 1) * 2 ^ 16 + 0x6011
  | 0x54 => 4
  | 0x58 => (if f = 0 then 0x8000 else 0x400) + 4
  | _ => 0

/-- R342 to R344, R363: the PCI Express capability at 0x60: payload 512 bytes, function reset; width and rate of the link; ASPM L1 with an exit
latency of 4 to 8 microseconds; timeout ranges A to D and Disable; 10-bit tags. A VF's controls are the PF's. -/
def pcieCap (f off : Nat) (s : State) : Nat :=
  let own := (cfgReg f off s).toNat
  let p := s.port
  match off with
  | 0x60 => 0x80020010
  | 0x64 => 0x10008022
  | 0x68 => own + (if f = 0 then bitTo (decide (aerStatus aerSoft s ≠ 0)) 16 + bitTo ([2, 3, 4, 5, 7].any (seen · s)) 17 + bitTo (seen 6 s) 18 + bitTo (seen 3 s) 19 else 0)
      + bitTo (s.ats.asked.any (fun a => decide (a.func = f))) 21
  | 0x6C => 0x006 + 16 * 2 ^ 4 + 2 * 2 ^ 10 + 3 * 2 ^ 15 + 2 ^ 22
  | 0x70 => if f ≠ 0 then 0 else bitTo p.aspm 1 + (if p.up then rateCode p.rate * 2 ^ 16 + widthCode p.width * 2 ^ 20 else 0)
  | 0x84 => 0x3001F
  | 0x88 => own
  | 0x8C => 0x7E
  | 0x90 => if f ≠ 0 then 0 else own + bitTo (p.up && p.flit) 26
  | _ => 0

/-- R347, R366: AER at 0x100, and the serial number; the port's errors stand in the PF's registers. -/
def aerRead (f off : Nat) (s : State) : Nat :=
  let own := (cfgReg f off s).toNat
  match off with
  | 0x104 => if f = 0 then aerStatus aerBits s else 0
  | 0x108 => own
  | 0x10C => own
  | 0x110 => if f = 0 then aerStatus aerSoft s else 0
  | 0x114 => own
  | 0x118 => own + 0xA0
  | 0x14C => if f = 0 then (Config.serial.extractLsb' 0 32).toNat else 0
  | 0x150 => if f = 0 then (Config.serial.extractLsb' 32 32).toNat else 0
  | _ => 0

/-- R348: SR-IOV at 0x248 of the PF. -/
def sriovRead (member : Bool) (off : Nat) (s : State) : Nat :=
  let own := (cfgReg 0 off s).toNat
  match off with
  | 0x24C => 2
  | 0x250 => own + bitTo s.port.vfEn 0
  | 0x254 => totalVfs member * 2 ^ 16 + totalVfs member
  | 0x258 => s.port.numVfs.toNat
  | 0x25C => 2 ^ 16 + 1
  | 0x260 => 0x0C88 * 2 ^ 16
  | 0x264 => 1
  | 0x268 => 1
  | 0x26C => own + 0x4
  | 0x274 => 0xC
  | 0x27C => own + 0x4
  | _ => own

/-- R348, R349: ATS at 0x288: queue depth 32, unit 4 KiB; Page Request: capacity 512; PASID: 20 bits; Readiness Time Reporting: reset 100 ms, link up and
FLR 20 ms, D3hot to D0 250 microseconds, each the least that can be written (R362, R364). -/
def atsRead (f off : Nat) (s : State) : Nat :=
  match off with
  | 0x28C => (cfgReg f off s).toNat
  | 0x294 => bitTo s.port.priEn 0
  | 0x298 => 512
  | 0x29C => s.ats.opra
  | 0x2A4 => bitTo s.port.pasidEn 16 + 20 * 2 ^ 8
  | 0x2AC => 2 ^ 31 + (4 * 2 ^ 9 + 20) * 2 ^ 12 + (4 * 2 ^ 9 + 96)
  | 0x2B0 => (2 * 2 ^ 9 + 245) * 2 ^ 12 + (4 * 2 ^ 9 + 20)
  | _ => 0

/-- R346 to R349: what a 32-bit read of configuration space of function f at an aligned offset returns; member: the module is a member of a
cascade. A function that is not enabled does not answer: all 1. -/
def configRead (member : Bool) (f off : Nat) (s : State) : W32 :=
  if !s.port.cfg || !(s.fn f).enabled || !reached f s then 0xFFFFFFFF
  else BitVec.ofNat 32 (
    match capHeader off (if f = 0 then pfCaps else vfCaps) with
    | some v => v
    | none =>
      if off < 0x40 then headerRead f off s
      else if off < 0x60 then lowCaps f off s
      else if off < 0x100 then pcieCap f off s
      else if off < 0x158 then aerRead f off s
      else if off < 0x248 then 0
      else if off < 0x288 then (if f = 0 then sriovRead member off s else 0)
      else if f = 0 ∨ off < 0x290 then atsRead f off s
      else 0)

end Sys2Proof.Machine
end

