-- ==== Sys2Proof/Machine/Integrity.lean ====
section
/-! DEFINITION. Device memory of this module: interleave (R58), holes (R57), the block codes (R89 to R93),
poison (R94 to R96), the merge buffer (R67 to R70), ECCFLIP (R102) and zeroing (R63, R66). Addresses are
local physical word addresses (R56); block number b is address / 64. -/

namespace Sys2Proof.Machine

/-- R61: TCMAP; true is strong. -/
def State.strong (s : State) (tract : Nat) : Bool := tget true s.mem.tcmap tract

/-- R57: the address lies in no storage. -/
def isHole (s : State) (a : Nat) : Bool :=
  let t := a / 2 ^ 21
  let b := a / 64 % 32768
  decide (t ≥ s.variant.tracts) || decide (b ≥ if s.strong t then 20480 else 24576)

/-- R58: the slot of a block in its row. -/
def slotOf (blk : Nat) : Nat := blk % 32768 / 4096

/-- R58: the first and last byte that a block occupies in its row. -/
def rowBytes (blk : Nat) : Nat × Nat := (160 * slotOf blk, 160 * slotOf blk + 159)

/-- R58: the folded channel value f of a block. -/
def foldOf (blk : Nat) : Nat :=
  let q := blk % 4096
  ((q % 256) ^^^ (q / 256 * 17) ^^^ (slotOf blk * 32) ^^^ (blk / 32768 % 256)) % 256

/-- R58: the pseudo-channel of a block. -/
def channelOf (v : Variant) (blk : Nat) : Nat := foldOf blk % v.channels

/-- R58: the bank of a block in its pseudo-channel. -/
def bankOf (blk : Nat) : Nat := (blk % 4096 / 256) ^^^ (blk / 32768 / 256 % 16)

/-- R58: the row of a block in its bank. -/
def rowOf (v : Variant) (blk : Nat) : Nat :=
  match v with
  | .kl8x256 => blk / 32768
  | .kl8x128 => 2 * (blk / 32768) + foldOf blk / 128

/-! ### The block codes -/

/-- R565: the codeword symbol of a bit: data bits 0 to 1279, valid bits 1280 to 1343, check bits from 1344. -/
def symbolOf (bit : Nat) : Nat :=
  if bit < 1280 then bit / 10 else if bit < 1344 then 128 + (bit - 1280) / 10 else 135 + (bit - 1344) / 10

/-- R565: the lane that carries a codeword symbol. -/
def laneOf (sym : Nat) : Nat := if sym < 128 then sym / 4 else (sym - 128) % 32

/-- R91: lane j of pseudo-channel c is marked dead. -/
def laneDead (s : State) (c j : Nat) : Bool := bitAt (tget 0 s.mem.dead c) j

/-- R90, R565: symbols that the dead lanes of pseudo-channel c erase. -/
def erasures (s : State) (c : Nat) : Nat :=
  ((List.range 32).filter (laneDead s c)).foldl (fun n j => n + if j < 4 then 6 else 5) 0

/-- What the code makes of a stored block. -/
inductive Ecc where
  | clean
  | corrected (n : Nat)
  | bad
  | lane
  | free
  deriving DecidableEq, Repr

/-- R89, R90, R92: the decoder's finding on a stored block with the given inverted bits. A light block as written, one of whose
lanes is dead, is never returned wrong; with inverted bits besides, or two dead lanes, three bits may be in error (DESIGN CHOICE, assumption 64). -/
def eccOf (s : State) (blk : Nat) : Ecc :=
  let flips := tget [] s.mem.flips blk
  let c := channelOf s.variant blk
  let dead := tget 0 s.mem.dead c
  if flips = [] ∧ dead = 0 then .clean
  else if s.strong (blk / 32768) then
    let syms := (flips.map symbolOf).eraseDups
    let f := erasures s c
    let e := (syms.filter (fun y => !laneDead s c (laneOf y))).length
    if 2 * e + f ≤ 29 then .corrected (e + f) else if syms.length ≤ 15 ∧ f = 0 then .bad else .free
  else if dead ≠ 0 then (if flips = [] ∧ ((List.range 32).filter (laneDead s c)).length = 1 then .lane else .free)
  else match flips.eraseDups.length with
    | 0 => .clean
    | 1 => .corrected 1
    | 2 => .bad
    | _ => .free

/-- R94: the block is poisoned: a majority of its marks is set, or they disagree. -/
def poisoned (s : State) (blk : Nat) : Bool := decide (tget 0 s.mem.poison blk ≠ 0)

/-- R94: the three marks of a block are written. -/
def setPoison (blk : Nat) (p : Bool) (s : State) : State :=
  { s with mem := { s.mem with poison := tset 0 s.mem.poison blk (if p then 7 else 0) } }

/-- R93: an uncorrectable error: poison, CNT_UE_DRAM and UE_DRAM. ADDR is this module's local address (DESIGN CHOICE, assumption 68). -/
def noteUe (blk a : Nat) (s : State) : State :=
  logErr true 0x0002 1 (channelOf s.variant blk) a 0 0 (countErr 1 (setPoison blk true s))

/-- R93: a correctable error: CNT_CE_DRAM and CE_DRAM. -/
def noteCe (blk a n : Nat) (s : State) : State :=
  logErr false 0x0001 1 (channelOf s.variant blk) a n 0 (countErr 0 s)

/-- The draw of a block's free words where a pre-emption save wrote it last (DESIGN CHOICE, assumption 20). -/
def savedDraw (s : State) (blk : Nat) : Option Nat :=
  match tget none s.mem.saved (blk / 1024) with
  | some (n, bs) => if bs.contains blk then none else some n
  | none => none

/-- The stored words of a block at the given offsets. -/
def storedWords (s : State) (blk : Nat) (offs : List Nat) : List Word :=
  match savedDraw s blk with
  | some n => offs.map (fun o => Config.freeWord n (64 * blk + o))
  | none => offs.map (fun o => tget 0 s.mem.words (64 * blk + o))

/-! ### Fetching a block (R59, R93, R310) -/

/-- R59, R310: the element group or locked sequence that now begins has fetched no block. -/
def openFetch (s : State) : State := { s with mem := { s.mem with fetched := some (0, []) } }
/-- R310: bent l reads for it now. -/
def fetchFor (l : Nat) (s : State) : State := { s with mem := { s.mem with fetched := s.mem.fetched.map (fun e => (l, e.2)) } }
/-- It has ended. -/
def closeFetch (s : State) : State := { s with mem := { s.mem with fetched := none } }

/-- What it found in a block it has fetched. -/
def fetchedOf (s : State) (blk : Nat) : Option Found :=
  s.mem.fetched.bind (fun f => (f.2.find? (fun e => decide (e.1 = (f.1, blk)))).map (·.2))

/-- It keeps what it found. -/
def keepFetch (blk : Nat) (f : Found) (s : State) : State :=
  { s with mem := { s.mem with fetched := s.mem.fetched.map (fun e => (e.1, ((e.1, blk), f) :: e.2)) } }

/-- R89, R92: the finding on a block, which is free on a dead lane and beyond the detection limit; fails: the transfer and its
retry have just failed lane parity (DESIGN CHOICE, assumption 32). -/
def decodeBlock (fails : Bool) (s : State) (blk : Nat) : Found × State :=
  match eccOf s blk with
  | .clean => (.clean, s)
  | .corrected n => (.corrected n, s)
  | .bad => (.bad, s)
  | .lane =>
    if !fails && Config.freeBit s.draw blk then (.clean, s.drawn)
    else if Config.freeBit s.draw (blk + 2 ^ 31) then (.corrected 1, s.drawn) else (.bad, s.drawn)
  | .free => if Config.freeBit s.draw blk then (.bad, s.drawn) else (.wrong s.draw (Config.freeNat s.draw blk % 30), s.drawn)

/-- R93: what the controller does on a finding: it counts and logs, and an uncorrectable block is poisoned. -/
def noteFound (blk a : Nat) : Found → State → State
  | .clean, s => s
  | .corrected n, s => noteCe blk a n s
  | .bad, s => noteUe blk a s
  | .wrong _ ce, s => if ce = 0 then s else noteCe blk a ce s

/-- R59, R93: a block that is not poisoned is fetched, and noted unless this group or sequence has fetched it already. -/
def fetchBlock (fails : Bool) (blk a : Nat) (s : State) : Found × State :=
  match fetchedOf s blk with
  | some f => (f, s)
  | none =>
    let (f, s) := decodeBlock fails s blk
    (f, keepFetch blk f (noteFound blk a f s))

/-- R65: the words a fetched block gives; none where it is uncorrectable. -/
def foundWords (s : State) (blk : Nat) (offs : List Nat) : Found → Option (List Word)
  | .bad => none
  | .wrong n _ => some (offs.map (fun o => Config.freeWord n (64 * blk + o)))
  | _ => some (storedWords s blk offs)

/-- R65, R93, R94: a read of a stored block: none when it is poisoned or found uncorrectable. -/
def storedRead (s : State) (blk : Nat) (offs : List Nat) : Option (List Word) × State :=
  if poisoned s blk then (none, s)
  else
    let r := fetchBlock false blk (64 * blk + offs.headD 0) s
    (foundWords s blk offs r.1, r.2)

/-- R67: the merge-buffer entry of a block. -/
def mergeEntry (s : State) (blk : Nat) : Option Merge := s.mem.merge.find? (fun m => m.blk = blk)

/-- R69: overlay the entry's words. -/
def overlay (m : Option Merge) : List Nat → List Word → List Word
  | o :: os, w :: ws => (match m with | some e => (tget none e.words o).getD w | none => w) :: overlay m os ws
  | _, _ => []

/-- R69, R93: a controller's read of words of one block. -/
def blkRead (s : State) (blk : Nat) (offs : List Nat) : Option (List Word) × State :=
  match storedRead s blk offs with
  | (none, s') => (none, s')
  | (some ws, s') => (some (overlay (mergeEntry s blk) offs ws), s')

/-! ### ECCFLIP and block writes -/

/-- R102: the bits the armed mask inverts in a block of the given code. -/
def flipBits (e : EccFlip) (strong : Bool) : List Nat :=
  if e.curMode then ((List.range 32).filter (bitAt e.curMask)).flatMap (fun j => (List.range 40).map (fun b => 40 * j + b))
  else
    let bits := (List.range 64).filter (bitAt e.curMask)
    let w := e.curWindow.toNat
    if w < 20 then bits.map (64 * w + ·)
    else if w = 20 then bits.map (1280 + ·)
    else (bits.map (64 * (w - 21) + ·)).filterMap (fun c => if c < (if strong then 290 else 12) then some (1344 + c) else none)

/-- R94, R102, R103: a block write: the stored copy is clean, or corrupted where ECCFLIP is armed for it; its poison marks are
written as three copies; what was fetched of it is no longer what is stored. -/
def afterBlockWrite (blk : Nat) (s : State) : State :=
  let s := setPoison blk (poisoned s blk) { s with mem := { s.mem with fetched := s.mem.fetched.map (fun f => (f.1, f.2.filter (fun e => !decide (e.1.2 = blk)))) } }
  let e := s.mem.ecc
  if e.armed ∧ e.curBlk = blk then
    logErr false 0x0020 1 (channelOf s.variant blk) (64 * blk) 0 0
      { s with mem := { s.mem with flips := tset [] s.mem.flips blk (flipBits e (s.strong (blk / 32768))),
                                   ecc := { e with armed := false, fired := true } } }
  else { s with mem := { s.mem with flips := terase s.mem.flips blk } }

/-- Store words of one block. -/
def putWords (blk : Nat) : List (Nat × Word) → Tbl Word → Tbl Word
  | [], m => m
  | (o, w) :: ws, m => putWords blk ws (tset 0 m (64 * blk + o) w)

/-- Store words of one block of memory; a block of a saved page keeps its other words. -/
def storeBlock (blk : Nat) (ws : List (Nat × Word)) (s : State) : State :=
  match savedDraw s blk, tget none s.mem.saved (blk / 1024) with
  | some n, some (m, bs) =>
    let old := (List.range 64).map (fun o => (o, Config.freeWord n (64 * blk + o)))
    { s with mem := { s.mem with words := putWords blk ws (putWords blk old s.mem.words),
                                 saved := tset none s.mem.saved (blk / 1024) (some (m, blk :: bs)) } }
  | _, _ => { s with mem := { s.mem with words := putWords blk ws s.mem.words } }

/-- Discard the merge entry of a block. -/
def dropMerge (blk : Nat) (s : State) : State :=
  { s with mem := { s.mem with merge := s.mem.merge.filter (fun m => !decide (m.blk = blk)) } }

/-- R69, R96: a full-block write. -/
def fullBlockWrite (blk : Nat) (ws : List (Nat × Word)) (s : State) : State :=
  let s := setPoison blk false (dropMerge blk s)
  afterBlockWrite blk (storeBlock blk ws s)

/-- The words of an entry. -/
def mergeWords (m : Merge) : List (Nat × Word) := m.words.filterMap (fun e => e.2.map (fun w => (e.1, w)))

/-- R68, R102: the write of a read-modify-write: the block as it was found, with the new words. -/
def rmwStore (blk : Nat) (f : Found) (ws : List (Nat × Word)) (s : State) : State :=
  let s := match f with
    | .wrong n _ => storeBlock blk ((List.range 64).map (fun o => (o, Config.freeWord n (64 * blk + o)))) s
    | _ => s
  afterBlockWrite blk (storeBlock blk ws s)

/-- R68, R70: retire the entry of a block by one read-modify-write, or by a full-block write when it holds all
64 words. A poisoned block stays poisoned and logs POISON_MERGE. -/
def mergeRetire (blk : Nat) (s : State) : State :=
  match mergeEntry s blk with
  | none => s
  | some m =>
    let ws := mergeWords m
    if ws.length = 64 then fullBlockWrite blk ws s
    else
      let s := dropMerge blk s
      let r := if poisoned s blk then (Found.bad, s) else fetchBlock false blk (64 * blk) s
      let s := if poisoned r.2 blk then logErr true 0x0004 1 (channelOf s.variant blk) (64 * blk) 0 0 r.2 else r.2
      rmwStore blk r.1 ws s

/-! ### Locked sequences (R74) -/

/-- R68, R74: the write that ends a locked sequence on a block it has read: an entry held for the block and the words ws go into that
one write; with neither, nothing is written. A block found poisoned only retires its entry (R70). -/
def lockedEnd (blk : Nat) (ws : List (Nat × Word)) (s : State) : State :=
  if poisoned s blk then mergeRetire blk s
  else
    let held := (mergeEntry s blk).elim [] mergeWords
    if held = [] ∧ ws = [] then s
    else
      let r := fetchBlock false blk (64 * blk) s
      rmwStore blk r.1 (held ++ ws) (dropMerge blk r.2)

/-- R74, R75: a class-1 request waits at the pseudo-channel of a block, so that no new locked sequence of classes 2 to 4 starts (R76). -/
def lockBarred (s : State) (blk : Nat) : Bool :=
  (tget [] s.mem.waits (channelOf s.variant blk)).any (fun w => decide (w.cls = 1))

/-- Merge words into an entry's table; the later one wins (R67). -/
def mergeInto : List (Nat × Word) → Tbl (Option Word) → Tbl (Option Word)
  | [], t => t
  | (o, w) :: r, t => mergeInto r (tset none t o (some w))

/-- R67 to R69: a controller accepts a write of words (offset, word) of one block. -/
def blkWrite (blk : Nat) (ws : List (Nat × Word)) (s : State) : State :=
  match mergeEntry s blk with
  | some m =>
    let t := mergeInto ws m.words
    if (mergeInto ws []).length = 64 then fullBlockWrite blk (mergeWords { m with words := mergeInto ws [] }) s
    else
      let s := { s with mem := { s.mem with merge := s.mem.merge.map (fun e => if e.blk = blk then { e with words := t } else e) } }
      if t.length = 64 then mergeRetire blk s else s
  | none =>
    let t := mergeInto ws []
    if t.length = 64 then fullBlockWrite blk (mergeWords { blk := blk, words := t }) s
    else if ws = [] then s
    else
      let c := channelOf s.variant blk
      let mine := s.mem.merge.filter (fun m => decide (channelOf s.variant m.blk = c))
      let s := if mine.length ≥ 16 then (match mine.head? with | some m => mergeRetire m.blk s | none => s) else s
      { s with mem := { s.mem with merge := s.mem.merge ++ [{ blk := blk, words := t }] } }

/-- R68: every entry is retired, oldest first (a flush). -/
def flushMerge (s : State) : State := (s.mem.merge.map Merge.blk).foldl (fun s b => mergeRetire b s) s

/-- R63, R66, R69, R96: zeroing of blocks lo to hi - 1: valid bits, poison and merge entries go. -/
def zeroBlocks (lo hi : Nat) (s : State) : State :=
  let inb := fun b => decide (lo ≤ b) && decide (b < hi)
  { s with mem := { s.mem with
      words := tdrop (fun a => inb (a / 64)) s.mem.words
      saved := tdrop (fun p => inb (1024 * p)) s.mem.saved
      poison := tdrop inb s.mem.poison
      flips := tdrop inb s.mem.flips
      merge := s.mem.merge.filter (fun m => !inb m.blk) } }

/-- R66: zero the page that holds a local address. -/
def zeroPage (a : Nat) (s : State) : State := zeroBlocks (a / 65536 * 1024) (a / 65536 * 1024 + 1024) s

/-- R63: zero tracts first to last. -/
def zeroTracts (first last : Nat) (s : State) : State := zeroBlocks (first * 32768) ((last + 1) * 32768) s

/-- R102, R133, R230: a pre-emption save writes the page at a local address, block by block; what its words then hold is free. -/
def savePage (a : Nat) (s : State) : State :=
  let s' := zeroPage a s
  let s' := { s' with mem := { s'.mem with saved := tset none s'.mem.saved (a / 65536) (some (s.draw, [])) } }.drawn
  if s'.mem.ecc.armed ∧ s'.mem.ecc.curBlk / 1024 = a / 65536 then afterBlockWrite s'.mem.ecc.curBlk s' else s'

/-- R133: a restore reads the page at a local address: the first poisoned block it finds. -/
def checkPage (a : Nat) (s : State) : Option Nat × State :=
  let lo := a / 65536 * 1024
  let mine := (s.mem.flips.map Prod.fst).filter (fun b => decide (lo ≤ b) && decide (b < lo + 1024))
  let s := mine.foldl (fun s b => (storedRead s b [0]).2) s
  ((s.mem.poison.map Prod.fst).find? (fun b => decide (lo ≤ b) && decide (b < lo + 1024)), s)

/-- R98: a write whose second copy also fails parity poisons its block. -/
def poisonWrite (blk : Nat) (s : State) : State :=
  logErr true 0x0013 1 (channelOf s.variant blk) (64 * blk) 0 0 (setPoison blk true s)

end Sys2Proof.Machine
end

