-- ==== Sys2Proof/Machine/Translate.lean ====
section
/-! DEFINITION. The virtual word space (R115), page tables (R116 to R122), the translation cache (R123), the
host window (R126 to R128), the yard's regions (R84) and the bench's halves (R80); reading and writing
translated places (R95, R97, R126). -/

namespace Sys2Proof.Machine

/-- What an operation on memory or an instruction comes to: a value with the next state, a trap (R209; its
frame PC is filled where the trap is taken), or a wait that leaves the operation to be tried again. -/
inductive Res (α : Type) where
  | ok (v : α) (s : State)
  | trap (t : Trap) (s : State)
  | stall (s : State)

/-- Go on with the value. -/
def Res.bind {α β : Type} (r : Res α) (f : α → State → Res β) : Res β :=
  match r with
  | .ok v s => f v s
  | .trap t s => .trap t s
  | .stall s => .stall s

/-- R121: the access kinds, in the code of DETAIL.ACCESS. -/
inductive Acc where
  | read
  | write
  | fetch
  | locked
  deriving DecidableEq, Repr

/-- R121: DETAIL.ACCESS. -/
def Acc.code : Acc → Nat
  | .read => 0
  | .write => 1
  | .fetch => 2
  | .locked => 3

/-- R121: a translation fault: cause, address, ACCESS, LEVEL, REASON, HOST. -/
def xlTrap (cause : Nat) (acc : Acc) (v lvl reason : Nat) (host : Bool) : Trap :=
  { cause := cause, pc := 0, addr := BitVec.ofNat 40 v,
    detail := BitVec.ofNat 20 (acc.code + 8 * lvl + 16 * reason + if host then 256 else 0) }

/-- R209, R210: UNCORRECTABLE_MEMORY with ACCESS, bit [3] for on-chip SRAM and bit [8] for the host window. -/
def poisonTrap (acc : Acc) (v : Nat) (sram host : Bool) : Trap :=
  { cause := 11, pc := 0, addr := BitVec.ofNat 40 v,
    detail := BitVec.ofNat 20 (acc.code + (if sram then 8 else 0) + if host then 256 else 0) }

/-- R210: a FORMAT trap with a subcode. -/
def formatTrap (v sub : Nat) : Trap := { cause := 7, pc := 0, addr := BitVec.ofNat 40 v, detail := BitVec.ofNat 20 sub }

/-- R28, R355: the module number m is this module or one of its cascade. -/
def inCascade (s : State) (m : Nat) : Bool := decide (m = s.straps.modId.toNat) || (s.scarf.formed && bitAt s.scarf.present m)

/-- R514: the module is a member of a cascade that another module heads. -/
def isMember (s : State) : Bool := s.scarf.formed && decide (s.scarf.headMod ≠ s.straps.modId)

/-- R28: the module number of a global word address. -/
def moduleOf (g : Nat) : Nat := g / 2 ^ 37
/-- R28: the local part of a global word address. -/
def localOf (g : Nat) : Nat := g % 2 ^ 37
/-- The address lies in this module. -/
def isLocal (s : State) (g : Nat) : Bool := decide (moduleOf g = s.straps.modId.toNat)

/-- R511: no route reaches the module of a global address, so that requests for it wait. -/
def noRoute (s : State) (g : Nat) : Bool := !isLocal s g && decide (tget 0 s.scarf.route (moduleOf g) = 0)

/-- R56, R57: the tracts of module m; another module is of either variant (DESIGN CHOICE, assumption 16). -/
def tractsOf (s : State) (m : Nat) : Nat :=
  if m = s.straps.modId.toNat then s.variant.tracts else if Config.largeModule m then Variant.tracts .kl8x256 else Variant.tracts .kl8x128

/-- R57, R384: page g of another module: PAGE 24 to 31 and tracts past its count are holes there; its codes and whose its tracts are is
for that module to answer, a free value (DESIGN CHOICE, assumption 16). -/
def remotePage (s : State) (g : Nat) : Bool := decide (g % 2 ^ 21 / 65536 < 24) && decide (g % 2 ^ 37 / 2 ^ 21 < tractsOf s (moduleOf g)) && Config.freeBit s.draw (2 * (g / 65536))

/-- R57, R384, check 2 of R120: the page of a global address exists and its tract is the function's. -/
def pageExists (s : State) (func g : Nat) : Bool :=
  inCascade s (moduleOf g) &&
    (if isLocal s g then !isHole s (localOf g) && decide (tget 0 s.mem.owner (localOf g / 2 ^ 21) = func) else remotePage s g)

/-- The state after another module has answered about page g. -/
def answered (g : Nat) (s : State) : State := if isLocal s g then s else s.drawn

/-- R61: CODE of a leaf differs from the tract's code; another module's is a free value. -/
def codeDiffers (s : State) (e : W40) (g : Nat) : Bool :=
  if isLocal s g then bitAt e 29 != s.strong (localOf g / 2 ^ 21) else Config.freeBit s.draw (2 * (g / 65536) + 1)

/-! ### Page walks -/

/-- How a walk ends: at a leaf with its address and whether it maps a large page, at a failed check (cause,
LEVEL, REASON), at a poisoned entry, with its address (R119), or where no route reaches the table (R511). -/
inductive Walk where
  | leaf (e : W40) (at_ : Nat) (large : Bool)
  | fail (cause lvl reason : Nat)
  | poison (g : Nat)
  | wait
  deriving DecidableEq, Repr

/-- R117: reserved bits of a pointer are 0. -/
def ptrBad (e : W40) : Bool := decide (bitsOf e 25 7 ≠ 0)
/-- R117: V. -/
def entV (e : W40) : Bool := bitAt e 24
/-- R117: LEAF. -/
def entLeaf (e : W40) : Bool := bitAt e 32
/-- R117: the global address of the page an entry names. -/
def entPage (e : W40) : Nat := bitsOf e 21 3 * 2 ^ 37 + bitsOf e 5 16 * 2 ^ 21 + bitsOf e 0 5 * 65536

/-- R95, R119: an entry read in one block read: none when poisoned; another module's memory answers a free value, or poisoned. -/
def readEntry (g : Nat) (s : State) : Option W40 × State :=
  if isLocal s g then
    match blkRead s (localOf g / 64) [g % 64, g % 64 + 1] with
    | (some [lo, hi], s') => (some (hi ++ lo), s')
    | (_, s') => (none, s')
  else if Config.freeBit s.draw g then (none, s.drawn)
  else (some (Config.freeWord (s.draw) (g + 1) ++ Config.freeWord s.draw g), s.drawn)

/-- R118: a tract that a large page from tract t reaches lies past the module's tract count. -/
def largePast (s : State) (g t : Nat) : Bool := decide (tractsOf s (moduleOf g) ≤ t + 15)

/-- R116 to R120, checks 1 and 2: the second level of the walk, from the level-2 table at page g. -/
def walkTable (xl : Xl) (g slot v : Nat) (s : State) : Walk × State :=
  if !pageExists s xl.func g then (.fail 8 0 2, answered g s)
  else if noRoute s g then (.wait, s)
  else
    let g2 := g + 512 * slot + 2 * (v / 65536 % 256)
    match readEntry g2 (answered g s) with
    | (none, s) => (.poison g2, s)
    | (some e2, s) =>
      if !entV e2 then (.fail 8 1 1, s)
      else if !entLeaf e2 then (.fail 8 1 4, s)
      else (.leaf e2 g2 false, s)

/-- R116 to R120, checks 1 and 2: the two-level walk of a paged virtual address. -/
def walk (xl : Xl) (v : Nat) (s : State) : Walk × State :=
  let g1 := xl.root.toNat + 2 * (v / 2 ^ 24)
  if !pageExists s xl.func (g1 / 65536 * 65536) then (.fail 8 0 2, answered g1 s)
  else if noRoute s g1 then (.wait, s)
  else
    match readEntry g1 (answered g1 s) with
    | (none, s) => (.poison g1, s)
    | (some e, s) =>
      if !entV e then (.fail 8 0 1, s)
      else if entLeaf e then
        if bitsOf e 0 5 ≠ 0 then (.fail 8 0 4, s)
        else if largePast s (entPage e) (bitsOf e 5 16) then (.fail 8 0 2, s)
        else (.leaf e g1 true, s)
      else if ptrBad e then (.fail 8 0 4, s)
      else walkTable xl (entPage e) (bitsOf e 33 7) v s

/-- R117, R118: the global word address a leaf gives (DEDUCED, assumption 33). -/
def leafAddr (e : W40) (large : Bool) (v : Nat) : Nat :=
  if large then
    let i := v / 65536 % 256
    entPage e + i / 16 * 2 ^ 21 + i % 16 * 65536 + v % 65536
  else entPage e + v % 65536

/-- R120: the access may pass check 4. -/
def leafPermits (e : W40) : Acc → Bool
  | .read => bitAt e 25
  | .write => bitAt e 26
  | .locked => bitAt e 25 && bitAt e 26
  | .fetch => bitAt e 27

/-- R120, checks 2 to 5 on a leaf: the cause and REASON of the first that fails. -/
def leafCheck (s : State) (xl : Xl) (acc : Acc) (e : W40) (large : Bool) (v : Nat) : Option (Nat × Nat) :=
  let g := leafAddr e large v
  if !pageExists s xl.func g then some (8, 2)
  else if codeDiffers s e g then some (8, 3)
  else if !leafPermits e acc then some (10, 5)
  else if (xl.lvl = 0 && !bitAt e 28) || (acc = .fetch && decide (xl.lvl ≥ 1) && bitAt e 28) then some (10, 6)
  else none

/-- R123: the key of a cached leaf: its CTXID, and its page or large page. -/
def tlbKey (ctx v : Nat) (large : Bool) : Nat := ctx * 2 ^ 25 + if large then 2 ^ 24 + v / 2 ^ 24 else v / 65536

/-- R122: the key of a claim on a leaf entry. -/
def claimKey (at_ : Nat) (large : Bool) : Nat := 2 * at_ + if large then 1 else 0

/-- R74, R122: a locked sequence writes a 2-word page-table entry that it has read. -/
def writeEntry (g : Nat) (e : W40) (s : State) : State :=
  if isLocal s g then
    lockedEnd (localOf g / 64) [(g % 64, BitVec.ofNat 20 (bitsOf e 0 20)), (g % 64 + 1, BitVec.ofNat 20 (bitsOf e 20 20))] s
  else s

/-- R122 step 1: a locked sequence sets ZB and records the claim (DESIGN CHOICE, assumption 26). -/
def claimEntry (at_ : Nat) (large : Bool) (e : W40) (s : State) : State :=
  let e' := e ||| BitVec.ofNat 40 (2 ^ 31)
  let s := writeEntry at_ e' s
  { s with mem := { s.mem with claims := tset none s.mem.claims (claimKey at_ large) (some e') } }

/-- R76: this master's locked sequence on a page-table entry may not start: its class is 2 or 3 and a class-1 request waits there. -/
def claimBarred (s : State) (who : Who) (at_ : Nat) : Bool :=
  match who with
  | .core _ => isLocal s at_ && lockBarred s (localOf at_ / 64)
  | _ => false

/-- R122 step 2: zero the page, or all 256 pages of a large page, that a leaf maps. -/
def zeroLeaf (e : W40) (large : Bool) (s : State) : State :=
  if !isLocal s (entPage e) then s
  else if large then
    (List.range 256).foldl (fun s i => zeroPage (localOf (entPage e) + i / 16 * 2 ^ 21 + i % 16 * 65536) s) s
  else zeroPage (localOf (entPage e)) s

/-- The claim on a leaf is taken out of the table. -/
def dropClaim (key : Nat) (s : State) : State :=
  { s with mem := { s.mem with claims := terase s.mem.claims key } }

/-- R122 step 4: a leaf with Z and ZB 0. -/
def zeroedLeaf (e : W40) : W40 := e &&& BitVec.ofNat 40 (2 ^ 40 - 1 - 2 ^ 31 - 2 ^ 30)

/-- R122 step 4: Z and ZB written 0, only where the entry still holds the value the claimant wrote. -/
def clearClaim (at_ : Nat) (e : W40) (s : State) : State :=
  closeFetch <| match readEntry at_ (openFetch s) with
    | (some e', s) => if e' = e then writeEntry at_ (zeroedLeaf e) s else s
    | (none, s) => s

/-- R122 steps 2 to 4: the page is zeroed and the claim ends. -/
def finishClaim (at_ : Nat) (large : Bool) (s : State) : State :=
  match tget none s.mem.claims (claimKey at_ large) with
  | none => s
  | some e => clearClaim at_ e (dropClaim (claimKey at_ large) (zeroLeaf e large s))

/-- R123: the translation cache of a master: the bent's, the engine's or the dispatcher's. The aperture keeps none (DESIGN CHOICE,
assumption 24). -/
def tlbOf (s : State) : Who → Tbl (Option W40)
  | .core k => (s.bent (k / 2)).tlb
  | .engine e => tget [] s.disp.tlbs e
  | .dispatcher => tget [] s.disp.tlbs 16
  | .aperture _ => []
  | .steward => []

/-- Write a master's translation cache. -/
def setTlb (who : Who) (t : Tbl (Option W40)) (s : State) : State :=
  match who with
  | .core k => s.setBent (k / 2) { s.bent (k / 2) with tlb := t }
  | .engine e => { s with disp := { s.disp with tlbs := tset [] s.disp.tlbs e t } }
  | .dispatcher => { s with disp := { s.disp with tlbs := tset [] s.disp.tlbs 16 t } }
  | .aperture _ => s
  | .steward => s

/-- R123: the entries of a master's cache. -/
def tlbSize : Who → Nat
  | .core _ => 1024
  | .engine _ => 64
  | _ => 128

/-- R123: put a leaf into the master's cache; which entry leaves a full one is free (DESIGN CHOICE, assumption 24). -/
def tlbFill (who : Who) (xl : Xl) (v : Nat) (e : W40) (large : Bool) (s : State) : State :=
  let t := tlbOf s who
  if t.length < tlbSize who ∨ (tget none t (tlbKey xl.ctx v large)).isSome then setTlb who (tset none t (tlbKey xl.ctx v large) (some e)) s
  else setTlb who (tset none (t.eraseIdx (Config.freeNat s.draw v % t.length)) (tlbKey xl.ctx v large) (some e)) s.drawn

/-- R123, R124: a cached leaf for the address. -/
def tlbLook (who : Who) (xl : Xl) (v : Nat) (s : State) : Option (W40 × Bool) :=
  match tget none (tlbOf s who) (tlbKey xl.ctx v false) with
  | some e => some (e, false)
  | none => (tget none (tlbOf s who) (tlbKey xl.ctx v true)).map (·, true)

/-- R120, R122: the checks of a leaf just walked to, with zero on first touch. -/
def useWalk (who : Who) (xl : Xl) (acc : Acc) (v : Nat) (w : Walk) (s : State) : Res Place :=
  match w with
  | .fail cause lvl reason => .trap (xlTrap cause acc v lvl reason false) s
  | .poison g => .trap (poisonTrap acc (match who with | .aperture _ => g | _ => v) false false) s
  | .wait => .stall s
  | .leaf e g large =>
    match leafCheck s xl acc e large v with
    | some (cause, reason) => .trap (xlTrap cause acc v (if large then 0 else 1) reason false) (answered (leafAddr e large v) s)
    | none =>
      let s := answered (leafAddr e large v) s
      if bitAt e 30 then
        if bitAt e 31 || claimBarred s who g then .stall s else .stall (claimEntry g large e s)
      else .ok (.dev (leafAddr e large v)) (tlbFill who xl v e large s)

/-- R120, R123, R124: a paged address. A cached leaf that a walk now would find again is used; where the walk
would differ, whether the cache still holds the old leaf is free (R124). -/
def xlatePaged (who : Who) (xl : Xl) (acc : Acc) (v : Nat) (s : State) : Res Place :=
  let w := walk xl v s
  match tlbLook who xl v s with
  | none => useWalk who xl acc v w.1 w.2
  | some (e, large) =>
    let cached : Res Place → Res Place := fun fresh =>
      match leafCheck s xl acc e large v with
      | some (cause, reason) => .trap (xlTrap cause acc v (if large then 0 else 1) reason false) (answered (leafAddr e large v) s)
      | none => match fresh with
        | .ok p s' => if p = .dev (leafAddr e large v) then .ok p s else if Config.freeBit s.draw v then .ok (.dev (leafAddr e large v)) s.drawn else .ok p s'.drawn
        | r => if Config.freeBit s.draw v then .ok (.dev (leafAddr e large v)) s.drawn else r
    let fresh := useWalk who xl acc v w.1 w.2
    match w.1 with
    | .leaf e' _ large' => if e' = e ∧ large' = large then cached fresh else if Config.freeBit s.draw (v + 1) then cached fresh else fresh
    | _ => if Config.freeBit s.draw (v + 1) then cached fresh else fresh

/-! ### Host translation -/

/-- R112: the PASID a context's host requests carry. -/
def pasidOf (s : State) (xl : Xl) : Option (BitVec 20) := if s.port.pasidEn then some xl.pasid else none

/-- R127: the cached translation of a host page. -/
def atcLook (s : State) (func : Nat) (pasid : Option (BitVec 20)) (page : Nat) : Option AtcEntry :=
  s.ats.atc.find? (fun e => decide (e.func = func) && decide (e.pasid = pasid) && decide (e.page ≤ page) && decide (page < e.page + e.span))

/-- How a host page translates: to a byte address, to a failure of R121, or it waits. -/
inductive HostXl where
  | at (a : Nat)
  | fail (reason : Nat) (s : State)
  | wait (s : State)

/-- R129: an Invalidate Request stalls the page until its completion. -/
def stalledPage (s : State) (func : Nat) (pasid : Option (BitVec 20)) (page : Nat) : Bool :=
  s.ats.stalled.any (fun e => decide (e.func = func) && (e.pasid.isNone || decide (e.pasid = pasid)) && decide (e.page ≤ page) && decide (page < e.page + e.pages))

/-- R128: the access that waits for a host page. -/
def Waiter.is (w : Waiter) (who : Who) (addr : Nat) : Bool := decide (w.who = who) && decide (w.addr = addr)

/-- R128: one more access waits, once. -/
def joinWaiters (n : Waiter) (ws : List Waiter) : List Waiter := if ws.any (fun w => w.is n.who n.addr) then ws else ws ++ [n]

/-- R344: the requests of function f, or of all functions, that are outstanding or may become so: each page request may be followed by a Translation
Request at once (DESIGN CHOICE, assumption 25). -/
def requestRoom (func : Nat) (s : State) : Bool :=
  decide (((s.ats.asked.map Asked.func ++ s.ats.reqs.map PageReq.func).filter (fun g => decide (g = func))).length < 768) &&
    decide (s.ats.asked.length + s.ats.reqs.length < 2048)

/-- R127: the access joins the Translation Request for its page, or sends it; where R344 allows no more requests it waits. -/
def askPage (func : Nat) (pasid : Option (BitVec 20)) (page : Nat) (n : Waiter) (s : State) : State :=
  let here := fun (r : Asked) => decide (r.func = func) && decide (r.pasid = pasid) && decide (r.page = page)
  if s.ats.asked.any here then
    { s with ats := { s.ats with asked := s.ats.asked.map (fun r => if here r then { r with waiters := joinWaiters n r.waiters } else r) } }
  else if !requestRoom func s then s
  else
    { s with port := { s.port with l1 := false }
             ats := { s.ats with asked := s.ats.asked ++ [{ func := func, pasid := pasid, page := page, waiters := [n] }] } }

/-- R128: the outstanding page request for a page. -/
def PageReq.on (r : PageReq) (func : Nat) (pasid : Option (BitVec 20)) (page : Nat) : Bool :=
  decide (r.func = func) && decide (r.pasid = pasid) && decide (r.page = page)

/-- R127, R128, R129, R360: translate the host byte address b: from the cache; else report the failure recorded for this access; else
wait on the page request outstanding, where PRI may be used for the access, or send a Translation Request, unless an Invalidate
Request stalls the page. need says whether it must read and write; tag is the CTXID and the virtual word address of the access, 0
where it has none (R566). -/
def hostXl (who : Who) (func : Nat) (pasid : Option (BitVec 20)) (prien : Bool) (tag : Nat × Nat) (b : Nat) (need : Bool × Bool) (s : State) : HostXl :=
  let page := b / 4096
  let n : Waiter := { who := who, write := need.2, prien := prien, ctx := tag.1, addr := tag.2 }
  if !(s.fn func).bme || stalledPage s func pasid page then .wait s
  else match atcLook s func pasid page with
  | some e => if (!need.1 || e.read) && (!need.2 || e.write) then .at ((e.dest + (page - e.page)) * 4096 + b % 4096) else .fail 14 s
  | none =>
    match s.ats.fails.find? (fun f => decide (f.func = func) && decide (f.pasid = pasid) && decide (f.page = page) && decide (f.who = who) && decide (f.addr = tag.2)) with
    | some f => .fail f.reason { s with ats := { s.ats with fails := s.ats.fails.filter (fun g => !decide (g = f)) } }
    | none =>
      if s.ats.reqs.any (fun r => r.on func pasid page) then
        if prien && s.port.priEn then
          .wait { s with ats := { s.ats with reqs := s.ats.reqs.map (fun r => if r.on func pasid page then { r with waiters := joinWaiters n r.waiters } else r) } }
        else .fail 15 s
      else .wait (askPage func pasid page n s)

/-- R121: whether an access must read and write. -/
def Acc.need : Acc → Bool × Bool
  | .read | .fetch => (true, false)
  | .write => (false, true)
  | .locked => (true, true)

/-! ### The whole virtual word space -/

/-- R82: the yard master number. -/
def yardMaster : Who → Nat
  | .core k => k / 2
  | .engine e => 32 + e
  | .dispatcher => 48
  | .steward => 48
  | .aperture _ => 49

/-- R84: the tag of an access. -/
def yardTag (who : Who) (xl : Xl) : Nat :=
  match who with
  | .aperture f => f
  | _ => xl.ctx

/-- R84: some region of the master allows n yard words from w. -/
def yardAllows (s : State) (m tag w n : Nat) (acc : Acc) : Bool :=
  (List.range 8).any (fun r =>
    let g := s.region m r
    g.en && decide (g.base.toNat ≤ w) && decide (w + n ≤ g.lim.toNat + 1) && (g.anyctx || decide (g.tag.toNat = tag)) &&
      match acc with
      | .read | .fetch => g.rd
      | .write => g.w
      | .locked => g.rd && g.w)

/-- R115: translate the first of n words at virtual address v. -/
def xlateWord (who : Who) (xl : Xl) (acc : Acc) (v n : Nat) (s : State) : Res Place :=
  if v < 0xF000000000 then xlatePaged who xl acc v s
  else if v < 0xF800000000 then
    if acc = .fetch then .trap (xlTrap 10 acc v 0 10 true) s
    else match hostXl who xl.func (pasidOf s xl) xl.prien (xl.ctx, v) ((xl.hostBase.toNat + 4 * (v - 0xF000000000)) % 2 ^ 64) acc.need s with
      | .at a => .ok (.host a) s
      | .fail r s => .trap (xlTrap 9 acc v 0 r true) s
      | .wait s => .stall s
  else if 0xFFFC000000 ≤ v ∧ v < 0xFFFE000000 then
    let w := v - 0xFFFC000000
    if yardAllows s (yardMaster who) (yardTag who xl) w (min n (2 ^ 25 - w)) acc then .ok (.yard w) s
    else .trap (xlTrap 10 acc v 0 8 false) s
  else if 0xFFFFF80000 ≤ v then
    match who with
    | .core k =>
      let o := v - 0xFFFFF80000
      if (s.bent (k / 2)).split then
        if o < 262144 then .ok (.bench (k % 2 * 262144 + o)) s else .trap (xlTrap 10 acc v 0 9 false) s
      else .ok (.bench o) s
    | _ => .trap (xlTrap 10 acc v 0 7 false) s
  else .trap (xlTrap 10 acc v 0 7 false) s

/-- The next word of a place in the same page. -/
def Place.succ : Place → Place
  | .dev a => .dev (a + 1)
  | .host a => .host (a + 4)
  | .yard w => .yard (w + 1)
  | .bench w => .bench (w + 1)

/-- The word after one at a translated place lies in the same page and needs no new translation. -/
def samePage (v : Nat) : Place → Bool
  | .dev _ => v % 65536 != 0
  | .host _ => v % 1024 != 0
  | .yard _ => v != 0xFFFE000000
  | .bench _ => false

/-- Translate n words from v, word by word, page by page. -/
def xlateFrom (who : Who) (xl : Xl) (acc : Acc) : Nat → Nat → Option Place → State → Res (List Place)
  | 0, _, _, s => .ok [] s
  | n + 1, v, prev, s =>
    let v := v % 2 ^ 40
    let one : Res Place := match prev with
      | some p => if samePage v p then .ok p.succ s else xlateWord who xl acc v (n + 1) s
      | none => xlateWord who xl acc v (n + 1) s
    one.bind fun p s => (xlateFrom who xl acc n (v + 1) (some p) s).bind fun ps s => .ok (p :: ps) s

/-- Translate n words from v for one access. -/
def xlate (who : Who) (xl : Xl) (acc : Acc) (v n : Nat) (s : State) : Res (List Place) := xlateFrom who xl acc n v none s

/-! ### Reading and writing places -/

/-- A byte of host memory at a translated address (DESIGN CHOICE, assumption 3). -/
def hostByteAt (s : State) (a : Nat) : Byte := (tget none s.host a).getD (Config.hostByte a)

/-- Host bytes as a little-endian number (R4). -/
def hostNat (s : State) (a : Nat) : Nat → Nat
  | 0 => 0
  | n + 1 => (hostByteAt s a).toNat + 256 * hostNat s (a + 1) n

/-- Write n little-endian host bytes. -/
def putHost (a v : Nat) : Nat → State → State
  | 0, s => s
  | n + 1, s => putHost (a + 1) (v / 256) n { s with host := tset none s.host a (some (BitVec.ofNat 8 v)) }

/-- The bent whose bench a place of this master lies in. -/
def Who.bent : Who → Nat
  | .core k => k / 2
  | _ => 0

/-- Offsets of the leading places that lie in one device block. -/
def blockRun (blk : Nat) : List Place → List Nat
  | .dev a :: ps => if a / 64 = blk then a % 64 :: blockRun blk ps else []
  | _ => []

/-- R97: KIND and UNIT, the word address and the check bits of a word of on-chip SRAM. -/
structure SramWord where
  kind : Nat
  unit : Nat
  addr : Nat
  cell : Cell
  deriving DecidableEq, Repr

/-- R97: a read of an SRAM word: a single-bit error is corrected in the store, counted and logged, a double-bit error counted, logged
and left; whether the word is good, and the next state. -/
def sramRead (w : SramWord) (heal : State → State) (s : State) : Bool × State :=
  match w.cell with
  | .good => (true, s)
  | .single => (true, logErr false 0x0010 w.kind w.unit w.addr 0 0 (countErr 2 (heal s)))
  | .double => (false, logErr true 0x0011 w.kind w.unit w.addr 0 0 (countErr 3 s))

/-- R81, R97: a yard word as its bank holds it. -/
def yardWord (s : State) (w : Nat) : SramWord := { kind := 2, unit := w / 2 ^ 20, addr := 0xFFFC000000 + w, cell := tget .good s.mem.yardBad w }

/-- R97: the corrected yard word is written back. -/
def healYard (w : Nat) (s : State) : State := { s with mem := { s.mem with yardBad := terase s.mem.yardBad w } }

/-- R79, R97: a bench word as the bent holds it. -/
def benchWord (s : State) (l w : Nat) : SramWord := { kind := 0, unit := s.physOf l, addr := 0xFFFFF80000 + w, cell := tget .good (s.bent l).bad w }

/-- R97: the corrected bench word is written back. -/
def healBench (l w : Nat) (s : State) : State := s.setBent l { s.bent l with bad := terase (s.bent l).bad w }

/-- What a read has gathered, with the FORMAT trap of its first bad host container (R126): every other fault of an access comes
before it (R278). -/
abbrev Held (α : Type) := α × Option Trap

/-- R278: the FORMAT trap of a read is reported where nothing before it is. -/
def Res.raise {α : Type} (r : Res (Held α)) : Res α :=
  r.bind fun x s => match x.2 with
    | some t => .trap t s
    | none => .ok x.1 s

/-- R65, R95, R97, R126, R366: read one word of a place that is not device memory. -/
def readSmallQ (who : Who) (acc : Acc) (v : Nat) (p : Place) (s : State) : Res (Held Word) :=
  match p with
  | .dev _ => .ok (0, none) s
  | .yard w =>
    match sramRead (yardWord s w) (healYard w) s with
    | (true, s) => .ok (tget 0 s.mem.yard w, none) s
    | (false, s) => .trap (poisonTrap acc v true false) s
  | .bench w =>
    match sramRead (benchWord s who.bent w) (healBench who.bent w) s with
    | (true, s) => .ok (tget 0 (s.bent who.bent).bench w, none) s
    | (false, s) => .trap (poisonTrap acc v true false) s
  | .host a =>
    if s.hostBad.contains a then .trap (poisonTrap acc v false true) { s with hostBad := s.hostBad.erase a }
    else
      let c := hostNat s a 4
      .ok (BitVec.ofNat 20 c, if c ≥ 2 ^ 20 then some (formatTrap v 5) else none) s

/-- Read one word of a place that is not device memory. -/
def readSmall (who : Who) (acc : Acc) (v : Nat) (p : Place) (s : State) : Res Word := (readSmallQ who acc v p s).raise

/-- Read places in order, one block read for each run of words in one block (R59, R310). The first word's
virtual address is v. Another module answers a free word, or poisoned (R95, R512). -/
def readFromQ (who : Who) (acc : Acc) : Nat → Nat → List Place → State → Res (Held (List Word))
  | _, _, [], s => .ok ([], none) s
  | 0, _, _, s => .ok ([], none) s
  | fuel + 1, v, p :: ps, s =>
    match p with
    | .dev a =>
      if isLocal s a then
        let offs := blockRun (a / 64) (p :: ps)
        match blkRead s (localOf a / 64) offs with
        | (none, s) => .trap (poisonTrap acc v false false) s
        | (some ws, s) =>
          (readFromQ who acc fuel (v + offs.length) ((p :: ps).drop offs.length) s).bind fun r s => .ok (ws ++ r.1, r.2) s
      else if noRoute s a then .stall s
      else if Config.freeBit s.draw a then .trap (poisonTrap acc v false false) s.drawn
      else
        let w := Config.freeWord s.draw a
        (readFromQ who acc fuel (v + 1) ps s.drawn).bind fun r s => .ok (w :: r.1, r.2) s
    | q =>
      (readSmallQ who acc (v % 2 ^ 40) q s).bind fun w s =>
        (readFromQ who acc fuel (v + 1) ps s).bind fun r s => .ok (w.1 :: r.1, w.2.orElse (fun _ => r.2)) s

/-- Read the words at translated places, FORMAT not yet reported. -/
def readPlacesQ (who : Who) (acc : Acc) (v : Nat) (ps : List Place) (s : State) : Res (Held (List Word)) :=
  readFromQ who acc ps.length v ps s

/-- Read the words at translated places. -/
def readPlaces (who : Who) (acc : Acc) (v : Nat) (ps : List Place) (s : State) : Res (List Word) := (readPlacesQ who acc v ps s).raise

/-- Translate and read n words at v, FORMAT not yet reported. -/
def readMemQ (who : Who) (xl : Xl) (v n : Nat) (s : State) : Res (Held (List Word)) :=
  (xlate who xl .read v n s).bind fun ps s => readPlacesQ who .read v ps s

/-- Translate and read n words at v. -/
def readMem (who : Who) (xl : Xl) (v n : Nat) (s : State) : Res (List Word) := (readMemQ who xl v n s).raise

/-- Write one word of a place that is not device memory. -/
def writeSmall (bent : Nat) (p : Place) (w : Word) (s : State) : State :=
  match p with
  | .dev _ => s
  | .yard a => { s with mem := { s.mem with yard := tset 0 s.mem.yard a w, yardBad := terase s.mem.yardBad a } }
  | .bench a =>
    let b := s.bent bent
    s.setBent bent { b with bench := tset 0 b.bench a w, bad := terase b.bad a }
  | .host a => ordered (putHost a w.toNat 4 s)

/-- The words of a list of writes that lie in block blk of this module, in order. -/
def blockPart (blk : Nat) : List (Place × Word) → List (Nat × Word)
  | [] => []
  | (.dev a, w) :: r => if a / 64 = blk then (a % 64, w) :: blockPart blk r else blockPart blk r
  | _ :: r => blockPart blk r

/-- The blocks of a list of writes, each once, in order. -/
def blocksOf : List (Place × Word) → List Nat
  | [] => []
  | (.dev a, _) :: r => let bs := blocksOf r; if bs.contains (a / 64) then bs else a / 64 :: bs
  | _ :: r => blocksOf r

/-- R67, R96: perform writes: each device block once, with all its words; then the other places in order.
A write to another module leaves this one (DESIGN CHOICE, assumption 16). -/
def writePlaces (bent : Nat) (ws : List (Place × Word)) (s : State) : State :=
  let s := (blocksOf ws).foldl (fun s b => if isLocal s (b * 64) then blkWrite (localOf (b * 64) / 64) (blockPart b ws) s else s) s
  ws.foldl (fun s e => writeSmall bent e.1 e.2 s) s

end Sys2Proof.Machine
end

