-- ==== Sys2Proof/Machine/Jobs.lean ====
section
/-! DEFINITION. How a bent share and a job end: clearing the bent (R88, R388), merging the seals (R314, R315),
the completion entry (R391, R393) and the result block (R390). -/

namespace Sys2Proof.Machine

/-- R4: byte i of a descriptor. -/
def dByte (d : Descriptor) (i : Nat) : Nat := bitsOf d (8 * i) 8
/-- R4: n bytes of a descriptor from byte i. -/
def dNat (d : Descriptor) (i n : Nat) : Nat := bitsOf d (8 * i) (8 * n)

/-- R32, R33: v in n limbs: each lower limb in 0 to 99,999, the rest in the signed top limb. -/
def limbsOf : Nat → Int → List Word
  | 0, _ => []
  | 1, v => [BitVec.ofInt 20 v]
  | n + 1, v => BitVec.ofInt 20 (v % 100000) :: limbsOf n (v / 100000)

/-- R311, R316: 10^80, the bound of a seal. -/
def sealBound : Int := 10 ^ 80

/-- R316: a value in the range of a seal. -/
def sealInRange (v : Int) : Bool := decide (-sealBound ≤ v) && decide (v ≤ sealBound - 1)

/-- R311: partial i, 1 to 8, of a core. -/
def Core.sealAt (c : Core) (i : Nat) : Int := tget 0 c.seals i

/-- R314: what a share holds of seal i: the partials of its cores. -/
def shareSeal (s : State) (sh : Share) (i : Nat) : Int :=
  match sh with
  | .on l => (s.core (2 * l)).sealAt i + (s.core (2 * l + 1)).sealAt i
  | .saved _ c0 c1 _ _ => c0.sealAt i + c1.sealAt i
  | .ended t => tget 0 t i

/-- R405, R516: what the shares of another module add to seal i of a job when the merged values are formed: free (DESIGN CHOICE,
assumption 16); a service's seals are all held with its first share. -/
def otherSeal (s : State) (j : Job) (m i : Nat) : Int :=
  if dByte j.desc 0 = 2 then 0
  else Int.ofNat (Config.freeNat s.draw (16 * m + i)) - Int.ofNat (Config.freeNat s.draw (16 * m + i + 128))

/-- R314: the merged value of seal i of a job. -/
def mergedSeal (s : State) (j : Job) (i : Nat) : Int :=
  (j.shares.map (fun sh => shareSeal s sh i)).foldl (· + ·) 0 + (j.others.map (fun m => otherSeal s j m i)).foldl (· + ·) 0

/-- R314: the eight merged values. -/
def mergedSeals (s : State) (j : Job) : List Int := (List.range 8).map (fun i => mergedSeal s j (i + 1))

/-- R516: the members of a job have sent their partials. -/
def sealsFormed (j : Job) (s : State) : State := if j.others = [] then s else s.drawn

/-- R464: the signal sources of a bent at their reset values. -/
def resetSignals (l : Nat) (s : State) : State := { s with srcs := tdrop (fun n => decide (signalKey l 0 ≤ n) && decide (n < signalKey l 16)) s.srcs }

/-- R88, R388: clear a bent after its share has ended. The service store stays (R212) (DESIGN CHOICE, assumption 27). -/
def clearBent (l : Nat) (s : State) : State :=
  let b := s.bent l
  let s := (s.setCore (2 * l) Core.reset).setCore (2 * l + 1) Core.reset
  resetSignals l (s.setBent l { Bent.reset with service := b.service, tlb := b.tlb })

/-- The seals of a share as a table. -/
def sealTable (s : State) (sh : Share) : Tbl Int := (List.range 8).foldl (fun t i => tset 0 t (i + 1) (shareSeal s sh (i + 1))) []

/-- R230, R383: the stores a core has buffered are performed. -/
def drainStores (k : Nat) (s : State) : State :=
  (s.core k).stores.foldl (fun s e => writePlaces (k / 2) (e.at_.zip e.words) s) (s.setCore k { s.core k with stores := [] })

/-- End share i of job j, keeping its final partials (R314). Its cores stop as for pre-emption (R383, R389). -/
def endShare (j i : Nat) (s : State) : State :=
  match s.job j with
  | none => s
  | some job =>
    match job.shares[i]? with
    | none => s
    | some sh =>
      let t := sealTable s sh
      let s := s.setJob j (some { job with shares := job.shares.set i (.ended t) })
      match sh with
      | .on l => clearBent l (drainStores (2 * l + 1) (drainStores (2 * l) s))
      | _ => s

/-- End every share of a job (R383, R389). -/
def endShares (j : Nat) (s : State) : State :=
  match s.job j with
  | none => s
  | some job => (List.range job.shares.length).foldl (fun s i => endShare j i s) s

/-- R368, R377: the admin CQ of a function has no ring while the EN in force is 0; every other CQ that was created has one. -/
def cqLive (q : Nat) (c : Cq) (s : State) : Bool := decide (64 ≤ q) || (s.fn c.func).admq.cur.en

/-- R394: an entry waits for its CQ; it is dropped where the CQ does not exist or is disabled. -/
def holdEntry (q : Nat) (e : Entry) (s : State) : State :=
  match s.cq q with
  | none => s
  | some c => if c.disabled || !cqLive q c s then s else s.setCq q (some { c with held := c.held ++ [e] })

/-- An entry with a status and nothing else. -/
def plainEntry (cid : Nat) (sq status : Nat) (info : Nat) : Entry :=
  { cid := BitVec.ofNat 16 cid, sqid := sq, status := BitVec.ofNat 16 status, cause := 0, detail := 0, sealZero := 0, reason := 0,
    field := 0, info := BitVec.ofNat 64 info, rcount := 0, share := 0, hostOff := false, bar := false }

/-- The entry of a descriptor of an I/O queue that never started: no share fed a seal, so every merged seal is 0 (DEDUCED,
log 89). -/
def unstarted (cid : Nat) (sq status : Nat) (info : Nat) : Entry := { plainEntry cid sq status info with sealZero := 0xFF }

/-- R315: bit s - 1 for each merged seal that is 0. -/
def sealZeroBits (vs : List Int) : Nat := (vs.zipIdx.map (fun e => if e.1 = 0 then 2 ^ e.2 else 0)).foldl (· + ·) 0

/-- R315: DONE becomes DONE_SEAL_NONZERO where a seal of SEALMASK is not zero. -/
def sealStatus (mask : Nat) (vs : List Int) (status : Nat) : Nat :=
  if status = 0 ∧ mask &&& (255 - sealZeroBits vs) ≠ 0 then 1 else status

/-- Why a job ends: status, trap cause and DETAIL, INFO, gauge REASON and FIELD, HOSTOFF, share and frame. -/
structure JobEnd where
  status : Nat
  cause : Nat
  detail : Word
  info : Nat
  reason : Nat
  field : Nat
  hostOff : Bool
  share : Nat
  frame : List Word
  deriving DecidableEq, Repr

/-- A job that ends with a status alone. -/
def JobEnd.plain (status info : Nat) : JobEnd :=
  { status := status, cause := 0, detail := 0, info := info, reason := 0, field := 0, hostOff := false, share := 0, frame := [] }

/-- R390: little-endian result-block fields (offset, bytes, value). -/
def resultFields (j : Job) (e : Ending) : List (Nat × Nat × Nat) :=
  [(0, 8, e.runtime), (8, 4, e.entry.share), (12, 4, 0)]
    ++ (List.range 8).map (fun i => (16 + 4 * i, 4, ((e.frame[i]?).getD 0).toNat))
    ++ [(48, 8, j.prog.commits), (56, 8, j.prog.resumed)]
    ++ (List.range 24).map (fun i => (64 + 8 * i, 8, (j.prog.counts[i]?).getD 0))
    ++ e.seals.zipIdx.flatMap (fun v =>
        let ls := if sealInRange v.1 then limbsOf 16 v.1 else List.replicate 16 (BitVec.ofNat 20 0xFFFFF)
        ls.zipIdx.map (fun w => (256 + 64 * v.2 + 4 * w.2, 4, w.1.toNat)))

/-- The PASID and PRIEN of a job's context. -/
def jobHost (s : State) (j : Job) : Option (BitVec 20) × Bool :=
  match s.ctx (dNat j.desc 4 2) with
  | some c => (if s.port.pasidEn then some c.pasid else none, c.prien)
  | none => (none, false)

/-- The CQ of a job's SQ. -/
def jobCq (s : State) (j : Job) : Nat := match s.sq j.sq with | some q => q.cq | none => 32768

/-- R390, R394: release the entry of an ended job and forget the job. -/
def releaseEntry (j : Nat) (job : Job) (e : Entry) (s : State) : State := holdEntry (jobCq s job) e (s.setJob j none)

/-- R390, R360: write the result block and hold the entry; while Bus Master Enable is 0 or a host page of the block is being translated the job
stays ending, and a failed translation makes the status HOST_PAGE_INVALID. -/
def tryFinish (j : Nat) (s : State) : State :=
  match s.job j with
  | none => s
  | some job =>
    match job.ending with
    | none => s
    | some e =>
      let res := dNat job.desc 24 8
      if res = 0 then releaseEntry j job e.entry s
      else
        let (pasid, prien) := jobHost s job
        match hostXl .dispatcher job.func pasid prien (0, 0) res (false, true) s with
        | .wait s => s
        | .fail _ s => releaseEntry j job { e.entry with status := 0x0011 } s
        | .at a =>
          match hostXl .dispatcher job.func pasid prien (0, 0) (res + 767) (false, true) s with
          | .wait s => s
          | .fail _ s => releaseEntry j job { e.entry with status := 0x0011 } s
          | .at a2 =>
            let place := fun o => if (res + o) / 4096 = res / 4096 then a + o else a2 - 767 + o
            releaseEntry j job e.entry (ordered ((resultFields job e).foldl (fun s f => putHost (place f.1) f.2.2 f.2.1 s) s))

/-- R389, R391: job j, whose shares have ended, ends with these seals: its completion entry falls due. -/
def recordEnd (j : Nat) (x : JobEnd) (vs : List Int) (s : State) : State :=
  match s.job j with
  | none => s
  | some job =>
    let e : Entry :=
      { cid := BitVec.ofNat 16 (dNat job.desc 2 2), sqid := job.sq, status := BitVec.ofNat 16 (sealStatus (dByte job.desc 9) vs x.status),
        cause := x.cause, detail := x.detail, sealZero := BitVec.ofNat 8 (sealZeroBits vs), reason := x.reason, field := x.field,
        info := BitVec.ofNat 64 x.info, rcount := BitVec.ofNat 32 job.prog.out, share := x.share, hostOff := x.hostOff, bar := bitAt job.desc 8 }
    tryFinish j (s.setJob j (some { job with ending := some { entry := e, frame := x.frame, runtime := s.tick.toNat - job.startedAt, seals := vs } }))

/-- R389, R391: the job ends: its shares end, the seals merge, and its completion entry falls due. -/
def finishJob (j : Nat) (x : JobEnd) (s : State) : State :=
  let s := endShares j s
  match s.job j with
  | none => s
  | some job => recordEnd j x (mergedSeals s job) (sealsFormed job s)

/-- R208: the completion status of a cause, and whether CAUSE and DETAIL go with it. -/
def causeStatus (cause : Nat) : Nat := if cause = 8 then 0x0012 else if cause = 9 then 0x0011 else if cause = 11 then 0x0013 else 0x0010

/-- The job and share index of the share on bent l. -/
def shareOf (s : State) (l : Nat) : Option (Nat × Nat) := (s.bent l).share

/-! ### Saving and restoring a share (R133, R230, R447, R464) -/

/-- R464: a signal source as a save keeps it: a presented event not claimed is saved as pending. -/
def Src.savedForm (e : Src) : Src := { e with pend := e.pend || e.pres.isSome, pres := none }

/-- R402, R464: the whole share i of job j on bent l goes to its save area, and the bent is free. -/
def saveShare (j i l : Nat) (s : State) : State :=
  match s.job j with
  | none => s
  | some job =>
    let sh := Share.saved (s.bent l) (s.core (2 * l)) (s.core (2 * l + 1)) ((List.range 8).map (fun r => s.region l r))
      ((List.range 16).map (fun n => (s.src (signalKey l n)).savedForm))
    let s := s.setJob j (some { job with shares := job.shares.set i sh })
    let s := ((job.save[i]?).getD []).foldl (fun s g => if isLocal s g then savePage (localOf g) s else s) s
    let s := (s.setCore (2 * l) Core.reset).setCore (2 * l + 1) Core.reset
    resetSignals l (s.setBent l { s.bent l with share := none, split := false, ctxid := 0, ptroot := 0, stCtxid := 0, stPtroot := 0, staged := false, cerr := false })

/-- The core holds no unstopped work of a share. -/
def coreStopped (s : State) (k : Nat) : Bool := decide ((s.core k).run = .stopped) || decide ((s.core k).run = .idle)

/-- R230: a share whose cores have all stopped is saved, where its job is being pre-empted. -/
def trySave (l : Nat) (s : State) : State :=
  match (s.bent l).share with
  | none => s
  | some (j, i) =>
    match s.job j with
    | none => s
    | some job =>
      if job.preempted && coreStopped s (2 * l) && (coreStopped s (2 * l + 1) || !(s.bent l).split) then saveShare j i l s else s

/-- R231: a core as it resumes: a stopped one runs, and its stopped pipe work goes on once its pipes are free (R246). -/
def Core.resumed (c : Core) : Core :=
  { c with run := if c.run = .stopped then .running else c.run, stop := 0, notice := none,
           ops := c.ops.map (fun o => if o.st = .stopped then { o with st := .queued } else o),
           vops := c.vops.map (fun o => if o.st = .stopped then { o with st := .queued } else o) }

/-- R464: a source on the bent its share resumes on: an event in service at a core stays with that core of the share. -/
def Src.movedTo (e : Src) (l : Nat) : Src := { e with insv := e.insv.map (fun t => if t = 64 then 64 else 2 * l + t % 2) }

/-- The first poisoned block among the pages of a save area (R133). -/
def savePoison : List Nat → State → Option Nat × State
  | [], s => (none, s)
  | g :: gs, s =>
    if isLocal s g then
      match checkPage (localOf g) s with
      | (some b, s) => (some b, s)
      | (none, s) => savePoison gs s
    else savePoison gs s

/-- R231, R402, R464: share i of job j goes on on bent l, with its yard regions and signal sources. A poisoned word of
the save area ends the job (R133). -/
def restoreShare (j i l : Nat) (s : State) : State :=
  match s.job j with
  | none => s
  | some job =>
    match job.shares[i]? with
    | some (.saved b c0 c1 rs es) =>
      match savePoison ((job.save[i]?).getD []) s with
      | (some blk, s) => finishJob j { JobEnd.plain 0x0013 (s.straps.modId.toNat * 2 ^ 37 + 64 * blk) with share := i } s
      | (none, s) =>
        let t := s.bent l
        let s := s.setBent l { b with dcache := [], dBad := [], icache := t.icache, iBad := t.iBad, tlb := t.tlb, service := t.service, share := some (j, i) }
        let s := (s.setCore (2 * l) c0.resumed).setCore (2 * l + 1) c1.resumed
        let s := rs.zipIdx.foldl (fun s e => s.setRegion l e.2 e.1) s
        let s := es.zipIdx.foldl (fun s e => s.setSrc (signalKey l e.2) (e.1.movedTo l)) s
        s.setJob j (some { job with shares := job.shares.set i (.on l) })
    | _ => s

end Sys2Proof.Machine
end

