-- ==== Sys2Proof/Machine/Ops.lean ====
section
/-! DEFINITION. The shared operations of a control core: registers with their distances (R148 to R151), control
registers in force (R149), checkpoints and rollback (R437 to R440), loads, the store buffer and the stack (R162 to
R169, R186), taking a trap and returning from it (R206 to R222), and issue. -/

namespace Sys2Proof.Machine

/-! ### Modes -/

/-- R142, R154: the current level runs in compatibility mode (STATUS.PXA). -/
def Arch.compat (a : Arch) : Bool := (a.pl = 0 && bitAt a.corecfg 0) || (a.pl = 1 && bitAt a.corecfg 1)

/-- R142: CORECFG.PLUMB. -/
def Arch.plumb (a : Arch) : Bool := bitAt a.corecfg 2

/-- R142: the STATUS word. -/
def Arch.status (a : Arch) : Word :=
  BitVec.ofNat 20 (a.pl.toNat + (if a.compat then 4 else 0) + 16 * a.ld.toNat)

/-- R142: EVMASK.M. -/
def Arch.masked (a : Arch) : Bool := bitAt a.evmask 0

/-- R142: EVMASK.THRESH. -/
def Arch.thresh (a : Arch) : Nat := bitsOf a.evmask 1 4

/-- Set EVMASK.M. -/
def Arch.setMask (a : Arch) (m : Bool) : Arch :=
  { a with evmask := BitVec.ofNat 20 (a.evmask.toNat / 2 * 2 + if m then 1 else 0) }

/-- R155: an address as the current mode maps it. -/
def Arch.map (a : Arch) (x : W40) : W40 :=
  if a.compat then a.pxbase + BitVec.ofNat 40 (x.toNat % 2 ^ 18) else x

/-- R156: an A-register result as the current mode writes it. -/
def Arch.wrapA (a : Arch) (x : W40) : W40 := if a.compat then BitVec.ofNat 40 (x.toNat % 2 ^ 18) else x

/-- R139, R430: split execution of the core's bent. -/
def State.split (s : State) (k : Nat) : Bool := (s.bent (k / 2)).split

/-- The core may issue: a share runs on it, nothing holds it, and it is not the shadow of a pair.
(DESIGN CHOICE, assumption 23). -/
def ready (k : Nat) (s : State) : Bool := decide ((s.core k).run = .running) && (decide (k % 2 = 0) || s.split k)

/-- R113, R114: the translation settings in force on core k at a level. -/
def coreXl (k lvl : Nat) (s : State) : Xl :=
  let b := s.bent (k / 2)
  let func := match b.share with
    | some (j, _) => (s.job j).elim 0 Job.func
    | none => 0
  match s.ctx b.ctxid.toNat with
  | some c => { ctx := b.ctxid.toNat, root := b.ptroot, lvl := lvl, func := c.func, pasid := c.pasid, hostBase := c.hostBase,
                prien := c.prien, supv := c.supv, htrap := c.htrap }
  | none => { ctx := b.ctxid.toNat, root := b.ptroot, lvl := lvl, func := func, pasid := 0, hostBase := 0, prien := false,
              supv := false, htrap := false }

/-! ### Registers and distances -/

/-- R150: the values a reader of register (file, n) may see, word by word: the one written and each older one
still on its way out. -/
def earlyOlds (a : Arch) (file n : Nat) : List Inflight := a.inflight.filter (fun e => decide (e.file = file) && decide (e.n = n))

/-- R150: word i of the operand, chosen freely among the candidates. -/
def pickWord (draw place : Nat) (cands : List W80) (i : Nat) : Nat :=
  ((cands[Config.freeNat draw (8 * place + i) % cands.length]?).getD 0).toNat / 2 ^ (20 * i) % 2 ^ 20

/-- R148, R150, R157: what an instruction reads from a register that holds now: now itself when nothing is on its
way or in compatibility mode; the value before the write where plumb mode fixes it; else word by word free (DESIGN CHOICE, assumption 17). -/
def regRead (s : State) (k file n : Nat) (slot : Nat) (now : W80) (words : Nat) : W80 :=
  let a := s.arch k
  match earlyOlds a file n with
  | [] => now
  | e :: es =>
    if a.compat then now
    else if (e :: es).all Inflight.exact then e.old
    else
      let cands := now :: (e :: es).map Inflight.old
      BitVec.ofNat 80 ((List.range words).foldl (fun v i => v + pickWord s.draw (64 * slot + 16 * file + n) cands i * 2 ^ (20 * i)) 0)

/-- Address register n as held. -/
def Arch.regA (a : Arch) (n : Nat) : W40 := tget 0 a.a n
/-- Stride register n. -/
def Arch.regS (a : Arch) (n : Nat) : W40 := tget 0 a.s n
/-- Data register n as held. -/
def Arch.regD (a : Arch) (n : Nat) : Word := tget 0 a.d n
/-- Accumulator n as held. -/
def Arch.regAC (a : Arch) (n : Nat) : W80 := tget 0 a.ac n

/-- Read DX in an operand slot. -/
def rdD (k : Nat) (x : Reg) (slot : Nat) (s : State) : Word :=
  (regRead s k 1 x.toNat slot (((s.arch k).regD x.toNat).setWidth 80) 1).setWidth 20
/-- Read AX. -/
def rdA (k : Nat) (x : Reg) (slot : Nat) (s : State) : W40 :=
  (regRead s k 0 x.toNat slot (((s.arch k).regA x.toNat).setWidth 80) 2).setWidth 40
/-- Read SX. -/
def rdS (k : Nat) (x : Reg) (s : State) : W40 := (s.arch k).regS x.toNat
/-- Read ACn. -/
def rdAC (k n slot : Nat) (s : State) : W80 := regRead s k 2 n slot ((s.arch k).regAC n) 4

/-- R151: results on their way to a register are dropped by a later immediate result. -/
def Arch.drop (a : Arch) (file n : Nat) : Arch :=
  { a with inflight := a.inflight.filter (fun e => !(decide (e.file = file) && decide (e.n = n))) }

/-- R146, R150: the instruction's fetch is from the bench in plumb mode. -/
def Arch.benchFetch (a : Arch) : Bool := a.plumb && decide (a.pl ≠ 2) && decide (0xFFFFF80000 ≤ (a.map a.pc).toNat)

/-- R148, R157: a result with distance d: while it is on its way the old value is kept beside it. -/
def Arch.slow (a : Arch) (file n : Nat) (old : W80) (d : Nat) : Arch :=
  if a.compat || decide (d ≤ 1) then a.drop file n
  else { a with inflight := a.inflight ++ [{ file := file, n := n, old := old, left := d, exact := a.benchFetch }] }

/-- Write DX with distance d. -/
def wrDd (k : Nat) (x : Reg) (d : Nat) (v : Word) (s : State) : State :=
  let a := s.arch k
  s.setArch k { a.slow 1 x.toNat ((a.regD x.toNat).setWidth 80) d with d := tset 0 a.d x.toNat v }
/-- Write DX, usable by the next instruction. -/
def wrD (k : Nat) (x : Reg) (v : Word) (s : State) : State := wrDd k x 1 v s
/-- Write AX with distance d, as the mode writes it (R156). -/
def wrAd (k : Nat) (x : Reg) (d : Nat) (v : W40) (s : State) : State :=
  let a := s.arch k
  s.setArch k { a.slow 0 x.toNat ((a.regA x.toNat).setWidth 80) d with a := tset 0 a.a x.toNat (a.wrapA v) }
/-- Write AX. -/
def wrA (k : Nat) (x : Reg) (v : W40) (s : State) : State := wrAd k x 1 v s
/-- Write SX. -/
def wrS (k : Nat) (x : Reg) (v : W40) (s : State) : State :=
  let a := s.arch k
  s.setArch k { a with s := tset 0 a.s x.toNat v }
/-- Write ACn with distance d. -/
def wrACd (k n d : Nat) (v : W80) (s : State) : State :=
  let a := s.arch k
  s.setArch k { a.slow 2 n (a.regAC n) d with ac := tset 0 a.ac n v }

/-- R138: the second register of a pair. -/
def pairHi (x : Reg) : Reg := x + 1
/-- R138: a pair's first register is even. -/
def evenReg (x : Reg) : Bool := x.toNat % 2 = 0
/-- Read a data pair, low word first. -/
def rdPair (k : Nat) (x : Reg) (slot : Nat) (s : State) : W40 := rdD k (pairHi x) slot s ++ rdD k x slot s
/-- Write a data pair with distance d. -/
def wrPairD (k : Nat) (x : Reg) (d : Nat) (v : W40) (s : State) : State :=
  wrDd k (pairHi x) d (v.extractLsb' 20 20) (wrDd k x d (v.extractLsb' 0 20) s)
/-- Write a data pair. -/
def wrPair (k : Nat) (x : Reg) (v : W40) (s : State) : State := wrPairD k x 1 v s

/-! ### Control registers in force -/

/-- R161, R164, R165: invalidate caches of the core's bent. -/
def invalidate (k : Nat) (data instr : Bool) (s : State) : State :=
  let b := s.bent (k / 2)
  s.setBent (k / 2) { b with dcache := if data then [] else b.dcache, icache := if instr then [] else b.icache }

/-- R258: bits [20i + w - 1 : 20i] of a done mask replaced. -/
def putBits (m i v n : Nat) : Nat := m % 2 ^ (20 * i) + v % 2 ^ n * 2 ^ (20 * i) + m / 2 ^ (20 * i + n) * 2 ^ (20 * i + n)

/-- R228, R259, R308: a written SPROG or SDONE acts on a suspended stream operation. -/
def onSuspended (f : StreamOp → StreamOp) (c : Core) : Core :=
  { c with ops := c.ops.map (fun o => if o.st = .suspended then f o else o) }

/-- R228: a written VSTART or VDONE acts on a suspended vector instruction. -/
def onSuspendedV (f : VecOp → VecOp) (c : Core) : Core :=
  { c with vops := c.vops.map (fun o => if o.st = .suspended then f o else o) }

/-- R311: limb i of seal n replaced in a partial. -/
def putLimb (v : Int) (i : Nat) (w : Word) : Int :=
  let ls := (limbsOf 16 v).set i w
  ls.zipIdx.foldl (fun t e => t + (if e.2 = 15 then e.1.toInt else (e.1.toNat : Int)) * 100000 ^ e.2) 0

/-- R141, R149: a control-register write takes effect. Indices from 0x1000 are the fields of yard region
(idx - 0x1000) / 16 (R144). -/
def applyCtl (k idx : Nat) (v : W40) (s : State) : State :=
  let c := s.core k
  let a := c.arch
  let w : Word := v.setWidth 20
  let l := k / 2
  if idx = 0x000 then
    let s := s.setArch k { a with corecfg := BitVec.ofNat 20 (bitsOf v 0 5) }
    if a.plumb && !bitAt v 2 then invalidate k true true s else s
  else if idx = 0x001 then s.setArch k { a with ld := BitVec.ofNat 2 (bitsOf v 4 2) }
  else if idx = 0x004 then invalidate k (bitAt v 1) (bitAt v 0) s
  else if idx = 0x008 then s.setArch k { a with sill := v }
  else if idx = 0x009 then s.setArch k { a with pxbase := BitVec.ofNat 40 (v.toNat / 2 ^ 18 * 2 ^ 18) }
  else if idx = 0x010 then s.setArch k { a with sln := v }
  else if idx = 0x011 then s.setCore k { onSuspended (fun o => if o.key.isSome then o else { o with prog := v.toNat }) c with sprog := v }
  else if 0x012 ≤ idx ∧ idx ≤ 0x015 then
    let f := fun (m : BitVec 64) => BitVec.ofNat 64 (putBits m.toNat (idx - 0x012) w.toNat (if idx = 0x015 then 4 else 20))
    s.setCore k { onSuspended (fun o => { o with done := f o.done }) c with sdone := f c.sdone }
  else if idx = 0x018 then s.setCore k { onSuspendedV (fun o => { o with start := w.toNat }) c with vstart := w }
  else if 0x019 ≤ idx ∧ idx ≤ 0x01F then
    let f := fun (m : BitVec 128) => BitVec.ofNat 128 (putBits m.toNat (idx - 0x019) w.toNat (if idx = 0x01F then 8 else 20))
    s.setCore k { onSuspendedV (fun o => { o with done := f o.done }) c with vdone := f c.vdone }
  else if idx = 0x020 then s.setArch k { a with vgrp := w }
  else if 0x028 ≤ idx ∧ idx ≤ 0x02A then s.setArch k { a with ls := tset 0 a.ls (idx - 0x028) v }
  else if 0x02C ≤ idx ∧ idx ≤ 0x02E then s.setArch k { a with le := tset 0 a.le (idx - 0x02C) v }
  else if 0x030 ≤ idx ∧ idx ≤ 0x032 then s.setArch k { a with lc := tset 0 a.lc (idx - 0x030) v }
  else if idx = 0x040 then
    let x := v.toNat % 2 ^ 12
    let s := s.setCore k { c with ops := c.ops.map (fun o => if (o.st = .suspended ∨ o.st = .stopped) ∧ o.members.any (fun m => decide (m.xl.ctx ≠ x)) then { o with left := true } else o) }
    s.setBent l { s.bent l with ctxid := BitVec.ofNat 12 x }
  else if idx = 0x041 then s.setBent l { s.bent l with ptroot := v }
  else if idx = 0x048 then s.setArch k { a with evmask := BitVec.ofNat 20 (bitsOf v 0 5) }
  else if idx = 0x051 then s.setCore k { c with arch := { a with tickcmp := v }, timer := false }
  else if idx = 0x060 then s.setArch k { a with yrsel := BitVec.ofNat 20 (bitsOf v 0 3) }
  else if 0x100 ≤ idx ∧ idx < 0x180 then
    let n := (idx - 0x100) / 16 + 1
    s.setCore k { c with seals := tset 0 c.seals n (putLimb (c.sealAt n) ((idx - 0x100) % 16) w) }
  else if 0x1000 ≤ idx then
    let r := (idx - 0x1000) / 16
    let g := s.region l r
    if idx % 16 = 0 then s.setRegion l r { g with base := BitVec.ofNat 25 v.toNat }
    else if idx % 16 = 1 then s.setRegion l r { g with lim := BitVec.ofNat 25 v.toNat }
    else s.setRegion l r { g with en := bitAt v 17, tag := BitVec.ofNat 12 (bitsOf v 5 12), anyctx := bitAt v 3, w := bitAt v 2, rd := bitAt v 1 }
  else s

/-- R152: every control-register write still in its shadow takes effect, in order. -/
def settleShadow (k : Nat) (s : State) : State :=
  let sh := (s.arch k).shadow
  let s := s.setArch k { s.arch k with shadow := [] }
  sh.foldl (fun s e => applyCtl k e.idx e.val s) s

/-- R152: every result and control-register effect is in place. -/
def settle (k : Nat) (s : State) : State := settleShadow k (s.setArch k { s.arch k with inflight := [] })

/-- R148, R151: one instruction later: results that arrive drop out, with every older one to the same register. -/
def tickInflight : List Inflight → List Inflight
  | [] => []
  | e :: es =>
    let r := tickInflight es
    let dead := es.any (fun f => decide (f.file = e.file) && decide (f.n = e.n) && decide (f.left ≤ 1))
    if e.left ≤ 1 || dead then r else { e with left := e.left - 1 } :: r

/-- R149: one instruction later: the writes whose shadow ends take effect. -/
def tickShadow (k : Nat) (s : State) : State :=
  let sh := (s.arch k).shadow
  let due := sh.filter (fun e => decide (e.left ≤ 1))
  let rest := (sh.filter (fun e => !decide (e.left ≤ 1))).map (fun e => { e with left := e.left - 1 })
  due.foldl (fun s e => applyCtl k e.idx e.val s) (s.setArch k { s.arch k with shadow := rest })

/-- R151: an instruction's own write of a control register overtakes an earlier MOVC write in its shadow. -/
def dropCtl (k : Nat) (p : Nat → Bool) (s : State) : State :=
  let a := s.arch k
  s.setArch k { a with shadow := a.shadow.filter (fun e => !p e.idx) }

/-- The MOVC writes still in their shadow take effect now for the registers that p names (R151): those that RETE writes. -/
def settleCtl (k : Nat) (p : Nat → Bool) (s : State) : State :=
  ((s.arch k).shadow.filter (fun e => p e.idx)).foldl (fun s e => applyCtl k e.idx e.val s) (dropCtl k p s)

/-- R149, R157: a MOVC write: in force from the third instruction on, at once in compatibility mode. -/
def writeCtl (k idx : Nat) (v : W40) (s : State) : State :=
  let a := s.arch k
  if a.compat then applyCtl k idx v (dropCtl k (fun i => decide (i = idx)) s)
  else s.setArch k { a with shadow := a.shadow ++ [{ idx := idx, val := v, left := 3 }] }

/-- R149: a control-register write still in its shadow. -/
def pendingCtl (k idx : Nat) (s : State) : Option W40 :=
  ((s.arch k).shadow.filter (fun e => decide (e.idx = idx))).getLast?.map CtlWrite.val

/-! ### Checkpoints and rollback -/

/-- What a core restarts as at its checkpoint (R440): an instruction that waited is issued again. -/
def Run.restarted : Run → Run
  | .idle => .idle
  | .stopped => .stopped
  | _ => .running

/-- R439, R441: a commit of a staged pair whose effect a rollback takes back in its shadow stands staged again, to be made once. -/
def restage (k : Nat) (e : CtlWrite) (s : State) : State :=
  let l := k / 2
  let r := (e.idx - 0x1000) / 16
  if e.idx = 0x040 then s.setBent l { s.bent l with stCtxid := e.val.setWidth 20, staged := true }
  else if e.idx = 0x041 then s.setBent l { s.bent l with stPtroot := e.val, staged := true }
  else if e.idx < 0x1000 then s
  else if e.idx % 16 = 0 then s.setRegion l r { s.region l r with stBase := BitVec.ofNat 25 e.val.toNat, staged := true }
  else if e.idx % 16 = 1 then s.setRegion l r { s.region l r with stLim := BitVec.ofNat 25 e.val.toNat, staged := true }
  else s

/-- R439, R440: back to the checkpoint: stores since then are discarded, the registers reloaded, and the outputs sent since then are
passed again without being sent. -/
def rollback (k : Nat) (s : State) : State :=
  let s := (s.arch k).shadow.foldl (fun s e => restage k e s) s
  let c := s.core k
  s.setCore k { c with run := c.run.restarted, arch := c.ckpt, since := 0, stores := c.stores.filter StoreEntry.released, replay := c.sent }

/-- R445, R460: the armed comparator test concerns core k. -/
def testArmed (k : Nat) (s : State) : Bool :=
  s.pair.armed && decide (s.pair.curBent = s.physOf (k / 2)) && !s.split k

/-- R445, R460: the forced event takes place: the pair rolls back, and the event is counted and logged. -/
def forcedEvent (k : Nat) (s : State) : State :=
  let p := s.physOf (k / 2)
  let m := s.pair.curMode
  let s := rollback k { s with pair := { s.pair with armed := false, fired := true } }
  let s := countPair p 5 (countPair p 3 (countPair p m s))
  let s := logErr false (0x0048 + m) 0 p 0 1 0 s
  logErr false 0x004E 0 p 0 m 0 s

/-- R437, R438, R153: the pair takes a checkpoint, which releases its stores; inside a shadow it falls due later.
In split execution there is none. An armed signature test fires here (R460). -/
def checkpoint (k : Nat) (s : State) : State :=
  if s.split k then s
  else if testArmed k s && decide (s.pair.curMode = 1) then forcedEvent k s
  else
    let c := s.core k
    if c.arch.shadow ≠ [] then s.setCore k { c with since := 256 }
    else s.setCore k { c with ckpt := c.arch, since := 0, rolls := 0, checkerRolls := 0, sent := [], replay := [],
                              stores := c.stores.map (fun e => { e with released := true }) }

/-! ### Caches and the store buffer -/

/-- R163: a write to device memory updates a line of the bent's data cache that holds its words. -/
def lineUpdate (l : Nat) : List (Place × Word) → State → State
  | [], s => s
  | (.dev a, w) :: r, s =>
    let b := s.bent l
    match tget [] b.dcache (a / 64) with
    | [] => lineUpdate l r s
    | ws => lineUpdate l r (s.setBent l { b with dcache := tset [] b.dcache (a / 64) (ws.set (a % 64) w) })
  | _ :: r, s => lineUpdate l r s

/-- R163, R264: a buffered store is performed. -/
def performEntry (k : Nat) (e : StoreEntry) (s : State) : State :=
  let ws := e.at_.zip e.words
  lineUpdate (k / 2) ws (writePlaces (k / 2) ws s)

/-- R167, R169: the whole buffer drains; in paired execution a checkpoint releases it first, where R153 allows one
(DESIGN CHOICE, assumption 70). -/
def drainAll (k : Nat) (s : State) : State :=
  let s := checkpoint k s
  let es := (s.core k).stores
  es.foldl (fun s e => performEntry k e s) (s.setCore k { s.core k with stores := [] })

/-- R168: two lists of places share a word. -/
def overlaps (a b : List Place) : Bool := a.any (fun p => b.contains p)

/-- R168: the youngest buffered store that shares a word. -/
def youngest (es : List StoreEntry) (ps : List Place) : Option StoreEntry := es.reverse.find? (fun e => overlaps e.at_ ps)

/-- R169: in split execution the buffer drains up to and including the youngest overlapping store. -/
def drainTo (k : Nat) (ps : List Place) : Nat → State → State
  | 0, s => s
  | n + 1, s =>
    match (s.core k).stores with
    | [] => s
    | e :: es =>
      if overlaps (e.at_ ++ es.flatMap StoreEntry.at_) ps then drainTo k ps n (performEntry k e (s.setCore k { s.core k with stores := es }))
      else s

/-- R168, R169: the load waits for a store that overlaps it only in part. -/
def drainFor (k : Nat) (ps : List Place) (s : State) : State :=
  if s.split k then drainTo k ps (s.core k).stores.length s else drainAll k s

/-- R162: a line enters a cache of 64 sets of four lines; which line leaves a full set is free (DESIGN CHOICE, assumption 24). -/
def lineFill {α : Type} [DecidableEq α] (d : α) (draw blk : Nat) (v : α) (t : Tbl α) : Tbl α :=
  let set := (t.map Prod.fst).filter (fun b => decide (b % 64 = blk % 64) && decide (b ≠ blk))
  let t := if set.length < 4 then t else terase t ((set[Config.freeNat draw blk % set.length]?).getD 0)
  tset d t blk v

/-- R162, R163: a block fetched into the data cache. -/
def dcacheFill (l blk : Nat) (ws : List Word) (s : State) : State :=
  let b := s.bent l
  s.setBent l { b with dcache := lineFill [] s.draw blk ws b.dcache, dBad := terase b.dBad blk }

/-- R97: a data-cache line is dropped. -/
def dcacheDrop (l blk : Nat) (s : State) : State :=
  let b := s.bent l
  s.setBent l { b with dcache := terase b.dcache blk, dBad := terase b.dBad blk }

/-- R97: data of the block has not yet been written to device memory: a store of the bent is buffered for it, or its controller holds
an entry (DESIGN CHOICE, assumption 32). -/
def lineDirty (l blk : Nat) (s : State) : Bool :=
  let at_ := fun (p : Place) => match p with | .dev a => decide (a / 64 = blk) | _ => false
  (s.core (2 * l)).stores.any (fun e => e.at_.any at_) || (s.core (2 * l + 1)).stores.any (fun e => e.at_.any at_) ||
    (mergeEntry s (localOf (64 * blk) / 64)).isSome

/-- R97: the data-cache line of a block as the bent holds it. -/
def dataLine (s : State) (l blk : Nat) : SramWord := { kind := 0, unit := s.physOf l, addr := 64 * blk, cell := tget .good (s.bent l).dBad blk }

/-- R162, R164: words of one device block through the data cache. A line held may have been dropped; where it
differs from memory, which of the two is read is free (DESIGN CHOICE, assumption 24). A line with a double-bit error is fetched again, or is
lost with data not yet written (R97). -/
def cacheRead (k v blk : Nat) (offs : List Nat) (s : State) : Res (List Word) :=
  let l := k / 2
  let fill : State → Res (List Word) := fun s =>
    match blkRead s (localOf (64 * blk) / 64) (List.range 64) with
    | (none, s) => .trap (poisonTrap .read v false false) s
    | (some ws, s) => .ok (offs.map (fun o => (ws[o]?).getD 0)) (if (s.arch k).plumb then s else dcacheFill l blk ws s)
  match tget [] (s.bent l).dcache blk with
  | [] => fill s
  | held =>
    if (s.arch k).plumb then fill s
    else
      let old := offs.map (fun o => (held[o]?).getD 0)
      match sramRead (dataLine s l blk) (fun s => s.setBent l { s.bent l with dBad := terase (s.bent l).dBad blk }) s with
      | (false, s) =>
        if lineDirty l blk s then .trap { cause := 21, pc := 0, addr := BitVec.ofNat 40 v, detail := 1 } (dcacheDrop l blk s)
        else fill (dcacheDrop l blk s)
      | (true, s) =>
        if (blkRead s (localOf (64 * blk) / 64) offs).1 = some old then .ok old s
        else if Config.freeBit s.draw blk then .ok old s.drawn else fill s.drawn

/-- Read translated places for a scalar load, device memory through the data cache. -/
def loadFrom (k : Nat) : Nat → Nat → List Place → State → Res (List Word)
  | _, _, [], s => .ok [] s
  | 0, _, _, s => .ok [] s
  | fuel + 1, v, p :: ps, s =>
    match p with
    | .dev a =>
      if isLocal s a then
        let offs := blockRun (a / 64) (p :: ps)
        (cacheRead k v (a / 64) offs s).bind fun ws s =>
          (loadFrom k fuel (v + offs.length) ((p :: ps).drop offs.length) s).bind fun r s => .ok (ws ++ r) s
      else if noRoute s a then .stall s
      else if Config.freeBit s.draw a then .trap (poisonTrap .read v false false) s.drawn
      else
        let w := Config.freeWord s.draw a
        (loadFrom k fuel (v + 1) ps s.drawn).bind fun r s => .ok (w :: r) s
    | q =>
      (readSmall (.core k) .read (v % 2 ^ 40) q s).bind fun w s =>
        (loadFrom k fuel (v + 1) ps s).bind fun r s => .ok (w :: r) s

/-- A place of the bench. -/
def Place.isBench : Place → Bool
  | .bench _ => true
  | _ => false

/-- R150: what plumb mode fixes of the results on their way ends. -/
def endExact (k : Nat) (s : State) : State :=
  let a := s.arch k
  s.setArch k { a with inflight := a.inflight.map (fun e => { e with exact := false }) }

/-- R150: a result on its way is one that plumb mode fixes. -/
def Arch.exactHeld (a : Arch) : Bool := a.inflight.any Inflight.exact

/-- R79: n words from a virtual address all lie in the bench's window. -/
def inBench (v n : Nat) : Bool := decide (0xFFFFF80000 ≤ v) && decide (v + n ≤ 2 ^ 40)

/-- R150: an instruction that reaches outside the bench ends what plumb mode fixes, for its own operands too. -/
def noteAccess (k v n : Nat) (s : State) : State :=
  if inBench v n || !(s.arch k).exactHeld then s
  else
    let s := endExact k s
    s.setCore k { s.core k with outside := true }

/-- What a load delivers: its words and their distance (R148). -/
structure Loaded where
  words : List Word
  dist : Nat

/-- R150: a result loaded from outside the bench is not fixed by plumb mode. -/
def noteLoad (k : Nat) (r : Loaded) (s : State) : State := if r.dist = 2 then s else endExact k s

/-- R155, R168, R185: load n words at a register address x, at level lvl: from the youngest store that matches
exactly, else after a partly overlapping one has drained, else from memory. -/
def loadAt (k lvl : Nat) (x : W40) (n : Nat) (s : State) : Res Loaded :=
  let v := ((s.arch k).map x).toNat
  (xlate (.core k) (coreXl k lvl s) .read v n (noteAccess k v n s)).bind fun ps s =>
    let dist := if ps.all Place.isBench then 2 else 3
    match youngest (s.core k).stores ps with
    | some e =>
      if e.at_ = ps then .ok { words := e.words, dist := dist } s
      else (loadFrom k n v ps (drainFor k ps s)).bind fun ws s => .ok { words := ws, dist := dist } s
    | none => (loadFrom k n v ps s).bind fun ws s => .ok { words := ws, dist := dist } s

/-- Load at the core's own level. -/
def load (k : Nat) (x : W40) (n : Nat) (s : State) : Res Loaded := loadAt k (s.arch k).pl.toNat x n s

/-- R167: entries of the gated store buffer. -/
def bufferSize (k : Nat) (s : State) : Nat := if s.split k then 16 else 32

/-- R167: the words of one store, two to an entry. -/
def entriesOf (func : Nat) (rel : Bool) : List Place → List Word → List StoreEntry
  | p :: q :: ps, v :: w :: ws => { at_ := [p, q], words := [v, w], func := func, released := rel } :: entriesOf func rel ps ws
  | [p], [w] => [{ at_ := [p], words := [w], func := func, released := rel }]
  | _, _ => []

/-- R205: the place is a word the instruction cache holds. -/
def inIcache (k : Nat) (s : State) : Place → Bool
  | .dev a => tget false (s.bent (k / 2)).icache (a / 64)
  | _ => false

/-- Forget the lines of the instruction cache that hold the places. -/
def icacheDrop (k : Nat) (ps : List Place) (s : State) : State :=
  let b := s.bent (k / 2)
  s.setBent (k / 2) { b with icache := tdrop (fun blk => ps.any (fun p => decide (p.isBench = false) && (match p with | .dev a => decide (a / 64 = blk) | _ => false))) b.icache }

/-- R146, R205: n words stored at v in compatibility mode meet the words that the fetch buffer may hold: the four from next on. -/
def inFetchBuffer (a : Arch) (v n : Nat) : Bool :=
  (List.range 5).any (fun i => let x := (a.map (a.pc + BitVec.ofNat 40 (i + 1))).toNat; decide (v ≤ x) && decide (x < v + n))

/-- R167, R432: translated words enter the store buffer; a full buffer holds issue. -/
def bufferStore (k func : Nat) (ps : List Place) (ws : List Word) (s : State) : Res Unit :=
  let es := entriesOf func (s.split k) ps ws
  if (s.core k).stores.length + es.length > bufferSize k s then .stall s
  else .ok () (s.setCore k { s.core k with stores := (s.core k).stores ++ es })

/-- R205: in compatibility mode a store into code that the instruction cache or the fetch buffer holds drains the store buffer, and the line
goes. Whether the fetch buffer holds a word ahead is free (DESIGN CHOICE, assumption 71). -/
def storeCode (k v : Nat) (ps : List Place) (s : State) : State :=
  let a := s.arch k
  if !a.compat then s
  else if ps.any (inIcache k s) then icacheDrop k ps (drainAll k s)
  else if inFetchBuffer a v ps.length then (if Config.freeBit s.draw v then drainAll k s.drawn else s.drawn)
  else s

/-- R155, R167, R185, R205: store words at a register address x, at level lvl. -/
def storeAt (k lvl : Nat) (x : W40) (ws : List Word) (s : State) : Res Unit :=
  let v := ((s.arch k).map x).toNat
  let xl := coreXl k lvl s
  (xlate (.core k) xl .write v ws.length (noteAccess k v ws.length s)).bind fun ps s =>
    (bufferStore k xl.func ps ws s).bind fun _ s => .ok () (storeCode k v ps s)

/-- Store at the core's own level. -/
def store (k : Nat) (x : W40) (ws : List Word) (s : State) : Res Unit := storeAt k (s.arch k).pl.toNat x ws s

/-! ### Traps -/

/-- A trap whose frame PC is filled where it is taken. -/
def trapOf (cause : Nat) (addr : Nat) (detail : Nat) : Trap :=
  { cause := cause, pc := 0, addr := BitVec.ofNat 40 addr, detail := BitVec.ofNat 20 detail }

/-- R232: the Pepixo number of a cause. -/
def pepixoNum (cause : Nat) : Nat :=
  match cause with
  | 11 => 1
  | 1 => 2
  | 2 => 3
  | 3 => 3
  | 6 => 4
  | 5 => 5
  | 4 => 6
  | 7 => 7
  | 8 => 8
  | 9 => 8
  | 10 => 9
  | 14 => 10
  | 15 => 11
  | 16 => 12
  | 17 => 13
  | c => 32 + c

/-- R214, R215: the 8 frame words of a trap with NUM, PXN and the suspended-work bits. -/
def frameWords (a : Arch) (t : Trap) (num : Nat) (pxn sres vres : Bool) : List Word :=
  [t.pc.extractLsb' 0 20, t.pc.extractLsb' 20 20, a.status,
   BitVec.ofNat 20 (num + (if sres then 64 else 0) + (if vres then 128 else 0) + (if a.masked then 256 else 0) + if pxn then 512 else 0),
   t.addr.extractLsb' 0 20, t.addr.extractLsb' 20 20, t.detail, a.sill.extractLsb' 0 20]

/-- R208, R219: the trap ends the job of the core's share. -/
def endByTrap (k cause : Nat) (status : Nat) (t : Trap) (frame : List Word) (s : State) : State :=
  match shareOf s (k / 2) with
  | none => s.setCore k { s.core k with run := .stopped }
  | some (j, i) =>
    finishJob j { status := status, cause := cause, detail := t.detail, info := t.addr.toNat, reason := 0, field := 0,
                  hostOff := false, share := i, frame := frame } s

/-- R218, R219: a trap taken at service level: EVENT, TIMER and PREEMPT_NOTICE enter the firmware's handler with a
frame in the emergency area; every other cause ends the job. -/
def serviceTrap (k : Nat) (t : Trap) (sres vres : Bool) (s : State) : State :=
  let a := s.arch k
  let frame := frameWords a t t.cause false sres vres
  if a.emerg.length ≥ 4 then endByTrap k 21 0x0010 { t with cause := 21, detail := 3 } frame s
  else if t.cause = 16 ∨ t.cause = 17 ∨ t.cause = 22 then
    s.setArch k { (a.setMask true) with emerg := frame :: a.emerg, pl := 2, ld := 0, pc := BitVec.ofNat 40 (0x400 + 8 * t.cause) }
  else
    let status := if t.cause = 21 ∧ t.detail = 1 then 0x0013 else if t.cause = 21 then 0x0010 else causeStatus t.cause
    endByTrap k t.cause status t frame s

/-- R212: the word of the bent's service store at an offset; none before the steward core has written the store. -/
def serviceWord (s : State) (l off : Nat) : Option Word :=
  if off < 16384 then (s.bent l).service.map (fun slot => Config.serviceWord slot off) else none

/-- R97: the instruction-cache line of a block as the bent holds it. -/
def codeLine (s : State) (l blk : Nat) : SramWord := { kind := 0, unit := s.physOf l, addr := 64 * blk, cell := tget .good (s.bent l).iBad blk }

/-- R97: an instruction-cache line is dropped. -/
def lineGone (l blk : Nat) (s : State) : State :=
  let b := s.bent l
  s.setBent l { b with icache := tdrop (fun x => decide (x = blk)) b.icache, iBad := terase b.iBad blk }

/-- R97, R162, R165: a fetch through the instruction cache: from its line where it holds one that is good, else from memory, into a line. -/
def fetchCached (k v blk : Nat) (fresh : State → Res Unit) (s : State) : Res Unit :=
  let l := k / 2
  let fill := fun (s : State) => (fresh s).bind fun _ s =>
    .ok () (s.setBent l { s.bent l with icache := lineFill false s.draw blk true (s.bent l).icache, iBad := terase (s.bent l).iBad blk })
  if !tget false (s.bent l).icache blk then fill s
  else match sramRead (codeLine s l blk) (fun s => s.setBent l { s.bent l with iBad := terase (s.bent l).iBad blk }) s with
    | (false, s) => fill (lineGone l blk s)
    | (true, s) => match fresh s with
      | .ok _ s' => .ok () s'
      | r => if Config.freeBit s.draw v then .ok () s.drawn else r

/-- R159, R165, R212, R213: an instruction word can be fetched at v. -/
def fetchWord (k lvl v : Nat) (s : State) : Res Unit :=
  if lvl = 2 then (if (serviceWord s (k / 2) v).isSome then .ok () s else .stall s)
  else
    (xlate (.core k) (coreXl k lvl s) .fetch v 1 s).bind fun ps s =>
      let fresh := fun (s : State) => (readPlaces (.core k) .fetch v ps s).bind fun _ s => Res.ok () s
      match ps with
      | [.dev a] => if (s.arch k).plumb then fresh s else fetchCached k v (a / 64) fresh s
      | _ => fresh s

/-- R211: the handler address of a number at supervisor level. -/
def handlerPc (a : Arch) (num : Nat) : W40 :=
  if bitAt a.corecfg 1 then a.pxbase + BitVec.ofNat 40 (0x400 + 8 * num) else BitVec.ofNat 40 (0x400 + 8 * num)

/-- R222: suspended work remembers the frame that reported it. -/
def recordFrame (k : Nat) (f : FrameRef) (sres vres : Bool) (s : State) : State :=
  let c := s.core k
  s.setCore k { c with
    ops := if sres then c.ops.map (fun o => if o.st = .suspended ∧ o.frame = none then { o with frame := some f, trap := none } else o) else c.ops
    vops := if vres then c.vops.map (fun o => if o.st = .suspended ∧ o.frame = none then { o with frame := some f, trap := none } else o) else c.vops }

/-- R167: the buffer has room for the four entries of a frame, drained first where it has not. -/
def roomForFrame (k : Nat) (s : State) : State := if (s.core k).stores.length + 4 > bufferSize k s then drainAll k s else s

/-- R207 to R219: take a trap whose frame PC is filled. Every earlier result is in place first (R152). At supervisor
level: no trap in a context with SUPV 0, nor for cause 9 with HTRAP 0, as the core's context has them now, for pipe work too (DESIGN
CHOICE, assumption 72); STACK_SILL where the frame cannot be written (R217); MACHINE_CHECK where the handler's first instruction cannot
be fetched (R213). A PREEMPT_NOTICE taken is no longer asked for. -/
def takeTrap (k : Nat) (t : Trap) (sres vres : Bool) (s0 : State) : State :=
  let s := settle k s0
  let a := s.arch k
  let xl := coreXl k a.pl.toNat s
  let s := s.setCore k { s.core k with run := .running, chain := [], chainKey := none, notice := if t.cause = 22 then none else (s.core k).notice }
  let px := bitAt a.corecfg 1
  let num := if px then pepixoNum t.cause else t.cause
  let frame := frameWords a t num px sres vres
  if t.cause = 13 ∨ t.cause = 21 ∨ a.pl = 2 then serviceTrap k t sres vres s
  else if !xl.supv then endByTrap k t.cause (causeStatus t.cause) t frame s
  else if t.cause = 9 ∧ !xl.htrap then endByTrap k 9 0x0011 t frame s
  else
    let base := a.wrapA (a.regA 15 - 8)
    let fail := fun (bit : Nat) (s : State) =>
      serviceTrap k { cause := 13, pc := t.pc, addr := a.map base, detail := BitVec.ofNat 20 (num + 64 + bit) } false false s
    if base.toNat < a.sill.toNat then fail 0 s
    else
      match xlate (.core k) xl .write ((a.map base).toNat) 8 s with
      | .trap _ s => fail 128 s
      | .stall s => { s with cores := s0.cores }
      | .ok ps s =>
        let s := roomForFrame k s
        let s := s.setCore k { s.core k with stores := (s.core k).stores ++ entriesOf xl.func (s.split k) ps frame }
        let at_ := a.map base
        let a := s.arch k
        let pc := handlerPc a num
        let s := s.setArch k { (a.setMask true) with a := tset 0 a.a 15 base, pl := 1, ld := 0, pc := pc }
        let s := recordFrame k (.stack at_) sres vres s
        match fetchWord k 1 (((s.arch k).map pc).toNat) s with
        | .trap _ s => serviceTrap k { cause := 21, pc := pc, addr := pc, detail := 2 } false false s
        | .stall s => s
        | .ok _ s => s

/-! ### The stack and return from a trap -/

/-- R137, R186, R217: push words below A15, modulo 2^40: STACK_SILL below SILL or where translation fails (DEDUCED, assumption 28). -/
def push (k : Nat) (ws : List Word) (s : State) : Res Unit :=
  let a := s.arch k
  let sp := rdA k 15 3 s
  let base := a.wrapA (sp - BitVec.ofNat 40 ws.length)
  let v := (a.map base).toNat
  if base.toNat < a.sill.toNat then .trap (trapOf 13 v 0) s
  else
    let xl := coreXl k a.pl.toNat s
    match xlate (.core k) xl .write v ws.length (noteAccess k v ws.length s) with
    | .trap _ s => .trap (trapOf 13 v 128) s
    | .stall s => .stall s
    | .ok ps s => (bufferStore k xl.func ps ws s).bind fun _ s => .ok () (storeCode k v ps (wrA k 15 base s))

/-- R137, R186: pop n words. -/
def pop (k n : Nat) (s : State) : Res Loaded :=
  let sp := rdA k 15 3 s
  (load k sp n s).bind fun r s => .ok r (wrA k 15 (sp + BitVec.ofNat 40 n) s)

/-- R221: read the 8 words of the frame at A15, two at a time. -/
def loadPairs (k : Nat) (x : W40) : Nat → State → Res (List Word)
  | 0, s => .ok [] s
  | n + 1, s => (load k x 2 s).bind fun r s => (loadPairs k (x + 2) n s).bind fun rs s => .ok (r.words ++ rs) s

/-- R235: words of an element. -/
def Fmt.len : Fmt → Nat
  | .word => 1
  | .amount n _ => n
  | .key n => n
  | .record r _ => r.len

/-- R298, R301: the destination of the member is compacted. -/
def Member.compacts (m : Member) : Bool := (decide (m.lop = 0x3C) && decide (m.fn ≠ 0)) || (decide (m.lop = 0x3D) && decide (m.fn = 0))

/-- R265: the words a member may have written without a FENCE S. -/
def Member.wrote (o : StreamOp) (m : Member) : List Past :=
  (match m.dst with
    | .mem b st => [{ ctx := m.xl.ctx, base := b, stride := st, w := m.fd.len, n := if m.compacts then o.ks.ocount else o.sln }]
    | _ => [])
  ++ (match o.key with
    | some kb => if m.lop = 0x3C ∧ kb.xen = true then [{ ctx := m.xl.ctx, base := kb.xaddr, stride := kb.xstride, w := m.fc.len, n := o.ks.xcount }] else []
    | none => [])

/-- R265: the words an operation may have written without a FENCE S. -/
def StreamOp.wrote (o : StreamOp) : List Past := o.members.flatMap (Member.wrote o)

/-- R222, R261, R339: suspended work recorded with frame f is resumed where its bit is still set, once its pipes are free (R246), and else
abandoned, an abandoned stream operation with every operation queued behind it. -/
def resumeWork (f : FrameRef) (sres vres : Bool) (c : Core) : Core :=
  let mineS := fun (o : StreamOp) => decide (o.st = .suspended) && decide (o.frame = some f)
  let mineV := fun (o : VecOp) => decide (o.st = .suspended) && decide (o.frame = some f)
  let ops := if c.ops.any mineS then
      (if sres then c.ops.map (fun o => if mineS o then { o with st := .queued, frame := none } else o) else c.ops.takeWhile (fun o => !mineS o))
    else c.ops
  let vops := if c.vops.any mineV then
      (if vres then c.vops.map (fun o => if mineV o then { o with st := .queued, frame := none } else o) else c.vops.filter (fun o => !mineV o))
    else c.vops
  { c with ops := ops, vops := vops,
           past := c.past ++ (if sres then [] else (c.ops.filter mineS).flatMap StreamOp.wrote) }

/-- R220, R221: the state a RETE restores from the frame words f read at level lvl. A MOVC write of STATUS, EVMASK or SILL in its shadow
comes before it (R151); any other shadow goes on (R149). -/
def restoreFrame (k lvl : Nat) (ref : FrameRef) (f : List Word) (s : State) : State :=
  let w : Nat → Word := fun i => (f[i]?).getD 0
  let s := settleCtl k (fun i => decide (i = 0x001) || decide (i = 0x048) || decide (i = 0x008)) s
  let a := { s.arch k with pl := BitVec.ofNat 2 (bitsOf (w 2) 0 2), ld := BitVec.ofNat 2 (bitsOf (w 2) 4 2) }
  let a15 := if lvl < 2 then a.wrapA (a.regA 15 + 8) else a.regA 15
  let s := s.setArch k
    { ((if lvl < 2 then a.drop 0 15 else a).setMask (bitAt (w 3) 8)) with
      pc := w 1 ++ w 0, a := tset 0 a.a 15 a15, emerg := if lvl < 2 then a.emerg else a.emerg.tail, sill := a15.extractLsb' 20 20 ++ w 7 }
  s.setCore k (resumeWork ref (bitAt (w 3) 6) (bitAt (w 3) 7) (s.core k))

/-- R221, R222: RETE. A frame with a higher level traps PRIVILEGE_RETURN. -/
def doRete (k : Nat) (s : State) : Res (Option W40) :=
  let a := s.arch k
  let lvl := a.pl.toNat
  let sp := rdA k 15 0 s
  let frame : Res (FrameRef × List Word) :=
    if lvl ≥ 2 then .ok (.slot a.emerg.length, a.emerg.headD []) s
    else (loadPairs k sp 4 s).bind fun ws s => .ok (.stack (a.map sp), ws) s
  frame.bind fun f s =>
    let st := (f.2[2]?).getD 0
    if bitsOf st 0 2 > lvl then .trap (trapOf 3 (a.map sp).toNat st.toNat) s
    else
      let s := restoreFrame k lvl f.1 f.2 s
      .ok (some (s.arch k).pc) s

/-! ### Issue -/

/-- The two words of a 40-bit value. -/
def wordsOf (v : W40) : List Word := [v.extractLsb' 0 20, v.extractLsb' 20 20]

/-- R80: the bench word at an offset of the core's window. -/
def benchIndex (k o : Nat) (s : State) : Nat := if s.split k then k % 2 * 262144 + o else o

/-- R296: the counts of a key block, words 12 to 15. -/
def writeCounts (k : Nat) (kb : KeyBlock) (o x : Nat) (s : State) : State :=
  let b := s.bent (k / 2)
  let i := benchIndex k (kb.addr - 0xFFFFF80000 + 12) s
  s.setBent (k / 2) { b with bench := tsetMany 0 b.bench i (wordsOf (BitVec.ofNat 40 o) ++ wordsOf (BitVec.ofNat 40 x)) }

/-- R296: an operation stops or finishes: its counts are written. -/
def noteCounts (k : Nat) (o : StreamOp) (s : State) : State :=
  match o.key with
  | some kb => writeCounts k kb o.ks.ocount o.ks.xcount s
  | none => s

/-- R132, R226: an operation that runs, or one held for a member of its chain and then given a trap. -/
def StreamOp.stops (o : StreamOp) : Bool := decide (o.st = .running) || (decide (o.st = .stopped) && o.trap.isSome)

/-- R226, R258: the running stream operation stops; one that has faulted is suspended (R262). -/
def stopStream (k : Nat) (s : State) : State :=
  let c := s.core k
  match c.ops.find? StreamOp.stops with
  | none => s
  | some o =>
    let stop := fun (o : StreamOp) => if o.stops then { o with st := if o.trap.isSome then .suspended else .stopped } else o
    noteCounts k o (s.setCore k { c with ops := c.ops.map stop, sprog := BitVec.ofNat 40 o.prog })

/-- R226, R230: running pipe work stops at its group boundary and can go on later. -/
def stopPipes (k : Nat) (s : State) : State :=
  let s := stopStream k s
  let c := s.core k
  s.setCore k { c with vops := c.vops.map (fun o => if o.st = .running then { o with st := .stopped, again := true } else o) }

/-- R230, R450: the core stops at its instruction boundary, from a checkpoint that agreed, with its store buffer drained; its share is saved when its
job is being pre-empted and no core of the bent runs. -/
def stopCore (k : Nat) (s : State) : State :=
  let s := settle k s
  let s := if testArmed k s then checkpoint k s else s
  let s := stopPipes k (drainAll k (settle k s))
  trySave (k / 2) (s.setCore k { s.core k with run := .stopped, stop := 0, notice := none })

/-- R314: SEALCHK's trap waits for the page of its frame. -/
def Run.untaken : Run → Bool
  | .mismatch _ => true
  | _ => false

/-- R230, R455: a stop asked for (1, or 2 for JOIN) takes place at the first boundary that allows it. -/
def dueStop (k : Nat) (s : State) : State :=
  let c := s.core k
  if c.stop = 0 ∨ c.chain ≠ [] ∨ (c.stop = 2 ∧ c.arch.pl = 2) ∨ c.run.untaken = true then s else stopCore k s

/-- Ask for a stop. -/
def askStop (k n : Nat) (s : State) : State := dueStop k (s.setCore k { s.core k with stop := max n (s.core k).stop })

/-! ### What is ready at a boundary (R216, R223, R224) -/

/-- The event presented to a target and not claimed. -/
def presentedAt (s : State) (t : Nat) : Option (Nat × Src) := s.srcs.find? (fun e => decide (e.2.pres = some t))

/-- R224: an event above THRESH is presented to the core. -/
def eventReady (s : State) (k : Nat) : Bool :=
  match presentedAt s k with
  | some e => decide ((s.arch k).thresh < e.2.prio.toNat)
  | none => false

/-- R222: suspended work whose fault has not been reported. -/
def unreported (c : Core) : Option Trap × Option Trap :=
  (((c.ops.find? (fun o => decide (o.st = .suspended) && decide (o.frame = none) && o.trap.isSome)).bind StreamOp.trap),
   ((c.vops.find? (fun o => decide (o.st = .suspended) && decide (o.frame = none) && o.trap.isSome)).bind VecOp.trap))

/-- R223: the highest cause ready at the boundary: a fault of suspended pipe work, the stream's first (R227), then, while
EVMASK.M is 0 and no chain is open (R250), PREEMPT_NOTICE, TIMER and EVENT. -/
def readyCause (k : Nat) (s : State) : Option (Trap × Bool × Bool) :=
  let c := s.core k
  let u := unreported c
  match u.1.orElse (fun _ => u.2) with
  | some t => some (t, u.1.isSome, u.2.isSome)
  | none =>
    if c.arch.masked || !c.chain.isEmpty then none
    else match c.notice with
      | some n => some (trapOf 22 0 n.toNat, false, false)
      | none =>
        if c.timer then some (trapOf 17 0 0, false, false)
        else if eventReady s k then some (trapOf 16 0 0, false, false) else none

/-- R249: the frame PC of STREAM_CONFIG: the first member of an open chain, else the instruction. -/
def chainPc (c : Core) (here : W40) : W40 := (c.chain.head?.map Prod.snd).getD here

/-- R216: take the highest ready cause, if there is one. A pipe fault that is reported while a chain is open discards the members issued,
which are issued again (DEDUCED, assumption 31). -/
def takeReady (k : Nat) (s : State) : State :=
  match readyCause k s with
  | none => s
  | some (t, sres, vres) => dueStop k (takeTrap k { t with pc := chainPc (s.core k) (s.arch k).pc } sres vres s)

/-- R155: the address after an instruction of len words. -/
def nextPc (a : Arch) (len : Nat) : W40 := a.map (a.pc + BitVec.ofNat 40 len)

/-- R190, R191: after an instruction at LE of the innermost level completes without a taken branch. The back edge is mapped as a branch
target is (DEDUCED, assumption 73); what it writes overtakes an earlier MOVC write in its shadow (R151). -/
def loopBack (k : Nat) (here next : W40) (s : State) : State :=
  let a := s.arch k
  let i := a.ld.toNat - 1
  if a.ld = 0 ∨ tget 0 a.le i ≠ here then s.setArch k { a with pc := next }
  else
    let n := tget 0 a.lc i - 1
    if n ≠ 0 then dropCtl k (fun x => decide (x = 0x030 + i)) (s.setArch k { a with pc := a.map (tget 0 a.ls i), lc := tset 0 a.lc i n })
    else dropCtl k (fun x => decide (x = 0x030 + i) || decide (x = 0x001)) (s.setArch k { a with pc := next, lc := tset 0 a.lc i n, ld := a.ld - 1 })

/-- R437: the checkpoints that fall due by count: 256 instructions, 24 buffered stores. -/
def dueCheckpoint (k : Nat) (s : State) : State :=
  let c := s.core k
  if !s.split k && (decide (c.since ≥ 256) || decide (c.stores.length ≥ 24)) && c.arch.shadow.isEmpty then checkpoint k s else s

/-- An instruction completes: pc, loop back edge (R190), results and shadows one instruction on (R148, R149), the
checkpoint count (R437) and the free-draw counter (DESIGN CHOICE, assumption 2). -/
def retire (k : Nat) (here next : W40) (flow : Option W40) (s : State) : State :=
  let s := match flow with
    | some t => s.setArch k { s.arch k with pc := (s.arch k).map t }
    | none => loopBack k here next s
  let s := s.setArch k { s.arch k with inflight := tickInflight (s.arch k).inflight }
  let s := tickShadow k s
  let s := s.setCore k { s.core k with since := (s.core k).since + 1 }
  dueCheckpoint k s.drawn

/-- R249: an instruction that is not a stream instruction is refused while a chain is open. -/
def chainOpenTrap (c : Core) : Trap :=
  { cause := 19, pc := chainPc c 0, addr := 0, detail := BitVec.ofNat 20 (12 + 32 * c.chain.length) }

/-- R132, R170: the fetch of an instruction of len words at pc. -/
def fetchInstr (k len : Nat) (s : State) : Res Unit :=
  let a := s.arch k
  (fetchWord k a.pl.toNat (a.map a.pc).toNat s).bind fun _ s =>
    if len = 2 then fetchWord k a.pl.toNat (a.map (a.pc + 1)).toNat s else .ok () s

/-- R209: fill the frame PC of a precise trap, and the address of causes 1 and 2. TRAP and MACHINE_CHECK report the next address.
(DEDUCED, assumption 31). -/
def placeTrap (t : Trap) (here next : W40) : Trap :=
  { t with pc := if t.cause = 14 ∨ t.cause = 21 then next else here, addr := if t.cause = 1 ∨ t.cause = 2 then here else t.addr }

/-- R150: an instruction fetched outside the bench, or not in plumb mode, ends what plumb mode fixes. -/
def notePlumb (k : Nat) (s : State) : State :=
  let a := s.arch k
  if a.benchFetch then s else s.setArch k { a with inflight := a.inflight.map (fun e => { e with exact := false }) }

/-- R435: what an instruction sends out of its pair: nothing that commits; a write or a wait that is made again when it is issued again;
or an output that is sent once, with a response. -/
inductive Out where
  | no
  | ctl
  | sent
  deriving DecidableEq, Repr

/-- R439: the response of an output: the data registers that it wrote. -/
def responseOf (k : Nat) (s s' : State) : List (Nat × Word) :=
  (List.range 16).filterMap (fun n => if (s'.arch k).regD n = (s.arch k).regD n then none else some (n, (s'.arch k).regD n))

/-- R439: an output sent since the checkpoint, which has not been put off only where the shadow is empty, is kept for a rollback. -/
def noteSent (k : Nat) (r : List (Nat × Word)) (s : State) : State :=
  if s.split k || (s.arch k).shadow.isEmpty then s else s.setCore k { s.core k with sent := (s.core k).sent ++ [r] }

/-- R439: an output issued again after a rollback: it is not sent, and its recorded response is used. -/
def passAgain (k : Nat) (r : List (Nat × Word)) (s : State) : State :=
  let s := r.foldl (fun s e => wrD k (BitVec.ofNat 4 e.1) e.2 s) s
  s.setCore k { s.core k with replay := (s.core k).replay.tail }

/-- R150: run a body; one that reaches outside the bench runs with its own operands no longer fixed. -/
def runBody (k : Nat) (body : State → Res (Option W40)) (s : State) : Res (Option W40) :=
  let left := fun (r : Res (Option W40)) => match r with
    | .ok _ s => (s.core k).outside
    | .trap _ s => (s.core k).outside
    | .stall s => (s.core k).outside
  if (s.arch k).exactHeld && !(s.core k).outside && left (body s) then body (endExact k s) else body s

/-- R445: a checkpoint within the body has set off the armed signature test. -/
def testFired (s : State) (r : Res (Option W40)) : Bool :=
  match r with
  | .ok _ s' => s.pair.armed && !s'.pair.armed
  | .trap _ s' => s.pair.armed && !s'.pair.armed
  | .stall s' => s.pair.armed && !s'.pair.armed

/-- The instruction runs: its fetch is checked (R95, R120); a committing output stands between two checkpoints (R437, R439), and one
already sent is passed again; a trap is taken precisely; a wait leaves it to be issued again. -/
def issueRun (out : Out) (k len : Nat) (body : State → Res (Option W40)) (s : State) : State :=
  let here := (s.arch k).pc
  let next := nextPc (s.arch k) len
  match out, (s.core k).replay with
  | .sent, r :: _ => dueStop k (checkpoint k (retire k here next none (noteSent k r (passAgain k r s))))
  | _, _ =>
    let r := (fetchInstr k len (notePlumb k s)).bind fun _ s => runBody k body (if out = .no then s else checkpoint k s)
    if testFired s r then forcedEvent k s
    else match r with
      | .ok flow s' =>
        let s' := if out = .sent then noteSent k (responseOf k s s') s' else s'
        let s' := retire k here next flow s'
        dueStop k (if out = .no then s' else checkpoint k s')
      | .trap t s' => dueStop k (takeTrap k (placeTrap t (if t.cause = 19 then chainPc (s'.core k) here else here) next) false false s')
      | .stall s' => s'

/-- Issue one instruction of len words on core k: it is held while the core cannot issue; a cause ready at the boundary is taken in its
place (R223); an armed comparator test fires (R460); a chain left open is refused unless inChain (R249). -/
def issueAny (inChain : Bool) (out : Out) (k len : Nat) (body : State → Res (Option W40)) (s : State) : State :=
  if !ready k s then s
  else if (readyCause k s).isSome then takeReady k s
  else if testArmed k s && (decide (s.pair.curMode ≠ 1) || decide (out ≠ .no)) then forcedEvent k s
  else if !inChain && !(s.core k).chain.isEmpty then takeTrap k (chainOpenTrap (s.core k)) false false s
  else issueRun out k len body s

/-- Issue a scalar instruction. -/
def issue (k len : Nat) (body : State → Res (Option W40)) (s : State) : State := issueAny false .no k len body s

/-- Issue a scalar instruction that is a committing output (R435). -/
def issueC (k len : Nat) (body : State → Res (Option W40)) (s : State) : State := issueAny false .sent k len body s

/-- A body that only changes the state. -/
def goOn (s : State) : Res (Option W40) := .ok none s

/-- R173: ILLEGAL_INSTRUCTION with the first word in DETAIL (R209). -/
def illegal (w0 : Word) (s : State) : Res (Option W40) := .trap (trapOf 1 0 w0.toNat) s

/-- R196: PRIVILEGED_INSTRUCTION. -/
def privileged (w0 : Word) (s : State) : Res (Option W40) := .trap (trapOf 2 0 w0.toNat) s

/-- Run a body only where a requirement of the encoding holds (R173). -/
def need (c : Bool) (w0 : Word) (body : State → Res (Option W40)) (s : State) : Res (Option W40) :=
  if c then body s else illegal w0 s

/-- R196: run a body only at a level or above. -/
def needLevel (lvl : Nat) (k : Nat) (w0 : Word) (body : State → Res (Option W40)) (s : State) : Res (Option W40) :=
  if (s.arch k).pl.toNat ≥ lvl then body s else privileged w0 s

end Sys2Proof.Machine
end

