-- ==== Sys2Proof/Machine/Operands.lean ====
section
/-! DEFINITION. Operand forms: Q-amounts (R32 to R34, R272), keys (R36), packed digits (R38 to R40, R181), rounding
(R280), element and record formats (R235, R236), and immediates. -/

namespace Sys2Proof.Machine

/-- A sign-extended immediate as a word. -/
def sextW {n : Nat} (imm : BitVec n) : Word := imm.signExtend 20
/-- A sign-extended value as a 40-bit one. -/
def sextA {n : Nat} (imm : BitVec n) : W40 := imm.signExtend 40

/-- R32: the value of limbs, lower ones unsigned and the top one signed. -/
def qValue : List Word → Int
  | [] => 0
  | [w] => w.toInt
  | w :: ws => (w.toNat : Int) + 100000 * qValue ws

/-- R33: v lies in the normalised range of n limbs. -/
def fitsLimbs (n : Nat) (v : Int) : Bool := decide (-(100000 ^ n : Int) ≤ v) && decide (v ≤ (100000 ^ n : Int) - 1)

/-- R33, R272: v in n normalised limbs; none when it does not fit. -/
def normalised (n : Nat) (v : Int) : Option (List Word) := if fitsLimbs n v then some (limbsOf n v) else none

/-- R36: a key as one unsigned number. -/
def keyValue : List Word → Nat
  | [] => 0
  | w :: ws => w.toNat + 2 ^ 20 * keyValue ws

/-- R280: round(n, q, mode) for positive q. -/
def roundDiv (n : Int) (q : Nat) (mode : Nat) : Int :=
  let a := n.tdiv (q : Int)
  let r := (n - a * q).natAbs
  let away : Int := if n < 0 then -1 else 1
  if r = 0 then a
  else match mode with
    | 0 => if 2 * r > q ∨ (2 * r = q ∧ a.natAbs % 2 = 1) then a + away else a
    | 1 => if 2 * r ≥ q then a + away else a
    | 2 => if 2 * r > q then a + away else a
    | 3 => a
    | 4 => a + away
    | 5 => if n < 0 then a - 1 else a
    | 6 => if n < 0 then a else a + 1
    | _ => a

/-- R288, R289: round(n, d, mode) with the signs combined. -/
def roundQuot (n d : Int) (mode : Nat) : Int := if d < 0 then roundDiv (-n) d.natAbs mode else roundDiv n d.natAbs mode

/-- R283, R285: units re-expressed k digits finer, or rounded when k is negative. -/
def scaleBy (v : Int) (k : Int) (mode : Nat) : Int :=
  if 0 ≤ k then v * (10 ^ k.toNat : Int) else roundDiv v (10 ^ (-k).toNat) mode

/-! ### Packed digits -/

/-- R181: the five nibbles of a word as a decimal number; none where one is above 9. -/
def packed5 (w : Word) : Option Nat :=
  let d := (List.range 5).map (fun i => bitsOf w (4 * i) 4)
  if d.all (fun x => decide (x ≤ 9)) then some (d.zipIdx.foldl (fun (t : Nat) e => t + e.1 * 10 ^ e.2) 0) else none

/-- R181: a number below 10^5 as five nibbles. -/
def pack5 (n : Nat) : Word := BitVec.ofNat 20 ((List.range 5).foldl (fun t i => t + n / 10 ^ i % 10 * 16 ^ i) 0)

/-- R38, R40: the units of a Pepixo packed amount, lowest-address word most significant with the sign in the last
nibble; none where a digit or the sign nibble is bad. -/
def pepixoIn (ws : List Word) : Option Int :=
  let digits := ws.flatMap (fun w => [bitsOf w 16 4, bitsOf w 12 4, bitsOf w 8 4, bitsOf w 4 4, bitsOf w 0 4])
  let ds := digits.dropLast
  let sign := digits.getLast?.getD 0
  if ds.all (fun x => decide (x ≤ 9)) && decide (10 ≤ sign) then
    let n : Nat := ds.foldl (fun (t d : Nat) => t * 10 + d) 0
    some (if sign = 11 ∨ sign = 13 then -(n : Int) else n)
  else none

/-- R38, R39: units as a Pepixo packed amount of n words; none where the magnitude does not fit. -/
def pepixoOut (n : Nat) (v : Int) : Option (List Word) :=
  if v.natAbs ≥ 10 ^ (5 * n - 1) then none
  else
    let nib : Nat → Nat := fun i => if i = 0 then (if v < 0 then 13 else 12) else v.natAbs / 10 ^ (i - 1) % 10
    some ((List.range n).map (fun w =>
      BitVec.ofNat 20 ((List.range 5).foldl (fun (t j : Nat) => t + nib (5 * (n - 1 - w) + j) * 16 ^ j) 0)))

end Sys2Proof.Machine
end

