-- ==== Sys2Proof/Machine/Alu.lean ====
section
/-! DEFINITION. Data registers: the ALU group, compares and immediates (R176, R177). All arithmetic is modulo 2^20
and never traps. -/

namespace Sys2Proof.Machine

/-- R176: DX becomes f(DX, DY). -/
def aluRR (k : Nat) (x y : Reg) (f : Word → Word → Word) (s : State) : State :=
  issue k 1 (fun s => goOn (wrD k x (f (rdD k x 0 s) (rdD k y 1 s)) s)) s

/-- R177: DX becomes f(DX). -/
def aluRI (k : Nat) (x : Reg) (f : Word → Word) (s : State) : State :=
  issue k 1 (fun s => goOn (wrD k x (f (rdD k x 0 s)) s)) s

/-- R176: a right shift with sign fill. -/
def sarBy (v : Word) (n : Nat) : Word := BitVec.sshiftRight v n
/-- R176: the shift count of a register. -/
def shiftCount (y : Word) : Nat := bitsOf y 0 5

def execAdd (k : CoreIx) (x y : Reg) (s : State) : Host.Outcome State Fault Refusal := .next (aluRR k x y (· + ·) s)
def execSub (k : CoreIx) (x y : Reg) (s : State) : Host.Outcome State Fault Refusal := .next (aluRR k x y (· - ·) s)
def execAnd (k : CoreIx) (x y : Reg) (s : State) : Host.Outcome State Fault Refusal := .next (aluRR k x y (· &&& ·) s)
def execOr (k : CoreIx) (x y : Reg) (s : State) : Host.Outcome State Fault Refusal := .next (aluRR k x y (· ||| ·) s)
def execXor (k : CoreIx) (x y : Reg) (s : State) : Host.Outcome State Fault Refusal := .next (aluRR k x y (· ^^^ ·) s)
def execAndn (k : CoreIx) (x y : Reg) (s : State) : Host.Outcome State Fault Refusal :=
  .next (aluRR k x y (fun a b => a &&& ~~~b) s)
def execShl (k : CoreIx) (x y : Reg) (s : State) : Host.Outcome State Fault Refusal :=
  .next (aluRR k x y (fun a b => a <<< shiftCount b) s)
def execShr (k : CoreIx) (x y : Reg) (s : State) : Host.Outcome State Fault Refusal :=
  .next (aluRR k x y (fun a b => a >>> shiftCount b) s)
def execSar (k : CoreIx) (x y : Reg) (s : State) : Host.Outcome State Fault Refusal :=
  .next (aluRR k x y (fun a b => sarBy a (shiftCount b)) s)

/-- R176: DX becomes f(DY); DX is not read. -/
def moveRR (k : Nat) (x y : Reg) (f : Word → Word) (s : State) : State :=
  issue k 1 (fun s => goOn (wrD k x (f (rdD k y 1 s)) s)) s

def execMov (k : CoreIx) (x y : Reg) (s : State) : Host.Outcome State Fault Refusal := .next (moveRR k x y id s)
def execNeg (k : CoreIx) (x y : Reg) (s : State) : Host.Outcome State Fault Refusal := .next (moveRR k x y (fun b => 0 - b) s)
def execNot (k : CoreIx) (x y : Reg) (s : State) : Host.Outcome State Fault Refusal := .next (moveRR k x y (fun b => ~~~b) s)

/-- R175: the result of a compare; codes 10 to 15 trap ILLEGAL_INSTRUCTION. -/
def compareTo (k : Nat) (x : Reg) (w0 : Word) (r : Option Bool) (s : State) : Res (Option W40) :=
  match r with
  | some b => goOn (wrD k x (boolWord b) s)
  | none => illegal w0 s

def execCc (k : CoreIx) (x y cond : Reg) (s : State) : Host.Outcome State Fault Refusal :=
  .next (issue k 1 (fun s => compareTo k x (encRR 0x01 x y (0x10 + cond.toNat)) (condHolds cond.toNat (rdD k x 0 s) (rdD k y 1 s)) s) s)

def execAddi (k : CoreIx) (x : Reg) (imm : BitVec 10) (s : State) : Host.Outcome State Fault Refusal :=
  .next (aluRI k x (fun a => a + sextW imm) s)
def execLdi (k : CoreIx) (x : Reg) (imm : BitVec 10) (s : State) : Host.Outcome State Fault Refusal :=
  .next (issue k 1 (fun s => goOn (wrD k x (sextW imm) s)) s)
/-- R177: LUI keeps DX[9:0]. -/
def execLui (k : CoreIx) (x : Reg) (imm : BitVec 10) (s : State) : Host.Outcome State Fault Refusal :=
  .next (aluRI k x (fun a => imm ++ a.extractLsb' 0 10) s)
def execAndi (k : CoreIx) (x : Reg) (imm : BitVec 10) (s : State) : Host.Outcome State Fault Refusal :=
  .next (aluRI k x (fun a => a &&& imm.setWidth 20) s)
def execOri (k : CoreIx) (x : Reg) (imm : BitVec 10) (s : State) : Host.Outcome State Fault Refusal :=
  .next (aluRI k x (fun a => a ||| imm.setWidth 20) s)
def execXori (k : CoreIx) (x : Reg) (imm : BitVec 10) (s : State) : Host.Outcome State Fault Refusal :=
  .next (aluRI k x (fun a => a ^^^ imm.setWidth 20) s)

/-- R177: a shift by an immediate count; IMM10[9:5] must be 0. -/
def shiftImm (k op : Nat) (x : Reg) (imm : BitVec 10) (f : Word → Nat → Word) (s : State) : State :=
  issue k 1 (fun s => need (decide (bitsOf imm 5 5 = 0)) (encRI op x imm)
    (fun s => goOn (wrD k x (f (rdD k x 0 s) (bitsOf imm 0 5)) s)) s) s

def execShli (k : CoreIx) (x : Reg) (imm : BitVec 10) (s : State) : Host.Outcome State Fault Refusal :=
  .next (shiftImm k 0x08 x imm (fun a n => a <<< n) s)
def execShri (k : CoreIx) (x : Reg) (imm : BitVec 10) (s : State) : Host.Outcome State Fault Refusal :=
  .next (shiftImm k 0x09 x imm (fun a n => a >>> n) s)
def execSari (k : CoreIx) (x : Reg) (imm : BitVec 10) (s : State) : Host.Outcome State Fault Refusal :=
  .next (shiftImm k 0x0A x imm sarBy s)

def execLdi20 (k : CoreIx) (xa xb xc : Reg) (imm : Word) (s : State) : Host.Outcome State Fault Refusal :=
  .next (issue k 2 (need (decide (xb = 0) && decide (xc = 0)) (encL 0x08 xa xb xc) (fun s => goOn (wrD k xa imm s))) s)
def execCmpi (k : CoreIx) (xa xb xc : Reg) (imm : Word) (s : State) : Host.Outcome State Fault Refusal :=
  .next (issue k 2 (fun s => compareTo k xa (encL 0x0C xa xb xc) (condHolds xc.toNat (rdD k xb 0 s) imm) s) s)
def execCmp (k : CoreIx) (xa xb xc : Reg) (imm : Word) (s : State) : Host.Outcome State Fault Refusal :=
  .next (issue k 2 (need (decide (bitsOf imm 4 16 = 0)) (encL 0x0F xa xb xc)
    (fun s => compareTo k xa (encL 0x0F xa xb xc) (condHolds (bitsOf imm 0 4) (rdD k xb 0 s) (rdD k xc 1 s)) s)) s)

end Sys2Proof.Machine
end

