-- ==== Sys2Proof/Machine/Acc.lean ====
section
/-! DEFINITION. Multiply, accumulators, decimal limbs and packed digits (R178 to R183, R284, R289). -/

namespace Sys2Proof.Machine

/-- R179, R210: DECIMAL_OVERFLOW of a scalar instruction. -/
def overflow (s : State) : Res (Option W40) := .trap (trapOf 6 0 0) s

/-- R210: FORMAT with a subcode and no operand address. -/
def formatErr (sub : Nat) (s : State) : Res (Option W40) := .trap (trapOf 7 0 sub) s

/-- R178: DX becomes (DX x DY) mod 2^20, with distance 2 (R148). -/
def execMul (k : CoreIx) (x y : Reg) (s : State) : Host.Outcome State Fault Refusal :=
  .next (issue k 1 (fun s => goOn (wrDd k x 2 (rdD k x 0 s * rdD k y 1 s) s)) s)

/-- R178: a widening multiply into the pair DX:X+1; X must be even. -/
def mulWide (k fn : Nat) (x y : Reg) (f : Word → Word → Int) (s : State) : State :=
  issue k 1 (need (evenReg x) (encRR 0x0C x y fn)
    (fun s => goOn (wrPairD k x 2 (BitVec.ofInt 40 (f (rdD k x 0 s) (rdD k y 1 s))) s))) s

def execMulwu (k : CoreIx) (x y : Reg) (s : State) : Host.Outcome State Fault Refusal :=
  .next (mulWide k 1 x y (fun a b => (a.toNat : Int) * b.toNat) s)
def execMulws (k : CoreIx) (x y : Reg) (s : State) : Host.Outcome State Fault Refusal :=
  .next (mulWide k 2 x y (fun a b => a.toInt * b.toInt) s)

/-- R179: a result outside -2^79 to 2^79 - 1 traps and changes nothing; else ACn takes it with distance d. -/
def putAcc (k n d : Nat) (v : Int) (s : State) : Res (Option W40) :=
  if v < -(2 ^ 79) ∨ 2 ^ 79 - 1 < v then overflow s else goOn (wrACd k n d (BitVec.ofInt 80 v) s)

def execMacu (k : CoreIx) (x y : Reg) (n : BitVec 2) (s : State) : Host.Outcome State Fault Refusal :=
  .next (issue k 1 (fun s => putAcc k n.toNat 3 ((rdAC k n.toNat 0 s).toInt + (rdD k x 0 s).toNat * (rdD k y 1 s).toNat) s) s)
def execMacs (k : CoreIx) (x y : Reg) (n : BitVec 2) (s : State) : Host.Outcome State Fault Refusal :=
  .next (issue k 1 (fun s => putAcc k n.toNat 3 ((rdAC k n.toNat 0 s).toInt + (rdD k x 0 s).toInt * (rdD k y 1 s).toInt) s) s)
/-- R178: AC5; X and Y must be 0. -/
def execAc5 (k : CoreIx) (x y : Reg) (n : BitVec 2) (s : State) : Host.Outcome State Fault Refusal :=
  .next (issue k 1 (need (decide (x = 0) && decide (y = 0)) (encRR 0x0C x y (0x1C + n.toNat))
    (fun s => putAcc k n.toNat 3 ((rdAC k n.toNat 0 s).toInt * 100000) s)) s)

/-! ### Decimal limbs (R180) -/

/-- R180: a limb instruction on the even pair DX:X+1. -/
def limbOp (k fn : Nat) (x y : Reg) (body : State → Res (Option W40)) (s : State) : State :=
  issue k 1 (need (evenReg x) (encRR 0x29 x y fn) body) s

/-- R180: t into DX as the floor modulus and into DX+1 as the carry. -/
def putLimbCarry (k : Nat) (x : Reg) (t : Int) (s : State) : Res (Option W40) :=
  goOn (wrD k (pairHi x) (BitVec.ofInt 20 (t / 100000)) (wrD k x (BitVec.ofInt 20 (t % 100000)) s))

/-- R180: LTOP's result: t in -100,000 to 99,999 into DX, and 0 into DX+1. -/
def putTop (k : Nat) (x : Reg) (t : Int) (s : State) : Res (Option W40) :=
  if t < -100000 ∨ 99999 < t then overflow s else goOn (wrD k (pairHi x) 0 (wrD k x (BitVec.ofInt 20 t) s))

def execLadc (k : CoreIx) (x y : Reg) (s : State) : Host.Outcome State Fault Refusal :=
  .next (limbOp k 0 x y (fun s => putLimbCarry k x ((rdD k x 0 s).toNat + (rdD k y 1 s).toNat + (rdD k (pairHi x) 0 s).toInt) s) s)
def execLsbb (k : CoreIx) (x y : Reg) (s : State) : Host.Outcome State Fault Refusal :=
  .next (limbOp k 1 x y (fun s => putLimbCarry k x ((rdD k x 0 s).toNat - (rdD k y 1 s).toNat + (rdD k (pairHi x) 0 s).toInt) s) s)
/-- R34, R180: the lazy unsigned add. -/
def execLadz (k : CoreIx) (x y : Reg) (s : State) : Host.Outcome State Fault Refusal :=
  .next (limbOp k 2 x y (fun s =>
    let t := (rdD k x 0 s).toNat + (rdD k y 1 s).toNat
    if t > 1048575 then overflow s else goOn (wrD k x (BitVec.ofNat 20 t) s)) s)
/-- R34, R180: the lazy signed add. -/
def execLadzs (k : CoreIx) (x y : Reg) (s : State) : Host.Outcome State Fault Refusal :=
  .next (limbOp k 3 x y (fun s =>
    let t := (rdD k x 0 s).toInt + (rdD k y 1 s).toInt
    if t < -524288 ∨ 524287 < t then overflow s else goOn (wrD k x (BitVec.ofInt 20 t) s)) s)
def execLtop (k : CoreIx) (x y : Reg) (s : State) : Host.Outcome State Fault Refusal :=
  .next (limbOp k 4 x y (fun s => putTop k x ((rdD k x 0 s).toInt + (rdD k y 1 s).toInt + (rdD k (pairHi x) 0 s).toInt) s) s)
def execLtopb (k : CoreIx) (x y : Reg) (s : State) : Host.Outcome State Fault Refusal :=
  .next (limbOp k 5 x y (fun s => putTop k x ((rdD k x 0 s).toInt - (rdD k y 1 s).toInt + (rdD k (pairHi x) 0 s).toInt) s) s)
/-- R180: LNRM; Y must be 0. -/
def execLnrm (k : CoreIx) (x y : Reg) (s : State) : Host.Outcome State Fault Refusal :=
  .next (limbOp k 6 x y (need (decide (y = 0)) (encRR 0x29 x y 6)
    (fun s => putLimbCarry k x ((rdD k x 0 s).toNat + (rdD k (pairHi x) 0 s).toInt) s)) s)

/-! ### Packed digits (R181) -/

/-- R181: five digits with carry: t is the sum or difference; DX takes it modulo 10^5 and DX+1 bit 0 the carry. -/
def packedOp (k fn : Nat) (x y : Reg) (f : Int → Int → Int → Int) (s : State) : State :=
  issue k 1 (need (evenReg x) (encRR 0x0D x y fn) (fun s =>
    match packed5 (rdD k x 0 s), packed5 (rdD k y 1 s) with
    | some a, some b =>
      let t := f a b (bitsOf (rdD k (pairHi x) 0 s) 0 1)
      goOn (wrD k (pairHi x) (boolWord (decide (t / 100000 ≠ 0))) (wrD k x (pack5 (t % 100000).toNat) s))
    | _, _ => formatErr 6 s)) s

def execPdadd (k : CoreIx) (x y : Reg) (s : State) : Host.Outcome State Fault Refusal :=
  .next (packedOp k 0 x y (fun a b c => a + b + c) s)
def execPdsub (k : CoreIx) (x y : Reg) (s : State) : Host.Outcome State Fault Refusal :=
  .next (packedOp k 1 x y (fun a b c => a - b - c) s)

/-! ### Long accumulator instructions (R182) -/

/-- R182: a field that names an accumulator holds 0 to 3. -/
def isAcc (x : Reg) : Bool := x.toNat ≤ 3

def execAcz (k : CoreIx) (xa xb xc : Reg) (_imm : Word) (s : State) : Host.Outcome State Fault Refusal :=
  .next (issue k 2 (need (isAcc xa) (encL 0x1A xa xb xc) (fun s => putAcc k xa.toNat 3 0 s)) s)
def execAcmov (k : CoreIx) (xa xb xc : Reg) (_imm : Word) (s : State) : Host.Outcome State Fault Refusal :=
  .next (issue k 2 (need (isAcc xa && isAcc xb) (encL 0x1A xa xb xc) (fun s => putAcc k xa.toNat 3 (rdAC k xb.toNat 0 s).toInt s)) s)
def execAcneg (k : CoreIx) (xa xb xc : Reg) (_imm : Word) (s : State) : Host.Outcome State Fault Refusal :=
  .next (issue k 2 (need (isAcc xa && isAcc xb) (encL 0x1A xa xb xc) (fun s => putAcc k xa.toNat 3 (-(rdAC k xb.toNat 0 s).toInt) s)) s)

/-- R182: limbs 1 to 8. -/
def limbCount (imm : Word) : Option Nat := let n := bitsOf imm 0 4; if 1 ≤ n ∧ n ≤ 8 then some n else none

/-- R182, R210: FORMAT for the limbs of an accumulator access, with its operand address (DEDUCED, assumption 87). -/
def limbsErr (k : Nat) (xb : Reg) (s : State) : Res (Option W40) := .trap (trapOf 7 ((s.arch k).map (rdA k xb 0 s)).toNat 4) s

/-- R182: ACLQ: the limbs are checked, then the Q-amount is read, slack allowed. -/
def execAclq (k : CoreIx) (xa xb xc : Reg) (imm : Word) (s : State) : Host.Outcome State Fault Refusal :=
  .next (issue k 2 (need (isAcc xa) (encL 0x1B xa xb xc) (fun s =>
    match limbCount imm with
    | none => limbsErr k xb s
    | some n => (load k (rdA k xb 0 s) n s).bind fun r s =>
        (putAcc k xa.toNat 3 (qValue r.words) s).bind fun f s => .ok f (noteLoad k r s))) s)

/-- R182: ACSQ: nothing is stored on any trap. -/
def execAcsq (k : CoreIx) (xa xb xc : Reg) (imm : Word) (s : State) : Host.Outcome State Fault Refusal :=
  .next (issue k 2 (need (isAcc xa) (encL 0x1C xa xb xc) (fun s =>
    match limbCount imm with
    | none => limbsErr k xb s
    | some n =>
      let x := rdA k xb 0 s
      let v := ((s.arch k).map x).toNat
      (xlate (.core k) (coreXl k (s.arch k).pl.toNat s) .write v n s).bind fun _ s =>
        match normalised n (rdAC k xa.toNat 0 s).toInt with
        | none => overflow s
        | some ws => (store k x ws s).bind fun _ s => goOn s)) s)

/-- R182, R284: ACSCL: the count is checked before the mode. -/
def execAcscl (k : CoreIx) (xa xb xc : Reg) (imm : Word) (s : State) : Host.Outcome State Fault Refusal :=
  .next (issue k 2 (need (isAcc xa) (encL 0x1D xa xb xc) (fun s =>
    let n := (imm.extractLsb' 8 6).toInt
    let mode := bitsOf imm 0 3
    if n < -24 ∨ 24 < n then formatErr 4 s
    else if mode = 7 then formatErr 3 s
    else putAcc k xa.toNat 3 (scaleBy (rdAC k xa.toNat 0 s).toInt n mode) s)) s)

/-- R182, R289: ADIV by the signed pair DXB:XB+1; its result may be read by the next instruction. -/
def execAdiv (k : CoreIx) (xa xb xc : Reg) (imm : Word) (s : State) : Host.Outcome State Fault Refusal :=
  .next (issue k 2 (need (isAcc xa && evenReg xb) (encL 0x1E xa xb xc) (fun s =>
    let mode := bitsOf imm 0 3
    let d := (rdPair k xb 1 s).toInt
    if mode = 7 then formatErr 3 s
    else if d = 0 then .trap (trapOf 5 0 0) s
    else putAcc k xa.toNat 1 (roundQuot (rdAC k xa.toNat 0 s).toInt d mode) s)) s)

/-- R182: ACCMP compares ACn with 0. -/
def execAccmp (k : CoreIx) (xa xb xc : Reg) (imm : Word) (s : State) : Host.Outcome State Fault Refusal :=
  .next (issue k 2 (need (isAcc xb) (encL 0x1F xa xb xc) (fun s =>
    compareTo k xa (encL 0x1F xa xb xc) (condHolds (bitsOf imm 0 4) (rdAC k xb.toNat 0 s) 0) s)) s)

end Sys2Proof.Machine
end

