-- ==== Sys2Proof/Machine/Addr.lean ====
section
/-! DEFINITION. Address and stride registers (R184) and the bounds check (R194). -/

namespace Sys2Proof.Machine

/-- R184: AX becomes f(AX). -/
def addrOp (k : Nat) (x : Reg) (f : State → W40 → W40) (s : State) : State :=
  issue k 1 (fun s => goOn (wrA k x (f s (rdA k x 0 s)) s)) s

def execAadd (k : CoreIx) (x y : Reg) (s : State) : Host.Outcome State Fault Refusal :=
  .next (addrOp k x (fun s a => a + rdA k y 1 s) s)
def execAsub (k : CoreIx) (x y : Reg) (s : State) : Host.Outcome State Fault Refusal :=
  .next (addrOp k x (fun s a => a - rdA k y 1 s) s)
def execAadds (k : CoreIx) (x y : Reg) (s : State) : Host.Outcome State Fault Refusal :=
  .next (addrOp k x (fun s a => a + rdS k y s) s)
def execAaddd (k : CoreIx) (x y : Reg) (s : State) : Host.Outcome State Fault Refusal :=
  .next (addrOp k x (fun s a => a + sextA (rdD k y 1 s)) s)
def execAaddi (k : CoreIx) (x : Reg) (imm : BitVec 10) (s : State) : Host.Outcome State Fault Refusal :=
  .next (addrOp k x (fun _ a => a + sextA imm) s)
def execAmov (k : CoreIx) (x y : Reg) (s : State) : Host.Outcome State Fault Refusal :=
  .next (issue k 1 (fun s => goOn (wrA k x (rdA k y 1 s) s)) s)
/-- R184: ADW; Y even. -/
def execAdw (k : CoreIx) (x y : Reg) (s : State) : Host.Outcome State Fault Refusal :=
  .next (issue k 1 (need (evenReg y) (encRR 0x18 x y 4) (fun s => goOn (wrA k x (rdPair k y 1 s) s))) s)
/-- R184: DWA; X even. -/
def execDwa (k : CoreIx) (x y : Reg) (s : State) : Host.Outcome State Fault Refusal :=
  .next (issue k 1 (need (evenReg x) (encRR 0x18 x y 5) (fun s => goOn (wrPair k x (rdA k y 1 s) s))) s)
def execSmov (k : CoreIx) (x y : Reg) (s : State) : Host.Outcome State Fault Refusal :=
  .next (issue k 1 (fun s => goOn (wrS k x (rdS k y s) s)) s)
/-- R184: SDW; Y even. -/
def execSdw (k : CoreIx) (x y : Reg) (s : State) : Host.Outcome State Fault Refusal :=
  .next (issue k 1 (need (evenReg y) (encRR 0x18 x y 7) (fun s => goOn (wrS k x (rdPair k y 1 s) s))) s)
/-- R184: DWS; X even. -/
def execDws (k : CoreIx) (x y : Reg) (s : State) : Host.Outcome State Fault Refusal :=
  .next (issue k 1 (need (evenReg x) (encRR 0x18 x y 8) (fun s => goOn (wrPair k x (rdS k y s) s))) s)
def execSneg (k : CoreIx) (x y : Reg) (s : State) : Host.Outcome State Fault Refusal :=
  .next (issue k 1 (fun s => goOn (wrS k x (0 - rdS k y s) s)) s)
def execLai (k : CoreIx) (xa _xb _xc : Reg) (imm : Word) (s : State) : Host.Outcome State Fault Refusal :=
  .next (issue k 2 (fun s => goOn (wrA k xa (sextA imm) s)) s)
/-- R184: LAHI keeps AXA[19:0]. -/
def execLahi (k : CoreIx) (xa _xb _xc : Reg) (imm : Word) (s : State) : Host.Outcome State Fault Refusal :=
  .next (issue k 2 (fun s => goOn (wrA k xa (imm ++ (rdA k xa 0 s).extractLsb' 0 20) s)) s)
def execSai (k : CoreIx) (xa _xb _xc : Reg) (imm : Word) (s : State) : Host.Outcome State Fault Refusal :=
  .next (issue k 2 (fun s => goOn (wrS k xa (sextA imm) s)) s)
def execAaddl (k : CoreIx) (xa xb _xc : Reg) (imm : Word) (s : State) : Host.Outcome State Fault Refusal :=
  .next (issue k 2 (fun s => goOn (wrA k xa (rdA k xb 0 s + sextA imm) s)) s)
/-- R184: CMPA has conditions 0, 1 and 6 to 9. -/
def execCmpa (k : CoreIx) (xa xb xc : Reg) (imm : Word) (s : State) : Host.Outcome State Fault Refusal :=
  .next (issue k 2 (need (addrCond (bitsOf imm 0 4)) (encL 0x0D xa xb xc)
    (fun s => compareTo k xa (encL 0x0D xa xb xc) (condHolds (bitsOf imm 0 4) (rdA k xb 0 s) (rdA k xc 1 s)) s)) s)

/-- R194: BCHK: BOUNDS unless DY ≤ DX ≤ DY+1, signed with FN 0 and unsigned with FN 1. -/
def execBchk (k : CoreIx) (x y : Reg) (off : BitVec 6) (s : State) : Host.Outcome State Fault Refusal :=
  .next (issue k 1 (need (decide (off.toNat ≤ 1) && evenReg y) (encRR 0x21 x y off.toNat) (fun s =>
    let v := rdD k x 0 s
    let lo := rdD k y 1 s
    let hi := rdD k (pairHi y) 1 s
    let ok := if off = 0 then decide (lo.toInt ≤ v.toInt) && decide (v.toInt ≤ hi.toInt)
              else decide (lo.toNat ≤ v.toNat) && decide (v.toNat ≤ hi.toNat)
    if ok then goOn s else .trap (trapOf 4 0 v.toNat) s)) s)

end Sys2Proof.Machine
end

