-- ==== Sys2Proof/Machine/Memory.lean ====
section
/-! DEFINITION. Loads, stores, the stack group and the locked instructions (R185 to R188). -/

namespace Sys2Proof.Machine

/-- R185, R210: a two-word access must name an even address. -/
def evenAddr (k : Nat) (x : W40) (body : State → Res (Option W40)) (s : State) : Res (Option W40) :=
  if x.toNat % 2 = 0 then body s else .trap (formatTrap ((s.arch k).map x).toNat 1) s

/-- R185: one word into DX. -/
def loadD (k : Nat) (x : Reg) (a : W40) (s : State) : Res (Option W40) :=
  (load k a 1 s).bind fun r s => goOn (noteLoad k r (wrDd k x r.dist (r.words.headD 0) s))

/-- Two loaded words as a 40-bit value. -/
def pairOf (ws : List Word) : W40 := (ws[1]?).getD 0 ++ ws.headD 0

/-- R185: two words into the pair DX:X+1. -/
def loadPair (k : Nat) (x : Reg) (a : W40) (s : State) : Res (Option W40) :=
  evenAddr k a (fun s => (load k a 2 s).bind fun r s => goOn (noteLoad k r (wrPairD k x r.dist (pairOf r.words) s))) s

/-- R185: two words into AX. -/
def loadA (k : Nat) (x : Reg) (a : W40) (s : State) : Res (Option W40) :=
  evenAddr k a (fun s => (load k a 2 s).bind fun r s => goOn (noteLoad k r (wrAd k x r.dist (pairOf r.words) s))) s

/-- R185: store DX. -/
def storeD (k : Nat) (x : Reg) (a : W40) (s : State) : Res (Option W40) :=
  (store k a [rdD k x 2 s] s).bind fun _ s => goOn s

/-- R185: store the pair DX:X+1. -/
def storePair (k : Nat) (x : Reg) (a : W40) (s : State) : Res (Option W40) :=
  evenAddr k a (fun s => (store k a [rdD k x 2 s, rdD k (pairHi x) 2 s] s).bind fun _ s => goOn s) s

/-- R185: store AX. -/
def storeA (k : Nat) (x : Reg) (a : W40) (s : State) : Res (Option W40) :=
  evenAddr k a (fun s => (store k a (wordsOf (rdA k x 2 s)) s).bind fun _ s => goOn s) s

/-- R185: the short forms' address. -/
def addrShort (k : Nat) (y : Reg) (off : BitVec 6) (s : State) : W40 := rdA k y 0 s + off.setWidth 40
/-- R185: the long forms' address. -/
def addrLong (k : Nat) (xb : Reg) (imm : Word) (s : State) : W40 := rdA k xb 0 s + sextA imm
/-- R185: LDX's address. -/
def addrIndexed (k : Nat) (xb xc : Reg) (imm : Word) (s : State) : W40 :=
  rdA k xb 0 s + BitVec.ofNat 40 ((rdD k xc 1 s).toNat * bitsOf imm 0 6) + sextA (imm.extractLsb' 6 14)

def execLd (k : CoreIx) (x y : Reg) (off : BitVec 6) (s : State) : Host.Outcome State Fault Refusal :=
  .next (issue k 1 (fun s => loadD k x (addrShort k y off s) s) s)
def execSt (k : CoreIx) (x y : Reg) (off : BitVec 6) (s : State) : Host.Outcome State Fault Refusal :=
  .next (issue k 1 (fun s => storeD k x (addrShort k y off s) s) s)
def execLd2 (k : CoreIx) (x y : Reg) (off : BitVec 6) (s : State) : Host.Outcome State Fault Refusal :=
  .next (issue k 1 (need (evenReg x) (encRR 0x12 x y off.toNat) (fun s => loadPair k x (addrShort k y off s) s)) s)
def execSt2 (k : CoreIx) (x y : Reg) (off : BitVec 6) (s : State) : Host.Outcome State Fault Refusal :=
  .next (issue k 1 (need (evenReg x) (encRR 0x13 x y off.toNat) (fun s => storePair k x (addrShort k y off s) s)) s)
def execLda (k : CoreIx) (x y : Reg) (off : BitVec 6) (s : State) : Host.Outcome State Fault Refusal :=
  .next (issue k 1 (fun s => loadA k x (addrShort k y off s) s) s)
def execSta (k : CoreIx) (x y : Reg) (off : BitVec 6) (s : State) : Host.Outcome State Fault Refusal :=
  .next (issue k 1 (fun s => storeA k x (addrShort k y off s) s) s)

/-- R185: a long form; XC must be 0. -/
def longForm (k lop : Nat) (xa xb xc : Reg) (c : Bool) (body : State → Res (Option W40)) (s : State) : State :=
  issue k 2 (need (decide (xc = 0) && c) (encL lop xa xb xc) body) s

def execLdl (k : CoreIx) (xa xb xc : Reg) (imm : Word) (s : State) : Host.Outcome State Fault Refusal :=
  .next (longForm k 0x00 xa xb xc true (fun s => loadD k xa (addrLong k xb imm s) s) s)
def execStl (k : CoreIx) (xa xb xc : Reg) (imm : Word) (s : State) : Host.Outcome State Fault Refusal :=
  .next (longForm k 0x01 xa xb xc true (fun s => storeD k xa (addrLong k xb imm s) s) s)
def execLd2l (k : CoreIx) (xa xb xc : Reg) (imm : Word) (s : State) : Host.Outcome State Fault Refusal :=
  .next (longForm k 0x02 xa xb xc (evenReg xa) (fun s => loadPair k xa (addrLong k xb imm s) s) s)
def execSt2l (k : CoreIx) (xa xb xc : Reg) (imm : Word) (s : State) : Host.Outcome State Fault Refusal :=
  .next (longForm k 0x03 xa xb xc (evenReg xa) (fun s => storePair k xa (addrLong k xb imm s) s) s)
def execLdal (k : CoreIx) (xa xb xc : Reg) (imm : Word) (s : State) : Host.Outcome State Fault Refusal :=
  .next (longForm k 0x04 xa xb xc true (fun s => loadA k xa (addrLong k xb imm s) s) s)
def execStal (k : CoreIx) (xa xb xc : Reg) (imm : Word) (s : State) : Host.Outcome State Fault Refusal :=
  .next (longForm k 0x05 xa xb xc true (fun s => storeA k xa (addrLong k xb imm s) s) s)
/-- R185: LDX; r = 0 traps ILLEGAL_INSTRUCTION. -/
def execLdx (k : CoreIx) (xa xb xc : Reg) (imm : Word) (s : State) : Host.Outcome State Fault Refusal :=
  .next (issue k 2 (need (decide (bitsOf imm 0 6 ≠ 0)) (encL 0x06 xa xb xc) (fun s => loadD k xa (addrIndexed k xb xc imm s) s)) s)
def execStx (k : CoreIx) (xa xb xc : Reg) (imm : Word) (s : State) : Host.Outcome State Fault Refusal :=
  .next (issue k 2 (need (decide (bitsOf imm 0 6 ≠ 0)) (encL 0x07 xa xb xc) (fun s => storeD k xa (addrIndexed k xb xc imm s) s)) s)

/-! ### The stack (R186) -/

/-- R186: a stack instruction; Y must be 0. -/
def stackOp (k fn : Nat) (x y : Reg) (c : Bool) (body : State → Res (Option W40)) (s : State) : State :=
  issue k 1 (need (decide (y = 0) && c) (encRR 0x16 x y fn) body) s

def execPush (k : CoreIx) (x y : Reg) (s : State) : Host.Outcome State Fault Refusal :=
  .next (stackOp k 0 x y true (fun s => (push k [rdD k x 2 s] s).bind fun _ s => goOn s) s)
def execPop (k : CoreIx) (x y : Reg) (s : State) : Host.Outcome State Fault Refusal :=
  .next (stackOp k 1 x y true (fun s => (pop k 1 s).bind fun r s => goOn (noteLoad k r (wrDd k x r.dist (r.words.headD 0) s))) s)
def execPusha (k : CoreIx) (x y : Reg) (s : State) : Host.Outcome State Fault Refusal :=
  .next (stackOp k 2 x y true (fun s => (push k (wordsOf (rdA k x 2 s)) s).bind fun _ s => goOn s) s)
/-- R186: POPA with X = 15 traps ILLEGAL_INSTRUCTION. -/
def execPopa (k : CoreIx) (x y : Reg) (s : State) : Host.Outcome State Fault Refusal :=
  .next (stackOp k 3 x y (decide (x ≠ 15)) (fun s => (pop k 2 s).bind fun r s => goOn (noteLoad k r (wrAd k x r.dist (pairOf r.words) s))) s)
def execPush2 (k : CoreIx) (x y : Reg) (s : State) : Host.Outcome State Fault Refusal :=
  .next (stackOp k 4 x y (evenReg x) (fun s => (push k [rdD k x 2 s, rdD k (pairHi x) 2 s] s).bind fun _ s => goOn s) s)
def execPop2 (k : CoreIx) (x y : Reg) (s : State) : Host.Outcome State Fault Refusal :=
  .next (stackOp k 5 x y (evenReg x) (fun s => (pop k 2 s).bind fun r s => goOn (noteLoad k r (wrPairD k x r.dist (pairOf r.words) s))) s)

/-! ### Locked sequences (R187, R188) -/

/-- R74, R187: the write that ends a locked sequence: device memory takes an entry held for the block into its one read and write. -/
def lockedWrite (k : Nat) (ps : List Place) (ws : List Word) (s : State) : State :=
  let s := lineUpdate (k / 2) (ps.zip ws) s
  match ps with
  | .dev a :: _ => if isLocal s a then lockedEnd (localOf a / 64) (blockPart (a / 64) (ps.zip ws)) s else s
  | _ => writePlaces (k / 2) (ps.zip ws) s

/-- R68, R70: a locked sequence that writes nothing retires the entry of its block all the same. -/
def lockedNone (ps : List Place) (s : State) : State :=
  match ps with
  | .dev a :: _ => if isLocal s a then lockedEnd (localOf a / 64) [] s else s
  | _ => s

/-- R76: a class-1 request waits where this class-2 sequence would run. -/
def lockWaits (s : State) (ps : List Place) : Bool :=
  match ps with
  | .dev a :: _ => isLocal s a && lockBarred s (localOf a / 64)
  | _ => false

/-- R187, R188: a locked sequence on n words: alignment (FORMAT 1), host window (FORMAT 2), the buffer drains, RD and W
are needed, and f of the words read gives what is written back (none: the lock is released with no write) and the
result. -/
def locked (k n : Nat) (x : W40) (f : List Word → State → Option (List Word) × Res (Option W40)) (s : State) : Res (Option W40) :=
  let v := ((s.arch k).map x).toNat
  if v % n ≠ 0 then .trap (formatTrap v 1) s
  else if 0xF000000000 ≤ v ∧ v < 0xF800000000 then .trap (formatTrap v 2) s
  else
    let s := drainAll k (noteAccess k v n s)
    (xlate (.core k) (coreXl k (s.arch k).pl.toNat s) .locked v n s).bind fun ps s =>
      if lockWaits s ps then .stall s
      else match readPlaces (.core k) .locked v ps (openFetch s) with
        | .ok ws s =>
          (match f ws s with
           | (none, _) => (f ws (closeFetch (lockedNone ps s))).2
           | (some out, _) => (f ws (closeFetch (lockedWrite k ps out s))).2)
        | .trap t s => .trap t (closeFetch (lockedNone ps s))
        | .stall s => .stall (closeFetch s)

/-- R187: a one-word locked instruction: DXA takes the old word. -/
def lockedWord (k lop : Nat) (xa xb xc : Reg) (imm : Word) (c : Bool) (f : State → Word → Option Word) (s : State) : State :=
  issueC k 2 (need (decide (imm = 0) && c) (encL lop xa xb xc) (fun s =>
    locked k 1 (rdA k xb 0 s) (fun ws s =>
      let t := ws.headD 0
      (some [(f s t).getD t], goOn (wrD k xa t s))) s)) s

def execLxadd (k : CoreIx) (xa xb xc : Reg) (imm : Word) (s : State) : Host.Outcome State Fault Refusal :=
  .next (lockedWord k 0x10 xa xb xc imm true (fun s t => some (t + rdD k xc 1 s)) s)
def execLxchg (k : CoreIx) (xa xb xc : Reg) (imm : Word) (s : State) : Host.Outcome State Fault Refusal :=
  .next (lockedWord k 0x11 xa xb xc imm true (fun s _ => some (rdD k xc 1 s)) s)
/-- R187: LCAS; XC even. The old word goes back where it does not equal DXC. -/
def execLcas (k : CoreIx) (xa xb xc : Reg) (imm : Word) (s : State) : Host.Outcome State Fault Refusal :=
  .next (lockedWord k 0x12 xa xb xc imm (evenReg xc) (fun s t => if t = rdD k xc 1 s then some (rdD k (pairHi xc) 1 s) else none) s)

/-- The registers DXC to DXC + n - 1. -/
def regRun (k : Nat) (xc : Reg) (n : Nat) (s : State) : List Word := (List.range n).map (fun i => rdD k (xc + BitVec.ofNat 4 i) 1 s)

/-- R187: LQADD of 1, 2 or 4 limbs; a sum that does not fit writes nothing and traps DECIMAL_OVERFLOW. -/
def execLqadd (k : CoreIx) (xa xb xc : Reg) (imm : Word) (s : State) : Host.Outcome State Fault Refusal :=
  let n := imm.toNat
  .next (issueC k 2 (need ((decide (n = 1) || decide (n = 2) || decide (n = 4)) && decide (xc.toNat + n ≤ 16)) (encL 0x13 xa xb xc) (fun s =>
    locked k n (rdA k xb 0 s) (fun ws s =>
      let v := qValue ws + qValue (regRun k xc n s)
      match normalised n v with
      | none => (none, overflow s)
      | some out => (some out, goOn (wrD k xa (boolWord (decide (v < 0))) s))) s)) s)

end Sys2Proof.Machine
end

