-- ==== Sys2Proof/Machine/Branch.lean ====
section
/-! DEFINITION. Branches, calls and hardware loops (R189 to R193). -/

namespace Sys2Proof.Machine

/-- R189: go to a target. -/
def jump (t : W40) (s : State) : Res (Option W40) := .ok (some t) s

/-- R189: pc + a displacement. -/
def branchAt {n : Nat} (k : Nat) (disp : BitVec n) (s : State) : W40 := (s.arch k).pc + sextA disp

/-- R189: branch where the condition holds, else fall through. -/
def branchIf {n : Nat} (k : Nat) (c : Bool) (disp : BitVec n) (s : State) : Res (Option W40) :=
  if c then jump (branchAt k disp s) s else goOn s

/-- R189: push next and go on at a target, which is formed before the push. -/
def callTo (k len : Nat) (t : W40) (s : State) : Res (Option W40) :=
  (push k (wordsOf (nextPc (s.arch k) len)) s).bind fun _ s => jump t s

def execBz (k : CoreIx) (x : Reg) (imm : BitVec 10) (s : State) : Host.Outcome State Fault Refusal :=
  .next (issue k 1 (fun s => branchIf k (decide (rdD k x 0 s = 0)) imm s) s)
def execBnz (k : CoreIx) (x : Reg) (imm : BitVec 10) (s : State) : Host.Outcome State Fault Refusal :=
  .next (issue k 1 (fun s => branchIf k (decide (rdD k x 0 s ≠ 0)) imm s) s)
def execBr (k : CoreIx) (disp : BitVec 14) (s : State) : Host.Outcome State Fault Refusal :=
  .next (issue k 1 (fun s => jump (branchAt k disp s) s) s)
def execCall (k : CoreIx) (disp : BitVec 14) (s : State) : Host.Outcome State Fault Refusal :=
  .next (issue k 1 (fun s => callTo k 1 (branchAt k disp s) s) s)
/-- R189: XB, XC must be 0. -/
def execBzl (k : CoreIx) (xa xb xc : Reg) (imm : Word) (s : State) : Host.Outcome State Fault Refusal :=
  .next (issue k 2 (need (decide (xb = 0) && decide (xc = 0)) (encL 0x14 xa xb xc) (fun s => branchIf k (decide (rdD k xa 0 s = 0)) imm s)) s)
def execBnzl (k : CoreIx) (xa xb xc : Reg) (imm : Word) (s : State) : Host.Outcome State Fault Refusal :=
  .next (issue k 2 (need (decide (xb = 0) && decide (xc = 0)) (encL 0x15 xa xb xc) (fun s => branchIf k (decide (rdD k xa 0 s ≠ 0)) imm s)) s)
/-- R189: XA, XB, XC must be 0. -/
def execBrl (k : CoreIx) (xa xb xc : Reg) (imm : Word) (s : State) : Host.Outcome State Fault Refusal :=
  .next (issue k 2 (need (decide (xa = 0) && decide (xb = 0) && decide (xc = 0)) (encL 0x16 xa xb xc) (fun s => jump (branchAt k imm s) s)) s)
def execCalll (k : CoreIx) (xa xb xc : Reg) (imm : Word) (s : State) : Host.Outcome State Fault Refusal :=
  .next (issue k 2 (need (decide (xa = 0) && decide (xb = 0) && decide (xc = 0)) (encL 0x17 xa xb xc) (fun s => callTo k 2 (branchAt k imm s) s)) s)

/-- R189: the register field of a SYS form: X in IMM10[3:0]; no table asks anything of the other
bits (DEDUCED, assumption 19). -/
def sysReg (imm : BitVec 10) : Reg := imm.setWidth 4
/-- R189: RET; its IMM10 is ignored (DEDUCED, assumption 19). -/
def execRet (k : CoreIx) (_imm : BitVec 10) (s : State) : Host.Outcome State Fault Refusal :=
  .next (issue k 1 (fun s => (pop k 2 s).bind fun r s => jump (pairOf r.words) s) s)
def execJr (k : CoreIx) (imm : BitVec 10) (s : State) : Host.Outcome State Fault Refusal :=
  .next (issue k 1 (fun s => jump (rdA k (sysReg imm) 0 s) s) s)
def execCallr (k : CoreIx) (imm : BitVec 10) (s : State) : Host.Outcome State Fault Refusal :=
  .next (issue k 1 (fun s => callTo k 1 (rdA k (sysReg imm) 0 s) s) s)

/-- R190, R212: the length of the instruction whose first word is at v. -/
def lengthAt (k : Nat) (v : Nat) (s : State) : Res Nat :=
  let lvl := (s.arch k).pl.toNat
  if lvl = 2 then (match serviceWord s (k / 2) v with | some w => .ok (instrLen w) s | none => .stall s)
  else
    (xlate (.core k) (coreXl k lvl s) .fetch v 1 s).bind fun ps s =>
      (readPlaces (.core k) .fetch v ps s).bind fun ws s => .ok (instrLen (ws.headD 0)) s

/-- R190: open a hardware loop over the instructions from next to the one at last. A count of 0 goes on after the
body (DEDUCED, assumption 18). -/
def openLoop (k : Nat) (next last : W40) (count : W40) (s : State) : Res (Option W40) :=
  let a := s.arch k
  let l := a.ld.toNat
  if l = 3 then .trap (trapOf 18 0 0) s
  else if count = 0 then
    (lengthAt k (a.map last).toNat s).bind fun n s => jump (last + BitVec.ofNat 40 n) s
  else
    goOn (s.setArch k { a with ls := tset 0 a.ls l next, le := tset 0 a.le l last, lc := tset 0 a.lc l count, ld := BitVec.ofNat 2 (l + 1) })

/-- R190, R151: the loop registers it writes overtake an earlier MOVC write in its shadow. -/
def loopOp (k len : Nat) (disp : W40) (count : W40) (w0 : Word) (s : State) : Res (Option W40) :=
  if disp.toInt < (len : Int) then illegal w0 s
  else
    let a := s.arch k
    let l := a.ld.toNat
    let s' := if l = 3 ∨ count = 0 then s else dropCtl k (fun i => decide (i = 0x028 + l) || decide (i = 0x02C + l) || decide (i = 0x030 + l) || decide (i = 0x001)) s
    openLoop k (nextPc a len) (a.map (a.pc + disp)) count s'

def execLoop (k : CoreIx) (x : Reg) (imm : BitVec 10) (s : State) : Host.Outcome State Fault Refusal :=
  .next (issue k 1 (fun s => loopOp k 1 (sextA imm) ((rdD k x 0 s).setWidth 40) (encRI 0x20 x imm) s) s)
/-- R190: XB, XC must be 0. -/
def execLoopl (k : CoreIx) (xa xb xc : Reg) (imm : Word) (s : State) : Host.Outcome State Fault Refusal :=
  .next (issue k 2 (need (decide (xb = 0) && decide (xc = 0)) (encL 0x18 xa xb xc)
    (fun s => loopOp k 2 (sextA imm) (rdA k xa 0 s) (encL 0x18 xa xb xc) s)) s)

/-- R151, R192: LEXIT; with STATUS.LD at 0 it traps ILLEGAL_INSTRUCTION. -/
def execLexit (k : CoreIx) (imm : BitVec 10) (s : State) : Host.Outcome State Fault Refusal :=
  .next (issue k 1 (need (decide ((s.arch k).ld ≠ 0)) (encSYS 0 7 imm)
    (fun s => let a := s.arch k; goOn (dropCtl k (fun i => decide (i = 0x001)) (s.setArch k { a with ld := a.ld - 1 })))) s)

end Sys2Proof.Machine
end

