-- ==== Sys2Proof/Machine/Events.lean ====
section
/-! DEFINITION. The event controller (R463 to R477): targets, presentation, claim and complete, its registers, and the
event instructions (R469, R470). A target is a core number, or 64 for the steward core. -/

namespace Sys2Proof.Machine

/-- R474: the target is in service. -/
def targetInService (s : State) (t : Nat) : Bool :=
  decide (t = 64) || ((s.bent (t / 2)).share.isSome && (decide (t % 2 = 0) || (s.bent (t / 2)).split))

/-- R472: the target of a target code of source key n. -/
def codeTarget (n : Nat) (code : BitVec 7) : Nat := if code.toNat = 64 ∨ n < 64 then 64 else 2 * ((n - 64) / 16) + code.toNat

/-- R474: the target an event goes to. -/
def evTarget (s : State) (n : Nat) : Nat :=
  let e := s.src n
  let t := codeTarget n e.tgt
  let a := codeTarget n e.alt
  if targetInService s t then t else if targetInService s a then a else 64

/-- R474, R476: both targets of the event are out of service. -/
def isOrphan (s : State) (n : Nat) : Bool :=
  !targetInService s (codeTarget n (s.src n).tgt) && !targetInService s (codeTarget n (s.src n).alt)

/-- The event number of a source key (R463). -/
def eventNumber (n : Nat) : Nat := if n < 64 then n else 1007 + (n - 64) % 16

/-- The source key an event number names at core k (R463). -/
def eventKey (k n : Nat) : Option Nat :=
  if n < 64 then some n else if 1007 ≤ n ∧ n ≤ 1022 then some (signalKey (k / 2) (n - 1007)) else none

/-- R465: the running priority of a target. -/
def runPri (s : State) (t : Nat) : Nat :=
  s.srcs.foldl (fun m e => if e.2.insv = some t then max m e.2.prio.toNat else m) 0

/-- R465, R476: the source is a candidate for a target. -/
def candidate (s : State) (t : Nat) (e : Nat × Src) : Bool :=
  e.2.pend && decide (e.2.prio ≠ 0) && decide (evTarget s e.1 = t) && !(e.2.held && isOrphan s e.1) && decide (runPri s t < e.2.prio.toNat)

/-- R465: the better of two candidates: higher priority, then lower number (DESIGN CHOICE, assumption 35). -/
def better (a b : Nat × Src) : Nat × Src :=
  if a.2.prio.toNat < b.2.prio.toNat ∨ (a.2.prio = b.2.prio ∧ eventNumber b.1 < eventNumber a.1) then b else a

/-- R465: the event the controller presents to a target now. -/
def bestFor (s : State) (t : Nat) : Option (Nat × Src) :=
  match s.srcs.filter (candidate s t) with
  | [] => none
  | e :: es => some (es.foldl better e)

/-- R475: presentations to a target that is no longer the event's are withdrawn. -/
def withdraw (s : State) : State :=
  { s with srcs := tmap Src.reset (fun n e => if e.pres.isSome && decide (e.pres ≠ some (evTarget s n)) then { e with pres := none } else e) s.srcs }

/-- R465: one presentation decision for a target. -/
def present (t : Nat) (s : State) : State :=
  let s := withdraw s
  match bestFor s t with
  | none => s
  | some (n, e) =>
    let s := { s with srcs := tmap Src.reset (fun _ e => if e.pres = some t then { e with pres := none } else e) s.srcs }
    s.setSrc n { e with pres := some t, held := false }

/-- R476: a signal event of bent l whose targets are both out of service: the steward core logs it and holds it. -/
def takeOrphans (l : Nat) (s : State) : State :=
  (List.range 16).foldl (fun s j =>
    let n := signalKey l j
    let e := s.src n
    if e.pend && decide (e.prio ≠ 0) && isOrphan s n && !e.held then
      logErr false 0x004F 0 (s.physOf l) 0 j 0 (s.setSrc n { e with pres := none, held := true })
    else s) s

/-- R197: an event above THRESH is pending for the core. -/
def eventWaits (s : State) (k : Nat) : Bool :=
  s.srcs.any (fun e => e.2.pend && decide (e.2.prio ≠ 0) && decide (evTarget s e.1 = k) && decide ((s.arch k).thresh < e.2.prio.toNat))

/-- R197, R224: a WAIT ends: the core runs, and takes TIMER, or the event now presented to it, where EVMASK.M is 0. -/
def endWait (k : Nat) (s : State) : State :=
  let s := s.setCore k { s.core k with run := .running }
  takeReady k (if (s.core k).timer || (s.arch k).masked then s else present k s)

/-- R197: a core in WAIT goes on once an event above THRESH is pending for it or its TIMER latch is set. -/
def wakeCore (k : Nat) (s : State) : State :=
  let c := s.core k
  if c.run = .waiting ∧ (c.timer = true ∨ eventWaits s k = true) then endWait k s else s

/-- The controller's presentation decision for core k, its bent's orphans and the steward core. -/
def execEventPresentation (k : CoreIx) (s : State) : Host.Outcome State Fault Refusal :=
  .next (present 64 (takeOrphans (k.val / 2) (wakeCore k (present k s))))

/-! ### Registers (R471, R472) -/

/-- R471: an event register: register r of a source, EVCFG, or the TGTSTAT of a target. -/
inductive EvReg where
  | src (n r : Nat)
  | cfg
  | tgt (t : Nat)
  deriving DecidableEq, Repr

/-- R471: the register at an index, for core k's bent. -/
def evReg (s : State) (k i : Nat) : Option EvReg :=
  if i = 0x1FF8 then some .cfg
  else if i < 0x2000 then
    match eventKey k (i / 8) with
    | some n => if i % 8 < 4 then some (.src n (i % 8)) else none
    | none => none
  else if 0x2000 ≤ i ∧ i < 0x3000 then
    if (i - 0x2000) / 0x80 < s.variant.bents ∧ i % 8 < 4 then some (.src (signalKey ((i - 0x2000) / 0x80) ((i - 0x2000) % 0x80 / 8)) (i % 8)) else none
  else if 0x3000 ≤ i ∧ i < 0x3000 + 2 * s.variant.bents then some (.tgt (i - 0x3000))
  else if i = 0x3040 then some (.tgt 64)
  else none

/-- R470: the index lies within reach of supervisor level on core k. -/
def evReach (k i : Nat) (write : Bool) : Bool :=
  (decide (8 * 1007 ≤ i) && decide (i < 8 * 1023)) ||
    (!write && (decide (i = 0x1FF8) || decide (i / 2 = (0x3000 + k) / 2)))

/-- R472: read a register. -/
def readEv (s : State) (x : EvReg) : Word :=
  match x with
  | .cfg => boolWord s.sleep
  | .tgt t =>
    let p := match presentedAt s t with | some e => eventNumber e.1 | none => 1023
    BitVec.ofNat 20 (runPri s t * 65536 + p * 64 + (if t < 64 ∧ (s.core t).run = .waiting then 32 else 0) + if targetInService s t then 0 else 16)
  | .src n r =>
    let e := s.src n
    match r with
    | 0 => e.prio.setWidth 20
    | 1 =>
      if n < 64 then BitVec.ofNat 20 (64 * 512 + 64 * 4)
      else BitVec.ofNat 20 ((if e.cerr then 2 ^ 19 else 0) + (if e.staged then 2 ^ 18 else 0) + e.stAlt.toNat * 512 + e.stTgt.toNat * 4)
    | 2 => e.stat
    | _ =>
      let a := if n < 64 then 64 else e.alt.toNat
      let t := if n < 64 then 64 else e.tgt.toNat
      BitVec.ofNat 20 (a * 2048 + t * 16 + (if e.insv.isSome then 4 else 0) + (if e.pres.isSome then 2 else 0) + if e.pend then 1 else 0)

/-- R473: a target code of R472. -/
def goodCode (c : BitVec 7) : Bool := decide (c = 0) || decide (c = 1) || decide (c = 64)

/-- R473: commit TARGET and ALT of a signal source. -/
def commitTarget (n : Nat) (s : State) : State :=
  let e := s.src n
  if goodCode e.stTgt && goodCode e.stAlt then
    withdraw (s.setSrc n { e with tgt := e.stTgt, alt := e.stAlt, staged := false })
  else s.setSrc n { e with cerr := true }

/-- R472: write SRCTGT. -/
def writeTarget (n : Nat) (v : Word) (s : State) : State :=
  if n < 64 then s
  else
    let e := s.src n
    let s := s.setSrc n { e with cerr := e.cerr && !bitAt v 19, stAlt := BitVec.ofNat 7 (bitsOf v 9 7), stTgt := BitVec.ofNat 7 (bitsOf v 2 7), staged := true }
    if bitAt v 0 then commitTarget n s else s

/-- R472: write a register; what reads only ignores it. -/
def writeEv (x : EvReg) (v : Word) (s : State) : State :=
  match x with
  | .cfg => { s with sleep := bitAt v 0 }
  | .tgt _ => s
  | .src n r =>
    let e := s.src n
    match r with
    | 0 => s.setSrc n { e with prio := BitVec.ofNat 4 (bitsOf v 0 4) }
    | 1 => writeTarget n v s
    | 2 => s.setSrc n { e with stat := e.stat &&& ~~~v }
    | _ => if bitAt v 3 then (if n < 10 ∨ 64 ≤ n then fireSrc n 1 s else s) else s

/-- The table key of a source. -/
def keyOf : EvSource → Nat
  | .module n => n.val
  | .signal l j => signalKey l.val j.val

/-- SETP of a source written 1: it fires with status bit 0 (R472). -/
def execSetp (src : EvSource) (s : State) : Host.Outcome State Fault Refusal := .next (writeEv (.src (keyOf src) 3) 8 s)

/-- SRCTGT of a source written with v and COMMIT set (R473). -/
def execTargetCommit (src : EvSource) (v : Word) (s : State) : Host.Outcome State Fault Refusal := .next (writeTarget (keyOf src) (v ||| 1) s)

/-! ### Event instructions (R469) -/

/-- R469: the level, IMM10[9:4] and the even X of an event instruction. -/
def evOp (k sub : Nat) (imm : BitVec 10) (pair : Bool) (lvl : Nat) (out : Out) (body : State → Res (Option W40)) (s : State) : State :=
  issueAny false out k 1 (need (decide (bitsOf imm 4 6 = 0) && (!pair || evenReg (sysReg imm))) (encSYS 0x28 sub imm)
    (needLevel lvl k (encSYS 0x28 sub imm) body)) s

/-- R466: claim what is presented. -/
def claim (k : Nat) (s : State) : Nat × State :=
  match presentedAt s k with
  | some (n, e) => (eventNumber n, s.setSrc n { e with pend := false, pres := none, insv := some k })
  | none => (1023, s)

/-- R467: complete an event. -/
def complete (k n : Nat) (s : State) : Word × State :=
  match eventKey k n with
  | some key =>
    let e := s.src key
    if e.insv = some k then (if e.stat = 0 then (0, s.setSrc key { e with insv := none }) else (e.stat, s)) else (0, s)
  | none => (0, s)

def execEvclm (k : CoreIx) (imm : BitVec 10) (s : State) : Host.Outcome State Fault Refusal :=
  .next (evOp k 8 imm false 1 .sent (fun s => let r := claim k s; goOn (wrD k (sysReg imm) (BitVec.ofNat 20 r.1) r.2)) s)
def execEvcmp (k : CoreIx) (imm : BitVec 10) (s : State) : Host.Outcome State Fault Refusal :=
  .next (evOp k 9 imm true 1 .sent (fun s => let r := complete k (rdD k (sysReg imm) 0 s).toNat s; goOn (wrD k (pairHi (sysReg imm)) r.1 r.2)) s)

/-- R470: reach a register from core k's level. -/
def reachEv (k sub i : Nat) (imm : BitVec 10) (write : Bool) (f : EvReg → State → Res (Option W40)) (s : State) : Res (Option W40) :=
  match evReg s k i with
  | none => illegal (encSYS 0x28 sub imm) s
  | some x => if (s.arch k).pl = 2 ∨ evReach k i write then f x s else privileged (encSYS 0x28 sub imm) s

def execEvrd (k : CoreIx) (imm : BitVec 10) (s : State) : Host.Outcome State Fault Refusal :=
  .next (evOp k 10 imm true 1 .no (fun s =>
    reachEv k 10 (rdD k (sysReg imm) 0 s).toNat imm false (fun x s => goOn (wrD k (pairHi (sysReg imm)) (readEv s x) s)) s) s)
def execEvwr (k : CoreIx) (imm : BitVec 10) (s : State) : Host.Outcome State Fault Refusal :=
  .next (evOp k 11 imm true 1 .sent (fun s =>
    let v := rdD k (pairHi (sysReg imm)) 1 s
    reachEv k 11 (rdD k (sysReg imm) 0 s).toNat imm true (fun x s => goOn (writeEv x v s)) s) s)

/-- R469: the firing of EVSET: the result, 0 or 1. -/
def signal (k : Nat) (d bits : Word) (s : State) : Word × State :=
  let j := bitsOf d 0 4
  if bitAt d 9 then (0, fireSrc (signalKey (k / 2) j) bits s)
  else match shareOf s (k / 2) with
    | none => (1, s)
    | some (n, _) =>
      match s.job n with
      | none => (1, s)
      | some job =>
        match job.shares[bitsOf d 4 5]? with
        | some (.on l) => (0, fireSrc (signalKey l j) bits s)
        | some (.saved b c0 c1 rs es) =>
          let es := es.set j (((es[j]?).getD Src.reset).fire bits)
          (0, s.setJob n (some { job with shares := job.shares.set (bitsOf d 4 5) (.saved b c0 c1 rs es) }))
        | _ => (1, s)

def execEvset (k : CoreIx) (imm : BitVec 10) (s : State) : Host.Outcome State Fault Refusal :=
  .next (evOp k 12 imm true 0 .sent (fun s =>
    let b := rdD k (pairHi (sysReg imm)) 1 s
    let r := signal k (rdD k (sysReg imm) 0 s) (if b = 0 then 1 else b) s
    goOn (wrD k (sysReg imm) r.1 r.2)) s)

end Sys2Proof.Machine
end

