-- ==== Sys2Proof/Machine/Control.lean ====
section
/-! DEFINITION. Control registers by MOVC (R140 to R145, R195), the rows that are single MOVC writes, and the stream
progress that a MOVC read waits for (R258, R311). -/

namespace Sys2Proof.Machine

/-- R141: the width of a control register; none where the table assigns no index. -/
def ctlWidth (i : Nat) : Option Nat :=
  if i ≤ 4 then some 20
  else if i = 0x008 ∨ i = 0x009 ∨ i = 0x010 ∨ i = 0x011 then some 40
  else if 0x012 ≤ i ∧ i ≤ 0x015 then some 20
  else if 0x018 ≤ i ∧ i ≤ 0x020 then some 20
  else if (0x028 ≤ i ∧ i ≤ 0x02A) ∨ (0x02C ≤ i ∧ i ≤ 0x02E) ∨ (0x030 ≤ i ∧ i ≤ 0x032) then some 40
  else if i = 0x040 ∨ i = 0x042 ∨ i = 0x048 ∨ i = 0x060 ∨ i = 0x063 then some 20
  else if i = 0x041 ∨ i = 0x050 ∨ i = 0x051 ∨ i = 0x061 ∨ i = 0x062 then some 40
  else if 0x100 ≤ i ∧ i ≤ 0x17F then some 20
  else none

/-- R141: the lowest level that may write a control register; none where it is RO. -/
def ctlLevel (i : Nat) : Option Nat :=
  if i = 0x002 ∨ i = 0x003 ∨ i = 0x050 then none
  else if 0x010 ≤ i ∧ i ≤ 0x032 then some 0
  else if 0x100 ≤ i then some 2
  else some 1

/-- R242, R258: done bits as read: those of elements at or beyond SLN read 1 in the last group. -/
def StreamOp.shownDone (o : StreamOp) : Nat :=
  let left := o.sln - 64 * o.prog
  if 64 * o.prog < o.sln ∧ left < 64 then o.done.toNat ||| (2 ^ 64 - 2 ^ left) else o.done.toNat

/-- R336: VDONE as read: bits of elements at or beyond VCNT read 1. -/
def VecOp.shownDone (o : VecOp) : Nat :=
  let left := o.vcnt - o.start
  if left < 128 then o.done.toNat ||| (2 ^ 128 - 2 ^ left) else o.done.toNat

/-- R258: the operation whose progress the core shows: a suspended or stopped one. -/
def shownOp (c : Core) : Option StreamOp := c.ops.find? (fun o => o.st = .suspended ∨ o.st = .stopped)
/-- R336: the vector instruction whose progress the core shows. -/
def shownVop (c : Core) : Option VecOp := c.vops.find? (fun o => o.st = .suspended ∨ o.st = .stopped)

/-- R258: a read of stream progress or of a seal can return. -/
def streamSettled (c : Core) : Bool := c.ops.isEmpty || (shownOp c).isSome
/-- R336: a read of vector progress can return. -/
def vectorSettled (c : Core) : Bool := c.vops.isEmpty || (shownVop c).isSome

/-- R142: COREID. -/
def coreId (k : Nat) (s : State) : Nat :=
  (if s.variant = .kl8x128 then 1024 else 0) + 128 * s.straps.modId.toNat + (if s.split k then 64 + 32 * (k % 2) else 0) + k / 2

/-- R142: YRATTR of a region as read. -/
def attrWord (g : Region) : Nat :=
  (if g.cerr then 2 ^ 19 else 0) + (if g.staged then 2 ^ 18 else 0) + (if g.en then 2 ^ 17 else 0) + g.tag.toNat * 32
    + (if g.anyctx then 8 else 0) + (if g.w then 4 else 0) + if g.rd then 2 else 0

/-- R8, R149: a written value as the register then reads. -/
def ctlForm (i v : Nat) (a : Arch) : Nat :=
  if i = 0x000 ∨ i = 0x048 then v % 32
  else if i = 0x001 then a.status.toNat % 16 + v / 16 % 4 * 16
  else if i = 0x009 then v / 2 ^ 18 * 2 ^ 18
  else if i = 0x015 then v % 16
  else if i = 0x01F then v % 256
  else if i = 0x020 then v / 512 * 512 + v % 4
  else if i = 0x060 then v % 8
  else v

/-- R141: what a register holds now. -/
def ctlNow (k i : Nat) (s : State) : Nat :=
  let c := s.core k
  let a := c.arch
  let b := s.bent (k / 2)
  let r := bitsOf a.yrsel 0 3
  let g := s.region (k / 2) r
  if i = 0x000 then a.corecfg.toNat
  else if i = 0x001 then a.status.toNat
  else if i = 0x002 then coreId k s
  else if i = 0x003 then 128
  else if i = 0x008 then a.sill.toNat
  else if i = 0x009 then a.pxbase.toNat
  else if i = 0x010 then a.sln.toNat
  else if i = 0x011 then (match shownOp c with | some o => if o.key.isSome then c.sprog.toNat else o.prog | none => c.sprog.toNat)
  else if 0x012 ≤ i ∧ i ≤ 0x015 then (match shownOp c with | some o => o.shownDone | none => c.sdone.toNat) / 2 ^ (20 * (i - 0x012)) % 2 ^ 20
  else if i = 0x018 then (match shownVop c with | some o => o.start | none => c.vstart.toNat)
  else if 0x019 ≤ i ∧ i ≤ 0x01F then (match shownVop c with | some o => o.shownDone | none => c.vdone.toNat) / 2 ^ (20 * (i - 0x019)) % 2 ^ 20
  else if i = 0x020 then ctlForm 0x020 a.vgrp.toNat a
  else if 0x028 ≤ i ∧ i ≤ 0x02A then (tget 0 a.ls (i - 0x028)).toNat
  else if 0x02C ≤ i ∧ i ≤ 0x02E then (tget 0 a.le (i - 0x02C)).toNat
  else if 0x030 ≤ i ∧ i ≤ 0x032 then (tget 0 a.lc (i - 0x030)).toNat
  else if i = 0x040 then b.stCtxid.toNat
  else if i = 0x041 then b.stPtroot.toNat
  else if i = 0x042 then (if b.staged || (pendingCtl k 0x040 s).isSome then 2 else 0) + if b.cerr then 4 else 0
  else if i = 0x048 then a.evmask.toNat
  else if i = 0x050 then s.tick.toNat
  else if i = 0x051 then a.tickcmp.toNat
  else if i = 0x060 then a.yrsel.toNat
  else if i = 0x061 then g.stBase.toNat
  else if i = 0x062 then g.stLim.toNat
  else if i = 0x063 then
    let g := { g with staged := g.staged || (pendingCtl k (0x1000 + 16 * r) s).isSome }
    (match pendingCtl k (0x1000 + 16 * r + 2) s with
     | some v => attrWord { g with en := bitAt v 17, tag := BitVec.ofNat 12 (bitsOf v 5 12), anyctx := bitAt v 3, w := bitAt v 2, rd := bitAt v 1 }
     | none => attrWord g)
  else if 0x100 ≤ i then (((limbsOf 16 (c.sealAt ((i - 0x100) / 16 + 1)))[i % 16]?).getD 0).toNat
  else 0

/-- R12, R140, R149, R258: a MOVC read: a value still in its shadow reads as written, a staged one as staged. -/
def ctlRead (k i : Nat) (s : State) : Res Nat :=
  let c := s.core k
  if ((0x011 ≤ i ∧ i ≤ 0x015) ∨ 0x100 ≤ i) ∧ !streamSettled c then .stall s
  else if (0x018 ≤ i ∧ i ≤ 0x01F) ∧ !vectorSettled c then .stall s
  else match (if i = 0x004 ∨ i = 0x040 ∨ i = 0x041 then none else pendingCtl k i s) with
    | some v => .ok (ctlForm i v.toNat c.arch) s
    | none => .ok (ctlNow k i s) s

/-- R57, R112: PTROOT breaks the alignment or hole rules; what another module has at it, it answers (DESIGN CHOICE, assumption 16). -/
def rootBad (s : State) (r : Nat) : Bool :=
  decide (r % 2 ^ 17 ≠ 0) || !inCascade s (moduleOf r) || (if isLocal s r then isHole s (localOf r) else !remotePage s r)

/-- R113: the staged CTXID belongs to the function of the running job. -/
def ctxOfJob (k : Nat) (s : State) : Bool :=
  match shareOf s (k / 2), s.ctx (s.bent (k / 2)).stCtxid.toNat with
  | some (j, _), some c => (match s.job j with | some job => decide (c.func = job.func) | none => false)
  | _, _ => false

/-- R113, R145: write XLCOMMIT (DEDUCED, assumption 29). -/
def writeXlCommit (k : Nat) (v : Word) (s : State) : State :=
  let l := k / 2
  let b := s.bent l
  let s := s.setBent l { b with cerr := b.cerr && !bitAt v 2 }
  let b := s.bent l
  if !bitAt v 0 || !b.staged then s
  else if rootBad s b.stPtroot.toNat || !ctxOfJob k s then answered b.stPtroot.toNat (s.setBent l { b with cerr := true })
  else
    let s := answered b.stPtroot.toNat (s.setBent l { b with staged := false })
    writeCtl k 0x041 b.stPtroot (writeCtl k 0x040 (b.stCtxid.setWidth 40) s)

/-- R83, R144, R145: write YRATTR. -/
def writeYrAttr (k : Nat) (v : Word) (s : State) : State :=
  let l := k / 2
  let r := bitsOf (s.arch k).yrsel 0 3
  let g := s.region l r
  let s := writeCtl k (0x1000 + 16 * r + 2) (v.setWidth 40) (s.setRegion l r { g with cerr := g.cerr && !bitAt v 19 })
  let g := s.region l r
  if !bitAt v 0 || !g.staged then s
  else if g.stLim.toNat < g.stBase.toNat then s.setRegion l r { g with cerr := true }
  else
    let s := s.setRegion l r { g with staged := false }
    writeCtl k (0x1000 + 16 * r + 1) (g.stLim.setWidth 40) (writeCtl k (0x1000 + 16 * r) (g.stBase.setWidth 40) s)

/-- R11, R141, R149: a MOVC write that is allowed. -/
def ctlWrite (k i : Nat) (v : W40) (s : State) : State :=
  let l := k / 2
  let b := s.bent l
  let r := bitsOf (s.arch k).yrsel 0 3
  let g := s.region l r
  if i = 0x040 then s.setBent l { b with stCtxid := v.setWidth 20, staged := true }
  else if i = 0x041 then s.setBent l { b with stPtroot := v, staged := true }
  else if i = 0x042 then writeXlCommit k (v.setWidth 20) s
  else if i = 0x061 then s.setRegion l r { g with stBase := BitVec.ofNat 25 v.toNat, staged := true }
  else if i = 0x062 then s.setRegion l r { g with stLim := BitVec.ofNat 25 v.toNat, staged := true }
  else if i = 0x063 then writeYrAttr k (v.setWidth 20) s
  else writeCtl k i v s

/-- R195: MOVC's operand by class: a D register, a data pair, an A register. -/
def rdClass (k cls : Nat) (xa : Reg) (s : State) : W40 :=
  match cls with
  | 0 => (rdD k xa 0 s).setWidth 40
  | 1 => rdPair k xa 0 s
  | _ => rdA k xa 0 s

/-- R195: write MOVC's operand by class. -/
def wrClass (k cls : Nat) (xa : Reg) (v : Nat) (s : State) : State :=
  match cls with
  | 0 => wrD k xa (BitVec.ofNat 20 v) s
  | 1 => wrPair k xa (BitVec.ofNat 40 v) s
  | _ => wrA k xa (BitVec.ofNat 40 v) s

/-- R140: the operand class has the register's width. -/
def classFits (cls w : Nat) (xa : Reg) : Bool :=
  (decide (cls = 0) && decide (w = 20)) || (decide (cls = 1) && decide (w = 40) && evenReg xa) || (decide (cls = 2) && decide (w = 40))

/-- R435: the MOVC writes that are committing outputs. -/
def ctlCommits (i : Nat) : Bool := decide (i = 0x042) || decide (i = 0x061) || decide (i = 0x062) || decide (i = 0x063) || decide (i = 0x004)

/-- R140, R195: MOVC with its fields given. -/
def movc (k : Nat) (xa : Reg) (write : Bool) (cls i : Nat) (w0 : Word) (adjust : W40 → W40) (s : State) : State :=
  issueAny false (if write && ctlCommits i then .ctl else .no) k 2 (fun s =>
    match ctlWidth i with
    | none => illegal w0 s
    | some w =>
      if !classFits cls w xa then illegal w0 s
      else if write then
        match ctlLevel i with
        | none => illegal w0 s
        | some lvl => needLevel lvl k w0 (fun s => goOn (ctlWrite k i (adjust (rdClass k cls xa s)) s)) s
      else (ctlRead k i s).bind fun v s => goOn (wrClass k cls xa v s)) s

def execMovc (k : CoreIx) (xa xb xc : Reg) (imm : Word) (s : State) : Host.Outcome State Fault Refusal :=
  let w0 := encL 0x19 xa xb xc
  if bitAt xb 2 || decide (xc ≠ 0) || decide (bitsOf imm 10 10 ≠ 0) || decide (bitsOf xb 0 2 = 3) then
    .next (issue k 2 (illegal w0) s)
  else .next (movc k xa (bitAt xb 3) (bitsOf xb 0 2) (bitsOf imm 0 10) w0 id s)

/-- MOVC of DXA, with bit 0 set, to XLCOMMIT (R113). -/
def execXlcommit (k : CoreIx) (xa : Reg) (s : State) : Host.Outcome State Fault Refusal :=
  .next (movc k xa true 0 0x042 (encL 0x19 xa 8 0) (fun v => v ||| 1) s)
/-- MOVC of DXA, with DINV set, to CACHECTL (R164). -/
def execDinv (k : CoreIx) (xa : Reg) (s : State) : Host.Outcome State Fault Refusal :=
  .next (movc k xa true 0 0x004 (encL 0x19 xa 8 0) (fun v => v ||| 2) s)
/-- MOVC of DXA, with IINV set, to CACHECTL (R165). -/
def execIinv (k : CoreIx) (xa : Reg) (s : State) : Host.Outcome State Fault Refusal :=
  .next (movc k xa true 0 0x004 (encL 0x19 xa 8 0) (fun v => v ||| 1) s)
/-- MOVC to TICKCMP from a data pair (class 1) or an A register (class 2) (R225). -/
def execTickcmpWrite (k : CoreIx) (xa : Reg) (cls : BitVec 2) (s : State) : Host.Outcome State Fault Refusal :=
  let w0 := encL 0x19 xa (BitVec.ofNat 4 (8 + cls.toNat)) 0
  if cls = 3 then .next (issue k 2 (illegal w0) s) else .next (movc k xa true cls.toNat 0x051 w0 id s)

end Sys2Proof.Machine
end

