-- ==== Sys2Proof/Machine/VectorRegs.lean ====
section
/-! DEFINITION. The vector and predicate registers an issued vector instruction names (R320, R326, R333). -/

namespace Sys2Proof.Machine

/-- R320: the registers of a group. -/
def VecOp.group (o : VecOp) (r : Nat) : List Nat := (List.range o.g).map (r + ·)

/-- R326, R329: the instructions that write the group VXA. -/
def VecOp.writesV (o : VecOp) : Bool :=
  match o.lop with
  | 0x20 | 0x22 | 0x24 | 0x25 | 0x27 | 0x28 | 0x29 | 0x2A | 0x2E => true
  | 0x2D => decide (o.fn ≤ 2)
  | _ => false

/-- R326: VXB is a source group. -/
def VecOp.readsB (o : VecOp) : Bool :=
  match o.lop with
  | 0x24 | 0x25 | 0x26 | 0x27 | 0x28 | 0x29 | 0x2A | 0x2B | 0x2D => true
  | _ => false

/-- R326, R329: VXC is a source or index group. -/
def VecOp.readsC (o : VecOp) : Bool :=
  match o.lop with
  | 0x22 | 0x23 | 0x24 | 0x25 | 0x26 | 0x29 | 0x2A | 0x2B | 0x2E => true
  | 0x27 => decide (o.fn ≠ 4)
  | 0x28 => decide (o.fn = 1)
  | _ => false

/-- R326, R329: VXA is read: by the stores and by VMAC. -/
def VecOp.readsA (o : VecOp) : Bool := decide (o.lop = 0x21) || decide (o.lop = 0x23) || decide (o.lop = 0x2A)

/-- Vector registers written. -/
def VecOp.vdst (o : VecOp) : List Nat := if o.writesV then o.group o.xa else []
/-- Vector registers read. -/
def VecOp.vsrc (o : VecOp) : List Nat :=
  (if o.readsA then o.group o.xa else []) ++ (if o.readsB then o.group o.xb else []) ++ (if o.readsC then o.group o.xc else [])
/-- Predicate registers written. -/
def VecOp.pdst (o : VecOp) : List Nat :=
  if o.lop = 0x26 ∨ o.lop = 0x2B ∨ (o.lop = 0x2C ∧ o.fn ≤ 5) then [o.xa] else []
/-- Predicate registers read. -/
def VecOp.psrc (o : VecOp) : List Nat :=
  (if o.pm then [o.pr] else []) ++
    (if o.lop = 0x2C then (match o.fn with | 1 | 2 | 3 => [o.xb, o.xc] | 4 => [o.xb] | 6 => [o.xa] | 7 => [o.xb] | _ => []) else [])

/-- R333: o has to wait for the earlier instruction e. -/
def VecOp.waitsFor (o e : VecOp) : Bool :=
  (o.vsrc ++ o.vdst).any e.vdst.contains || o.vdst.any e.vsrc.contains ||
    (o.psrc ++ o.pdst).any e.pdst.contains || o.pdst.any e.psrc.contains

/-- R454: a vector instruction that names V16 to V31 or P4 to P7. -/
def VecOp.usesUpper (o : VecOp) : Bool := (o.vdst ++ o.vsrc).any (fun r => decide (16 ≤ r)) || (o.pdst ++ o.psrc).any (fun r => decide (4 ≤ r))

end Sys2Proof.Machine
end

