-- ==== Sys2Proof/Machine/System.lean ====
section
/-! DEFINITION. System instructions (R196 to R199, R221, R266), XINV (R124), the seal instructions (R313, R314), VSETC
(R321), JEND (R389), SPLIT and JOIN (R453 to R457). -/

namespace Sys2Proof.Machine

/-- R196: NOP; IMM10 must be 0. -/
def execNop (k : CoreIx) (imm : BitVec 10) (s : State) : Host.Outcome State Fault Refusal :=
  .next (issue k 1 (need (decide (imm = 0)) (encSYS 0 0 imm) goOn) s)
def execTrap (k : CoreIx) (imm : BitVec 10) (s : State) : Host.Outcome State Fault Refusal :=
  .next (issue k 1 (fun s => .trap (trapOf 14 0 imm.toNat) s) s)
def execBrk (k : CoreIx) (imm : BitVec 10) (s : State) : Host.Outcome State Fault Refusal :=
  .next (issue k 1 (fun s => .trap (trapOf 15 0 imm.toNat) s) s)
/-- R196, R221: RETE; IMM10 must be 0. -/
def execRete (k : CoreIx) (imm : BitVec 10) (s : State) : Host.Outcome State Fault Refusal :=
  .next (issue k 1 (need (decide (imm = 0)) (encSYS 0 3 imm) (needLevel 1 k (encSYS 0 3 imm) (doRete k))) s)

/-- R230: the core has been given notice of a pre-emption. -/
def beingPreempted (k : Nat) (s : State) : Bool :=
  match shareOf s (k / 2) with
  | some (j, _) => (s.job j).elim false Job.preempted
  | none => false

/-- R197, R437: WAIT: a checkpoint, then issue stops with pc at next; it goes on at once where an event above THRESH is pending or the
TIMER latch is set, by way of the trap where EVMASK.M is 0. A core under notice of pre-emption stops (R230). -/
def execWait (k : CoreIx) (imm : BitVec 10) (s : State) : Host.Outcome State Fault Refusal :=
  let s' := issueAny false .ctl k 1 (needLevel 1 k (encSYS 0 8 imm) (fun s =>
    let c := s.core k
    goOn (s.setCore k (if beingPreempted k s then { c with stop := max 1 c.stop } else { c with run := .waiting })))) s
  .next (if ready k s then wakeCore k s' else s)

/-- R198, R266: FENCE: a checkpoint; with a scope, issue stops until FENCE_COMPLETE. -/
def execFence (k : CoreIx) (imm : BitVec 10) (s : State) : Host.Outcome State Fault Refusal :=
  .next (issue k 1 (need (decide (bitsOf imm 4 6 = 0)) (encSYS 0x28 0 imm) (fun s =>
    let s := checkpoint k s
    if imm = 0 then goOn s else .stall (s.setCore k { s.core k with run := .fenced (imm.setWidth 4) }))) s)

/-- R266: operations ahead of a suspended one. -/
def unfinished (c : Core) : Bool :=
  !(c.ops.takeWhile (fun o => !decide (o.st = .suspended))).isEmpty || !(c.vops.takeWhile (fun o => !decide (o.st = .suspended))).isEmpty

/-- R266, R360: the zero-length read of the host window that scope H sends cannot be sent while Bus Master Enable is 0. -/
def hostReadHeld (k : Nat) (scope : BitVec 4) (s : State) : Bool := bitAt scope 3 && !(s.fn (coreXl k 0 s).func).bme

/-- R266, R268: the accesses of a scope are performed: those of pipe work for S, the store buffer for the others, and the data cache is
invalidated for scope X. -/
def performScope (k : Nat) (scope : BitVec 4) (s : State) : State :=
  let s := if bitAt scope 0 then s.setCore k { s.core k with past := [] } else s
  let s := if bitsOf scope 1 3 ≠ 0 then drainAll k s else s
  if bitAt scope 2 then invalidate k true false s else s

/-- R266: the accesses that a FENCE waits for have completed. -/
def execFenceComplete (k : CoreIx) (s : State) : Host.Outcome State Fault Refusal :=
  match (s.core k).run with
  | .fenced scope =>
    if (bitAt scope 0 && unfinished (s.core k)) || hostReadHeld k scope s then .next s
    else
      let s := performScope k scope s
      let s := s.setCore k { s.core k with run := .running }
      .next (dueStop k (retire k (s.arch k).pc (nextPc (s.arch k) 1) none s))
  | _ => .next s

/-! ### XINV (R124) -/

/-- R124: drop entries from the translation caches of every bent and engine and of the dispatcher. -/
def dropTlb (p : Nat → Bool) (s : State) : State :=
  { s with bents := tmap Bent.reset (fun _ b => { b with tlb := tdrop p b.tlb }) s.bents
           disp := { s.disp with tlbs := tmap [] (fun _ t => tdrop p t) s.disp.tlbs } }

/-- R124: a core has an element group in hand, begun and not finished, under a context of which some entry is dropped. -/
def groupInHand (p : Nat → Bool) (s : State) : Bool :=
  s.cores.any (fun c => c.2.ops.any (fun o => decide (o.st = .running) && decide (o.done ≠ 0) &&
    o.members.any (fun m => (tlbOf s (.core c.1)).any (fun e => p e.1 && decide (e.1 / 2 ^ 25 = m.xl.ctx)))))

/-- R124, R435: XINV is a committing output that drains the store buffer first. -/
def xinv (k : Nat) (imm : BitVec 10) (lvl : Nat) (f : State → Nat → Bool) (s : State) : State :=
  issueC k 1 (needLevel lvl k (encSYS 0x28 3 imm) (fun s =>
    let s := drainAll k s
    if groupInHand (f s) s then .stall s else goOn (dropTlb (f s) s))) s

/-- R124: mode 0, the page of the address in AX, X = IMM10[5:2], in the current CTXID. -/
def execXinvPage (k : CoreIx) (imm : BitVec 10) (s : State) : Host.Outcome State Fault Refusal :=
  .next (xinv k imm 1 (fun s =>
    let v := ((s.arch k).map (rdA k (BitVec.ofNat 4 (bitsOf imm 2 4)) 0 s)).toNat
    let c := (s.bent (k / 2)).ctxid.toNat
    fun n => decide (n = tlbKey c v false) || decide (n = tlbKey c v true)) s)
/-- R124: mode 1, the current CTXID. -/
def execXinvContext (k : CoreIx) (imm : BitVec 10) (s : State) : Host.Outcome State Fault Refusal :=
  .next (xinv k imm 1 (fun s n => decide (n / 2 ^ 25 = (s.bent (k / 2)).ctxid.toNat)) s)
/-- R124: mode 2, every context of the issuing function; service level only. -/
def execXinvFunction (k : CoreIx) (imm : BitVec 10) (s : State) : Host.Outcome State Fault Refusal :=
  .next (xinv k imm 2 (fun s n =>
    match s.ctx (n / 2 ^ 25) with
    | some c => decide (c.func = (coreXl k 2 s).func)
    | none => false) s)

/-! ### Seals (R313, R314) -/

/-- R313: every stream operation issued before has finished or is suspended. -/
def sealsSettled (c : Core) : Bool := c.ops.all (fun o => decide (o.st = .suspended))

/-- R314, R316: the named seals that are not zero. -/
def nonzeroSeals (mask : Nat) (v : Nat → Int) : Nat :=
  (List.range 8).foldl (fun t i => t + if mask.testBit i && decide (v (i + 1) ≠ 0) then 2 ^ i else 0) 0

/-- R209, R313: the test of SEALCHK: DETAIL bit s - 1 for each named seal that is not zero, and bit 8 equal to G. -/
def sealTest (g : Nat) (mask : Nat) (v : Nat → Int) (s : State) : Res (Option W40) :=
  let d := nonzeroSeals mask v
  if d = 0 then goOn s else .trap (trapOf 12 0 (d + 256 * g)) s

/-- R313: SEALCHK with G 0; IMM10[9] must be 0. With G 1 in the word it is SEALCHK_MERGED's (DEDUCED, assumption 30). -/
def execSealchk (k : CoreIx) (imm : BitVec 10) (s : State) : Host.Outcome State Fault Refusal :=
  .next (issueC k 1 (need (decide (bitsOf imm 8 2 = 0)) (encSYS 0x28 4 imm) (fun s =>
    if sealsSettled (s.core k) then sealTest 0 (bitsOf imm 0 8) (s.core k).sealAt s else .stall s)) s)

/-- R314, R456: SEALCHK with G 1 (IMM10[8]): issue stops at the barrier until its release. -/
def execSealchkMerged (k : CoreIx) (imm : BitVec 10) (s : State) : Host.Outcome State Fault Refusal :=
  .next (issueC k 1 (need (decide (bitsOf imm 8 2 = 1) && !s.split k) (encSYS 0x28 4 imm) (fun s =>
    if sealsSettled (s.core k) then .stall (s.setCore k { s.core k with run := .barrier (imm.setWidth 8) }) else .stall s)) s)

/-- R209, R314: SEALCHK's trap is taken, with DETAIL d. Where the page of its frame is still to be translated it waits for it, and is tried
again at TRAP_ENTRY. -/
def sealMismatch (k : Nat) (d : Word) (s : State) : State :=
  let s := s.setCore k { s.core k with run := .running }
  let s' := takeTrap k (placeTrap (trapOf 12 0 d.toNat) (s.arch k).pc (nextPc (s.arch k) 1)) false false s
  if s'.core k = s.core k then s'.setCore k { s'.core k with run := .mismatch d } else s'

/-- R314: the share has arrived at the barrier: its core waits there, or it has ended. -/
def arrived (s : State) (sh : Share) : Bool :=
  match sh with
  | .on l => (match (s.core (2 * l)).run with | .barrier _ => true | _ => false)
  | .saved .. => false
  | .ended _ => true

/-- R314: the core of bent l tests the merged values against its own MASK. -/
def releaseOne (vs : Nat → Int) (l : Nat) (s : State) : State :=
  let k := 2 * l
  match (s.core k).run with
  | .barrier mask =>
    let s := s.setCore k { s.core k with run := .running }
    let here := (s.arch k).pc
    let next := nextPc (s.arch k) 1
    match sealTest 1 mask.toNat vs s with
    | .ok _ s => dueStop k (checkpoint k (retire k here next none s))
    | .trap t s => dueStop k (sealMismatch k t.detail s)
    | .stall s => s
  | _ => s

/-- The bents that run shares. -/
def bentsOf (job : Job) : List Nat := job.shares.filterMap (fun sh => match sh with | .on l => some l | _ => none)

/-- R314: the barrier of job opens once every core of it has arrived. -/
def execSealBarrierRelease (job : Nat) (s : State) : Host.Outcome State Fault Refusal :=
  match s.job job with
  | none => .next s
  | some j =>
    if j.shares.all (arrived s) then
      let vs := fun i => mergedSeal s j i
      .next ((bentsOf j).foldl (fun s l => releaseOne vs l s) (sealsFormed j s))
    else .next s

/-- R313: SEALCLR; IMM10[9:8] must be 0. -/
def execSealclr (k : CoreIx) (imm : BitVec 10) (s : State) : Host.Outcome State Fault Refusal :=
  .next (issueC k 1 (need (decide (bitsOf imm 8 2 = 0)) (encSYS 0x28 5 imm) (needLevel 1 k (encSYS 0x28 5 imm) (fun s =>
    let c := s.core k
    if sealsSettled c then goOn (s.setCore k { c with seals := tdrop (fun i => bitAt imm (i - 1)) c.seals }) else .stall s))) s)

/-! ### VSETC and JEND -/

/-- R321: VSETC has no shadow: a MOVC to VGRP still in its own keeps the new VCNT. -/
def setVcnt (k n : Nat) (s : State) : State :=
  let a := s.arch k
  let f : Nat → Nat := fun v => v % 512 + 512 * n
  s.setArch k { a with vgrp := BitVec.ofNat 20 (f a.vgrp.toNat),
                       shadow := a.shadow.map (fun e => if e.idx = 0x020 then { e with val := BitVec.ofNat 40 (f e.val.toNat) } else e) }

/-- R321: VSETC; X = IMM10[3:0], w - 1 = IMM10[8:4], IMM10[9] must be 0; ILLEGAL_INSTRUCTION in compatibility mode. -/
def execVsetc (k : CoreIx) (imm : BitVec 10) (s : State) : Host.Outcome State Fault Refusal :=
  .next (issue k 1 (fun s => need (!bitAt imm 9 && !(s.arch k).compat) (encSYS 0x28 6 imm) (fun s =>
    let x := sysReg imm
    let g := 2 ^ bitsOf (s.arch k).vgrp 0 2
    let n := min (rdD k x 0 s).toNat (min (128 * g / (bitsOf imm 4 5 + 1)) 1024)
    goOn (setVcnt k n (wrD k x (BitVec.ofNat 20 n) s))) s) s)

/-- R222, R261, R389: suspended work is abandoned with every operation queued behind it. -/
def abandonSuspended (c : Core) : Core :=
  { c with ops := c.ops.takeWhile (fun o => !decide (o.st = .suspended)), vops := c.vops.takeWhile (fun o => !decide (o.st = .suspended)) }

/-- R389: every share of the job has ended. -/
def allEnded (job : Job) : Bool := job.shares.all (fun sh => match sh with | .ended _ => true | _ => false)

/-- R389: share i of job j ends; the job ends with its last share. -/
def shareDone (j i : Nat) (s : State) : State :=
  let s := endShare j i s
  match s.job j with
  | some job => if allEnded job then finishJob j (JobEnd.plain 0 0) s else s
  | none => s

/-- R389: JEND; IMM10 0; ILLEGAL_INSTRUCTION in split execution. It waits as FENCE with all four scopes. -/
def execJend (k : CoreIx) (imm : BitVec 10) (s : State) : Host.Outcome State Fault Refusal :=
  .next (issueC k 1 (need (decide (imm = 0) && !s.split k) (encSYS 0x28 7 imm) (fun s =>
    let s := s.setCore k (abandonSuspended (s.core k))
    if unfinished (s.core k) || hostReadHeld k 15 s then .stall s
    else
      let s := performScope k 15 s
      match shareOf s (k / 2) with
      | some (j, i) => .stall (shareDone j i s)
      | none => .stall (s.setCore k { s.core k with run := .idle }))) s)

/-! ### SPLIT and JOIN (R453 to R457) -/

/-- R454: the block's address: a multiple of 4,096 in the paged range or the bench. -/
def blockAddr (k : Nat) (x : W40) (body : Nat → State → Res (Option W40)) (s : State) : Res (Option W40) :=
  let v := ((s.arch k).map x).toNat
  if v % 4096 ≠ 0 then .trap (formatTrap v 1) s
  else if 0xF000000000 ≤ v ∧ v < 0xFFFFF80000 then .trap (formatTrap v 8) s
  else body v s

/-- Word i of a block. -/
def wordAt (ws : List Word) (i : Nat) : Word := (ws[i]?).getD 0
/-- A 40-bit register at word i of a block. -/
def pairAt (ws : List Word) (i : Nat) : W40 := wordAt ws (i + 1) ++ wordAt ws i

/-- R453: the CRC of a block. -/
def blockCrc (ws : List Word) : List Word :=
  let c := (Config.contextCrc (ws.take 4094)).toNat
  [BitVec.ofNat 20 c, BitVec.ofNat 20 (c / 2 ^ 20)]

/-- R454: BAD_CONTEXT_BLOCK. -/
def blockBad (ws : List Word) : Bool :=
  decide (bitsOf (wordAt ws 2) 0 2 > 1) || decide ((wordAt ws 6).toNat > 1) ||
    (bitAt (wordAt ws 6) 0 && decide ([wordAt ws 4094, BitVec.ofNat 20 (bitsOf (wordAt ws 4095) 0 12)] ≠ blockCrc ws))

/-- R453: a table of n registers read from the block. -/
def blockRegs {α : Type} [DecidableEq α] (d : α) (n : Nat) (f : Nat → α) : Tbl α := tsetMany d [] 0 ((List.range n).map f)

/-- R453, R454: the shadow's architectural state from a block; what the block does not hold is the pair's. -/
def archFromBlock (ws : List Word) (a : Arch) : Arch :=
  { a with
    pc := pairAt ws 0, pl := BitVec.ofNat 2 (bitsOf (wordAt ws 2) 0 2), ld := BitVec.ofNat 2 (bitsOf (wordAt ws 2) 4 2),
    corecfg := BitVec.ofNat 20 (ctlForm 0x000 (wordAt ws 3).toNat a), evmask := BitVec.ofNat 20 (ctlForm 0x048 (wordAt ws 4).toNat a),
    vgrp := wordAt ws 5, sill := pairAt ws 8, pxbase := BitVec.ofNat 40 (ctlForm 0x009 (pairAt ws 10).toNat a), tickcmp := pairAt ws 12,
    a := blockRegs 0 16 (fun i => pairAt ws (16 + 2 * i)), s := blockRegs 0 16 (fun i => pairAt ws (48 + 2 * i)),
    d := blockRegs 0 16 (fun i => wordAt ws (80 + i)),
    ac := blockRegs 0 4 (fun i => pairAt ws (98 + 4 * i) ++ pairAt ws (96 + 4 * i)),
    ls := blockRegs 0 3 (fun i => pairAt ws (112 + 2 * i)), le := blockRegs 0 3 (fun i => pairAt ws (118 + 2 * i)),
    lc := blockRegs 0 3 (fun i => pairAt ws (124 + 2 * i)), inflight := [], shadow := [], emerg := [] }

/-- R325: a predicate from 52 words. -/
def predFrom (ws : List Word) : BitVec 1024 := BitVec.ofNat 1024 (keyValue (ws.take 52))
/-- R325: a predicate as 52 words. -/
def predWords (p : BitVec 1024) : List Word := (List.range 52).map (fun i => BitVec.ofNat 20 (bitsOf p (20 * i) 20))

/-- R453: the pipe words of a draw. -/
def pipeWords (n : Nat) : List Word := (List.range 1278).map (Config.pipeWord n)

/-- R453, R454: the pipe work a block gives back. -/
def unpark (ws : List Word) (s : State) : List StreamOp × List VecOp × State :=
  if bitAt (wordAt ws 6) 0 then
    match s.pair.parked.find? (fun p => decide ((ws.drop 2816).take 1278 = pipeWords p.draw)) with
    | some p => (p.ops, p.vops, { s with pair := { s.pair with parked := s.pair.parked.filter (fun q => !decide (q = p)) } })
    | none => ([], [], s)
  else ([], [], s)

/-- R454: steps 3 to 5 of SPLIT with a good block. -/
def splitWith (k : Nat) (ws : List Word) (s : State) : Res (Option W40) :=
  let l := k / 2
  if (s.core k).vops.any VecOp.usesUpper then .stall s
  else
    let s := drainAll k s
    let (ops, vops, s) := unpark ws s
    let b := s.bent l
    let s := s.setBent l { b with split := true, v := tsetMany 0 b.v 2048 ((ws.drop 512).take 2048),
                                  p := tsetMany 0 b.p 4 ((List.range 4).map (fun i => predFrom ((ws.drop (2560 + 52 * i)).take 52))) }
    let a := archFromBlock ws (s.arch k)
    let c := Core.resumed { Core.reset with arch := a, ckpt := a, run := .running, ops := ops, vops := vops, timer := Config.freeBit s.draw k }
    goOn (withdraw ((s.setCore (2 * l + 1) c).drawn))

/-- R196, R199, R451, R454: SPLIT AX, X = IMM10[3:0]; the level is checked first (DEDUCED, assumption 86).
(DEDUCED, assumption 34). -/
def execSplit (k : CoreIx) (imm : BitVec 10) (s : State) : Host.Outcome State Fault Refusal :=
  .next (issueC k 1 (needLevel 1 k (encSYS 0x28 1 imm) (need (!s.split k && !s.pair.nosplit) (encSYS 0x28 1 imm) (fun s =>
    blockAddr k (rdA k (sysReg imm) 0 s) (fun v s =>
      (readMem (.core k) (coreXl k (s.arch k).pl.toNat s) v 4096 s).bind fun ws s =>
        if blockBad ws then .trap (formatTrap v 8) s else splitWith k ws s) s))) s)

/-- R453: the words of the shadow's context, in a draw's pipe words, before its CRC. -/
def contextWords (c : Core) (b : Bent) (n : Nat) : List Word :=
  let a := c.arch
  let r40 : Nat → (Nat → W40) → List Word := fun m f => (List.range m).flatMap (fun i => wordsOf (f i))
  wordsOf a.pc ++ [a.status, a.corecfg, a.evmask, BitVec.ofNat 20 (ctlForm 0x020 a.vgrp.toNat a), 1, 0]
    ++ wordsOf a.sill ++ wordsOf a.pxbase ++ wordsOf a.tickcmp ++ [0, 0]
    ++ r40 16 a.regA ++ r40 16 a.regS ++ (List.range 16).map a.regD
    ++ (List.range 4).flatMap (fun i => (List.range 4).map (fun j => (a.regAC i).extractLsb' (20 * j) 20))
    ++ r40 3 (tget 0 a.ls) ++ r40 3 (tget 0 a.le) ++ r40 3 (tget 0 a.lc)
    ++ List.replicate 126 0
    ++ (List.range 8).flatMap (fun i => limbsOf 16 (c.sealAt (i + 1)))
    ++ List.replicate 128 0
    ++ tgetMany 0 b.v 2048 2048
    ++ (List.range 4).flatMap (fun i => predWords (tget 0 b.p (4 + i)))
    ++ List.replicate 48 0
    ++ pipeWords n

/-- R164, R455: steps 3 and 4 of JOIN once the shadow has stopped. The block it writes leaves the data-cache lines as they are (DESIGN
CHOICE, assumption 94). -/
def joinNow (k : Nat) (ps : List Place) (s : State) : Res (Option W40) :=
  let l := k / 2
  let c := s.core (2 * l + 1)
  let n := s.draw
  let body := contextWords c (s.bent l) n
  let s := writePlaces l (ps.zip (body ++ blockCrc body)) s.drawn
  let s := { s with pair := { s.pair with parked := s.pair.parked ++ [(Parked.mk n c.ops c.vops)] } }
  let p := s.core k
  let s := s.setCore k { p with seals := (List.range 8).foldl (fun t i => tset 0 t (i + 1) (p.sealAt (i + 1) + c.sealAt (i + 1))) p.seals }
  let s := s.setCore (2 * l + 1) Core.reset
  let s := s.setBent l { s.bent l with split := false }
  goOn (withdraw s)

/-- R199, R455: JOIN AX, executed by the primary in split execution. It waits until the shadow has stopped. -/
def execJoin (k : CoreIx) (imm : BitVec 10) (s : State) : Host.Outcome State Fault Refusal :=
  .next (issueC k 1 (needLevel 1 k (encSYS 0x28 2 imm) (need (s.split k && decide (k.val % 2 = 0)) (encSYS 0x28 2 imm) (fun s =>
    blockAddr k (rdA k (sysReg imm) 0 s) (fun v s =>
      (xlate (.core k) (coreXl k (s.arch k).pl.toNat s) .write v 4096 s).bind fun ps s =>
        if (s.core (k + 1)).run = .stopped then joinNow k ps (drainAll k s) else .stall (askStop (k + 1) 2 s)) s))) s)

end Sys2Proof.Machine
end

