-- ==== Sys2Proof/Machine/StreamFmt.lean ====
section
/-! DEFINITION. Formats, operands, spans and chain links of stream instructions (R233 to R243, R253, R295, R306). -/

namespace Sys2Proof.Machine

/-- R235: a format as read: its TYPE, the element, a must-be-zero field that is not 0, a reserved code, and the record
format value it names. -/
structure Parsed where
  typ : Nat
  fmt : Fmt
  illegal : Bool
  range : Bool
  raw : W40
  deriving DecidableEq, Repr

/-- R236: an amount field of a record format. -/
def amountField (v : W40) (en limbs off : Nat) : Option (Nat × Nat) :=
  if bitAt v en then some (bitsOf v off 5, bitsOf v limbs 3 + 1) else none

/-- R236: a record format value. -/
def recFmt (v : W40) : RecFmt :=
  { len := bitsOf v 0 5 + 1, koff := bitsOf v 5 5, klen := bitsOf v 10 2 + 1, a0 := amountField v 20 17 12, a1 := amountField v 29 26 21 }

/-- R37: every named field lies within the record. -/
def RecFmt.good (r : RecFmt) : Bool :=
  let inside := fun (f : Option (Nat × Nat)) => f.elim true (fun a => decide (a.1 + a.2 ≤ r.len))
  decide (r.koff + r.klen ≤ r.len) && inside r.a0 && inside r.a1

/-- R235: parse FMT[8:0]. -/
def parseFmt (k : Nat) (f : Nat) (s : State) : Parsed :=
  let hi := f / 16 % 8
  let lo := f % 16
  match f / 128 % 4 with
  | 0 => { typ := 0, fmt := .word, illegal := decide (f % 128 ≠ 0), range := false, raw := 0 }
  | 1 => { typ := 1, fmt := .amount (hi + 1) lo, illegal := false, range := decide (10 ≤ lo), raw := 0 }
  | 2 => { typ := 2, fmt := .key (hi % 4 + 1), illegal := decide (lo ≠ 0), range := decide (4 ≤ hi), raw := 0 }
  | _ =>
    let v := rdPair k (BitVec.ofNat 4 (2 * hi)) 4 s
    let r := recFmt v
    { typ := 3, fmt := .record r lo, illegal := false, range := decide (10 ≤ lo) || decide (bitsOf v 30 10 ≠ 0) || !r.good, raw := v }

/-- R235: the scale of a format. -/
def Fmt.scale : Fmt → Nat
  | .amount _ s => s
  | .record _ s => s
  | _ => 0

/-- R294: the key of an element: offset and length. -/
def Fmt.keyField : Fmt → Nat × Nat
  | .key n => (0, n)
  | .record r _ => (r.koff, r.klen)
  | f => (0, f.len)

/-- R236: amount field 0. -/
def Fmt.amount0 : Fmt → Option (Nat × Nat)
  | .record r _ => r.a0
  | .amount n _ => some (0, n)
  | _ => none

/-- R237: the own instructions that read D14. -/
def usesD14 (lop : Nat) : Bool := decide (lop = 0x36) || decide (0x38 ≤ lop)
/-- R237: and those that also read D15. -/
def usesD15 (lop : Nat) : Bool := decide (lop = 0x38) || decide (lop = 0x39) || decide (lop = 0x3B) || decide (lop = 0x3C) || decide (lop = 0x3F)

/-- R237: D14 or D15; anything the layout does not allow is FORMAT_RANGE. -/
def parseOwn (k : Nat) (x : Reg) (s : State) : Parsed :=
  let v := rdD k x 5 s
  let p := parseFmt k (bitsOf v 0 9) s
  { p with range := p.range || p.illegal || decide (bitsOf v 9 11 ≠ 0) }

/-- R239: the instructions with one source. -/
def oneSource (lop fn : Nat) : Bool :=
  decide (lop = 0x33) || decide (lop = 0x36) || decide (lop = 0x37) || decide (lop = 0x3A) || (decide (lop = 0x35) && decide (fn = 4))

/-- R234: an operand named by a register field and its chain flag. -/
def operandOf (k : Nat) (flag : Bool) (x : Reg) (s : State) : Operand :=
  if flag then (if x.toNat < 4 then .slot x.toNat else .port (x.toNat - 4)) else .mem (rdA k x 0 s) (rdS k x s)

/-! ### Types and seals (R238, R271, R292, R297, R298, R301) -/

/-- The TYPEs an instruction allows. -/
def typesOk (lop fn fd fb fc : Nat) : Bool :=
  match lop with
  | 0x30 | 0x31 | 0x34 => decide (fd ≤ 1)
  | 0x32 | 0x33 => decide (fd = 1)
  | 0x35 => decide (fd = 0)
  | 0x36 => decide (fb = if fn = 2 then 0 else 1) && decide (fd = if fn = 3 then 0 else 1)
  | 0x38 | 0x39 | 0x3B => decide (fd = 1) && decide (fb = 1) && decide (fc = 1)
  | 0x3A => decide (fd = 1) && decide (fb = 1)
  | 0x3C => decide (fb = 3) && decide (fc = 3) && decide (fd = if fn = 0 then 1 else 3)
  | 0x3D => decide (fb = 3) && decide (fd = if fn = 0 then 3 else if fn = 1 then 1 else 0)
  | 0x3E => decide (fb = 3) && decide (fd = 3)
  | 0x3F => decide (2 ≤ fb) && decide (2 ≤ fc) && decide (fd = 0)
  | _ => true

/-- The destinations that may name a seal. -/
def mayseal (lop fn : Nat) (fd : Parsed) : Bool :=
  match lop with
  | 0x30 | 0x31 => decide (fd.typ = 1)
  | 0x34 | 0x35 | 0x3F => false
  | 0x36 => decide (fn ≠ 1) && decide (fd.typ = 1)
  | 0x37 => decide (fd.typ = 1) || (decide (fd.typ = 3) && fd.fmt.amount0.isSome)
  | 0x3D => decide (fn ≠ 2)
  | _ => true

/-- R236: the format is a record whose amount field 0 has EN 0. -/
def Parsed.lacksAmount (p : Parsed) : Bool :=
  match p.fmt with
  | .record r _ => r.a0.isNone
  | _ => false

/-- R236: an amount field with EN 0 that the instruction needs. -/
def needsAmount (lop fn : Nat) (fb fc : Parsed) (sealed : Bool) : Bool :=
  match lop with
  | 0x3C => fc.lacksAmount || (fb.lacksAmount && (decide (fn = 1) || (decide (fn = 2) && sealed)))
  | 0x3D => fb.lacksAmount
  | 0x3E => sealed && fb.lacksAmount
  | _ => false

/-- R36: KEY_LENGTH: two key lengths in one instruction, that of a destination record among them. -/
def keyLengthBad (lop : Nat) (fd fb fc : Parsed) : Bool :=
  let klen := fun (p : Parsed) => (p.fmt.keyField).2
  ((decide (lop = 0x3C) || decide (lop = 0x3F)) && decide (klen fb ≠ klen fc)) ||
    (decide (0x3C ≤ lop) && decide (lop ≤ 0x3E) && decide (fd.typ = 3) && decide (klen fd ≠ klen fb))

/-! ### Spans (R240, R243, R306) -/

/-- A run of words modulo 2^40: start and length. -/
def spanOf (base stride : W40) (w n : Nat) : Nat × Nat :=
  if n = 0 then (base.toNat, 0)
  else
    let back := if stride.toInt < 0 then (stride.toInt.natAbs * (n - 1)) else 0
    ((base - BitVec.ofNat 40 back).toNat, stride.toInt.natAbs * (n - 1) + w)

/-- R240, R306: two spans share a word modulo 2^40. -/
def spansMeet (a b : Nat × Nat) : Bool :=
  decide (a.2 ≠ 0) && decide (b.2 ≠ 0) &&
    (decide ((b.1 + 2 ^ 40 - a.1) % 2 ^ 40 < a.2) || decide ((a.1 + 2 ^ 40 - b.1) % 2 ^ 40 < b.2))

/-- The span of a memory operand; none for a slot or port. -/
def Operand.span (o : Operand) (w n : Nat) : Option (Nat × Nat) :=
  match o with
  | .mem b st => some (spanOf b st w n)
  | _ => Option.none

/-- R240: some two of n elements of w words at a stride share a word once their addresses have passed the end of the address space. -/
def wrapsOnto (st : W40) (w n : Nat) : Bool :=
  let m := st.toInt.natAbs
  decide (2 ^ 40 < m * (n - 1) + w) && (List.range (n - 1)).any (fun d => decide ((d + 1) * m % 2 ^ 40 < w) || decide (2 ^ 40 - w < (d + 1) * m % 2 ^ 40))

/-- R240, R243: destination elements overlap one another, addresses taken modulo 2^40. -/
def destOverlap (o : Operand) (w sln : Nat) : Bool :=
  match o with
  | .mem _ st => decide (1 < sln) && (decide (st.toInt.natAbs < w) || wrapsOnto st w sln)
  | _ => false

/-- R240: the address of element e. -/
def elemAddr (base stride : W40) (e : Nat) : Nat := (base + stride * BitVec.ofNat 40 e).toNat

/-! ### Chain maps (R253, R387) -/

/-- R387: entry 2i + p links outbound port p of share i: the target share and inbound port. -/
def linkTo (m : List (BitVec 16)) (i p : Nat) : Option (Nat × Nat) :=
  match m[2 * i + p]? with
  | some e => if bitAt e 15 then some (bitsOf e 1 5, bitsOf e 0 1) else none
  | none => none

/-- R387: the outbound port linked to inbound port q of share i. -/
def linkFrom (m : List (BitVec 16)) (i q : Nat) : Option (Nat × Nat) :=
  ((List.range 32).flatMap (fun j => [(j, 0), (j, 1)])).find? (fun e => decide (linkTo m e.1 e.2 = some (i, q)))

/-- R253: a port is linked in the chain map of core k's job. -/
def portLinked (k : Nat) (out : Bool) (p : Nat) (s : State) : Bool :=
  match shareOf s (k / 2) with
  | some (j, i) =>
    match s.job j with
    | some job => if out then (linkTo job.chain i p).isSome else (linkFrom job.chain i p).isSome
    | none => false
  | none => false

/-- The member names outbound port p. -/
def Member.sends (m : Member) (p : Nat) : Bool := decide (m.dst = .port p)
/-- The member names inbound port q. -/
def Member.receives (m : Member) (q : Nat) : Bool := decide (m.b = .port q) || decide (m.c = .port q)

/-- R249: a port is held by another operation of the bent, or by a member of the open chain. -/
def portHeld (k : Nat) (out : Bool) (p : Nat) (s : State) : Bool :=
  let uses := fun (m : Member) => if out then m.sends p else m.receives p
  ((s.core k).ops ++ (s.core (k / 2 * 2)).ops ++ (s.core (k / 2 * 2 + 1)).ops).any (fun o => o.members.any uses) || (s.core k).chain.any (fun m => uses m.1)

/-! ### Chains (R248, R249) -/

/-- The pipe class of a stream instruction: 0 L, 1 P, 2 K (R200). -/
def pipeClass (lop : Nat) : Nat := if lop < 0x38 then 0 else if lop < 0x3C then 1 else 2

/-- The slots a member reads. -/
def Member.reads (m : Member) : List Nat := [m.b, m.c].filterMap (fun o => match o with | .slot n => some n | _ => none)
/-- The slot a member writes. -/
def Member.writes (m : Member) : List Nat := match m.dst with | .slot n => [n] | _ => []

/-- The slots written in the chain and not read. -/
def unread (ms : List Member) : List Nat := (ms.flatMap Member.writes).filter (fun n => !(ms.flatMap Member.reads).contains n)

/-- R249, R251: CHAIN_SLOT for a member issued after ms. -/
def slotBad (ms : List Member) (m : Member) (split : Bool) : Bool :=
  m.reads.any (fun n => !(unread ms).contains n) || !m.reads.Nodup || m.writes.any (fun n => (ms.flatMap Member.writes).contains n) ||
    (match m.dst with | .mem _ _ => !(unread (ms ++ [m])).isEmpty | _ => false) ||
    (split && (m.reads ++ m.writes).any (fun n => decide (2 ≤ n)))

/-- R249: CHAIN_PIPES. -/
def pipesBad (ms : List Member) : Bool :=
  let n := fun c => (ms.filter (fun m => decide (pipeClass m.lop = c))).length
  decide (2 < n 0) || decide (1 < n 1) || decide (1 < n 2) || decide (4 < ms.length)

/-- R249: CHAIN_WIDTH: a slot is read with another element length than it is written with. -/
def widthBad (ms : List Member) (m : Member) : Bool :=
  let bad := fun (o : Operand) (f : Fmt) => match o with
    | .slot n => ms.any (fun w => w.writes.contains n && decide (w.fd.len ≠ f.len))
    | _ => false
  bad m.b m.fb || bad m.c m.fc

/-- R248: the member closes the chain. -/
def closes (ms : List Member) (m : Member) : Bool :=
  match m.dst with
  | .mem _ _ => true
  | .port _ => (unread (ms ++ [m])).isEmpty
  | _ => false

/-! ### The key block (R295) -/

/-- R295: the block lies in the bench window, or the core's own half of it, at a multiple of 16 words. -/
def keyBlockAt (k : Nat) (v : Nat) (s : State) : Bool :=
  decide (0xFFFFF80000 ≤ v) && decide (v % 16 = 0) && (!s.split k || decide (v < 0xFFFFF80000 + 262144))

/-- R295: the words 0 to 11 of the block at v. -/
def readKeyBlock (k v : Nat) (s : State) : KeyBlock :=
  let b := s.bent (k / 2)
  let w : Nat → Word := fun i => tget 0 b.bench (benchIndex k (v - 0xFFFFF80000 + i) s)
  let p : Nat → W40 := fun i => w (i + 1) ++ w i
  { addr := v, clen := (p 0).toNat, xaddr := p 2, xstride := p 4, xen := bitAt (w 6) 5, xsub := bitAt (w 6) 4, xseal := bitsOf (w 6) 0 4,
    fanin := (w 7).toNat, runlen := (p 8).toNat, rarea := (p 10).toNat }

/-- R306: KEY_BLOCK of a block at v for an instruction of records of w words. -/
def keyBlockBad (k lop fn w : Nat) (v : Nat) (kb : KeyBlock) (s : State) : Bool :=
  let w6 := tget 0 (s.bent (k / 2)).bench (benchIndex k (v - 0xFFFFF80000 + 6) s)
  let size := if s.split k then 262144 else 524288
  let o := v - 0xFFFFF80000
  !keyBlockAt k v s ||
    (decide (lop = 0x3C) && (decide (2 ^ 32 - 1 < kb.clen) || decide (bitsOf w6 6 14 ≠ 0))) ||
    (decide (lop = 0x3E) && decide (fn = 0) &&
      (decide (kb.runlen < 64) || decide (65536 < kb.runlen) || decide (kb.runlen % 64 ≠ 0) ||
        decide (size < kb.rarea + kb.runlen * w) || (decide (kb.rarea < o + 16) && decide (o < kb.rarea + kb.runlen * w)))) ||
    (decide (lop = 0x3E) && decide (fn = 1) &&
      (decide (kb.fanin < 2) || decide (64 < kb.fanin) || decide (kb.runlen < 64) || decide (2 ^ 32 - 64 < kb.runlen) || decide (kb.runlen % 64 ≠ 0)))

/-- R298, R301, R302: the destinations that must be memory. -/
def memoryOnly (lop fn : Nat) : Bool :=
  match lop with
  | 0x3C => decide (fn ≠ 0)
  | 0x3D => decide (fn = 0)
  | _ => true

/-- R306: KEY_OPERAND; at_: the key block lies where it may, so that its fields are there to be judged. -/
def keyOperandBad (lop fn : Nat) (cd cb cc : Bool) (fd fb fc : Parsed) (m : Member) (sln : Nat) (kb : KeyBlock) (at_ : Bool) : Bool :=
  let scales := match lop with
    | 0x3C => decide (fb.fmt.scale ≠ fc.fmt.scale) || decide (fd.fmt.scale ≠ fc.fmt.scale)
    | 0x3D => decide (fn ≠ 2) && decide (fd.fmt.scale ≠ fb.fmt.scale)
    | _ => decide (fd.fmt.scale ≠ fb.fmt.scale)
  let formats := decide (fd.typ = 3) && decide (fd.raw ≠ fb.raw)
  let srcs := ((m.b.span m.fb.len sln).toList) ++ (if lop = 0x3C ∧ at_ then (m.c.span m.fc.len kb.clen).toList else [])
  let x := if lop = 0x3C ∧ at_ ∧ kb.xen then [spanOf kb.xaddr kb.xstride m.fc.len kb.clen] else []
  let same := decide (lop = 0x3E) && decide (fn = 0) && decide (m.dst = m.b)
  let dsts := (if same then [] else (m.dst.span m.fd.len sln).toList) ++ x
  cb || cc || (memoryOnly lop fn && cd) || scales || formats || dsts.any (fun d => srcs.any (spansMeet d))

end Sys2Proof.Machine
end

