-- ==== Sys2Proof/Machine/StreamIssue.lean ====
section
/-! DEFINITION. Issue of stream instructions (R233 to R249, R263, R282, R295, R564). -/

namespace Sys2Proof.Machine

/-- What issue needs of one stream instruction. -/
structure Issue where
  lop : Nat
  fn : Nat
  cd : Bool
  cb : Bool
  cc : Bool
  sealed : Nat
  fd : Parsed
  fb : Parsed
  fc : Parsed
  m : Member
  kv : Nat
  kb : KeyBlock

/-- R242: SLN as the instruction takes it. -/
def slnOf (k : Nat) (s : State) : Nat := (s.arch k).sln.toNat

/-- R233 to R241: the fields of an instruction. -/
def readIssue (k lop fn : Nat) (xa xb xc : Reg) (w1 : Word) (s : State) : Issue :=
  let cd := bitAt w1 19
  let cb := bitAt w1 18
  let cc := bitAt w1 17
  let f := parseFmt k (bitsOf w1 0 9) s
  let fb := if usesD14 lop then parseOwn k 14 s else f
  let fc := if usesD15 lop then parseOwn k 15 s else f
  let one := oneSource lop fn || decide (lop = 0x3D) || decide (lop = 0x3E)
  let fd := if lop = 0x34 then { typ := 0, fmt := Fmt.word, illegal := false, range := false, raw := 0 } else f
  let kv := ((s.arch k).map (rdA k 12 6 s)).toNat
  { lop := lop, fn := fn, cd := cd, cb := cb, cc := cc, sealed := bitsOf w1 13 4, fd := fd, fb := fb, fc := fc,
    m := { lop := lop, fn := fn, dst := operandOf k cd xa s, b := operandOf k cb xb s, c := if one then .none else operandOf k cc xc s,
           fd := fd.fmt, fb := fb.fmt, fc := fc.fmt, sealNo := bitsOf w1 13 4, sub := bitAt w1 12, xl := coreXl k (s.arch k).pl.toNat s },
    kv := kv, kb := readKeyBlock k kv s }

/-- R158, R173, R234, R235, R239, R286: an encoding fault. f is the parsed FMT. -/
def issueIllegal (k : Nat) (i : Issue) (f : Parsed) (xa xb xc : Reg) (s : State) : Bool :=
  (s.arch k).compat || !longAssigned i.lop i.fn 0 || (i.cd && decide (6 ≤ xa.toNat)) || (i.cb && decide (6 ≤ xb.toNat)) ||
    (i.cc && decide (6 ≤ xc.toNat)) || (oneSource i.lop i.fn && (i.cc || decide (xc ≠ 0))) || f.illegal ||
    (decide (i.lop = 0x39) && i.cd)

/-- R249, R253: CHAIN_PORT of an operand. -/
def portBad (k : Nat) (out : Bool) (o : Operand) (s : State) : Bool :=
  match o with
  | .port p => !portLinked k out p s || portHeld k out p s
  | _ => false

/-- R306: a keyed member as the chain rules see it: a slot or port where R306 asks for memory is KEY_OPERAND and is neither read nor
written (DEDUCED, assumption 88). -/
def Issue.chained (i : Issue) : Member :=
  if 0x3C ≤ i.lop ∧ i.lop ≤ 0x3E then
    { i.m with b := if i.cb then .none else i.m.b, c := if i.cc then .none else i.m.c, dst := if memoryOnly i.lop i.fn && i.cd then .none else i.m.dst }
  else i.m

/-- R263, R306: whether STREAM_CONFIG subcode n holds (DEDUCED, assumption 36). -/
def configHolds (k : Nat) (i : Issue) (f : Parsed) (s : State) (n : Nat) : Bool :=
  let c := s.core k
  let ms := c.chain.map Prod.fst
  let m := i.m
  let sln := slnOf k s
  let keyOp := decide (0x3C ≤ i.lop) && decide (i.lop ≤ 0x3E)
  let at_ := keyBlockAt k i.kv s
  match n with
  | 1 => f.range || (usesD14 i.lop && i.fb.range) || (usesD15 i.lop && i.fc.range) || needsAmount i.lop i.fn i.fb i.fc (decide (i.sealed ≠ 0))
  | 2 => !typesOk i.lop i.fn f.typ i.fb.typ i.fc.typ
  | 3 => keyLengthBad i.lop i.fd i.fb i.fc
  | 4 => decide (2 ^ 32 - 1 < sln)
  | 5 => destOverlap m.dst m.fd.len sln
  | 6 => decide (9 ≤ i.sealed) || (decide (i.sealed ≠ 0) && !mayseal i.lop i.fn i.fd) || (decide (i.lop = 0x3C) && at_ && i.kb.xen && decide (9 ≤ i.kb.xseal))
  | 7 => c.ops.any (fun o => decide (o.st = .suspended))
  | 8 => slotBad ms i.chained (s.split k)
  | 9 => pipesBad (ms ++ [m])
  | 10 => decide (ms ≠ []) && decide ((s.arch k).sln ≠ c.chainSln)
  | 11 => widthBad ms i.chained
  | 13 => portBad k true i.chained.dst s || portBad k false i.chained.b s || portBad k false i.chained.c s
  | 14 => keyOp && keyOperandBad i.lop i.fn i.cd i.cb i.cc i.fd i.fb i.fc m sln i.kb at_
  | 15 => keyOp && keyBlockBad k i.lop i.fn i.fb.fmt.len i.kv i.kb s
  | _ => false

/-- R564: the lowest subcode that holds. -/
def configFault (k : Nat) (i : Issue) (f : Parsed) (s : State) : Option Nat := (List.range 16).find? (configHolds k i f s)

/-- R246: queue entries of the core. -/
def queueRoom (k : Nat) (s : State) : Nat := if s.split k then 2 else 4

/-- A key operation at its start. -/
def KeyState.start : KeyState := { cpos := 0, ocount := 0, xcount := 0, sum := 0, first := [], pos := [], held := [] }

/-- R241, R248: an accepted member opens, extends or closes a chain. A full queue stalls the core (R246). -/
def acceptMember (k : Nat) (i : Issue) (s : State) : Res (Option W40) :=
  let c := s.core k
  let ms := c.chain.map Prod.fst
  let key := if 0x3C ≤ i.lop ∧ i.lop ≤ 0x3E then some i.kb else c.chainKey
  let zero := fun (s : State) => if 0x3C ≤ i.lop ∧ i.lop ≤ 0x3E then writeCounts k i.kb 0 0 s else s
  if closes ms i.m then
    if c.ops.length ≥ queueRoom k s then .stall s
    else
      let op : StreamOp := { members := ms ++ [i.m], sln := slnOf k s, key := key, prog := 0, done := 0, ks := KeyState.start, st := .queued, trap := none, frame := none, olds := [], left := false }
      goOn (zero (s.setCore k { c with ops := c.ops ++ [op], chain := [], chainKey := none }))
  else
    goOn (zero (s.setCore k { c with chain := c.chain ++ [(i.m, c.arch.pc)], chainSln := if c.chain.isEmpty then c.arch.sln else c.chainSln, chainKey := key }))

/-- R263: STREAM_CONFIG with a subcode; R249: bits [7:5] index the instruction in the open chain. -/
def configTrap (c : Core) (sub : Nat) : Trap := trapOf 19 0 (sub + 32 * c.chain.length)

/-- R201, R435, R564: issue one stream instruction. -/
def issueStream (k lop fn : Nat) (xa xb xc : Reg) (w1 : Word) (s : State) : State :=
  issueAny true .sent k 2 (fun s =>
    let i := readIssue k lop fn xa xb xc w1 s
    let f := parseFmt k (bitsOf w1 0 9) s
    if issueIllegal k i f xa xb xc s then illegal (encL lop xa xb xc) s
    else match configFault k i f s with
      | some n => .trap (configTrap (s.core k) n) s
      | none => if pipeClass lop = 1 ∧ fn = 7 then formatErr 3 s else acceptMember k i s) s

/-- R233: the function field of word 1. -/
def fnOf (w1 : Word) : Nat := bitsOf w1 9 3

def execSadd (k : CoreIx) (xa xb xc : Reg) (w1 : Word) (s : State) : Host.Outcome State Fault Refusal := .next (issueStream k 0x30 (fnOf w1) xa xb xc w1 s)
def execSsub (k : CoreIx) (xa xb xc : Reg) (w1 : Word) (s : State) : Host.Outcome State Fault Refusal := .next (issueStream k 0x31 (fnOf w1) xa xb xc w1 s)
def execSladd (k : CoreIx) (xa xb xc : Reg) (w1 : Word) (s : State) : Host.Outcome State Fault Refusal := .next (issueStream k 0x32 (fnOf w1) xa xb xc w1 s)
def execSnorm (k : CoreIx) (xa xb xc : Reg) (w1 : Word) (s : State) : Host.Outcome State Fault Refusal := .next (issueStream k 0x33 (fnOf w1) xa xb xc w1 s)
def execScmp (k : CoreIx) (xa xb xc : Reg) (w1 : Word) (s : State) : Host.Outcome State Fault Refusal := .next (issueStream k 0x34 (fnOf w1) xa xb xc w1 s)
def execSlogAnd (k : CoreIx) (xa xb xc : Reg) (w1 : Word) (s : State) : Host.Outcome State Fault Refusal := .next (issueStream k 0x35 0 xa xb xc w1 s)
def execSlogOr (k : CoreIx) (xa xb xc : Reg) (w1 : Word) (s : State) : Host.Outcome State Fault Refusal := .next (issueStream k 0x35 1 xa xb xc w1 s)
def execSlogXor (k : CoreIx) (xa xb xc : Reg) (w1 : Word) (s : State) : Host.Outcome State Fault Refusal := .next (issueStream k 0x35 2 xa xb xc w1 s)
def execSlogAndn (k : CoreIx) (xa xb xc : Reg) (w1 : Word) (s : State) : Host.Outcome State Fault Refusal := .next (issueStream k 0x35 3 xa xb xc w1 s)
def execSlogNot (k : CoreIx) (xa xb xc : Reg) (w1 : Word) (s : State) : Host.Outcome State Fault Refusal := .next (issueStream k 0x35 4 xa xb xc w1 s)
def execScvtPepixoIn (k : CoreIx) (xa xb xc : Reg) (w1 : Word) (s : State) : Host.Outcome State Fault Refusal := .next (issueStream k 0x36 0 xa xb xc w1 s)
def execScvtPepixoOut (k : CoreIx) (xa xb xc : Reg) (w1 : Word) (s : State) : Host.Outcome State Fault Refusal := .next (issueStream k 0x36 1 xa xb xc w1 s)
def execScvtWordToAmount (k : CoreIx) (xa xb xc : Reg) (w1 : Word) (s : State) : Host.Outcome State Fault Refusal := .next (issueStream k 0x36 2 xa xb xc w1 s)
def execScvtAmountToWord (k : CoreIx) (xa xb xc : Reg) (w1 : Word) (s : State) : Host.Outcome State Fault Refusal := .next (issueStream k 0x36 3 xa xb xc w1 s)
def execSmove (k : CoreIx) (xa xb xc : Reg) (w1 : Word) (s : State) : Host.Outcome State Fault Refusal := .next (issueStream k 0x37 (fnOf w1) xa xb xc w1 s)
def execSmul (k : CoreIx) (xa xb xc : Reg) (w1 : Word) (s : State) : Host.Outcome State Fault Refusal := .next (issueStream k 0x38 (fnOf w1) xa xb xc w1 s)
def execSmac (k : CoreIx) (xa xb xc : Reg) (w1 : Word) (s : State) : Host.Outcome State Fault Refusal := .next (issueStream k 0x39 (fnOf w1) xa xb xc w1 s)
def execSscale (k : CoreIx) (xa xb xc : Reg) (w1 : Word) (s : State) : Host.Outcome State Fault Refusal := .next (issueStream k 0x3A (fnOf w1) xa xb xc w1 s)
def execSdiv (k : CoreIx) (xa xb xc : Reg) (w1 : Word) (s : State) : Host.Outcome State Fault Refusal := .next (issueStream k 0x3B (fnOf w1) xa xb xc w1 s)
def execSmitreLeft (k : CoreIx) (xa xb xc : Reg) (w1 : Word) (s : State) : Host.Outcome State Fault Refusal := .next (issueStream k 0x3C 0 xa xb xc w1 s)
def execSmitreInner (k : CoreIx) (xa xb xc : Reg) (w1 : Word) (s : State) : Host.Outcome State Fault Refusal := .next (issueStream k 0x3C 1 xa xb xc w1 s)
def execSmitreAnti (k : CoreIx) (xa xb xc : Reg) (w1 : Word) (s : State) : Host.Outcome State Fault Refusal := .next (issueStream k 0x3C 2 xa xb xc w1 s)
def execSsegCompact (k : CoreIx) (xa xb xc : Reg) (w1 : Word) (s : State) : Host.Outcome State Fault Refusal := .next (issueStream k 0x3D 0 xa xb xc w1 s)
def execSsegRunning (k : CoreIx) (xa xb xc : Reg) (w1 : Word) (s : State) : Host.Outcome State Fault Refusal := .next (issueStream k 0x3D 1 xa xb xc w1 s)
def execSsegMark (k : CoreIx) (xa xb xc : Reg) (w1 : Word) (s : State) : Host.Outcome State Fault Refusal := .next (issueStream k 0x3D 2 xa xb xc w1 s)
def execSsortForm (k : CoreIx) (xa xb xc : Reg) (w1 : Word) (s : State) : Host.Outcome State Fault Refusal := .next (issueStream k 0x3E 0 xa xb xc w1 s)
def execSsortMerge (k : CoreIx) (xa xb xc : Reg) (w1 : Word) (s : State) : Host.Outcome State Fault Refusal := .next (issueStream k 0x3E 1 xa xb xc w1 s)
def execSkcmp (k : CoreIx) (xa xb xc : Reg) (w1 : Word) (s : State) : Host.Outcome State Fault Refusal := .next (issueStream k 0x3F (fnOf w1) xa xb xc w1 s)
def execSkcmpOrder (k : CoreIx) (xa xb xc : Reg) (w1 : Word) (s : State) : Host.Outcome State Fault Refusal := .next (issueStream k 0x3F 6 xa xb xc w1 s)

end Sys2Proof.Machine
end

