-- ==== Sys2Proof/Machine/Pair.lean ====
section
/-! DEFINITION. Pairs and spares (R436 to R450, R459, R460): checkpoints, rollbacks, retirement and takeover. -/

namespace Sys2Proof.Machine

/-- R27, R449: logical bents in service. -/
def inService (s : State) : List Nat := (List.range s.variant.bents).filter (fun l => (tget none s.pair.lmap l).isSome)

/-- R447: a takeover runs for the logical bent. -/
def takingOver (s : State) (l : Nat) : Bool := s.pair.takeover.any (fun t => decide (t.lbent = l))

/-- R400: logical bents free to take a share. -/
def freeBents (s : State) : List Nat := (inService s).filter (fun l => (s.bent l).share.isNone && !takingOver s l && (s.bent l).service.isSome)

/-- R446: the lowest-numbered free spare. -/
def freeSpare (s : State) : Option Nat := (List.range s.variant.physBents).find? (fun p => decide ((s.phys p).state = 2))

/-- R459, R463: a physical bent changes STATE. -/
def setPhysState (p st : Nat) (f : Phys → Phys) (s : State) : State := fireModule 7 (s.setPhys p { f (s.phys p) with state := st })

/-- R444, R446, R542: physical bent p is retired. -/
def markRetired (p reason : Nat) (s : State) : State :=
  let s := setPhysState p 3 (fun v => { v with reason := reason, lbent := 0 }) s
  let q := s.pair
  let s := { s with pair := { q with retiredList := tset false q.retiredList p true, armed := q.armed && !decide (q.curBent = p) } }
  queueEvent (.retired p) (logErr true 0x004B 0 p 0 reason 0 s)

/-- R449: job j ends when its GANG exceeds the bents in service. -/
def loseJob (j : Nat) (s : State) : State :=
  match s.job j with
  | some job => if dByte job.desc 6 > (inService s).length then finishJob j (JobEnd.plain 0x00FF s.straps.modId.toNat) s else s
  | none => s

/-- R447, R449: logical bent l goes to a spare, or is withdrawn where none is free. -/
def takeOver (l p : Nat) (share : Option (Nat × Nat)) (s : State) : State :=
  match freeSpare s with
  | some q =>
    let s := setPhysState q 4 (fun v => { v with lbent := l }) s
    let s := { s with pair := { s.pair with lmap := tset none s.pair.lmap l (some q), takeover := s.pair.takeover ++ [(Takeover.mk l q share)] } }
    logErr false 0x004C 0 p 0 q 0 s
  | none =>
    let s := { s with pair := { s.pair with lmap := tset none s.pair.lmap l none } }
    let s := logErr true 0x004D 0 p 0 l 0 s
    match share with
    | some (j, _) => loseJob j s
    | none => s

/-- R447: each core of bent l stops for a save: from the last agreed checkpoint when paired, at its boundary when split. -/
def haltBent (l : Nat) (s : State) : State :=
  let halt := fun (k : Nat) (s : State) =>
    if (s.core k).run = .idle then s
    else
      let s := settle k s
      let s := drainAll k (stopPipes k s)
      s.setCore k { s.core k with run := .stopped, stop := 0 }
  if (s.bent l).split then halt (2 * l + 1) (halt (2 * l) s) else halt (2 * l) (rollback (2 * l) s)

/-- R444, R447: the bent of logical number l is retired: its share is saved and the number moves to a spare. -/
def retireBent (l reason : Nat) (s : State) : State :=
  let p := s.physOf l
  let share := (s.bent l).share
  let s := { s with pair := { s.pair with armed := s.pair.armed && !decide (s.pair.curBent = p) } }
  let s := haltBent l s
  let s := match share with
    | some (j, i) => saveShare j i l s
    | none => s
  let waits := match share with
    | some (j, _) => (s.job j).elim none (fun job => if job.preempted then none else share)
    | none => none
  takeOver l p waits (markRetired p reason s)

/-! ### Rollback and checkpoint -/

/-- R444: REASON 2's second condition: 8 checker faults within 1 ms. -/
def checkerBurst (p : Nat) (s : State) : Bool × State :=
  let t := s.tick.toNat
  let seen := (tget [] s.pair.checkers p).filter (fun u => decide (t < u + 1000)) ++ [t]
  (decide (8 ≤ seen.length), { s with pair := { s.pair with checkers := tset [] s.pair.checkers p seen } })

/-- R436, R442, R443: what a rollback counts and logs. -/
def countRollback (p : Nat) (why : RollbackWhy) (s : State) : State :=
  match why with
  | .miscompare => logErr false 0x0048 0 p 0 0 0 (countPair p 0 s)
  | .signature => logErr false 0x0049 0 p 0 0 0 (countPair p 1 s)
  | .checker st => logErr false 0x004A 0 p 0 st.toNat 0 (countPair p 2 s)
  | .replayMismatch => s

/-- R440, R444: the pair of core k rolls back; the third time to one checkpoint, a burst of checker faults or a replay
mismatch retires the bent. -/
def execRollback (k : CoreIx) (why : RollbackWhy) (s : State) : Host.Outcome State Fault Refusal :=
  let l := k.val / 2
  let p := s.physOf l
  if s.split k ∨ k.val % 2 = 1 ∨ (s.bent l).share = none ∨ (s.core k).run = .idle then .next s
  else
    let s := countPair p 3 (countRollback p why s)
    let c := s.core k
    let chk := match why with | .checker _ => 1 | _ => 0
    let s := rollback k (s.setCore k { c with rolls := c.rolls + 1, checkerRolls := c.checkerRolls + chk })
    let (burst, s) := if chk = 1 then checkerBurst p s else (false, s)
    let c := s.core k
    if why = .replayMismatch then .next (retireBent l 3 s)
    else if burst ∨ (3 ≤ c.rolls ∧ 0 < c.checkerRolls) then .next (retireBent l 2 s)
    else if 3 ≤ c.rolls then .next (retireBent l 1 s)
    else .next s

/-- R437, R438: a checkpoint of core k's pair that no instruction asks for. -/
def execCheckpoint (k : CoreIx) (s : State) : Host.Outcome State Fault Refusal :=
  if s.split k ∨ k.val % 2 = 1 ∨ (s.core k).run = .idle then .next s else .next (checkpoint k s)

/-- R167: the oldest store-buffer entry drains; in paired execution only once released (DEDUCED, assumption 55). -/
def execStoreDrain (k : CoreIx) (s : State) : Host.Outcome State Fault Refusal :=
  match (s.core k).stores with
  | e :: es => if e.released ∨ s.split k then .next (performEntry k e (s.setCore k { s.core k with stores := es })) else .next s
  | [] => .next s

/-- R88, R212, R447: the spare's bent is cleared and its service store written from the slot that runs. -/
def readyBent (l : Nat) (s : State) : State :=
  (((s.setCore (2 * l) Core.reset).setCore (2 * l + 1) Core.reset).setBent l { Bent.reset with service := some s.flash.running })

/-- R447, R449, R450: the check of spare p ends: its share is restored, or it is retired with REASON 6. -/
def execSpareCheckComplete (p : Nat) (pass : Bool) (s : State) : Host.Outcome State Fault Refusal :=
  match s.pair.takeover.find? (fun t => decide (t.spare = p)) with
  | none => .next s
  | some t =>
    let s := { s with pair := { s.pair with takeover := s.pair.takeover.filter (fun u => !decide (u = t)) } }
    if pass then
      let s := readyBent t.lbent (setPhysState p 1 id s)
      match t.share with
      | some (j, i) => .next (restoreShare j i t.lbent s)
      | none => .next s
    else .next (takeOver t.lbent p t.share (markRetired p 6 s))

/-! ### The PAIR block's writes (R459, R460) -/

/-- R459: PAIRCTL.CLRCNT. -/
def clearPairCounters (s : State) : State :=
  { s with pair := { s.pair with phys := tmap Phys.absent (fun _ v => { v with cnt := [] }) s.pair.phys } }

/-- R460: commit and arm. -/
def armCmptest (s : State) : State :=
  let q := s.pair
  if (s.phys q.bent.toNat).state ≠ 1 ∨ q.mode = 3 then { s with pair := { q with cerr := true } }
  else { s with pair := { q with armed := true, staged := false, curBent := q.bent.toNat, curMode := q.mode.toNat } }

/-- R459, R563: a write of CMPTEST. -/
def writeCmptest (v : W32) (s : State) : State :=
  let q := s.pair
  let q := { q with fired := q.fired && !bitAt v 30, cerr := q.cerr && !bitAt v 9, armed := q.armed && !bitAt v 1,
                    bent := BitVec.ofNat 6 (bitsOf v 16 6), mode := BitVec.ofNat 2 (bitsOf v 2 2), staged := true }
  let s := { s with pair := q }
  if bitAt v 0 then armCmptest s else s

def execPairClrcnt (s : State) : Host.Outcome State Fault Refusal := .next (hostWrite 0 clearPairCounters s)
/-- CMPTEST written with v and ARM set. -/
def execCmptestArm (v : W32) (s : State) : Host.Outcome State Fault Refusal := .next (hostWrite 0 (writeCmptest (v ||| 1)) s)
/-- CMPTEST.DISARM alone; the staged fields keep their values. -/
def execCmptestDisarm (s : State) : Host.Outcome State Fault Refusal := .next (hostWrite 0 (fun s => { s with pair := { s.pair with armed := false } }) s)

end Sys2Proof.Machine
end

