-- ==== Sys2Proof/Machine/StreamElem.lean ====
section
/-! DEFINITION. One element of a stream operation (R240, R252, R256, R257, R272 to R292, R297 to R303): what each member
reads, computes, writes and adds to a seal, and how it faults (R277, R278). -/

namespace Sys2Proof.Machine

/-- A write an element makes: the core and context that make it, its first virtual word, and its places and words. -/
structure ElemWrite where
  k : Nat
  ctx : Nat
  v : Nat
  ws : List (Place × Word)

/-- What an element has come to so far: the words in slots and on outbound ports, its writes, its seal additions
(core, seal, amount), and the key state after it. -/
structure ElemOut where
  slots : List (Nat × List Word)
  ports : List (Nat × List Word)
  writes : List ElemWrite
  seals : List (Nat × Int)
  ks : KeyState

/-- R36, R294: the key of an element. -/
def elemKey (f : Fmt) (ws : List Word) : Nat := keyValue ((ws.drop f.keyField.1).take f.keyField.2)

/-- R298: amount field 0 of an element. -/
def elemAmount (f : Fmt) (ws : List Word) : Int :=
  match f.amount0 with
  | some (o, n) => qValue ((ws.drop o).take n)
  | none => 0

/-- R298: a record with amount field 0 replaced. -/
def withAmount (f : Fmt) (ws out : List Word) : List Word :=
  match f.amount0 with
  | some (o, n) => ws.take o ++ out ++ ws.drop (o + n)
  | none => ws

/-- The limbs of amount field 0. -/
def Fmt.amountLimbs (f : Fmt) : Nat := f.amount0.elim 0 Prod.snd

/-! ### Overlap (R256, R257) -/

/-- The elements of n, of w words, that hold virtual word v. -/
def holders (base stride : W40) (w n v : Nat) : List Nat :=
  (List.range n).filter (fun f => decide ((v + 2 ^ 40 - elemAddr base stride f) % 2 ^ 40 < w))

/-- R256, R257: a member whose memory destination meets source words of w words an element and does not alias them exactly. -/
def meets (m : Member) (b st : W40) (w sln : Nat) : Bool :=
  match m.dst with
  | .mem db dst => !(decide (db = b) && decide (dst = st) && decide (m.fd.len = w)) && spansMeet (spanOf db dst m.fd.len sln) (spanOf b st w sln)
  | _ => false

/-- R257: the other elements of the operation that write a source word v of element e. -/
def StreamOp.writers (op : StreamOp) (o : Operand) (w e v : Nat) : List Nat :=
  match o with
  | .mem b st => op.members.flatMap (fun m => match m.dst with
      | .mem db dst => if meets m b st w op.sln then (holders db dst m.fd.len op.sln v).filter (fun f => decide (f ≠ e)) else []
      | _ => [])
  | _ => []

/-- R257: a source word that other elements write: its old value or its new one. The new value that a later element is still to
write is free (DESIGN CHOICE, assumption 37). -/
def mixedWord (op : StreamOp) (fs : List Nat) (e v : Nat) (now : Word) (s : State) : Word :=
  let cands := now :: ((tget none op.olds v).toList ++ if fs.any (fun f => decide (e < f)) then [Config.freeWord s.draw v] else [])
  (cands[Config.freeNat s.draw v % cands.length]?).getD now

/-- R257: the words read from v on, each affected one old or new. -/
def mixAffected (op : StreamOp) (o : Operand) (w e v : Nat) (ws : List Word) (s : State) : List Word :=
  ws.zipIdx.map (fun x =>
    let u := (v + x.2) % 2 ^ 40
    match op.writers o w e u with
    | [] => x.1
    | fs => mixedWord op fs e u x.1 s)

/-- A word as it stands at a place, looked at without an access. -/
def peekWord (k : Nat) (p : Place) (s : State) : Word :=
  match p with
  | .dev a => if isLocal s a then (overlay (mergeEntry s (localOf a / 64)) [a % 64] (storedWords s (localOf a / 64) [a % 64])).headD 0 else Config.freeWord s.draw a
  | .yard w => tget 0 s.mem.yard w
  | .bench w => tget 0 (s.bent (k / 2)).bench w
  | .host a => BitVec.ofNat 20 (hostNat s a 4)

/-- R257: the sources of an operation that its own destination may write. -/
def StreamOp.mixes (op : StreamOp) : Bool :=
  op.members.any (fun m => [(m.b, m.fb.len), (m.c, m.fc.len)].any (fun x => match x.1 with
    | .mem b st => op.members.any (fun d => meets d b st x.2 op.sln)
    | _ => false))

/-- R257: the words that writes are about to replace are kept, once. -/
def StreamOp.keepOlds (op : StreamOp) (ws : List ElemWrite) (s : State) : StreamOp :=
  if !op.mixes then op
  else { op with olds := ws.foldl (fun t w => w.ws.zipIdx.foldl (fun t x =>
    let u := (w.v + x.2) % 2 ^ 40
    if (tget none t u).isSome then t else tset none t u (some (peekWord w.k x.1.1 s))) t) op.olds }

/-! ### Sources and destinations -/

/-- R97: chain slot n of the bent as it holds it. -/
def slotWord (s : State) (l n : Nat) : SramWord := { kind := 0, unit := s.physOf l, addr := 0, cell := tget .good (s.bent l).slotBad n }

/-- R97: a word of the slot is corrected, or the element that writes it is computed again. -/
def healSlot (l n : Nat) (s : State) : State := s.setBent l { s.bent l with slotBad := terase (s.bent l).slotBad n }

/-- R97, R251: the words of a chain slot. -/
def readSlot (k n : Nat) (x : ElemOut) (s : State) : Res (Held (List Word)) :=
  match sramRead (slotWord s (k / 2) n) (healSlot (k / 2) n) s with
  | (true, s) => .ok ((x.slots.find? (fun y => decide (y.1 = n))).elim [] Prod.snd, none) s
  | (false, s) => .trap (poisonTrap .read 0 true false) (healSlot (k / 2) n s)

/-- R240, R251, R253: the words of a source element. A port's words come from the sending bent. -/
def readSource (k : Nat) (xl : Xl) (op : StreamOp) (o : Operand) (f : Fmt) (e : Nat) (inp : List (Nat × List Word)) (x : ElemOut)
    (s : State) : Res (Held (List Word)) :=
  match o with
  | .none => .ok ([], none) s
  | .slot n => readSlot k n x s
  | .port q => .ok ((inp.find? (fun y => decide (y.1 = q))).elim ((List.range f.len).map (Config.freeWord s.draw)) Prod.snd, none) s
  | .mem b st =>
    let v := elemAddr b st e
    (readMemQ (.core k) xl v f.len s).bind fun r s => .ok (mixAffected op o f.len e v r.1 s, r.2) s.drawn

/-- The address of element e of an operand in memory. -/
def Operand.at_ (o : Operand) (e : Nat) : Option Nat :=
  match o with
  | .mem b st => some (elemAddr b st e)
  | _ => Option.none

/-- R131, R286: the places of a destination element in memory: written, and with both rights for SMAC. -/
def destPlaces (k : Nat) (xl : Xl) (o : Operand) (w e : Nat) (acc : Acc) (s : State) : Res (List Place) :=
  match o.at_ e with
  | none => .ok [] s
  | some v => xlate (.core k) xl acc v w s

/-! ### Faults -/

/-- R277: the address of a decimal fault: the destination element, else source B's or C's, else 0. -/
def decimalAddr (m : Member) (e : Nat) : Nat := ((m.dst.at_ e).orElse (fun _ => (m.b.at_ e).orElse (fun _ => m.c.at_ e))).getD 0

/-- R277: a FORMAT fault of an element: source B's element, or 0. -/
def formatAddr (m : Member) (e : Nat) : Nat := (m.b.at_ e).getD 0

/-- R210: STREAM and ELEM of an element's trap. -/
def elemTrap (t : Trap) (i : Nat) : Trap := { t with detail := t.detail ||| BitVec.ofNat 20 (2 ^ 15 + (i % 64) * 2 ^ 9) }

/-- R277: FORMAT has the fault address of the member's source B element. -/
def atElem (m : Member) (e : Nat) (t : Trap) : Trap := { t with addr := BitVec.ofNat 40 (formatAddr m e) }

/-- R277: the fault address of FORMAT on a read of source B's element e. -/
def placeElem {α : Type} (m : Member) (e : Nat) (r : Res α) : Res α :=
  match r with
  | .trap t s => .trap (if t.cause = 7 then atElem m e t else t) s
  | r => r

/-- R277: a decimal trap of an element. -/
def decTrap (m : Member) (cause sub e : Nat) (s : State) : Res α :=
  .trap (trapOf cause (if cause = 7 then formatAddr m e else decimalAddr m e) sub) s

/-! ### What a member computes -/

/-- R272: a value normalised into n limbs, or DECIMAL_OVERFLOW. -/
def putQ (m : Member) (n e : Nat) (v : Int) (s : State) : Res (List Word) :=
  match normalised n v with
  | some ws => .ok ws s
  | none => decTrap m 6 0 e s

/-- R274: SLADD, limb by limb. -/
def lazyAdd (b c : List Word) : Option (List Word) :=
  let n := b.length
  let out := (b.zip c).zipIdx.map (fun x =>
    if x.2 + 1 = n then
      let t := x.1.1.toInt + x.1.2.toInt
      if -524288 ≤ t ∧ t ≤ 524287 then some (BitVec.ofInt 20 t) else none
    else
      let t := x.1.1.toNat + x.1.2.toNat
      if t ≤ 1048575 then some (BitVec.ofNat 20 t) else none)
  if out.all Option.isSome then some (out.map (fun x => x.getD 0)) else none

/-- R238: SLOG. -/
def slog (fn : Nat) (b c : Word) : Word :=
  match fn with
  | 0 => b &&& c
  | 1 => b ||| c
  | 2 => b ^^^ c
  | 3 => b &&& ~~~c
  | _ => ~~~b

/-- R285: the product at the destination scale. -/
def product (m : Member) (b c : List Word) : Int :=
  scaleBy (qValue b * qValue c) ((m.fd.scale : Int) - (m.fb.scale + m.fc.scale)) m.fn

/-- R288: the quotient at the destination scale. -/
def quotient (m : Member) (b c : List Word) : Int :=
  let e : Int := (m.fd.scale : Int) - m.fb.scale + m.fc.scale
  if 0 ≤ e then roundQuot (qValue b * (10 ^ e.toNat : Int)) (qValue c) m.fn
  else roundQuot (qValue b) (qValue c * (10 ^ (-e).toNat : Int)) m.fn

/-- R297: SKCMP on two keys. -/
def keyCompare (fn : Nat) (b c : Nat) : Word :=
  if fn = 6 then (if b < c then 0xFFFFF else if b = c then 0 else 1) else boolWord (intCond fn b c)

/-- R273 to R292, R297: the destination element of an element-wise member, and the amount a seal receives. old is the
old destination element of SMAC. -/
def compute (m : Member) (e : Nat) (b c old : List Word) (s : State) : Res (List Word × Int) :=
  let n := m.fd.len
  let q : Int → Res (List Word × Int) := fun v => (putQ m n e v s).bind fun ws s => .ok (ws, v) s
  let w : Word → Res (List Word × Int) := fun v => .ok ([v], 0) s
  let b0 := b.headD 0
  let c0 := c.headD 0
  match m.lop with
  | 0x30 => (match m.fd with | .word => w (b0 + c0) | _ => q (qValue b + qValue c))
  | 0x31 => (match m.fd with | .word => w (b0 - c0) | _ => q (qValue b - qValue c))
  | 0x32 => (match lazyAdd b c with | some ws => .ok (ws, qValue ws) s | none => decTrap m 6 0 e s)
  | 0x33 => q (qValue b)
  | 0x34 => w (boolWord (match m.fb with | .word => intCond m.fn b0.toNat c0.toNat | _ => intCond m.fn (qValue b) (qValue c)))
  | 0x35 => w (slog m.fn b0 c0)
  | 0x36 =>
    (match m.fn with
     | 0 => (match pepixoIn b with | some v => q v | none => decTrap m 7 6 e s)
     | 1 => (match pepixoOut n (qValue b) with | some ws => .ok (ws, 0) s | none => decTrap m 6 0 e s)
     | 2 => q b0.toInt
     | _ => if -524288 ≤ qValue b ∧ qValue b ≤ 524287 then w (BitVec.ofInt 20 (qValue b)) else decTrap m 6 0 e s)
  | 0x37 => (match m.fd with | .amount _ _ => q (qValue b) | f => .ok (b, elemAmount f b) s)
  | 0x38 => q (product m b c)
  | 0x39 => (putQ m n e (qValue old + product m b c) s).bind fun ws s => .ok (ws, product m b c) s
  | 0x3A => q (scaleBy (qValue b) ((m.fd.scale : Int) - m.fb.scale) m.fn)
  | 0x3B => if qValue c = 0 then decTrap m 5 0 e s else q (quotient m b c)
  | _ => w (keyCompare m.fn (elemKey m.fb b) (elemKey m.fc c))

/-! ### Delivering a result -/

/-- R298, R301: a word run written to the memory destination at element j. -/
def Member.write (m : Member) (k j : Nat) (ps : List Place) (ws : List Word) : ElemWrite :=
  { k := k, ctx := m.xl.ctx, v := (m.dst.at_ j).getD 0, ws := ps.zip ws }

/-- R312: a member's amount goes to its seal. -/
def sealUp (m : Member) (amount : Int) (x : ElemOut) : ElemOut :=
  if m.sealNo = 0 then x else { x with seals := x.seals ++ [(m.sealNo, if m.sub then -amount else amount)] }

/-- R252, R312: a member's result for element e goes to memory, a slot or a port, and its amount to its seal. ps are the places of a
memory destination. -/
def deliver (k : Nat) (m : Member) (e : Nat) (ps : List Place) (ws : List Word) (amount : Int) (x : ElemOut) : ElemOut :=
  sealUp m amount (match m.dst with
    | .slot n => { x with slots := (n, ws) :: x.slots }
    | .port p => { x with ports := (p, ws) :: x.ports }
    | _ => { x with writes := x.writes ++ [m.write k e ps ws] })

/-- R278: the first FORMAT trap that reads have kept back. -/
def firstHeld (ts : List (Option Trap)) : Option Trap := ts.findSome? id

/-- An element-wise member: its operands and its destination translate and read; then FORMAT; then it computes (R278). -/
def simpleMember (k : Nat) (op : StreamOp) (m : Member) (e : Nat) (inp : List (Nat × List Word)) (x : ElemOut) (s : State) : Res ElemOut :=
  (readSource k m.xl op m.b m.fb e inp x s).bind fun b s =>
    (readSource k m.xl op m.c m.fc e inp x s).bind fun c s =>
      (destPlaces k m.xl m.dst m.fd.len e (if m.lop = 0x39 then .locked else .write) s).bind fun ps s =>
        (if m.lop = 0x39 then readPlacesQ (.core k) .read ((m.dst.at_ e).getD 0) ps s else Res.ok ([], none) s).bind fun old s =>
          match firstHeld [b.2, c.2, old.2] with
          | some t => .trap (atElem m e t) s
          | none => (compute m e b.1 c.1 old.1 s).bind fun r s => .ok (deliver k m e ps r.1 r.2 x) s

end Sys2Proof.Machine
end

