-- ==== Sys2Proof/Machine/StreamKey.lean ====
section
/-! DEFINITION. The keyed members (R294 to R305): mitre join, segmented reduction and sorting, one element at a time. An element that is
done is only consumed: it translates no destination, stores and seals nothing (R307). -/

namespace Sys2Proof.Machine

/-- The key words of an element. -/
def keyWords (f : Fmt) (ws : List Word) : List Word := (ws.drop f.keyField.1).take f.keyField.2

/-- A compacted destination's record j: its address (R298). -/
def Operand.base (o : Operand) (j : Nat) : Nat := (o.at_ j).getD 0

/-- R298, R301: destination record j of a compacted stream. -/
def deliverAt (k : Nat) (m : Member) (j : Nat) (ps : List Place) (ws : List Word) (amount : Int) (x : ElemOut) : ElemOut :=
  sealUp m amount { x with writes := x.writes ++ [m.write k j ps ws] }

/-- R277: a record as element e of a keyed member reads it: FORMAT has the address of source B's record e. -/
def readKeyed (k : Nat) (m : Member) (v n e : Nat) (s : State) : Res (Held (List Word)) :=
  (readMemQ (.core k) m.xl v n s).bind fun r s => .ok (r.1, r.2.map (atElem m e)) s

/-- R278: the FORMAT trap kept back, if there is one, ends the element. -/
def raiseHeld (t : Option Trap) (s : State) : Res Unit :=
  match t with
  | some t => .trap t s
  | none => .ok () s

/-- R298, R301: the places of destination record j, where the element writes one. -/
def placesIf (writes : Bool) (k : Nat) (m : Member) (j : Nat) (s : State) : Res (List Place) :=
  if writes then destPlaces k m.xl m.dst m.fd.len j .write s else .ok [] s

/-- R299, R301: the sum for record j, where the element stores one. -/
def sumIf (writes : Bool) (m : Member) (n j : Nat) (v : Int) (s : State) : Res (List Word) :=
  if writes then putQ m n j v s else .ok [] s

/-- R300, R303: KEY_ORDER at the record at address v; a done element is consumed without the check (DEDUCED, assumption 42). -/
def orderTrap (done bad : Bool) (v : Nat) : Option Trap := if bad && !done then some (formatTrap v 7) else none

/-! ### SMITRE (R298 to R300) -/

/-- What the transactions of one master come to; held is the first FORMAT trap met (R278, R300). -/
structure Matched where
  cpos : Nat
  sum : Int
  n : Nat
  exc : List (List Word)
  prev : List Word
  held : Option Trap

/-- R299: consume source C up to the master's key; all of it at the last element. -/
def consume (k : Nat) (m : Member) (kb : KeyBlock) (e : Nat) (last done : Bool) (km : Nat) : Nat → Matched → State → Res Matched
  | 0, x, s => .ok x s
  | n + 1, x, s =>
    if x.cpos ≥ kb.clen ∨ x.held.isSome then .ok x s
    else
      let v := m.c.base x.cpos
      (readKeyed k m v m.fc.len e s).bind fun r s =>
        let kc := elemKey m.fc r.1
        if km < kc ∧ !last then .ok { x with held := r.2 } s
        else
          let bad := decide (0 < x.cpos) && decide (x.prev ≠ []) && decide (kc < keyValue x.prev)
          let x := { x with cpos := x.cpos + 1, prev := keyWords m.fc r.1, held := firstHeld [r.2, orderTrap done bad v] }
          consume k m kb e last done km n
            (if kc = km then { x with sum := x.sum + elemAmount m.fc r.1, n := x.n + 1 } else { x with exc := x.exc ++ [r.1] }) s

/-- R298: the places of exception records from number j on. -/
def excPlaces (k : Nat) (m : Member) (kb : KeyBlock) : Nat → List (List Word) → State → Res (List ElemWrite)
  | _, [], s => .ok [] s
  | j, r :: rs, s =>
    let v := elemAddr kb.xaddr kb.xstride j
    (xlate (.core k) m.xl .write v m.fc.len s).bind fun ps s =>
      (excPlaces k m kb (j + 1) rs s).bind fun ws s => .ok ({ k := k, ctx := m.xl.ctx, v := v, ws := ps.zip r } :: ws) s

/-- R299: an element with n matches has a destination record in mode fn. -/
def smitreWrites (fn n : Nat) : Bool := decide (fn = 0) || (decide (fn = 1) && decide (0 < n)) || (decide (fn = 2) && decide (n = 0))

/-- R298: the destination record of master record b, with the words q of its sum. -/
def smitreRecord (k : Nat) (m : Member) (e j : Nat) (ps : List Place) (b q : List Word) (sum : Int) (x : ElemOut) : ElemOut :=
  match m.fn with
  | 0 => deliver k m e ps q sum x
  | 1 => deliverAt k m j ps (withAmount m.fb b q) sum x
  | _ => deliverAt k m j ps b (elemAmount m.fb b) x

/-- R298: the exceptions of an element, written and sealed. -/
def smitreExc (m : Member) (kb : KeyBlock) (exc : List (List Word)) (xw : List ElemWrite) (x : ElemOut) : ElemOut :=
  { x with writes := x.writes ++ xw,
           seals := x.seals ++ (if kb.xseal = 0 then [] else exc.map (fun c => (kb.xseal, if kb.xsub then -(elemAmount m.fc c) else elemAmount m.fc c))) }

/-- R299: element e of SMITRE. -/
def smitre (k : Nat) (m : Member) (kb : KeyBlock) (sln e : Nat) (done : Bool) (x : ElemOut) (s : State) : Res ElemOut :=
  let v := m.b.base e
  let ks := x.ks
  (readKeyed k m v m.fb.len e s).bind fun b s =>
    let km := elemKey m.fb b.1
    let prevM := (ks.held[0]?).getD []
    let bad := orderTrap done (decide (0 < e) && decide (prevM ≠ []) && decide (km ≤ keyValue prevM)) v
    (consume k m kb e (decide (e + 1 = sln)) done km (kb.clen - ks.cpos)
      { cpos := ks.cpos, sum := 0, n := 0, exc := [], prev := (ks.held[1]?).getD [], held := firstHeld [b.2, bad] } s).bind fun t s =>
      let exc := if kb.xen then t.exc else []
      let writes := smitreWrites m.fn t.n
      let puts := writes && !done
      let j := if m.fn = 0 then e else ks.ocount
      (placesIf puts k m j s).bind fun ps s =>
        (excPlaces k m kb ks.xcount (if done then [] else exc) s).bind fun xw s =>
          (raiseHeld t.held s).bind fun _ s =>
            (sumIf (puts && decide (m.fn ≠ 2)) m (if m.fn = 0 then m.fd.len else m.fb.amountLimbs) j t.sum s).bind fun q s =>
              let x := { x with ks := { ks with cpos := t.cpos, ocount := ks.ocount + (if writes then 1 else 0),
                                                xcount := ks.xcount + exc.length, held := [keyWords m.fb b.1, t.prev] } }
              let x := if puts then smitreRecord k m e j ps b.1 q t.sum x else x
              .ok (if done then x else smitreExc m kb exc xw x) s

/-! ### SSEG (R301) -/

/-- R301: element e is the last of its run. -/
def endsRun (k : Nat) (m : Member) (sln e key : Nat) (s : State) : Res (Held Bool) :=
  if e + 1 ≥ sln then .ok (true, none) s
  else (readKeyed k m ((m.b.base (e + 1) + m.fb.keyField.1) % 2 ^ 40) m.fb.keyField.2 (e + 1) s).bind fun r s =>
    .ok (decide (keyValue r.1 ≠ key), r.2) s

/-- R301: element e of SSEG. -/
def sseg (k : Nat) (m : Member) (sln e : Nat) (done : Bool) (x : ElemOut) (s : State) : Res ElemOut :=
  let ks := x.ks
  (readKeyed k m (m.b.base e) m.fb.len e s).bind fun b s =>
    let key := elemKey m.fb b.1
    let fresh := decide (ks.first = []) || decide (elemKey m.fb ks.first ≠ key)
    let a := elemAmount m.fb b.1
    let sum := if fresh then a else ks.sum + a
    let first := if fresh then b.1 else ks.first
    (if m.fn = 1 then Res.ok (false, none) s else endsRun k m sln e key s).bind fun last s =>
      let writes := decide (m.fn ≠ 0) || last.1
      let puts := writes && !done
      let j := if m.fn = 0 then ks.ocount else e
      (placesIf puts k m j s).bind fun ps s =>
        (raiseHeld (firstHeld [b.2, last.2]) s).bind fun _ s =>
          (sumIf (puts && decide (m.fn ≠ 2)) m (if m.fn = 0 then m.fb.amountLimbs else m.fd.len) j sum s).bind fun q s =>
            let x := { x with ks := { ks with sum := sum, first := first, ocount := ks.ocount + (if writes then 1 else 0) } }
            .ok (if !puts then x else match m.fn with
              | 0 => deliverAt k m j ps (withAmount m.fb first q) sum x
              | 1 => deliver k m e ps q a x
              | _ => deliver k m e ps [boolWord last.1] 0 x) s

/-! ### SSORT (R302, R303) -/

/-- R304: insert a record after every record of an equal or lower key. -/
def insertRec (f : Fmt) (r : List Word) : List (List Word) → List (List Word)
  | [] => [r]
  | t :: ts => if elemKey f r < elemKey f t then r :: t :: ts else t :: insertRec f r ts

/-- R302, R304: a stable sort by key. -/
def sortRecs (f : Fmt) (rs : List (List Word)) : List (List Word) := rs.foldl (fun t r => insertRec f r t) []

/-- Read n records of source B from record i, for element e. -/
def readKeyedRun (k : Nat) (m : Member) (e : Nat) : Nat → Nat → State → Res (Held (List (List Word)))
  | _, 0, s => .ok ([], none) s
  | i, n + 1, s => (readKeyed k m (m.b.base i) m.fb.len e s).bind fun r s =>
      (readKeyedRun k m e (i + 1) n s).bind fun rs s => .ok (r.1 :: rs.1, firstHeld [r.2, rs.2]) s

/-- R302: the run area holds no defined value. -/
def spoilArea (k lo n : Nat) (s : State) : State :=
  let b := s.bent (k / 2)
  let i := benchIndex k lo s
  s.setBent (k / 2) { b with bench := tsetMany 0 b.bench i ((List.range n).map (fun t => Config.freeWord s.draw (lo + t))),
                             bad := tdrop (fun a => decide (i ≤ a) && decide (a < i + n)) b.bad }

/-- R302: load run r whole and sort it for element e, unless it is loaded (DEDUCED, assumption 42). -/
def loadRun (k : Nat) (m : Member) (kb : KeyBlock) (sln e r : Nat) (ks : KeyState) (s : State) : Res KeyState :=
  if ks.pos = [r] ∧ ks.first ≠ [] then .ok ks s
  else
    let n := min kb.runlen (sln - r * kb.runlen)
    (readKeyedRun k m e (r * kb.runlen) n s).bind fun rs s => (raiseHeld rs.2 s).bind fun _ s =>
      .ok { ks with pos := [r], first := (sortRecs m.fb rs.1).flatten, cpos := s.draw } (spoilArea k kb.rarea (n * m.fb.len) s).drawn

/-- R307: a word of the run area that software has changed makes the word written free. -/
def runWord (k : Nat) (kb : KeyBlock) (ks : KeyState) (i : Nat) (s : State) : Word :=
  if tget 0 (s.bent (k / 2)).bench (benchIndex k (kb.rarea + i) s) = Config.freeWord ks.cpos (kb.rarea + i) then (ks.first[i]?).getD 0
  else Config.freeWord s.draw (kb.rarea + i)

/-- R97, R302: n words of the run area from i on are read. -/
def readArea (k : Nat) (kb : KeyBlock) (i n : Nat) (s : State) : Res (List Word) :=
  readPlaces (.core k) .read (0xFFFFF80000 + kb.rarea + i) ((List.range n).map (fun t => .bench (benchIndex k (kb.rarea + i + t) s))) s

/-- R302: element e of SSORT form, once its run is loaded. -/
def sortForm (k : Nat) (m : Member) (kb : KeyBlock) (e : Nat) (done : Bool) (x : ElemOut) (s : State) : Res ElemOut :=
  let w := m.fb.len
  let i := e % kb.runlen * w
  let x := { x with ks := { x.ks with ocount := x.ks.ocount + 1 } }
  if done then .ok x s
  else
    (readArea k kb i w s).bind fun _ s =>
      (destPlaces k m.xl m.dst w e .write s).bind fun ps s =>
        let ws := (List.range w).map (fun t => runWord k kb x.ks (i + t) s)
        .ok (deliverAt k m e ps ws (elemAmount m.fb ws) x) s.drawn

/-- R303: the heads of the input runs that still hold records: run, record number, record. -/
def runHeads (k : Nat) (m : Member) (kb : KeyBlock) (sln e r0 : Nat) (pos : List Nat) : Nat → Nat → State → Res (Held (List (Nat × Nat × List Word)))
  | _, 0, s => .ok ([], none) s
  | i, n + 1, s =>
    let start := (r0 + i) * kb.runlen
    let p := (pos[i]?).getD 0
    if p < min kb.runlen (sln - start) then
      (readKeyed k m (m.b.base (start + p)) m.fb.len e s).bind fun r s =>
        (runHeads k m kb sln e r0 pos (i + 1) n s).bind fun rs s => .ok ((i, start + p, r.1) :: rs.1, firstHeld [r.2, rs.2]) s
    else runHeads k m kb sln e r0 pos (i + 1) n s

/-- R303: the head with the least key, the lowest run among equals. -/
def leastHead (f : Fmt) : List (Nat × Nat × List Word) → Option (Nat × Nat × List Word)
  | [] => none
  | h :: hs => some (hs.foldl (fun a b => if elemKey f b.2.2 < elemKey f a.2.2 then b else a) h)

/-- R303: element e of SSORT merge. -/
def sortMerge (k : Nat) (m : Member) (kb : KeyBlock) (sln e : Nat) (done : Bool) (x : ElemOut) (s : State) : Res ElemOut :=
  let size := kb.runlen * kb.fanin
  let q := e / size
  let ks := if e % size = 0 then { x.ks with pos := List.replicate kb.fanin 0, held := List.replicate kb.fanin [] } else x.ks
  (runHeads k m kb sln e (q * kb.fanin) ks.pos 0 kb.fanin s).bind fun hs s =>
    match leastHead m.fb hs.1 with
    | none => (raiseHeld hs.2 s).bind fun _ s => .ok x s
    | some (i, n, r) =>
      let prev := (ks.held[i]?).getD []
      let bad := orderTrap done (decide (prev ≠ []) && decide (elemKey m.fb r < keyValue prev)) (m.b.base n)
      (placesIf (!done) k m e s).bind fun ps s =>
        (raiseHeld (firstHeld [hs.2, bad]) s).bind fun _ s =>
          let ks := { ks with pos := ks.pos.set i ((ks.pos[i]?).getD 0 + 1), held := ks.held.set i (keyWords m.fb r), ocount := ks.ocount + 1 }
          let x := { x with ks := ks }
          .ok (if done then x else deliverAt k m e ps r (elemAmount m.fb r) x) s

/-- A keyed member that follows the key block. -/
def Member.keyed (m : Member) : Bool := decide (0x3C ≤ m.lop) && decide (m.lop ≤ 0x3E)

/-- SSORT form, which loads its runs (R302). -/
def Member.forms (m : Member) : Bool := decide (m.lop = 0x3E) && decide (m.fn = 0)

/-- An element of a keyed member. -/
def keyMember (k : Nat) (m : Member) (kb : KeyBlock) (sln e : Nat) (done : Bool) (x : ElemOut) (s : State) : Res ElemOut :=
  match m.lop with
  | 0x3C => smitre k m kb sln e done x s
  | 0x3D => sseg k m sln e done x s
  | _ => if m.fn = 0 then sortForm k m kb e done x s else sortMerge k m kb sln e done x s

end Sys2Proof.Machine
end

