-- ==== Sys2Proof/Machine/StreamRun.lean ====
section
/-! DEFINITION. Stream operations as they run (R244 to R262, R307, R312): start, element groups, chains across bents,
finish and stop. -/

namespace Sys2Proof.Machine

/-- The started operation at the head of core k's queue. -/
def headOp (s : State) (k : Nat) : Option StreamOp :=
  match (s.core k).ops with
  | o :: _ => if o.st = .queued then none else some o
  | [] => none

/-- Replace the operation at the head of core k's queue. -/
def setHead (k : Nat) (o : StreamOp) (s : State) : State := s.setCore k { s.core k with ops := o :: (s.core k).ops.tail }

/-- R242: the groups of an operation. -/
def StreamOp.groups (o : StreamOp) : Nat := (o.sln + 63) / 64

/-- R246, R258: the operation at the head has finished; its writes are unordered until a FENCE S (R265). -/
def finishHead (k : Nat) (o : StreamOp) (s : State) : State :=
  let s := noteCounts k o s
  let c := s.core k
  s.setCore k { c with ops := c.ops.tail, sprog := BitVec.ofNat 40 o.groups, sdone := 0, past := c.past ++ o.wrote }

/-! ### Chains across bents (R132, R253 to R255) -/

/-- What is at the other end of a linked port: the core whose operation uses it; nothing yet; or a member whose core has committed
another context (R132). -/
inductive Peer where
  | core (k : Nat)
  | hold
  | broken
  deriving DecidableEq, Repr

/-- The peer at a port of a share: the started operation of either core of its bent that uses the port. -/
def peerAt (s : State) (sh : Option Share) (uses : Member → Bool) : Peer :=
  match sh with
  | some (.on l) =>
    ([2 * l, 2 * l + 1].findSome? (fun k => (headOp s k).bind (fun o =>
      if o.members.any uses then some (if o.left then Peer.broken else .core k) else none))).getD .hold
  | _ => .hold

/-- Whether an operation uses an outbound or an inbound port. -/
def StreamOp.uses (o : StreamOp) (out : Bool) (p : Nat) : Bool := o.members.any (fun m => if out then m.sends p else m.receives p)

/-- An operation that is part of a chain across bents. -/
def StreamOp.ported (o : StreamOp) : Bool := [0, 1].any (fun p => o.uses true p || o.uses false p)

/-- The peers of core k's operation. -/
def peersOf (s : State) (k : Nat) : List Peer :=
  match headOp s k, shareOf s (k / 2) with
  | some o, some (j, i) =>
    (match s.job j with
     | some job =>
       [0, 1].flatMap (fun p =>
         (if o.uses true p then (match linkTo job.chain i p with
           | some (i', q) => [peerAt s job.shares[i']? (fun m => m.receives q)]
           | none => []) else [])
         ++ (if o.uses false p then (match linkFrom job.chain i p with
           | some (i', q) => [peerAt s job.shares[i']? (fun m => m.sends q)]
           | none => []) else []))
     | none => [])
  | _, _ => []

/-- The cores whose operations advance together, and whether one of them has to wait or can never go on. -/
structure Gang where
  cores : List Nat
  hold : Bool
  broken : Bool

/-- The operation at the head of core k's queue can advance. -/
def advances (s : State) (k : Nat) : Bool :=
  match headOp s k with
  | some o => decide (o.st = .running) && o.trap.isNone
  | none => false

/-- Follow the links from a list of cores. -/
def gather (s : State) : Nat → List Nat → Gang → Gang
  | 0, _, g => g
  | _ + 1, [], g => g
  | n + 1, k :: ks, g =>
    if g.cores.contains k then gather s n ks g
    else
      let ps := peersOf s k
      gather s n (ks ++ ps.filterMap (fun p => match p with | .core k' => some k' | _ => none))
        { cores := g.cores ++ [k], hold := g.hold || !advances s k || ps.contains .hold, broken := g.broken || ps.contains .broken }

/-- The gang of core k's operation. -/
def gangOf (s : State) (k : Nat) : Gang := gather s 256 [k] { cores := [], hold := false, broken := false }

/-- R132, R226: a member of the gang has stopped: on its own fault, or with its core. -/
def memberStopped (s : State) (ks : List Nat) : Bool :=
  ks.any (fun k => (headOp s k).any (fun o => decide (o.st = .suspended) || (decide (o.st = .stopped) && decide ((s.core k).run = .stopped))))

/-- R132, R255: the members of a gang that run stop and hold, each with the progress of the chain. -/
def holdGang (ks : List Nat) (s : State) : State := ks.foldl (fun s k => if advances s k then stopStream k s else s) s

/-- R254: the port an operation was using. -/
def StreamOp.portUsed (o : StreamOp) : Nat := if o.uses true 0 || o.uses false 0 then 4 else 5

/-- R254: CHAIN_BROKEN at each of the cores; not at one that has a fault of its own, or whose own commit broke the chain (R132). -/
def breakChain (ks : List Nat) (s : State) : State :=
  ks.foldl (fun s k => match headOp s k with
    | some o => if o.left || o.trap.isSome then s else setHead k { o with trap := some (trapOf 20 0 o.portUsed) } s
    | none => s) s

/-! ### Start and finish (R242, R246, R258) -/

/-- The pipe classes an operation holds. -/
def StreamOp.pipes (o : StreamOp) : List Nat := o.members.map (fun m => pipeClass m.lop)

/-- R200, R246: with other operations of the bent running, every pipe o needs is free: 2 L, 1 P, 1 K. -/
def pipesFree (o : StreamOp) (held : List Nat) : Bool :=
  let n := fun (c : Nat) (l : List Nat) => (l.filter (fun d => decide (d = c))).length
  decide (n 0 o.pipes + n 0 held ≤ 2) && decide (n 1 o.pipes + n 1 held ≤ 1) && decide (n 2 o.pipes + n 2 held ≤ 1)

/-- The other core of the bent. -/
def otherCore (k : Nat) : Nat := k / 2 * 2 + (k + 1) % 2

/-- Pipes that the other core of the bent holds. -/
def heldPipes (k : Nat) (s : State) : List Nat :=
  (s.core (otherCore k)).ops.flatMap (fun o => if o.st = .running then o.pipes else [])

/-- R246: the operation waiting at the head of core k's queue finds its pipes free. -/
def startable (k : Nat) (s : State) : Bool :=
  match (s.core k).ops with
  | o :: _ => decide (o.st = .queued) && decide ((s.core k).run ≠ .stopped) && pipesFree o (heldPipes k s)
  | [] => false

/-- R247: in split execution the other core's operation waits for its turn. -/
def othersTurn (k : Nat) (s : State) : Bool := s.split k && decide ((s.bent (k / 2)).lastOp = decide (k % 2 = 1)) && startable (otherCore k) s

/-- Core k's operation starts, or goes on after a stop. -/
def beginHead (k : Nat) (o : StreamOp) (s : State) : State :=
  setHead k { o with st := .running } (s.setBent (k / 2) { s.bent (k / 2) with lastOp := decide (k % 2 = 1) })

/-- R132, R242, R246, R259: the operation at the head starts: one queued, or one that a stop elsewhere in its chain has held and that can go
on. With SLN 0 it finishes as it starts, unless it is part of a chain across bents, whose lengths must agree (DEDUCED, assumption 38). -/
def execStreamStart (k : CoreIx) (s : State) : Host.Outcome State Fault Refusal :=
  match (s.core k).ops with
  | o :: _ =>
    if o.st = .stopped ∧ o.trap = none ∧ (s.core k).run ≠ .stopped ∧ pipesFree o (heldPipes k s) = true ∧ memberStopped s (gangOf s k).cores = false then
      .next (setHead k { o with st := .running } s)
    else if startable k s = true ∧ othersTurn k s = false then
      if o.sln = 0 ∧ o.ported = false then .next (finishHead k o (beginHead k o s)) else .next (beginHead k o s)
    else .next s
  | [] => .next s

/-- R254: one sub-chain is in its final group, or past it, and another is not (DEDUCED, assumption 38). -/
def unequal (s : State) (ks : List Nat) : Bool :=
  let left := (ks.filterMap (headOp s)).map (fun o => o.groups - o.prog)
  (left.any (fun n => decide (n ≤ 1)) && left.any (fun n => decide (1 < n))) || (left.contains 0 && left.any (fun n => decide (n ≠ 0)))

/-- R246, R258: an operation with every group written finishes; one of no elements in a chain across bents once its chain agrees (R254). -/
def execStreamFinish (k : CoreIx) (s : State) : Host.Outcome State Fault Refusal :=
  match headOp s k with
  | some o =>
    if o.st = .running ∧ o.trap = none ∧ o.groups ≤ o.prog then
      let g := gangOf s k
      if o.sln ≠ 0 ∨ o.ported = false then .next (finishHead k o s)
      else if g.broken then .next (breakChain g.cores s)
      else if g.hold then .next s
      else if unequal s g.cores then .next (breakChain g.cores s)
      else .next (g.cores.foldl (fun s k => (headOp s k).elim s (fun o => finishHead k o s)) s)
    else .next s
  | none => .next s

/-- R132, R226, R255, R260: an operation with a faulting element stops at its group, suspended for its trap; the other members of its
chain hold at the same group. -/
def execStreamStop (k : CoreIx) (s : State) : Host.Outcome State Fault Refusal :=
  match headOp s k with
  | some o => if o.stops ∧ o.trap.isSome = true then .next (stopStream k (holdGang (gangOf s k).cores s)) else .next s
  | none => .next s

/-! ### One element through every member (R252, R261) -/

/-- An operation as it advances: its core, and for each inbound port the place of the sender in the list and its port. -/
structure Strand where
  k : Nat
  op : StreamOp
  feeds : List (Nat × Nat × Nat)

/-- The strands of a gang. -/
def strandsOf (s : State) (ks : List Nat) : List Strand :=
  ks.filterMap (fun k => (headOp s k).map (fun o =>
    let feeds := match shareOf s (k / 2) with
      | some (j, i) =>
        (match s.job j with
         | some job => [0, 1].filterMap (fun q => match linkFrom job.chain i q with
             | some (i', p) =>
               (match job.shares[i']? with
                | some (.on l) => (ks.findIdx? (fun k' => decide (k' / 2 = l) && (match headOp s k' with | some o' => o'.uses true p | none => false))).map (fun n => (q, n, p))
                | _ => none)
             | none => none)
         | none => [])
      | none => []
    { k := k, op := o, feeds := feeds }))

/-- The element of group SPROG at index i. -/
def StreamOp.elem (o : StreamOp) (i : Nat) : Nat := 64 * o.prog + i

/-- Element i of the group is there and not done. -/
def StreamOp.toDo (o : StreamOp) (i : Nat) : Bool := decide (o.elem i < o.sln) && !bitAt o.done i

/-- The words that have crossed to a strand's inbound ports. -/
def arrivedWords (st : Strand) (xs : List ElemOut) : List (Nat × List Word) :=
  st.feeds.filterMap (fun f => (xs[f.2.1]?).bind (fun x => (x.ports.find? (fun y => decide (y.1 = f.2.2))).map (fun y => (f.1, y.2))))

/-- The inputs of a member are there: its slots are written and its ports have received; a sender past its SLN, or whose element
is done, sends nothing. -/
def inputsReady (sts : List Strand) (xs : List ElemOut) (i n : Nat) (m : Member) : Bool :=
  match sts[n]?, xs[n]? with
  | some st, some x =>
    m.reads.all (fun c => x.slots.any (fun y => decide (y.1 = c))) &&
      [0, 1].all (fun q => !m.receives q ||
        match st.feeds.find? (fun f => decide (f.1 = q)) with
        | some f => (arrivedWords st xs).any (fun y => decide (y.1 = q)) || (match sts[f.2.1]? with | some t => !t.op.toDo i | none => true)
        | none => true)
  | _, _ => false

/-- One member of a strand at element index i. -/
def runMember (st : Strand) (i : Nat) (m : Member) (inp : List (Nat × List Word)) (x : ElemOut) (s : State) : Res ElemOut :=
  let e := st.op.elem i
  let s := fetchFor (st.k / 2) s
  match st.op.key with
  | some kb => if m.keyed then keyMember st.k m kb st.op.sln e (bitAt st.op.done i) x s else simpleMember st.k st.op m e inp x s
  | none => simpleMember st.k st.op m e inp x s

/-- The first member that can run now, and the rest. -/
def pickReady (sts : List Strand) (xs : List ElemOut) (i : Nat) : List (Nat × Member) → Option ((Nat × Member) × List (Nat × Member))
  | [] => none
  | w :: ws => if inputsReady sts xs i w.1 w.2 then some (w, ws) else (pickReady sts xs i ws).map (fun r => (r.1, w :: r.2))

/-- What a part of one element comes to: a value for each strand; the strand whose member faulted; or it waits. -/
inductive ElemRes (α : Type) where
  | ok (xs : List α) (s : State)
  | trap (n : Nat) (t : Trap) (s : State)
  | stall (s : State)

/-- R252, R262: run the members of one element, in issue order within an operation. -/
def runElem (sts : List Strand) (i : Nat) : Nat → List (Nat × Member) → List ElemOut → State → ElemRes ElemOut
  | 0, _, xs, s => .ok xs s
  | _ + 1, [], xs, s => .ok xs s
  | fuel + 1, ws, xs, s =>
    match pickReady sts xs i ws with
    | none => .stall s
    | some ((n, m), rest) =>
      match sts[n]?, xs[n]? with
      | some st, some x =>
        (match runMember st i m (arrivedWords st xs) x s with
         | .ok x' s => runElem sts i fuel rest (xs.set n x') s
         | .trap t s => .trap n t s
         | .stall s => .stall s)
      | _, _ => .ok xs s

/-! ### Writing an element (R131, R164, R252, R312) -/

/-- R312: add the seal amounts of an element; the seal that would leave its range. -/
def addSeals (k : Nat) : List (Nat × Int) → State → Except Nat State
  | [], s => .ok s
  | (n, v) :: r, s =>
    let c := s.core k
    let t := c.sealAt n + v
    if sealInRange t then addSeals k r (s.setCore k { c with seals := tset 0 c.seals n t }) else .error n

/-- R164: the lines of bent l's data cache that hold the words. -/
def dropLines (l : Nat) (ws : List (Place × Word)) (s : State) : State :=
  let b := s.bent l
  let bs := blocksOf ws
  s.setBent l { b with dcache := tdrop (fun n => bs.contains n) b.dcache }

/-- R265: an earlier write of this core to virtual word v, which no FENCE S has ordered. -/
def Past.holds (p : Past) (ctx v : Nat) : Bool := decide (p.ctx = ctx) && !(holders p.base p.stride p.w p.n v).isEmpty

/-- R265: a write to a word of an unordered earlier write leaves either value in it. -/
def lasting (w : ElemWrite) (s : State) : List (Place × Word) :=
  (w.ws.zipIdx.filter (fun x =>
    let v := (w.v + x.2) % 2 ^ 40
    !((s.core w.k).past.any (fun p => p.holds w.ctx v) && Config.freeBit s.draw v))).map Prod.fst

/-- R131, R265: one write of an element. -/
def putOne (w : ElemWrite) (s : State) : State :=
  if (s.core w.k).past = [] then dropLines (w.k / 2) w.ws (writePlaces (w.k / 2) w.ws s)
  else dropLines (w.k / 2) w.ws (writePlaces (w.k / 2) (lasting w s) s.drawn)

/-- R131: the writes of an element. -/
def putElem (ws : List ElemWrite) (s : State) : State := ws.foldl (fun s w => putOne w s) s

/-- R312: the member that names a seal. -/
def sealMember (o : StreamOp) (n : Nat) : Option Member := (o.members.find? (fun m => decide (m.sealNo = n))).orElse (fun _ => o.members.find? Member.keyed)

/-- The seals of every strand at element i, or the strand and trap of the first that overflows. -/
def sealAll (i : Nat) : Nat → List (Strand × ElemOut) → State → Except (Nat × Trap) State
  | _, [], s => .ok s
  | n, (st, x) :: r, s =>
    if bitAt st.op.done i then sealAll i (n + 1) r s
    else match addSeals st.k x.seals s with
      | .ok s => sealAll i (n + 1) r s
      | .error q => .error (n, trapOf 6 (((sealMember st.op q).map (fun m => decimalAddr m (st.op.elem i))).getD 0) 0)

/-- R252, R257: the writes of one strand's element; the words they replace are kept where its own elements read them. -/
def putStrand (i : Nat) (st : Strand) (x : ElemOut) (s : State) : Strand × State :=
  if bitAt st.op.done i then (st, s) else ({ st with op := st.op.keepOlds x.writes s }, putElem x.writes s)

/-- The writes of every strand's element. -/
def putAll (i : Nat) : List (Strand × ElemOut) → State → List Strand × State
  | [], s => ([], s)
  | (st, x) :: r, s =>
    let (st, s) := putStrand i st x s
    let (sts, s) := putAll i r s
    (st :: sts, s)

/-- R252: the element is done: its words are written and its amounts added; none of either where a seal overflows. -/
def commitElem (i : Nat) (zs : List (Strand × ElemOut)) (s : State) : Except (Nat × Trap) (List Strand × State) :=
  match sealAll i 0 zs s with
  | .error e => .error e
  | .ok s => .ok (putAll i zs s)

/-! ### Errors on the way (R97, R98) -/

/-- The error of a cell that an upset meets. -/
def upsetCell (u : Upset) (old : Cell) : Cell := if u.double || decide (old ≠ .good) then .double else .single

/-- R97: an error comes into a stored word or a cached line of bent l. -/
def upset (l : Nat) (u : Upset) (s : State) : State :=
  let b := s.bent l
  let hit := fun (t : Tbl Cell) (n : Nat) => tset .good t n (upsetCell u (tget .good t n))
  s.setBent l (match u.where_ with
    | .bench w => { b with bad := hit b.bad w }
    | .vreg w => { b with vBad := hit b.vBad w }
    | .slot n => { b with slotBad := hit b.slotBad n }
    | .dline n => if tget [] b.dcache n = [] then b else { b with dBad := hit b.dBad n }
    | .iline n => if tget false b.icache n then { b with iBad := hit b.iBad n } else b)

/-- The address of a place in the log: a local word address or a window address; 0 for the host (DESIGN CHOICE, assumption 68). -/
def Place.logAddr : Place → Nat
  | .dev a => localOf a
  | .yard w => 0xFFFC000000 + w
  | .bench w => 0xFFFFF80000 + w
  | .host _ => 0

/-- R95, R97: the place is a bench or yard word. -/
def Place.isSram : Place → Bool
  | .yard _ => true
  | .bench _ => true
  | _ => false

/-- R98: a port asks again for a word; the second copy may fail too. -/
def portLog (k : Nat) (twice : Bool) (a : Nat) (s : State) : State :=
  let p := s.physOf (k / 2)
  let s := logErr false 0x0012 0 p a 0 0 (countErr 4 s)
  if twice then logErr true 0x0013 0 p a 0 0 s else s

/-- The first address from which a member reads memory at element e. -/
def Member.source (m : Member) (e : Nat) : Option Nat := (m.b.at_ e).orElse (fun _ => m.c.at_ e)

/-- R98: the first word that the pipe reads in this group: element index, member, address. -/
def firstRead (o : StreamOp) : Option (Nat × Member × Nat) :=
  (List.range 64).findSome? (fun i => if o.toDo i then o.members.findSome? (fun m => (m.source (o.elem i)).map (fun v => (i, m, v))) else none)

/-- R98: the first word read reaches the pipe with bad parity: the element to which it is delivered as poisoned. -/
def portRead (k : Nat) (o : StreamOp) (twice : Bool) (s : State) : Option (Nat × Trap) × State :=
  match firstRead o with
  | none => (none, s)
  | some (i, m, v) =>
    match xlate (.core k) m.xl .read v 1 s with
    | .ok (p :: _) s =>
      (if twice then some (i, poisonTrap .read v p.isSram (match p with | .host _ => true | _ => false)) else none, portLog k twice p.logAddr s)
    | .ok [] s => (none, s)
    | .trap _ s => (none, s)
    | .stall s => (none, s)

/-- R98: the first word written reaches its memory with bad parity. -/
def portWrite (k : Nat) (twice : Bool) (p : Place) (s : State) : State :=
  let s := portLog k twice p.logAddr s
  if !twice then s
  else match p with
    | .dev a => if isLocal s a then setPoison (localOf a / 64) true s else s
    | .yard w => { s with mem := { s.mem with yardBad := tset .good s.mem.yardBad w .double } }
    | .bench w => s.setBent (k / 2) { s.bent (k / 2) with bad := tset .good (s.bent (k / 2)).bad w .double }
    | .host _ => s

/-! ### One group (R244, R260, R262, R307) -/

/-- A group as it runs: its strands and their key states, the done bits, the lowest fault (index, strand, trap) and the lowest
stall; the element that a port's bad read reaches, and the core whose port's first write is bad (R98). -/
structure GroupRun where
  s : State
  sts : List Strand
  ks : List KeyState
  done : Nat
  fault : Option (Nat × Nat × Trap)
  stall : Option Nat
  bad : Option (Nat × Trap)
  badWrite : Option (Nat × Bool)

/-- The members to run at element i: of a done element only the keyed ones, which consume (R307). -/
def worklist (sts : List Strand) (i : Nat) : List (Nat × Member) :=
  sts.zipIdx.flatMap (fun e =>
    if e.1.op.sln ≤ e.1.op.elem i then []
    else (e.1.op.members.filter (fun m => !bitAt e.1.op.done i || m.keyed)).map (fun m => (e.2, m)))

/-- R302: SSORT form has the run of element i loaded before it writes a record. -/
def loadFor (i : Nat) (st : Strand) (ks : KeyState) (s : State) : Res KeyState :=
  match st.op.members.find? Member.forms, st.op.key with
  | some m, some kb => if st.op.toDo i then loadRun st.k m kb st.op.sln (st.op.elem i) (st.op.elem i / kb.runlen) ks (fetchFor (st.k / 2) s) else .ok ks s
  | _, _ => .ok ks s

/-- The runs of every strand at element i. -/
def loadAll (i : Nat) : Nat → List (Strand × KeyState) → State → ElemRes KeyState
  | _, [], s => .ok [] s
  | n, (st, ks) :: r, s =>
    match loadFor i st ks s with
    | .trap t s => .trap n t s
    | .stall s => .stall s
    | .ok ks s =>
      match loadAll i (n + 1) r s with
      | .ok kss s => .ok (ks :: kss) s
      | e => e

/-- The group meets a fault at element i. -/
def GroupRun.faulted (g : GroupRun) (i n : Nat) (t : Trap) (s : State) : GroupRun :=
  { g with s := s, fault := g.fault.orElse (fun _ => some (i, n, elemTrap t i)) }

/-- The group waits at element i. -/
def GroupRun.stalled (g : GroupRun) (i : Nat) (s : State) : GroupRun := { g with s := s, stall := g.stall.orElse (fun _ => some i) }

/-- R98: a bad write, once the pipe of that core has written a word. -/
def GroupRun.wrote (g : GroupRun) (ws : List ElemWrite) : GroupRun :=
  match g.badWrite with
  | none => g
  | some (k, twice) =>
    match (ws.filter (fun w => decide (w.k = k))).findSome? (fun w => w.ws.head?) with
    | some x => { g with s := portWrite k twice x.1 g.s, badWrite := none }
    | none => g

/-- R252: element i, its runs loaded. -/
def groupBody (g : GroupRun) (i : Nat) : GroupRun :=
  let ws := worklist g.sts i
  let xs := g.ks.map (fun k => ({ slots := [], ports := [], writes := [], seals := [], ks := k } : ElemOut))
  match runElem g.sts i (ws.length + 1) ws xs g.s with
  | .stall s => g.stalled i s
  | .trap n t s => g.faulted i n t s
  | .ok xs s =>
    match commitElem i (g.sts.zip xs) s with
    | .error (n, t) => g.faulted i n t s
    | .ok (sts, s) => { g with s := s, sts := sts, done := g.done ||| 2 ^ i, ks := xs.map ElemOut.ks }.wrote (xs.flatMap ElemOut.writes)

/-- R262: element i of the group. -/
def groupElem (keyed : Bool) (g : GroupRun) (i : Nat) : GroupRun :=
  if keyed && (g.fault.isSome || g.stall.isSome) then g
  else match g.bad.bind (fun b => if b.1 = i then some b.2 else none) with
    | some t => g.faulted i 0 t g.s
    | none =>
      match loadAll i 0 (g.sts.zip g.ks) g.s with
      | .stall s => g.stalled i s
      | .trap n t s => g.faulted i n t s
      | .ok ks s => groupBody { g with s := s, ks := ks } i

/-- R307: what an operation holds at a group it has not completed: SSORT form the run it has loaded, any other the state
at the group's start. -/
def heldState (st : Strand) (ks : KeyState) : KeyState :=
  if st.op.members.any Member.forms then { ks with ocount := st.op.ks.ocount } else st.op.ks

/-- R258, R260, R262: the group's end: complete, faulted, or waiting for a host page. -/
def endGroup (g : GroupRun) : State :=
  let report : Option (Nat × Trap) := match g.fault, g.stall with
    | some (i, n, t), some j => if i < j then some (n, t) else none
    | some (_, n, t), none => some (n, t)
    | none, _ => none
  (g.sts.zip g.ks).zipIdx.foldl (fun s e =>
    let st := e.1.1
    let o := st.op
    if g.fault.isNone ∧ g.stall.isNone then setHead st.k { o with prog := o.prog + 1, done := 0, ks := e.1.2 } s
    else setHead st.k { o with done := o.done ||| BitVec.ofNat 64 g.done, ks := heldState st e.1.2,
                               trap := match report with | some (n, t) => if n = e.2 then some t else none | none => none } s) g.s

/-- R244, R310: run group SPROG of the gang, whose first core's pipes may meet a port error (R98). Each bent fetches a block once. -/
def runGroup (ks : List Nat) (port : Option PortError) (s : State) : State :=
  let sts := strandsOf s ks
  let keyed := sts.any (fun st => st.op.members.any Member.keyed)
  let n := sts.foldl (fun n st => max n (min 64 (st.op.sln - 64 * st.op.prog))) 0
  let k := ks.headD 0
  let (bad, s) := match port, headOp s k with
    | some e, some o => if e.write then (none, s) else portRead k o e.twice s
    | _, _ => (none, s)
  let badWrite := port.bind (fun e => if e.write then some (k, e.twice) else none)
  closeFetch (endGroup ((List.range n).foldl (groupElem keyed)
    { s := openFetch s.drawn, sts := sts, ks := sts.map (fun st => st.op.ks), done := 0, fault := none, stall := none, bad := bad, badWrite := badWrite }))

/-- R100: the replays of a group or instruction whose residue check fails n times. -/
def replays (k : Nat) : Nat → State → State
  | 0, s => s
  | n + 1, s => let p := s.physOf (k / 2); replays k n (logErr false 0x0014 0 p 0 0 0 (countPair p 4 (countErr 5 s)))

/-- R100: with the residue checks that fail, the pipes of core k's bent replay, and at the third failure write nothing and are lost. -/
def checkResidue (k : Nat) (fails : Fin 4) (run : State → State) (s : State) : State :=
  let s := replays k (min 2 fails.val) s
  if fails.val = 3 then retireBent (k / 2) 4 (logErr true 0x0015 0 (s.physOf (k / 2)) 0 0 0 s) else run s

/-- R132, R244, R254: the chain of core k's operation advances a group, waits, or breaks. -/
def advanceGang (k : CoreIx) (o : StreamOp) (fails : Fin 4) (port : Option PortError) (s : State) : State :=
  let g := gangOf s k
  if g.broken then breakChain g.cores s
  else if g.hold then (if memberStopped s g.cores then holdGang g.cores s else s)
  else if unequal s g.cores then breakChain g.cores s
  else if o.groups ≤ o.prog then s
  else checkResidue k fails (runGroup g.cores port) s

/-- R97, R98, R100, R244: the pipes of core k's bent complete an element group; the errors of hits come into the bent's memories before it. -/
def execElementGroup (k : CoreIx) (ev : GroupEvents) (s : State) : Host.Outcome State Fault Refusal :=
  let s := ev.hits.foldl (fun s u => upset (k / 2) u s) s
  match headOp s k with
  | some o => if (o.st = .running ∨ o.st = .stopped) ∧ o.trap = none then .next (advanceGang k o ev.fails ev.port s) else .next s
  | none => .next s

end Sys2Proof.Machine
end

