-- ==== Sys2Proof/Machine/VectorIssue.lean ====
section
/-! DEFINITION. Issue of vector instructions (R201, R318 to R326, R333, R341, R564). -/

namespace Sys2Proof.Machine

/-- What issue needs of one vector instruction: its named register numbers, the high bits of word 1 and its formats. -/
structure VecIssue where
  lop : Nat
  fn : Nat
  w1 : Word
  ah : Bool
  bh : Bool
  ch : Bool
  f : Parsed
  fb : Parsed
  fc : Parsed
  op : VecOp

/-- R237, R326: the own instructions, whose sources take D14 and D15. -/
def vecOwn (lop : Nat) : Bool := decide (0x29 ≤ lop) && decide (lop ≤ 0x2B)

/-- R322: a register number of five bits. -/
def regNo (high : Bool) (x : Reg) : Nat := x.toNat + if high then 16 else 0

/-- R322, R319, R329: the fields of an instruction, what it takes at issue, and its registers counted in the bent (R318). -/
def readVec (k lop fn : Nat) (xa xb xc : Reg) (w1 : Word) (s : State) : VecIssue :=
  let a := s.arch k
  let f := parseFmt k (bitsOf w1 0 9) s
  let fb := if vecOwn lop then parseOwn k 14 s else f
  let fc := if vecOwn lop then parseOwn k 15 s else f
  let up := s.split k && decide (k % 2 = 1)
  let pick := fun (pred high : Bool) (x : Reg) => if pred then x.toNat + (if up then 4 else 0) else regNo high x + if up then 16 else 0
  let predA := decide (lop = 0x26) || decide (lop = 0x2B) || (decide (lop = 0x2C) && decide (fn ≠ 7))
  let predBC := decide (lop = 0x2C)
  { lop := lop, fn := fn, w1 := w1, ah := bitAt w1 19, bh := bitAt w1 18, ch := bitAt w1 17, f := f, fb := fb, fc := fc,
    op := { lop := lop, fn := fn, xa := pick predA (bitAt w1 19) xa, xb := pick predBC (bitAt w1 18) xb, xc := pick predBC (bitAt w1 17) xc,
            base := rdA k xb 0 s, stride := rdS k xb s, scalar := rdD k xb 1 s,
            pr := bitsOf w1 14 3 + (if up then 4 else 0), pm := bitAt w1 13, pz := bitAt w1 12, fd := f.fmt, fb := fb.fmt, fc := fc.fmt,
            vcnt := a.vgrp.toNat / 512, g := 2 ^ bitsOf a.vgrp 0 2, xl := coreXl k a.pl.toNat s,
            start := 0, done := 0, again := false, st := .queued, trap := none, frame := none } }

/-- R158, R173, R325, R326, R329: an encoding fault. -/
def vecIllegal (k : Nat) (i : VecIssue) (xc : Reg) (s : State) : Bool :=
  let oneSource := decide (i.lop = 0x20) || decide (i.lop = 0x21) || (decide (i.lop = 0x28) && decide (i.fn = 0)) || (decide (i.lop = 0x27) && decide (i.fn = 4))
  (s.arch k).compat || !longAssigned i.lop i.fn 0 || i.f.illegal || (oneSource && (decide (xc ≠ 0) || i.ch)) ||
    (decide (i.lop = 0x2C) && (bitAt i.w1 13 || bitAt i.w1 12 || decide (bitsOf i.w1 0 9 ≠ 0) || (decide (i.fn = 4) && decide (xc ≠ 0))))

/-- R323, R326, R327: the TYPEs an instruction allows. -/
def vecTypesOk (i : VecIssue) : Bool :=
  match i.lop with
  | 0x24 | 0x25 | 0x26 | 0x2D => decide (i.f.typ ≤ 1)
  | 0x27 => decide (i.f.typ = 0)
  | 0x28 => decide (i.f.typ = 1)
  | 0x29 | 0x2A => decide (i.f.typ = 1) && decide (i.fb.typ = 1) && decide (i.fc.typ = 1)
  | 0x2B => decide (i.f.typ = 0) && decide (2 ≤ i.fb.typ) && decide (2 ≤ i.fc.typ)
  | 0x2E => decide (i.f.typ ≠ 3)
  | _ => true

/-- R329: the index width. -/
def indexWidth (lop fn : Nat) : Nat := if lop = 0x2E ∨ fn = 0 then 1 else 2

/-- The instruction has an index group. -/
def hasIndex (lop : Nat) : Bool := decide (lop = 0x22) || decide (lop = 0x23) || decide (lop = 0x2E)

/-- R318, R323: which of the fields XA, XB, XC name vector registers. -/
def vecFields (i : VecIssue) : Bool × Bool × Bool :=
  (i.op.writesV || i.op.readsA, i.op.readsB, i.op.readsC)

/-- R323: which of the fields name predicate registers. -/
def predFields (lop fn : Nat) : Bool × Bool × Bool :=
  if lop = 0x26 ∨ lop = 0x2B then (true, false, false)
  else if lop = 0x2C then (decide (fn ≠ 7), decide (1 ≤ fn) && decide (fn ≤ 4) || decide (fn = 7), decide (1 ≤ fn) && decide (fn ≤ 3))
  else (false, false, false)

/-- R323: which of the fields name an A, S or D register or a seal. -/
def otherFields (lop fn : Nat) : Bool × Bool × Bool :=
  (decide (lop = 0x2D) && decide (3 ≤ fn) || decide (lop = 0x2C) && decide (fn = 7),
   decide (lop ≤ 0x23) || decide (lop = 0x2E) || decide (lop = 0x2C) && (decide (fn = 0) || decide (fn = 5) || decide (fn = 6)),
   false)

/-- R318, R323: VOPERAND (DEDUCED, assumption 39). -/
def vecOperandBad (k : Nat) (i : VecIssue) (xa xb xc : Reg) (s : State) : Bool :=
  let v := vecFields i
  let p := predFields i.lop i.fn
  let o := otherFields i.lop i.fn
  let sp := s.split k
  let bad := fun (v p o h : Bool) (x : Reg) =>
    (h && (p || o)) || (p && (bitAt x 3 || (sp && decide (4 ≤ x.toNat)))) || (v && sp && h)
  bad v.1 p.1 o.1 i.ah xa || bad v.2.1 p.2.1 o.2.1 i.bh xb || bad v.2.2 p.2.2 o.2.2 i.ch xc ||
    (!i.op.pm && decide (bitsOf i.w1 14 3 ≠ 0)) || (i.op.pm && sp && decide (4 ≤ bitsOf i.w1 14 3)) || (i.op.pz && !i.op.writesV)

/-- R320: the groups an instruction names, with their words an element. -/
def vecGroups (i : VecIssue) : List (Nat × Nat) :=
  let o := i.op
  (if o.writesV || o.readsA then [(o.xa, o.fd.len)] else []) ++ (if o.readsB then [(o.xb, o.fb.len)] else [])
    ++ (if o.readsC then [(o.xc, if hasIndex i.lop then indexWidth i.lop i.fn else o.fc.len)] else [])

/-- R249, R263, R341: whether STREAM_CONFIG subcode n holds. -/
def vecHolds (k : Nat) (i : VecIssue) (xa xb xc : Reg) (s : State) (n : Nat) : Bool :=
  let o := i.op
  match n with
  | 1 => i.f.range || (vecOwn i.lop && (i.fb.range || i.fc.range))
  | 2 => !vecTypesOk i
  | 3 => decide (i.lop = 0x2B) && decide ((i.fb.fmt.keyField).2 ≠ (i.fc.fmt.keyField).2)
  | 6 => decide (i.lop = 0x2D) && decide (3 ≤ i.fn) && (decide (xa = 0) || decide (9 ≤ xa.toNat))
  | 7 => (s.core k).vops.any (fun o => decide (o.st = .suspended))
  | 12 => !(s.core k).chain.isEmpty
  | 16 => decide (1024 < o.vcnt) || (vecGroups i).any (fun g => decide (128 * o.g < o.vcnt * g.2))
  | 17 => (vecGroups i).any (fun g => decide (g.1 % o.g ≠ 0))
  | 18 => vecOperandBad k i xa xb xc s
  | 19 => hasIndex i.lop && decide (o.xa = o.xc) && decide (indexWidth i.lop i.fn ≠ o.fd.len)
  | 20 => decide (i.lop = 0x2D) && decide (3 ≤ i.fn) && decide (i.f.typ = 0)
  | _ => false

/-- R325: bits of a predicate among elements 0 to n - 1. -/
def countBelow (p : BitVec 1024) (n : Nat) : Nat := ((List.range n).filter (bitAt p)).length

/-- R336: what a finished instruction leaves in VSTART and VDONE. -/
def vecFinished (k vcnt : Nat) (s : State) : State :=
  s.setCore k { s.core k with vstart := BitVec.ofNat 20 vcnt, vdone := BitVec.ofNat 128 (2 ^ 128 - 1) }

/-- R183, R325, R333: PCNT holds the issue while the queue is full, an earlier instruction has not started or one that writes PXB has not
finished. -/
def pcnt (k : Nat) (xa : Reg) (o : VecOp) (s : State) : Res (Option W40) :=
  let es := (s.core k).vops
  if es.length ≥ queueRoom k s ∨ es.any (fun e => decide (e.st = .queued) || o.waitsFor e) then .stall s
  else goOn (vecFinished k o.vcnt (wrD k xa (BitVec.ofNat 20 (countBelow (tget 0 (s.bent (k / 2)).p o.xb) o.vcnt)) s))

/-- R333: an accepted instruction enters the vector queue; a full queue stalls the core. -/
def acceptVec (k : Nat) (o : VecOp) (s : State) : Res (Option W40) :=
  let c := s.core k
  if c.vops.length ≥ queueRoom k s then .stall s else goOn (s.setCore k { c with vops := c.vops ++ [o] })

/-- R201, R564: issue one vector instruction. -/
def issueVec (k lop fn : Nat) (xa xb xc : Reg) (w1 : Word) (s : State) : State :=
  issueAny true .sent k 2 (fun s =>
    let i := readVec k lop fn xa xb xc w1 s
    if vecIllegal k i xc s then illegal (encL lop xa xb xc) s
    else match (List.range 21).find? (vecHolds k i xa xb xc s) with
      | some n => .trap (configTrap (s.core k) n) s
      | none =>
        if (lop = 0x29 ∨ lop = 0x2A) ∧ fn = 7 then formatErr 3 s
        else if lop = 0x2C ∧ (fn = 5 ∨ fn = 6) ∧ i.op.base.toNat % 2 = 1 then .trap (formatTrap i.op.base.toNat 1) s
        else if lop = 0x2C ∧ fn = 7 then pcnt k xa i.op s
        else acceptVec k i.op s) s

def execVld (k : CoreIx) (xa xb xc : Reg) (w1 : Word) (s : State) : Host.Outcome State Fault Refusal := .next (issueVec k 0x20 (fnOf w1) xa xb xc w1 s)
def execVst (k : CoreIx) (xa xb xc : Reg) (w1 : Word) (s : State) : Host.Outcome State Fault Refusal := .next (issueVec k 0x21 (fnOf w1) xa xb xc w1 s)
def execVgath (k : CoreIx) (xa xb xc : Reg) (w1 : Word) (s : State) : Host.Outcome State Fault Refusal := .next (issueVec k 0x22 (fnOf w1) xa xb xc w1 s)
def execVscat (k : CoreIx) (xa xb xc : Reg) (w1 : Word) (s : State) : Host.Outcome State Fault Refusal := .next (issueVec k 0x23 (fnOf w1) xa xb xc w1 s)
def execVadd (k : CoreIx) (xa xb xc : Reg) (w1 : Word) (s : State) : Host.Outcome State Fault Refusal := .next (issueVec k 0x24 (fnOf w1) xa xb xc w1 s)
def execVsub (k : CoreIx) (xa xb xc : Reg) (w1 : Word) (s : State) : Host.Outcome State Fault Refusal := .next (issueVec k 0x25 (fnOf w1) xa xb xc w1 s)
def execVcmp (k : CoreIx) (xa xb xc : Reg) (w1 : Word) (s : State) : Host.Outcome State Fault Refusal := .next (issueVec k 0x26 (fnOf w1) xa xb xc w1 s)
def execVlog (k : CoreIx) (xa xb xc : Reg) (w1 : Word) (s : State) : Host.Outcome State Fault Refusal := .next (issueVec k 0x27 (fnOf w1) xa xb xc w1 s)
def execVnorm (k : CoreIx) (xa xb xc : Reg) (w1 : Word) (s : State) : Host.Outcome State Fault Refusal := .next (issueVec k 0x28 0 xa xb xc w1 s)
def execVnormAdd (k : CoreIx) (xa xb xc : Reg) (w1 : Word) (s : State) : Host.Outcome State Fault Refusal := .next (issueVec k 0x28 1 xa xb xc w1 s)
def execVmul (k : CoreIx) (xa xb xc : Reg) (w1 : Word) (s : State) : Host.Outcome State Fault Refusal := .next (issueVec k 0x29 (fnOf w1) xa xb xc w1 s)
def execVmac (k : CoreIx) (xa xb xc : Reg) (w1 : Word) (s : State) : Host.Outcome State Fault Refusal := .next (issueVec k 0x2A (fnOf w1) xa xb xc w1 s)
def execVkcmp (k : CoreIx) (xa xb xc : Reg) (w1 : Word) (s : State) : Host.Outcome State Fault Refusal := .next (issueVec k 0x2B (fnOf w1) xa xb xc w1 s)
def execPsetn (k : CoreIx) (xa xb xc : Reg) (w1 : Word) (s : State) : Host.Outcome State Fault Refusal := .next (issueVec k 0x2C 0 xa xb xc w1 s)
def execPand (k : CoreIx) (xa xb xc : Reg) (w1 : Word) (s : State) : Host.Outcome State Fault Refusal := .next (issueVec k 0x2C 1 xa xb xc w1 s)
def execPor (k : CoreIx) (xa xb xc : Reg) (w1 : Word) (s : State) : Host.Outcome State Fault Refusal := .next (issueVec k 0x2C 2 xa xb xc w1 s)
def execPandn (k : CoreIx) (xa xb xc : Reg) (w1 : Word) (s : State) : Host.Outcome State Fault Refusal := .next (issueVec k 0x2C 3 xa xb xc w1 s)
def execPnot (k : CoreIx) (xa xb xc : Reg) (w1 : Word) (s : State) : Host.Outcome State Fault Refusal := .next (issueVec k 0x2C 4 xa xb xc w1 s)
def execPld (k : CoreIx) (xa xb xc : Reg) (w1 : Word) (s : State) : Host.Outcome State Fault Refusal := .next (issueVec k 0x2C 5 xa xb xc w1 s)
def execPst (k : CoreIx) (xa xb xc : Reg) (w1 : Word) (s : State) : Host.Outcome State Fault Refusal := .next (issueVec k 0x2C 6 xa xb xc w1 s)
def execPcnt (k : CoreIx) (xa xb xc : Reg) (w1 : Word) (s : State) : Host.Outcome State Fault Refusal := .next (issueVec k 0x2C 7 xa xb xc w1 s)
def execVredSum (k : CoreIx) (xa xb xc : Reg) (w1 : Word) (s : State) : Host.Outcome State Fault Refusal := .next (issueVec k 0x2D 0 xa xb xc w1 s)
def execVredMin (k : CoreIx) (xa xb xc : Reg) (w1 : Word) (s : State) : Host.Outcome State Fault Refusal := .next (issueVec k 0x2D 1 xa xb xc w1 s)
def execVredMax (k : CoreIx) (xa xb xc : Reg) (w1 : Word) (s : State) : Host.Outcome State Fault Refusal := .next (issueVec k 0x2D 2 xa xb xc w1 s)
def execVredSealAdd (k : CoreIx) (xa xb xc : Reg) (w1 : Word) (s : State) : Host.Outcome State Fault Refusal := .next (issueVec k 0x2D 3 xa xb xc w1 s)
def execVredSealSubtract (k : CoreIx) (xa xb xc : Reg) (w1 : Word) (s : State) : Host.Outcome State Fault Refusal := .next (issueVec k 0x2D 4 xa xb xc w1 s)
def execVtbl (k : CoreIx) (xa xb xc : Reg) (w1 : Word) (s : State) : Host.Outcome State Fault Refusal := .next (issueVec k 0x2E (fnOf w1) xa xb xc w1 s)

end Sys2Proof.Machine
end

