-- ==== Sys2Proof/Machine/VectorRun.lean ====
section
/-! DEFINITION. Vector instructions as they run (R324 to R340): start, the work of each element, finish and stop. -/

namespace Sys2Proof.Machine

/-! ### Registers of the bent -/

/-- R320: words w of element e of the group from register r. -/
def vWords (k r w e : Nat) (s : State) : List Word := tgetMany 0 (s.bent (k / 2)).v (128 * r + e * w) w

/-- Write element e of the group from register r; a word written has good check bits (R97). -/
def putV (k r e : Nat) (ws : List Word) (s : State) : State :=
  let b := s.bent (k / 2)
  let i := 128 * r + e * ws.length
  s.setBent (k / 2) { b with v := tsetMany 0 b.v i ws, vBad := tdrop (fun n => decide (i ≤ n) && decide (n < i + ws.length)) b.vBad }

/-- R97: a vector register word as it is stored. -/
def vCell (s : State) (l n : Nat) : SramWord := { kind := 0, unit := s.physOf l, addr := 0, cell := tget .good (s.bent l).vBad n }

/-- R97: the corrected register word is written back. -/
def healV (l n : Nat) (s : State) : State := s.setBent l { s.bent l with vBad := terase (s.bent l).vBad n }

/-- R97: register words are read; a double-bit error traps, with the address of the element's memory operand (R337). -/
def checkV (l at_ : Nat) : List Nat → State → Res Unit
  | [], s => .ok () s
  | n :: ns, s =>
    match sramRead (vCell s l n) (healV l n) s with
    | (true, s) => checkV l at_ ns s
    | (false, s) => .trap (poisonTrap .read at_ true false) s

/-- R97, R320: element e of w words from register r is read. -/
def readV (k r w e at_ : Nat) (s : State) : Res (List Word) :=
  (checkV (k / 2) at_ ((List.range w).map (128 * r + e * w + ·)) s).bind fun _ s => .ok (vWords k r w e s) s

/-- Predicate register p of the bent of core k. -/
def predOf (k p : Nat) (s : State) : BitVec 1024 := tget 0 (s.bent (k / 2)).p p

/-- Write a predicate register. -/
def putP (k p : Nat) (v : BitVec 1024) (s : State) : State :=
  let b := s.bent (k / 2)
  s.setBent (k / 2) { b with p := tset 0 b.p p v }

/-- One bit of a predicate replaced. -/
def putBit (p : BitVec 1024) (e : Nat) (b : Bool) : BitVec 1024 :=
  BitVec.ofNat 1024 (p.toNat - (if bitAt p e then 2 ^ e else 0) + if b then 2 ^ e else 0)

/-- R324: element e is active. -/
def VecOp.active (o : VecOp) (k e : Nat) (s : State) : Bool := decide (e < o.vcnt) && (!o.pm || bitAt (predOf k o.pr s) e)

/-- R340: register word v of a source group of register r and w words an element is a destination word of an active element other than e, and the
groups are no exact alias. -/
def VecOp.mixed (o : VecOp) (k r w e v : Nat) (s : State) : Bool :=
  let wd := o.fd.len
  o.writesV && !(decide (r = o.xa) && decide (w = wd)) && decide (128 * o.xa ≤ v) && decide (v < 128 * o.xa + o.vcnt * wd) &&
    decide ((v - 128 * o.xa) / wd ≠ e) && o.active k ((v - 128 * o.xa) / wd) s

/-- R340: a mixed word has its old value or its new one. What stood there before an earlier part of the run, and what a later element is
still to write, are free (DESIGN CHOICE, assumption 37). -/
def VecOp.mixWord (o : VecOp) (v0 : Tbl Word) (e v : Nat) (now : Word) (s : State) : Word :=
  let free := o.again || decide (e < (v - 128 * o.xa) / o.fd.len)
  let cands := [now, tget 0 v0 v] ++ if free then [Config.freeWord s.draw v] else []
  (cands[Config.freeNat s.draw v % cands.length]?).getD now

/-- R340: element e of a source group, each mixed word old or new; v0: the registers as the run began. -/
def srcWords (k : Nat) (o : VecOp) (v0 : Tbl Word) (r w e : Nat) (s : State) : Res (List Word) :=
  (readV k r w e 0 s).bind fun ws s =>
    let at_ := fun i => 128 * r + e * w + i
    if (List.range w).any (fun i => o.mixed k r w e (at_ i) s) then
      .ok (ws.zipIdx.map (fun x => if o.mixed k r w e (at_ x.2) s then o.mixWord v0 e (at_ x.2) x.1 s else x.1)) s.drawn
    else .ok ws s

/-! ### Elements -/

/-- R326: the stream instruction whose rules an element follows. -/
def VecOp.asStream (o : VecOp) : Member :=
  let lop := match o.lop with
    | 0x24 => 0x30
    | 0x25 => 0x31
    | 0x26 => 0x34
    | 0x27 => 0x35
    | 0x28 => if o.fn = 0 then 0x33 else 0x32
    | 0x29 => 0x38
    | 0x2A => 0x39
    | _ => 0x3F
  { lop := lop, fn := o.fn, dst := .none, b := .none, c := .none, fd := if o.lop = 0x26 ∨ o.lop = 0x2B then .word else o.fd, fb := o.fb, fc := o.fc,
    sealNo := 0, sub := false, xl := o.xl }

/-- The instruction names memory or the bench element by element. -/
def VecOp.indexed (o : VecOp) : Bool := decide (o.lop = 0x22) || decide (o.lop = 0x23) || decide (o.lop = 0x2E)

/-- R329: the address of element e of a memory form, with its index. -/
def VecOp.addrAt (o : VecOp) (e index : Nat) : Nat :=
  match o.lop with
  | 0x20 | 0x21 => elemAddr o.base o.stride e
  | 0x22 | 0x23 => elemAddr o.base o.stride index
  | _ => (o.base + BitVec.ofNat 40 index).toNat

/-- R329: the address of element e of a store. -/
def VecOp.addrOf (o : VecOp) (k e : Nat) (s : State) : Nat :=
  o.addrAt e (if o.indexed then keyValue (vWords k o.xc (indexWidth o.lop o.fn) e s) else 0)

/-- R329: the address of element e, its index read. -/
def readAddr (k : Nat) (o : VecOp) (v0 : Tbl Word) (e : Nat) (s : State) : Res Nat :=
  (if o.indexed then srcWords k o v0 o.xc (indexWidth o.lop o.fn) e s else .ok [] s).bind fun ws s => .ok (o.addrAt e (keyValue ws)) s

/-- R330: a table element lies in the core's part of the bench: ACCESS_VIOLATION otherwise. -/
def inTable (k v w : Nat) (s : State) : Option Trap :=
  if v < 0xFFFFF80000 ∨ 2 ^ 40 < v + w then some (xlTrap 10 .read v 0 7 false)
  else if s.split k && decide (0xFFFFF80000 + 262144 < v + w) then some (xlTrap 10 .read v 0 9 false)
  else none

/-- R331: the words other active elements of a stopped and resumed VSCAT give to virtual word v. -/
def rivals (k : Nat) (o : VecOp) (v : Nat) (s : State) : List Word :=
  (List.range o.vcnt).flatMap (fun f =>
    if o.active k f s then
      let d := (v + 2 ^ 40 - o.addrOf k f s) % 2 ^ 40
      if d < o.fd.len then [((vWords k o.xa o.fd.len f s)[d]?).getD 0] else []
    else [])

/-- R331: what a store writes: after a stop, a word several elements write is one of theirs. -/
def storeWords (k : Nat) (o : VecOp) (v : Nat) (ws : List Word) (s : State) : List Word :=
  if o.lop = 0x23 ∧ o.again then
    ws.zipIdx.map (fun x =>
      let cs := rivals k o ((v + x.2) % 2 ^ 40) s
      (cs[Config.freeNat s.draw ((v + x.2) % 2 ^ 40) % cs.length]?).getD x.1)
  else ws

/-- R337: FORMAT has the address of the element's memory operand. -/
def fromElem {α : Type} (v : Nat) (r : Res α) : Res α :=
  match r with
  | .trap t s => .trap (if t.cause = 7 then { t with addr := BitVec.ofNat 40 v } else t) s
  | r => r

/-- R330: the table element at v is read from the bench. -/
def readTable (k v w : Nat) (s : State) : Res (List Word) :=
  match inTable k v w s with
  | some t => .trap t s
  | none => readPlaces (.core k) .read v ((List.range w).map (fun i => .bench (benchIndex k (v - 0xFFFFF80000 + i) s))) s

/-- R326, R329, R337: active element e; v0: the registers as the run began. -/
def vecElem (k : Nat) (o : VecOp) (v0 : Tbl Word) (e : Nat) (s : State) : Res Unit :=
  let w := o.fd.len
  match o.lop with
  | 0x20 | 0x22 => (readAddr k o v0 e s).bind fun v s => (fromElem v (readMem (.core k) o.xl v w s)).bind fun ws s => .ok () (putV k o.xa e ws s)
  | 0x2E => (readAddr k o v0 e s).bind fun v s => (readTable k v w s).bind fun ws s => .ok () (putV k o.xa e ws s)
  | 0x21 | 0x23 =>
    (readAddr k o v0 e s).bind fun v s => (readV k o.xa w e v s).bind fun ws s => (xlate (.core k) o.xl .write v w s).bind fun ps s =>
      .ok () (putElem [{ k := k, ctx := o.xl.ctx, v := v, ws := ps.zip (storeWords k o v ws s) }] s)
  | _ =>
    (srcWords k o v0 o.xb o.fb.len e s).bind fun b s =>
      (if o.readsC then srcWords k o v0 o.xc o.fc.len e s else .ok [] s).bind fun c s =>
        (if o.lop = 0x2A then readV k o.xa w e 0 s else .ok [] s).bind fun old s =>
          (compute o.asStream e b c old s).bind fun r s =>
            if o.lop = 0x26 ∨ o.lop = 0x2B then .ok () (putP k o.xa (putBit (predOf k o.xa s) e (decide (r.1 ≠ [0]))) s)
            else .ok () (putV k o.xa e r.1 s)

/-- What a run of the elements has come to: those done, the lowest fault, and the element that waits. -/
structure VecRun where
  s : State
  done : List Nat
  fault : Option (Nat × Trap)
  stall : Option Nat

/-- R324: an inactive element: done, and written 0 under PZ. -/
def vecInactive (k : Nat) (o : VecOp) (e : Nat) (s : State) : State :=
  if o.pz && o.writesV then putV k o.xa e (List.replicate o.fd.len 0) s else s

/-- R337: element e lies past what is in progress when element f has faulted or waits. -/
def VecRun.past (g : VecRun) (e : Nat) : Bool :=
  (g.fault.any (fun f => decide (f.1 + 128 ≤ e))) || g.stall.any (fun f => decide (f + 128 ≤ e))

/-- R337: element e. Above a fault, an element less than 128 above may or may not be done. -/
def vecStep (k : Nat) (o : VecOp) (v0 : Tbl Word) (g : VecRun) (e : Nat) : VecRun :=
  if e < o.start || (decide (e < o.start + 128) && bitAt o.done (e - o.start)) then { g with done := g.done ++ [e] }
  else if g.past e then g
  else if !o.active k e g.s then { g with s := vecInactive k o e g.s, done := g.done ++ [e] }
  else match g.stall, g.fault with
    | some _, _ => g
    | none, some _ =>
      if !Config.freeBit g.s.draw e then g
      else match vecElem k o v0 e g.s with
        | .ok _ s => { g with s := s, done := g.done ++ [e] }
        | .trap _ _ => g
        | .stall s => { g with s := s }
    | none, none =>
      match vecElem k o v0 e g.s with
      | .ok _ s => { g with s := s, done := g.done ++ [e] }
      | .trap t s => { g with s := s, fault := some (e, elemTrap t e) }
      | .stall s => { g with s := s, stall := some e }

/-- R336: progress after a run: VSTART the lowest element not done, VDONE from there. -/
def vecProgress (o : VecOp) (done : List Nat) : VecOp :=
  let v := ((List.range o.vcnt).find? (fun e => !done.contains e)).getD o.vcnt
  { o with start := v, done := BitVec.ofNat 128 (((List.range 128).filter (fun i => done.contains (v + i))).foldl (fun n i => n + 2 ^ i) 0) }

/-- R339: every element not done. -/
def runElems (k : Nat) (o : VecOp) (s : State) : VecRun :=
  (List.range o.vcnt).foldl (vecStep k o (s.bent (k / 2)).v) { s := s, done := [], fault := none, stall := none }

/-! ### VRED and VPRED (R325, R327, R338) -/

/-- The active elements of VXB are read. -/
def readActive (k : Nat) (o : VecOp) : List Nat → State → Res (List (List Word))
  | [], s => .ok [] s
  | e :: es, s =>
    if o.active k e s then (readV k o.xb o.fd.len e 0 s).bind fun ws s => (readActive k o es s).bind fun r s => .ok (ws :: r) s
    else readActive k o es s

/-- R327: the value MIN and MAX order by. -/
def redValue (o : VecOp) (ws : List Word) : Int := match o.fd with | .word => (ws.headD 0).toNat | _ => qValue ws

/-- R327: the least or the greatest value. -/
def extreme (most : Bool) : List Int → Option Int
  | [] => none
  | v :: r => some (r.foldl (fun a b => if most then max a b else min a b) v)

/-- R272, R327: element 0 of VXA: a word modulo 2^20, an amount normalised. -/
def putRed (k : Nat) (o : VecOp) (v : Int) (s : State) : Res Unit :=
  match o.fd with
  | .word => .ok () (putV k o.xa 0 [BitVec.ofInt 20 v] s)
  | f => match normalised f.len v with
    | some ws => .ok () (putV k o.xa 0 ws s)
    | none => .trap (trapOf 6 0 0) s

/-- R327, R328: VRED, complete or nothing. -/
def vred (k : Nat) (o : VecOp) (s : State) : Res Unit :=
  (fromElem 0 (readActive k o (List.range o.vcnt) s)).bind fun vs s =>
    let sum := (vs.map (redValue o)).foldl (· + ·) 0
    match o.fn with
    | 0 => putRed k o sum s
    | 1 => (extreme false (vs.map (redValue o))).elim (.ok () s) (fun v => putRed k o v s)
    | 2 => (extreme true (vs.map (redValue o))).elim (.ok () s) (fun v => putRed k o v s)
    | fn => match addSeals k [(o.xa % 16, if fn = 4 then -sum else sum)] s with
      | .ok s => .ok () s
      | .error _ => .trap (trapOf 6 0 0) s

/-- R325: VPRED, complete or nothing. -/
def vpred (k : Nat) (o : VecOp) (s : State) : Res Unit :=
  let b := predOf k o.xb s
  let c := predOf k o.xc s
  let set := fun v => Res.ok () (putP k o.xa v s)
  match o.fn with
  | 0 => set (BitVec.ofNat 1024 (2 ^ min o.scalar.toNat 1024 - 1))
  | 1 => set (b &&& c)
  | 2 => set (b ||| c)
  | 3 => set (b &&& ~~~c)
  | 4 => set (~~~b)
  | 5 => (fromElem o.base.toNat (readMem (.core k) o.xl o.base.toNat 52 s)).bind fun ws s => .ok () (putP k o.xa (predFrom ws) s)
  | _ => (xlate (.core k) o.xl .write o.base.toNat 52 s).bind fun ps s =>
      .ok () (putElem [{ k := k, ctx := o.xl.ctx, v := o.base.toNat, ws := ps.zip (predWords (predOf k o.xa s)) }] s)

/-- An instruction's whole run. -/
def runVec (k : Nat) (o : VecOp) (s : State) : VecRun :=
  let all := List.range o.vcnt
  let whole : Res Unit → VecRun := fun r => match r with
    | .ok _ s => { s := s, done := all, fault := none, stall := none }
    | .trap t s => { s := s, done := [], fault := some (0, elemTrap t 0), stall := none }
    | .stall s => { s := s, done := [], fault := none, stall := some 0 }
  if o.lop = 0x2C then whole (vpred k o s) else if o.lop = 0x2D then whole (vred k o s) else runElems k o s

/-! ### Start, finish, stop (R333, R334, R336, R337) -/

/-- R200: the pipe class: 0 L, 1 P, 2 K, 3 M. -/
def vecClass (lop : Nat) : Nat :=
  match lop with
  | 0x24 | 0x25 | 0x26 | 0x27 | 0x28 | 0x2D => 0
  | 0x29 | 0x2A => 1
  | 0x2B => 2
  | _ => 3

/-- R200, R334: a pipe of the class is not held by another vector instruction of the bent. -/
def vecPipeFree (k cls : Nat) (s : State) : Bool :=
  let all := (s.core (k / 2 * 2)).vops ++ (s.core (k / 2 * 2 + 1)).vops
  let held := (all.filter (fun o => decide (o.st = .running) && decide (vecClass o.lop = cls))).length
  decide (cls = 3) || decide (held < if cls = 0 then 2 else 1)

/-- R333: the first queued instruction, with those before it. -/
def nextQueued : List VecOp → Option (List VecOp × VecOp × List VecOp)
  | [] => none
  | o :: os => if o.st = .queued then some ([], o, os) else (nextQueued os).map (fun r => (o :: r.1, r.2.1, r.2.2))

/-- R333, R334: the oldest queued instruction of core k finds no earlier one that holds its registers, and a pipe free. -/
def vecStartable (k : Nat) (s : State) : Bool :=
  match nextQueued (s.core k).vops with
  | some (before, o, _) => decide ((s.core k).run ≠ .stopped) && before.all (fun e => !o.waitsFor e) && vecPipeFree k (vecClass o.lop) s
  | none => false

/-- R334: in split execution the other core's instruction waits for its turn. -/
def vecOthersTurn (k : Nat) (s : State) : Bool := s.split k && decide ((s.bent (k / 2)).lastVop = decide (k % 2 = 1)) && vecStartable (otherCore k) s

/-- R333, R334, R336: the oldest queued instruction starts, or goes on after a stop. -/
def execVectorStart (k : CoreIx) (s : State) : Host.Outcome State Fault Refusal :=
  match nextQueued (s.core k).vops with
  | some (before, o, rest) =>
    if vecStartable k s = true ∧ vecOthersTurn k s = false then
      let s := s.setBent (k.val / 2) { s.bent (k.val / 2) with lastVop := decide (k.val % 2 = 1) }
      .next (s.setCore k { s.core k with vops := before ++ { o with st := .running } :: rest })
    else .next s
  | none => .next s

/-- Replace instruction n of core k. -/
def setVop (k n : Nat) (o : VecOp) (s : State) : State := s.setCore k { s.core k with vops := (s.core k).vops.set n o }

/-- R265: the memory words that an instruction has written in a run, element by element. -/
def VecOp.wrote (o : VecOp) (k : Nat) (done : List Nat) (s : State) : List Past :=
  let one := fun (v w : Nat) => ({ ctx := o.xl.ctx, base := BitVec.ofNat 40 v, stride := 0, w := w, n := 1 } : Past)
  if o.lop = 0x21 ∨ o.lop = 0x23 then (done.filter (fun e => o.active k e s)).map (fun e => one (o.addrOf k e s) o.fd.len)
  else if o.lop = 0x2C ∧ o.fn = 6 then [one o.base.toNat 52]
  else []

/-- R265: they are unordered until a FENCE S. -/
def notePast (k : Nat) (ps : List Past) (s : State) : State := if ps = [] then s else s.setCore k { s.core k with past := (s.core k).past ++ ps }

/-- R336: the first running instruction that can finish does. One that waits for a host page keeps what it has done; a
faulting one is left for its stop. -/
def finishVec (k : Nat) : Nat → Nat → State → State
  | _, 0, s => s
  | n, fuel + 1, s =>
    match (s.core k).vops[n]? with
    | none => s
    | some o =>
      if o.st ≠ .running then finishVec k (n + 1) fuel s
      else
        let g := runVec k o s.drawn
        match g.fault, g.stall with
        | some _, _ => finishVec k (n + 1) fuel s
        | none, some _ => finishVec k (n + 1) fuel (setVop k n (vecProgress o g.done) g.s)
        | none, none =>
          let s := notePast k (o.wrote k g.done g.s) g.s
          vecFinished k o.vcnt (s.setCore k { s.core k with vops := (s.core k).vops.eraseIdx n })

/-- R100: an instruction of core k runs in a pipe whose results have residue checks. -/
def vecChecked (k : Nat) (s : State) : Bool := (s.core k).vops.any (fun o => decide (o.st = .running) && decide (vecClass o.lop ≠ 3))

/-- R100, R336: a vector instruction of core k finishes, replayed or lost as its residue checks fail. -/
def execVectorFinish (v : VectorEnd) (s : State) : Host.Outcome State Fault Refusal :=
  let run := fun (s : State) => finishVec v.core 0 (s.core v.core).vops.length s
  .next (if vecChecked v.core s then checkResidue v.core v.fails run s else run s)

/-- R227, R337: the first running instruction with a faulting element stops, suspended with its progress. -/
def stopVec (k : Nat) : Nat → Nat → State → State
  | _, 0, s => s
  | n, fuel + 1, s =>
    match (s.core k).vops[n]? with
    | none => s
    | some o =>
      if o.st ≠ .running then stopVec k (n + 1) fuel s
      else
        let g := runVec k o s.drawn
        match g.fault with
        | some (_, t) =>
          setVop k n { vecProgress o g.done with st := .suspended, again := true, trap := some t, frame := none }
            (notePast k (if o.lop = 0x2C then [] else o.wrote k g.done g.s) g.s)
        | none => stopVec k (n + 1) fuel s

/-- A vector instruction of core k stops for its trap, where none is suspended already (R227). -/
def execVectorStop (k : CoreIx) (s : State) : Host.Outcome State Fault Refusal :=
  if (s.core k).vops.any (fun o => decide (o.st = .suspended)) then .next s else .next (stopVec k 0 (s.core k).vops.length s)

end Sys2Proof.Machine
end

