-- ==== Sys2Proof/Machine/Traps.lean ====
section
/-! DEFINITION. What a core takes at an instruction boundary (R223 to R225, R173, R197), the counter TICK (R225), and
pre-emption and restore of shares (R130, R230, R231, R400, R402). -/

namespace Sys2Proof.Machine

/-! ### Taking the highest ready cause (R216, R223) -/

/-- The core stands at an instruction boundary: it issues, or waits at the barrier of SEALCHK (R314). -/
def atBoundary (k : Nat) (s : State) : Bool :=
  ready k s || (match (s.core k).run with | .barrier _ => true | _ => false)

/-- R173, R158: the words are no instruction for core k now. -/
def refusedWord (k : Nat) (w0 w1 : Word) (s : State) : Bool :=
  illegalWord w0 w1 || ((s.arch k).compat && decide (bitsOf w0 18 2 = 3) && decide (0x20 ≤ bitsOf w0 12 6))

/-- R238, R564: the words are those of a stream or vector instruction, whose encoding is looked at before an open chain is. -/
def pipeWord (w0 : Word) : Bool := decide (bitsOf w0 18 2 = 3) && decide (0x20 ≤ bitsOf w0 12 6)

/-- R173, R216, R314: core k takes the highest cause ready at its boundary, or the trap of a SEALCHK that waits for its page; with words, it
issues words that are no instruction, which trap ILLEGAL_INSTRUCTION. -/
def execTrapEntry (k : CoreIx) (word : Option (Word × Word)) (s : State) : Host.Outcome State Fault Refusal :=
  match word with
  | none =>
    (match (s.core k).run with
     | .mismatch d => .next (dueStop k (sealMismatch k d s))
     | _ => if atBoundary k s then .next (takeReady k s) else .next s)
  | some (w0, w1) => if refusedWord k w0 w1 s then .next (issueAny (pipeWord w0) .no k (instrLen w0) (illegal w0) s) else .next s

/-- R197: a core in WAIT goes on, and takes TIMER or a presented event where EVMASK.M is 0. -/
def execWaitEnd (k : CoreIx) (s : State) : Host.Outcome State Fault Refusal := .next (wakeCore k s)

/-! ### TICK (R225) -/

/-- R225: n microseconds, n at most 2^40: TICK counts, and the latch of each core whose TICKCMP it reaches sets. -/
def advance (n : Nat) (s : State) : State :=
  let t := s.tick.toNat
  { s with
    tick := s.tick + BitVec.ofNat 40 n
    cores := tmap Core.reset (fun _ c =>
      let d := (c.arch.tickcmp.toNat + 2 ^ 40 - t) % 2 ^ 40
      if d ≤ n ∧ (0 < d ∨ n = 2 ^ 40) then { c with timer := true } else c) s.cores }

/-- R225: TICK reaches the TICKCMP of core k: at once the next count to it, a whole turn where they are equal now.
(DESIGN CHOICE, assumption 40). -/
def execTimer (k : CoreIx) (s : State) : Host.Outcome State Fault Refusal :=
  let d := ((s.arch k).tickcmp.toNat + 2 ^ 40 - s.tick.toNat) % 2 ^ 40
  .next (advance (if d = 0 then 2 ^ 40 else d) s)

/-- One microsecond in which no command arrives: TICK counts while the module is raised (DESIGN CHOICE, assumption 21). -/
def idleTick (s : State) : State := if s.power.phase = .raised ∨ s.power.phase = .ready then advance 1 s else s

/-! ### Pre-emption (R130, R230, R402) -/

/-- A free choice of one of several. -/
def pickOne {α : Type} (n place : Nat) (l : List α) : Option α :=
  match l with
  | [] => none
  | [a] => some a
  | l => l[Config.freeNat n place % l.length]?

/-- A free choice of m of several, in a free order. -/
def pickMany (n : Nat) : Nat → List Nat → List Nat
  | 0, _ => []
  | m + 1, l =>
    match pickOne n m l with
    | some a => a :: pickMany n m (l.filter (fun b => decide (b ≠ a)))
    | none => []

/-- The jobs that hold a share, by number. -/
def liveJobs (s : State) : List (Nat × Job) := s.disp.jobs.filterMap (fun e => e.2.bind (fun j => if j.ending.isNone then some (e.1, j) else none))

/-- R447: a takeover is moving a share of the job. -/
def movingJob (s : State) (j : Nat) : Bool := s.pair.takeover.any (fun t => match t.share with | some (n, _) => decide (n = j) | none => false)

/-- R230: core k of a share that is pre-empted: notice where its context has SUPV 1 and EVMASK.M is 0, which ends a WAIT; otherwise it
stops at its boundary (DEDUCED, assumption 44). -/
def preemptCore (why : BitVec 4) (k : Nat) (s : State) : State :=
  let c := s.core k
  if c.run = .idle ∨ c.run = .stopped then s
  else
    let s := stopPipes k s
    if (coreXl k 0 s).supv && !c.arch.masked then
      s.setCore k { s.core k with notice := some why, run := if c.run = .waiting then .running else c.run }
    else askStop k 1 s

/-- R230, R402: job j is pre-empted with all its shares. -/
def preemptJob (why : BitVec 4) (awaits : List (Option (BitVec 20) × Nat)) (j : Nat) (s : State) : State :=
  match s.job j with
  | none => s
  | some job =>
    let s := s.setJob j (some { job with preempted := true, awaits := awaits })
    (bentsOf job).foldl (fun s l => trySave l (preemptCore why (2 * l + 1) (preemptCore why (2 * l) s))) s

/-- R402: the better victim: the lower priority (the greater number), then the later start. -/
def laterVictim (a b : Nat × Job) : Bool := decide (b.2.prio < a.2.prio) || (decide (a.2.prio = b.2.prio) && decide (b.2.started < a.2.started))

/-- Insertion by order. -/
def insertVictim (a : Nat × Job) : List (Nat × Job) → List (Nat × Job)
  | [] => [a]
  | b :: r => if laterVictim a b then a :: b :: r else b :: insertVictim a r

/-- Jobs taken in order until enough bents come free. -/
def victims (need : Nat) : List (Nat × Job) → List Nat
  | [] => []
  | v :: r => if need = 0 then [] else v.1 :: victims (need - (bentsOf v.2).length) r

/-- The bents and the priority the reservation asks for. -/
def reservation (s : State) : Option (Nat × Nat) :=
  match s.disp.reserve with
  | some q => (match s.sq q with
    | some sq => sq.fetched.head?.map (fun d => (dByte d 6, sq.prio))
    | none => none)
  | none => none

/-- R402: the dispatcher pre-empts jobs of lower priority for the reservation, where that meets it. -/
def execPreemption (s : State) : Host.Outcome State Fault Refusal :=
  match reservation s with
  | none => .next s
  | some (gang, p) =>
    let free := (freeBents s).length
    let cands := (liveJobs s).filter (fun j => decide (p < j.2.prio) && !movingJob s j.1)
    let coming := ((cands.filter (fun j => j.2.preempted)).map (fun j => (bentsOf j.2).length)).foldl (· + ·) 0
    let fresh := (cands.filter (fun j => !j.2.preempted)).foldl (fun l a => insertVictim a l) []
    let more := (fresh.map (fun j => (bentsOf j.2).length)).foldl (· + ·) 0
    if gang ≤ free + coming ∨ free + coming + more < gang then .next s
    else .next ((victims (gang - free - coming) fresh).foldl (fun s j => preemptJob (BitVec.ofNat 4 p) [] j s) s)

/-- R230: 2 microseconds after the notice, core k is stopped where it has not stopped in WAIT. -/
def execPreemptNoticeTimeout (k : CoreIx) (s : State) : Host.Outcome State Fault Refusal :=
  let c := s.core k
  if beingPreempted k s ∧ c.run ≠ .idle ∧ c.run ≠ .stopped then .next (trySave (k.val / 2) (askStop k 1 s)) else .next s

/-! ### What is ready to start (R385, R395, R400) -/

/-- R385: BARRIER of a descriptor. -/
def barrier (d : Descriptor) : Bool := bitAt d 8

/-- Jobs of queue q that have started and whose entries are not released. -/
def jobsOf (q : Nat) (s : State) : List Job := s.disp.jobs.filterMap (fun e => e.2.bind (fun j => if j.sq = q then some j else none))

/-- R385: BARRIER lets the descriptor of queue q start. -/
def barrierOpen (q : Nat) (sq : Sq) (d : Descriptor) (s : State) : Bool :=
  let held : List Entry := match s.cq sq.cq with
    | some c => c.held.filter (fun (e : Entry) => decide (e.sqid = q))
    | none => []
  if barrier d then (jobsOf q s).isEmpty && held.isEmpty else !(jobsOf q s).any (fun j => barrier j.desc) && !held.any Entry.bar

/-- R395: more than 64 entries are held for the queue's CQ. -/
def cqCrowded (sq : Sq) (s : State) : Bool := match s.cq sq.cq with | some c => decide (64 < c.held.length) | none => true

/-- The queues with a job ready to start: number, queue and its first descriptor. -/
def readyQueues (s : State) : List (Nat × Sq × Descriptor) :=
  s.disp.sq.filterMap (fun e => match e.2 with
    | some q => match q.fetched with
      | d :: _ => if barrierOpen e.1 q d s && !cqCrowded q s then some (e.1, q, d) else none
      | [] => none
    | none => none)

/-- R130: a translation that a job waits for has not come. -/
def awaited (s : State) (job : Job) : Bool :=
  job.awaits.any (fun w => s.ats.reqs.any (fun r => decide (r.func = job.func) && decide (r.pasid = w.1) && decide (r.page = w.2)) ||
    s.ats.asked.any (fun r => decide (r.func = job.func) && decide (r.pasid = w.1) && decide (r.page = w.2)))

/-- R128, R130: the host pages of page requests that accesses of the bent wait for. -/
def pageWaits (l : Nat) (s : State) : List (Option (BitVec 20) × Nat) :=
  (s.ats.reqs.filter (fun r => r.waiters.any (fun w => match w.who with | .core k => decide (k / 2 = l) | _ => false))).map (fun r => (r.pasid, r.page))

/-- Shares of a job that wait in their save areas. -/
def savedShares (job : Job) : List Nat :=
  job.shares.zipIdx.filterMap (fun e => match e.1 with | .saved .. => some e.2 | _ => none)

/-- R400, R402, R449: job j has shares to restore: a pre-empted job that holds no bent any more, or one that runs on without the
share a withdrawn bent left, which ranks as a pre-empted share. -/
def toRestore (s : State) (j : Nat) (job : Job) : Bool :=
  job.ending.isNone && !awaited s job &&
    (if job.preempted then (bentsOf job).isEmpty else !(savedShares job).isEmpty && !movingJob s j)

/-- R130, R400: a pre-empted job, or share, of a priority that meets p can be restored. -/
def restorable (s : State) (p : Nat → Bool) : Bool := (liveJobs s).any (fun j => p j.2.prio && toRestore s j.1 j.2)

/-- R130, R399, R400: work of priority p or better is ready: a descriptor that may start, or a pre-empted job that can be restored. -/
def workReady (s : State) (p : Nat) : Bool :=
  (readyQueues s).any (fun q => decide (q.2.1.prio ≤ p)) || restorable s (fun n => decide (n ≤ p))

/-- R130: bent l has waited 20 microseconds on a page request, and other work is ready (DESIGN CHOICE, assumption 46). -/
def execPageWaitPreempt (l : Nat) (s : State) : Host.Outcome State Fault Refusal :=
  if l ≥ 32 then .fault .noSuchUnit
  else match (s.bent l).share with
    | none => .next s
    | some (j, _) =>
      match s.job j with
      | none => .next s
      | some job =>
        if job.preempted = true ∨ pageWaits l s = [] ∨ workReady s job.prio = false ∨ movingJob s j = true then .next s
        else .next (preemptJob (BitVec.ofNat 4 job.prio) (pageWaits l s) j s)

/-! ### Restore (R231, R400, R402) -/

/-- R399, R402: better work than a pre-empted job of priority p: a fetched descriptor, a reservation or a restorable job of a
higher priority. -/
def outranked (s : State) (p : Nat) : Bool :=
  (readyQueues s).any (fun q => decide (q.2.1.prio < p)) || restorable s (fun n => decide (n < p))

/-- Restore each share of a list on a bent of a list. -/
def restoreAll (j : Nat) : List Nat → List Nat → State → State
  | i :: is, l :: ls, s => restoreAll j is ls (restoreShare j i l s)
  | _, _, s => s

/-- R487: logical bent l is powered. -/
def bentPowered (s : State) (l : Nat) : Bool := (s.island (s.physOf l)).powered

/-- R486, R487: n more of the free bents go through the sequencer, those already in its queue counted. -/
def requestPower (n : Nat) (s : State) : State :=
  let down := (freeBents s).filter (fun l => !bentPowered s l)
  let queued := down.filter (fun l => s.power.seqQueue.contains (true, s.physOf l))
  let more := (down.filter (fun l => !queued.contains l)).take (n - queued.length)
  { s with power := { s.power with seqQueue := s.power.seqQueue ++ more.map (fun l => (true, s.physOf l)) } }

/-- R400, R487: n powered free bents, in a free choice; where bents must be powered first, they are asked for.
(DESIGN CHOICE, assumption 43). -/
def takeBents (n : Nat) (s : State) : Option (List Nat) × State :=
  let free := freeBents s
  let up := free.filter (bentPowered s)
  if free.length < n then (none, s)
  else if n ≤ up.length then (some (pickMany s.draw n up), s.drawn)
  else (none, requestPower (n - up.length) s)

/-- R231, R400, R402, R449: the pre-empted job is restored whole, once every share of it is saved and enough bents are free and
powered; so is the one saved share of a job that lost a bent and has no spare. -/
def execShareRestore (job : Nat) (s : State) : Host.Outcome State Fault Refusal :=
  match s.job job with
  | none => .next s
  | some j =>
    let is := savedShares j
    if toRestore s job j = false ∨ outranked s j.prio = true ∨ s.power.phase ≠ .ready ∨ s.disp.fetching = false then .next s
    else match takeBents is.length s with
      | (none, s) => .next s
      | (some ls, s) => .next (restoreAll job is ls (s.setJob job (some { j with preempted := false, awaits := [] })))

end Sys2Proof.Machine
end

