-- ==== Sys2Proof/Machine/Controller.lean ====
section
/-! DEFINITION. The pseudo-channel controllers (R54 to R70, R75 to R77, R89 to R103), the tract operations (R61 to R64), the
yard's banks and regions (R82 to R87), the scrub (R104 to R107) and the error log's registers (R108). -/

namespace Sys2Proof.Machine

/-! ### Block requests (R67 to R70, R75 to R77, R91, R93, R98) -/

/-- R91: lane j of pseudo-channel c is marked dead and logged; a running scrub counts it (R107). -/
def markLane (c j blk : Nat) (s : State) : State :=
  let d := tget 0 s.mem.dead c
  if bitAt d j then s
  else
    let scrub := match s.mem.scrub with
      | e :: r => { e with lanes := e.lanes + 1 } :: r
      | [] => []
    logErr true 0x0003 1 c (64 * blk) j 0 { s with mem := { s.mem with dead := tset 0 s.mem.dead c (d ||| BitVec.ofNat 32 (2 ^ j)), scrub := scrub } }

/-- The block of a request. -/
def ChanReq.blk : ChanReq → Nat
  | .read b _ => b
  | .write b _ _ => b

/-- R57, R67, R93, R98: a controller serves a request: a read of a whole block, with a lane where the transfer and its retry have failed on
it; or a write of words, whose first copy, or both copies, may fail parity. -/
def serveReq (r : ChanReq) (s : State) : State :=
  match r with
  | .read blk lane =>
    let s := match lane with
      | some j => markLane (channelOf s.variant blk) j.val blk s
      | none => s
    if poisoned s blk then s else (fetchBlock lane.isSome blk (64 * blk) s).2
  | .write blk words parity =>
    let s := if 0 < parity.val then logErr false 0x0012 1 (channelOf s.variant blk) (64 * blk) 0 0 (countErr 4 s) else s
    let s := blkWrite blk (words.filter (fun w => decide (w.1 < 64))) s
    if parity.val = 2 then poisonWrite blk s else s

/-- R75, R77: the rank of a request: its class, or that of class 1 once it is aged. -/
def Waiting.rank (w : Waiting) : Nat := if w.aged then min 1 w.cls else w.cls

/-- R75: requests in the order they are served: a lower rank first, the oldest first within one. -/
def byRank (ws : List Waiting) : List Waiting := (List.range 5).flatMap (fun n => ws.filter (fun w => decide (w.rank = n)))

/-- The requests that wait at pseudo-channel c. -/
def setWaits (c : Nat) (ws : List Waiting) (s : State) : State := { s with mem := { s.mem with waits := tset [] s.mem.waits c ws } }

/-- R75, R77: a request comes to the controller of its block. It stays there to wait, or it is served, after every earlier request of its rank
or a lower one (DESIGN CHOICE, assumption 74). -/
def chanRequest (w : Waiting) (stays : Bool) (s : State) : State :=
  if isHole s (64 * w.req.blk) then s
  else
    let c := channelOf s.variant w.req.blk
    let ws := tget [] s.mem.waits c
    if stays then setWaits c (ws ++ [w]) s
    else
      let first := byRank (ws.filter (fun u => decide (u.rank ≤ w.rank)))
      (first ++ [w]).foldl (fun s u => serveReq u.req s) (setWaits c (ws.filter (fun u => decide (w.rank < u.rank))) s)

/-- Every request that waits is served, as before dormant. -/
def serveAll (s : State) : State :=
  let s' := { s with mem := { s.mem with waits := [] } }
  s.mem.waits.foldl (fun t e => (byRank e.2).foldl (fun t u => serveReq u.req t) t) s'

/-- R93: a block read at its controller. -/
def execControllerRead (blk : Nat) (r : ReadRequest) (s : State) : Host.Outcome State Fault Refusal :=
  .next (chanRequest { cls := r.cls.val, aged := false, req := .read blk r.lane } r.waits s)

/-- R67: a write of words of a block at its controller. -/
def execControllerWrite (blk : Nat) (words : List (Nat × Word)) (r : WriteRequest) (s : State) : Host.Outcome State Fault Refusal :=
  .next (chanRequest { cls := r.cls.val, aged := false, req := .write blk words r.parity } r.waits s)

/-- R68: the merge-buffer entry of a block retires. -/
def execMergeRetire (blk : Nat) (s : State) : Host.Outcome State Fault Refusal := .next (mergeRetire blk s)

/-- R77: the oldest request of class 2 to 4 that is not aged. -/
def ageFirst : List Waiting → List Waiting
  | [] => []
  | w :: ws => if 2 ≤ w.cls ∧ w.aged = false then { w with aged := true } :: ws else w :: ageFirst ws

/-- R77: a request of pseudo-channel ch has waited 2 microseconds. -/
def execRequestAging (ch : Nat) (s : State) : Host.Outcome State Fault Refusal :=
  if ch < s.variant.channels then .next (setWaits ch (ageFirst (tget [] s.mem.waits ch)) s) else .next s

/-- R75: a refresh of pseudo-channel ch, which changes no word. -/
def execDramRefresh (ch : Nat) (s : State) : Host.Outcome State Fault Refusal :=
  if ch < s.variant.channels then .next { s with mem := { s.mem with refresh := tset 0 s.mem.refresh ch (tget 0 s.mem.refresh ch + 1) } } else .next s

/-! ### Tract operations (R61 to R64, R125) -/

/-- R117, R118: a leaf maps into the tracts lo to hi of this module. -/
def leafInRange (s : State) (lo hi : Nat) (key : Nat) (e : W40) : Bool :=
  let t := bitsOf e 5 16
  let n := if 2 ^ 24 ≤ key % 2 ^ 25 then 15 else 0
  isLocal s (entPage e) && decide (t ≤ hi) && decide (lo ≤ t + n)

/-- R125: every cached entry that maps into a tract range goes. -/
def dropLeaves (lo hi : Nat) (s : State) : State :=
  let keep : Tbl (Option W40) → Tbl (Option W40) := List.filter (fun x => !(x.2.elim false (leafInRange s lo hi x.1)))
  { s with bents := tmap Bent.reset (fun _ b => { b with tlb := keep b.tlb }) s.bents
           disp := { s.disp with tlbs := tmap [] (fun _ t => keep t) s.disp.tlbs } }

/-- R61: a code for every tract of a range. -/
def setCodes (code : Bool) (lo : Nat) : Nat → Tbl Bool → Tbl Bool
  | 0, m => m
  | n + 1, m => setCodes code (lo + 1) n (tset true m lo code)

/-- R62, R63: the staged operation starts, or is refused. -/
def commitTract (s : State) : State :=
  let c := s.mem.memc
  let lo := c.trfirst.toNat
  let hi := c.trlast.toNat
  if hi < lo ∨ s.variant.tracts ≤ hi ∨ c.busy then { s with mem := { s.mem with memc := { c with cerr := true } } }
  else
    let s := dropLeaves lo hi s
    { s with mem := { s.mem with
        memc := { c with staged := false, busy := true, done := 0, curFirst := lo, curLast := hi, curOp := c.op, curCode := c.code, flr := false }
        tcmap := if c.op then s.mem.tcmap else setCodes c.code lo (hi + 1 - lo) s.mem.tcmap } }

/-- R15, R61, R563: a write of TRCTL; its COMMIT takes in the OP and CODE of that same write (DESIGN CHOICE, assumption 75). -/
def writeTrctl (v : W32) (s : State) : State :=
  let c := s.mem.memc
  let s := { s with mem := { s.mem with memc := { c with cerr := c.cerr && !bitAt v 8, op := bitAt v 2, code := bitAt v 1, staged := true } } }
  if bitAt v 0 && c.staged then commitTract s else s

/-- TRCTL written with v, COMMIT 1 and OP 0. -/
def execTractRecode (v : W32) (s : State) : Host.Outcome State Fault Refusal := .next (hostWrite 0 (writeTrctl ((v &&& ~~~4#32) ||| 1)) s)
/-- TRCTL written with v, COMMIT 1 and OP 1. -/
def execTractZero (v : W32) (s : State) : Host.Outcome State Fault Refusal := .next (hostWrite 0 (writeTrctl (v ||| 5)) s)

/-- R63, R490: the running operation ends with every tract of its range zeroed; in dormant it stands still. -/
def finishTracts (s : State) : State :=
  let c := s.mem.memc
  let s := zeroTracts c.curFirst c.curLast s
  { s with mem := { s.mem with memc := { c with busy := false, flr := false, done := BitVec.ofNat 17 (c.curLast + 1 - c.curFirst) } } }

def execTractOperationDone (s : State) : Host.Outcome State Fault Refusal :=
  if s.mem.memc.busy ∧ s.power.phase ≠ .dormant then .next (finishTracts s) else .next s

/-! ### ECCFLIP (R101 to R103) -/

/-- R102: commit and arm, or refuse. -/
def armEcc (s : State) : State :=
  let e := s.mem.ecc
  let a := e.addr.toNat
  let bad := isHole s a || (!e.mode && decide (25 < e.window.toNat)) ||
    (e.mode && (decide (bitsOf e.mask 32 32 ≠ 0) || !s.strong (a / 2 ^ 21)))
  if bad then { s with mem := { s.mem with ecc := { e with cerr := true } } }
  else { s with mem := { s.mem with ecc := { e with staged := false, armed := true, curBlk := a / 64, curMask := e.mask, curMode := e.mode, curWindow := e.window } } }

/-- R101, R563: a write of ECCCTL. -/
def writeEccctl (v : W32) (s : State) : State :=
  let e := s.mem.ecc
  let e := { e with fired := e.fired && !bitAt v 30, cerr := e.cerr && !bitAt v 9, armed := e.armed && !bitAt v 7,
                    mode := bitAt v 6, window := BitVec.ofNat 5 (bitsOf v 1 5), staged := true }
  let s := { s with mem := { s.mem with ecc := e } }
  if bitAt v 0 then armEcc s else s

/-- ECCCTL written with v and ARM set. -/
def execEccflipArm (v : W32) (s : State) : Host.Outcome State Fault Refusal := .next (hostWrite 0 (writeEccctl (v ||| 1)) s)
/-- ECCCTL.DISARM alone; the staged fields keep their values. -/
def execEccflipDisarm (s : State) : Host.Outcome State Fault Refusal :=
  .next (hostWrite 0 (fun s => { s with mem := { s.mem with ecc := { s.mem.ecc with armed := false } } }) s)

/-! ### The yard (R82 to R87) -/

/-- R82, R83, R563: a host write of YRATTR of region r of master m; the regions of master 48 are fixed. -/
def hostYrattr (m r : Nat) (v : W32) (s : State) : State :=
  if m = 48 then s
  else
    let g := s.region m r
    let g := { g with cerr := g.cerr && !bitAt v 9, en := bitAt v 31, tag := BitVec.ofNat 12 (bitsOf v 19 12), anyctx := bitAt v 3, w := bitAt v 2, rd := bitAt v 1 }
    let s := s.setRegion m r g
    if !bitAt v 0 || !g.staged then s
    else if g.stLim.toNat < g.stBase.toNat then s.setRegion m r { g with cerr := true }
    else s.setRegion m r { g with base := g.stBase, lim := g.stLim, staged := false }

/-- YRATTR of a region written with v and COMMIT set. -/
def execYardRegionCommit (m : Fin 50) (r : Fin 8) (v : W32) (s : State) : Host.Outcome State Fault Refusal :=
  .next (hostWrite 0 (hostYrattr m.val r.val (v ||| 1)) s)

/-- R86: the rank of master m at a bank, lower first. -/
def yardRank (bank m : Nat) : Nat :=
  if m = bank then 0 else if 32 ≤ m ∧ m < 48 then 1 + (m - 32) else if m < 32 then 17 + m else if m = 48 then 49 else 50

/-- The losses of master m at a bank in a row (R87). -/
def yardLosses (s : State) (bank m : Nat) : Nat := tget 0 s.mem.yardLoss (64 * bank + m)

/-- R86, R87: the better of two masters at a bank: one that has lost 16 cycles first, then by rank. -/
def yardBetter (s : State) (bank a b : Nat) : Nat :=
  let sa := decide (16 ≤ yardLosses s bank a)
  let sb := decide (16 ≤ yardLosses s bank b)
  if sa != sb then (if sa then a else b) else if yardRank bank b < yardRank bank a then b else a

/-- R86, R87: the master a bank serves among those that reach it in one cycle. -/
def yardWinner (s : State) (bank : Nat) : List Nat → Option Nat
  | [] => none
  | m :: ms => some (ms.foldl (yardBetter s bank) m)

/-- R97: an error comes into word w of a yard bank. -/
def upsetYard (bank : Nat) (w : BitVec 20) (double : Bool) (s : State) : State :=
  let a := 2 ^ 20 * bank + w.toNat
  let old := tget .good s.mem.yardBad a
  { s with mem := { s.mem with yardBad := tset .good s.mem.yardBad a (if double || decide (old ≠ .good) then .double else .single) } }

/-- R86, R87: one cycle of a bank: the winner's loss count restarts and each loser's grows. An error may come into one of its words (R97). -/
def execYardAccess (bank : Nat) (turn : YardTurn) (s : State) : Host.Outcome State Fault Refusal :=
  if 32 ≤ bank then .fault .noSuchUnit
  else
    let s := turn.hit.elim s (fun h => upsetYard bank h.1 h.2 s)
    let ms := (turn.masters.filter (fun m => decide (m < 50))).eraseDups
    match yardWinner s bank ms with
    | none => .next s
    | some w =>
      let loss := ms.foldl (fun t m => tset 0 t (64 * bank + m) (if m = w then 0 else tget 0 t (64 * bank + m) + 1)) s.mem.yardLoss
      .next { s with mem := { s.mem with yardLoss := loss } }

/-! ### The scrub (R105, R107) -/

/-- What a scrub has counted. -/
structure ScrubCount where
  corr : Nat
  uncorr : Nat
  poison : Nat
  addrs : List Nat
  deriving DecidableEq, Repr

/-- R105: a corrected block is rewritten, with an entry held for it, by the write of a locked sequence that has read it. -/
def scrubCorrected (rewrite : Bool) (blk : Nat) (f : Found) (c : ScrubCount) (s : State) : ScrubCount × State :=
  ({ c with corr := c.corr + 1 }, if rewrite then rmwStore blk f ((mergeEntry s blk).elim [] mergeWords) (dropMerge blk s) else s)

/-- R105: the scrub reads one block. -/
def scrubBlock (rewrite : Bool) (blk : Nat) (cs : ScrubCount × State) : ScrubCount × State :=
  let (c, s) := cs
  if isHole s (64 * blk) then (c, s)
  else if poisoned s blk then ({ c with poison := c.poison + 64 }, s)
  else
    let (f, s) := fetchBlock false blk (64 * blk) s
    match f with
    | .clean => (c, s)
    | .bad => ({ c with uncorr := c.uncorr + 1, addrs := c.addrs ++ [s.straps.modId.toNat * 2 ^ 37 + 64 * blk] }, s)
    | .corrected _ => scrubCorrected rewrite blk f c s
    | .wrong _ ce => if ce = 0 then (c, s) else scrubCorrected rewrite blk f c s

/-- Insert a number into a rising list without repeats. -/
def insertNat (n : Nat) : List Nat → List Nat
  | [] => [n]
  | m :: r => if n < m then n :: m :: r else if n = m then m :: r else m :: insertNat n r

/-- The blocks of tracts lo to hi in which a scrub can find anything, in ascending order: those with inverted bits or poison,
and every one where a lane is dead. -/
def scrubTargets (s : State) (lo hi : Nat) : List Nat :=
  if s.mem.dead = [] then
    ((s.mem.flips.map Prod.fst ++ s.mem.poison.map Prod.fst).filter (fun b => decide (lo ≤ b / 32768) && decide (b / 32768 ≤ hi))).foldl
      (fun l b => insertNat b l) []
  else (List.range ((hi + 1 - lo) * 32768)).map (· + lo * 32768)

/-- R76, R105: a class-1 request waits where the scrub would rewrite a block. -/
def scrubBarred (rewrite : Bool) (lo hi : Nat) (s : State) : Bool := rewrite && (scrubTargets s lo hi).any (lockBarred s)

/-- R105: a scrub of tracts lo to hi. -/
def scrubTracts (rewrite : Bool) (lo hi : Nat) (s : State) : ScrubCount × State :=
  (scrubTargets s lo hi).foldl (fun cs b => scrubBlock rewrite b cs) ({ corr := 0, uncorr := 0, poison := 0, addrs := [] }, s)

/-! ### The error log's registers (R108) -/

/-- POP: the oldest entry goes. -/
def popErrl (s : State) : State := { s with errl := { s.errl with ring := s.errl.ring.drop 1 } }
/-- CLRCNT: the counters go. -/
def clearErrl (s : State) : State := { s with errl := { s.errl with cnt := [] } }

def execErrlPop (s : State) : Host.Outcome State Fault Refusal := .next (hostWrite 0 popErrl s)
def execErrlClrcnt (s : State) : Host.Outcome State Fault Refusal := .next (hostWrite 0 clearErrl s)

end Sys2Proof.Machine
end

