-- ==== Sys2Proof/Machine/HostPages.lean ====
section
/-! DEFINITION. Host translation from outside: Translation Responses, page responses and invalidations (R127 to R129), and the
claims of zero on first touch (R122). -/

namespace Sys2Proof.Machine

/-! ### Zero on first touch (R122) -/

/-- R122 steps 3 and 4: zeroing of the page or pages of a claimed leaf entry is done. -/
def execFirstTouchZeroingDone (entry : Nat) (s : State) : Host.Outcome State Fault Refusal :=
  .next (finishClaim (entry / 2) (decide (entry % 2 = 1)) s)

/-- R122: a walker that found ZB 1 walks again: the access that waits is tried again by its own command. -/
def execZbRewalk (_entry : Nat) (s : State) : Host.Outcome State Fault Refusal := .next s

/-- R122, R566: a walker takes the claim of an entry whose Z and ZB are 1, and logs ZB_TAKEOVER. -/
def execZbTakeover (entry : Nat) (kind unit : Nat) (ctx : BitVec 12) (s : State) : Host.Outcome State Fault Refusal :=
  match readEntry (entry / 2) s with
  | (some e, s) =>
    if bitAt e 30 && bitAt e 31 then
      .next (logErr false 0x0041 kind unit (entry / 2) 0 ctx.toNat { s with mem := { s.mem with claims := tset none s.mem.claims entry (some e) } })
    else .next s
  | (none, s) => .next s

/-! ### Translation and page requests (R127, R128) -/

/-- R121, R128: an access that waited for a page fails, once it asks again (DESIGN CHOICE, assumption 25). -/
def failWaiter (f : Nat) (pasid : Option (BitVec 20)) (page reason : Nat) (s : State) (w : Waiter) : State :=
  { s with ats := { s.ats with fails := s.ats.fails ++ [{ func := f, pasid := pasid, page := page, who := w.who, addr := w.addr, reason := reason }] } }

/-- R128: every access of a list that waited for a page fails. -/
def failPage (f : Nat) (pasid : Option (BitVec 20)) (page reason : Nat) (ws : List Waiter) (s : State) : State :=
  ws.foldl (failWaiter f pasid page reason) s

/-- A Translation Request concerns a page. -/
def Asked.on (r : Asked) (f : Nat) (pasid : Option (BitVec 20)) (page : Nat) : Bool :=
  decide (r.func = f) && decide (r.pasid = pasid) && decide (r.page = page)

/-- R128: page requests sent and not answered. -/
def outstanding (s : State) : Nat := (s.ats.reqs.filter PageReq.sent).length

/-- R128: of the requests that wait, oldest first, n are sent; those whose translation is asked for wait for that. -/
def sendWaiting (asked : List Asked) : Nat → List PageReq → List PageReq
  | _, [] => []
  | n, r :: rs =>
    if r.sent || asked.any (fun a => a.on r.func r.pasid r.page) then r :: sendWaiting asked n rs
    else match n with
      | 0 => r :: sendWaiting asked 0 rs
      | m + 1 => { r with sent := true } :: sendWaiting asked m rs

/-- R128: the accesses that wait for a free slot send their Page Requests, oldest first, into the slots that are free. -/
def promote (s : State) : State :=
  { s with ats := { s.ats with reqs := sendWaiting s.ats.asked (s.ats.opra - outstanding s) s.ats.reqs } }

/-- Drop the page requests of a page. -/
def dropReq (f : Nat) (pasid : Option (BitVec 20)) (page : Nat) (s : State) : State :=
  { s with ats := { s.ats with reqs := s.ats.reqs.filter (fun r => !r.on f pasid page) } }

/-- R128: the page is not present: a first round begins for the accesses that may use PRI, the others fail; or a later round, or the
fourth has ended. -/
def notPresent (a : Asked) (s : State) : State :=
  match s.ats.reqs.find? (fun r => r.on a.func a.pasid a.page) with
  | some r =>
    if 4 ≤ r.round then promote (failPage a.func a.pasid a.page 13 r.waiters (dropReq a.func a.pasid a.page s))
    else promote { s with ats := { s.ats with reqs := s.ats.reqs.map (fun q => if q = r then { q with round := q.round + 1, sent := false } else q) } }
  | none =>
    let may := a.waiters.filter (fun w => w.prien && s.port.priEn)
    let s := failPage a.func a.pasid a.page 15 (a.waiters.filter (fun w => !(w.prien && s.port.priEn))) s
    if may = [] then s
    else promote { s with ats := { s.ats with reqs := s.ats.reqs ++ [{ func := a.func, pasid := a.pasid, page := a.page, round := 1, sent := false, waiters := may }] } }

/-- R127: a response is cached at its size, up to 512 pages; the cache holds 8,192 entries. -/
def cacheAtc (f : Nat) (pasid : Option (BitVec 20)) (page : Nat) (read write : Bool) (dest span : Nat) (s : State) : State :=
  let n := min (max 1 span) 512
  let e : AtcEntry := { func := f, pasid := pasid, page := page / n * n, read := read, write := write, dest := dest / n * n, span := n }
  { s with ats := { s.ats with atc := e :: s.ats.atc.take 8191 } }

/-- R127, R128: a Translation Response arrives; one that nothing waits for is discarded. -/
def execTranslationCompletion (f : FuncIx) (pasid : Option (BitVec 20)) (page : BitVec 52) (res : XlResult) (s : State) :
    Host.Outcome State Fault Refusal :=
  match s.ats.asked.find? (fun a => a.on f pasid page.toNat) with
  | none => .next s
  | some a =>
    let s := { s with ats := { s.ats with asked := s.ats.asked.filter (fun b => !decide (b = a)) } }
    match res with
    | .notPresent => .next (notPresent a s)
    | .present rd wr dest span =>
      let s := promote (dropReq f pasid page.toNat s)
      if stalledPage s f pasid page.toNat then .next s else .next (cacheAtc f pasid page.toNat rd wr dest.toNat span s)

/-- R128: Response Success: a Translation Request is sent at once. -/
def pageSuccess (f : Nat) (pasid : Option (BitVec 20)) (page : Nat) (s : State) : State :=
  match s.ats.reqs.find? (fun r => r.on f pasid page && r.sent) with
  | none => s
  | some r => promote { s with ats := { s.ats with
      reqs := s.ats.reqs.map (fun q => if q = r then { q with sent := false } else q)
      asked := s.ats.asked ++ [{ func := f, pasid := pasid, page := page, waiters := [] }] } }

/-- R128: Response Invalid Request. -/
def pageInvalid (f : Nat) (pasid : Option (BitVec 20)) (page : Nat) (s : State) : State :=
  match s.ats.reqs.find? (fun r => r.on f pasid page && r.sent) with
  | some r => promote (failPage f pasid page 11 r.waiters (dropReq f pasid page s))
  | none => s

/-- R128: Response Failure: the access and every access of the function that waits on a page request fail. -/
def pageFailure (f : Nat) (pasid : Option (BitVec 20)) (page : Nat) (s : State) : State :=
  if s.ats.reqs.any (fun r => r.on f pasid page && r.sent) then
    let mine := s.ats.reqs.filter (fun r => decide (r.func = f))
    let s := { s with ats := { s.ats with
      reqs := s.ats.reqs.filter (fun r => !decide (r.func = f))
      asked := s.ats.asked.filter (fun a => !mine.any (fun r => a.on r.func r.pasid r.page)) } }
    promote (mine.foldl (fun s r => failPage f r.pasid r.page 12 r.waiters s) s)
  else s

/-- R490: a page response that arrives in dormant is held. -/
def holdResponse (kind f : Nat) (pasid : Option (BitVec 20)) (page : Nat) (s : State) : State :=
  { s with ats := { s.ats with held := s.ats.held ++ [(kind, f, pasid, page)] } }

/-- R490: a held page response is acted on after the wake. -/
def actHeld (e : Nat × Nat × Option (BitVec 20) × Nat) (s : State) : State :=
  if e.1 = 0 then pageSuccess e.2.1 e.2.2.1 e.2.2.2 s
  else if e.1 = 1 then pageInvalid e.2.1 e.2.2.1 e.2.2.2 s
  else pageFailure e.2.1 e.2.2.1 e.2.2.2 s

/-- R490: every held page response, in order. -/
def actAllHeld (s : State) : State := s.ats.held.foldl (fun s e => actHeld e s) { s with ats := { s.ats with held := [] } }

def execResponseSuccess (f : FuncIx) (pasid : Option (BitVec 20)) (page : BitVec 52) (s : State) : Host.Outcome State Fault Refusal :=
  .next (if s.power.phase = .dormant then holdResponse 0 f pasid page.toNat s else pageSuccess f pasid page.toNat s)
def execResponseInvalidRequest (f : FuncIx) (pasid : Option (BitVec 20)) (page : BitVec 52) (s : State) : Host.Outcome State Fault Refusal :=
  .next (if s.power.phase = .dormant then holdResponse 1 f pasid page.toNat s else pageInvalid f pasid page.toNat s)
def execResponseFailure (f : FuncIx) (pasid : Option (BitVec 20)) (page : BitVec 52) (s : State) : Host.Outcome State Fault Refusal :=
  .next (if s.power.phase = .dormant then holdResponse 2 f pasid page.toNat s else pageFailure f pasid page.toNat s)

/-- R128, R566: no response within 2 seconds; the entry names the access that waited first. -/
def execPriTimeout (f : FuncIx) (pasid : Option (BitVec 20)) (page : BitVec 52) (s : State) : Host.Outcome State Fault Refusal :=
  match s.ats.reqs.find? (fun r => r.on f pasid page.toNat && r.sent) with
  | none => .next s
  | some r =>
    let s := logErr true 0x0040 7 f.val ((r.waiters.head?.map Waiter.addr).getD 0) 0 ((r.waiters.head?.map Waiter.ctx).getD 0) s
    .next (promote (failPage f pasid page.toNat 12 r.waiters (dropReq f pasid page.toNat s)))

/-! ### Invalidation (R129) -/

/-- R129: a cached entry matches an Invalidate Request. -/
def AtcEntry.hit (e : AtcEntry) (f : Nat) (pasid : Option (BitVec 20)) (page pages : Nat) : Bool :=
  decide (e.func = f) && (pasid.isNone || decide (e.pasid = pasid)) && decide (e.page < page + pages) && decide (page < e.page + e.span)

/-- R129: the request drops the matching entries and stalls its pages. -/
def execAtsInvalidateRequest (f : FuncIx) (pasid : Option (BitVec 20)) (page : BitVec 52) (pages : Nat) (s : State) :
    Host.Outcome State Fault Refusal :=
  .next { s with ats := { s.ats with
    atc := s.ats.atc.filter (fun e => !e.hit f.val pasid page.toNat pages)
    stalled := s.ats.stalled ++ [{ func := f.val, pasid := pasid, page := page.toNat, pages := pages
                                   dests := (s.ats.atc.filter (fun e => e.hit f.val pasid page.toNat pages)).map (fun e => (e.dest, e.span)) }] } }

/-- R129: a place lies in host memory that a dropped entry led to. -/
def Place.inDests (ds : List (Nat × Nat)) : Place → Bool
  | .host a => ds.any (fun d => decide (d.1 ≤ a / 4096) && decide (a / 4096 < d.1 + d.2))
  | _ => false

/-- R129: a buffered host store that was translated through an entry which the request has dropped. -/
def storeThrough (s : State) (e : Stalled) : Bool :=
  s.cores.any (fun c => c.2.stores.any (fun x => decide (x.func = e.func) && x.at_.any (Place.inDests e.dests)))

/-- R129: the oldest Invalidate Completion is sent once every request already translated has completed: the buffered stores here, since
every other access is one step. The stalled accesses translate again. -/
def execInvalidateCompletion (s : State) : Host.Outcome State Fault Refusal :=
  match s.ats.stalled with
  | [] => .next s
  | e :: r => if storeThrough s e then .next s else .next { s with ats := { s.ats with stalled := r } }

end Sys2Proof.Machine
end

