-- ==== Sys2Proof/Machine/Queues.lean ====
section
/-! DEFINITION. The queues of the dispatcher: doorbell pages and knocks (R369 to R376), the admin queue and its commands
(R377 to R384), completion entries (R391 to R395, R567) and interrupt moderation (R396, R397). -/

namespace Sys2Proof.Machine

/-- R7: what a 64-bit register holds after a write of its high half: with the low half held, or the one of the value in force. -/
def joinHalves (held : Option W32) (now : BitVec 64) (hi : W32) : BitVec 64 := hi ++ held.getD (now.setWidth 32)

/-- R4: the n little-endian host bytes from a are poisoned or timed out; the failed read is consumed. -/
def takeHostBad (a n : Nat) (s : State) : Bool × State :=
  match s.hostBad.find? (fun b => decide (a ≤ b) && decide (b < a + n)) with
  | some b => (true, { s with hostBad := s.hostBad.erase b })
  | none => (false, s)

/-! ### Groups and knocks (R369 to R374) -/

/-- Group g of function f. -/
def State.group (s : State) (f g : Nat) : Group := tget Group.reset s.disp.group (1024 * f + g)
/-- Write group g of function f. -/
def State.setGroup (s : State) (f g : Nat) (v : Group) : State :=
  { s with disp := { s.disp with group := tset Group.reset s.disp.group (1024 * f + g) v } }

/-- R372: a read of group g of function f begins, or is repeated when the one in progress ends. -/
def beginRead (f g : Nat) (s : State) : State :=
  let r := s.group f g
  s.setGroup f g (if r.reading then { r with again := true } else { r with reading := true, again := false })

/-- R370, R373: every group of function f is read once. -/
def readAllGroups (f : Nat) (s : State) : State := (List.range 1024).foldl (fun s g => beginRead f g s) s

/-- R370, R373, R514: a knock finds a function only while its doorbell page is in use, and none on a member of a cascade. -/
def knock (f : Nat) (all : Bool) (g : Nat) (s : State) : State :=
  if !hostOpen f s || !(s.fn f).dbpg.en || isMember s then s else if all then readAllGroups f s else beginRead f g s

def execKnockGroup (f : FuncIx) (g : BitVec 10) (s : State) : Host.Outcome State Fault Refusal := .next (hostWrite f.val (knock f.val false g.toNat) s)
def execKnockAll (f : FuncIx) (s : State) : Host.Outcome State Fault Refusal := .next (hostWrite f.val (knock f.val true 0) s)

/-- R374: POLL microseconds have passed: every active group is read. -/
def execPoll (s : State) : Host.Outcome State Fault Refusal :=
  if s.power.poll = 0 ∨ s.power.phase ≠ .ready then .next s
  else .next ((s.disp.group.filter (fun e => e.2.active)).foldl (fun s e => beginRead (e.1 / 1024) (e.1 % 1024) s) s)

/-- R370: a commit of the doorbell page. -/
def commitDbpg (f : Nat) (s : State) : State :=
  let d := (s.fn f).dbpg
  if d.stEn && decide (d.stBase = 0) then s.setFn f { s.fn f with dbpg := { d with cerr := true } }
  else
    let s := s.setFn f { s.fn f with dbpg := { d with staged := false, base := d.stBase, en := d.stEn } }
    if d.stEn then readAllGroups f s else s

/-- R15, R370, R563: a write of DBCTL; its COMMIT takes in the EN of that same write (DESIGN CHOICE, assumption 75). -/
def writeDbctl (f : Nat) (v : W32) (s : State) : State :=
  let d := (s.fn f).dbpg
  let s := s.setFn f { s.fn f with dbpg := { d with cerr := d.cerr && !bitAt v 9, stEn := bitAt v 1, staged := true } }
  if bitAt v 0 && d.staged then commitDbpg f s else s

/-- R7, R370: a write in the DBPG block. -/
def writeDbpg (f off : Nat) (v : W32) (s : State) : State :=
  let d := (s.fn f).dbpg
  match off with
  | 0 => s.setFn f { s.fn f with dbpg := { d with held := some (v &&& ~~~4095#32), staged := true } }
  | 4 => s.setFn f { s.fn f with dbpg := { d with stBase := joinHalves d.held d.base v, held := none, staged := true } }
  | 8 => writeDbctl f v s
  | _ => s

/-- DBCTL written with v and COMMIT set. -/
def execDoorbellPageCommit (f : FuncIx) (v : W32) (s : State) : Host.Outcome State Fault Refusal :=
  .next (hostWrite f.val (writeDbctl f.val (v ||| 1)) s)

/-! ### Reading a group (R369, R372, R375, R376) -/

/-- The function owns submission queue q; an admin queue exists while it is enabled. -/
def ownsSq (f q : Nat) (s : State) : Bool :=
  match s.sq q with
  | some sq => decide (sq.func = f) && (decide (64 ≤ q) || (s.fn f).admq.cur.en)
  | none => false

/-- The function owns completion queue q. -/
def ownsCq (f q : Nat) (s : State) : Bool :=
  match s.cq q with
  | some cq => decide (cq.func = f) && (decide (64 ≤ q) || (s.fn f).admq.cur.en)
  | none => false

/-- R376: SQTAIL of queue q. -/
def takeTail (f q v : Nat) (s : State) : State :=
  match s.sq q with
  | none => s
  | some sq =>
    if !ownsSq f q s || sq.disabled then s
    else if v < sq.size then s.setSq q (some { sq with tail := v })
    else holdEntry sq.cq (plainEntry 0xFFFF q 0x0021 0) (logErr false 0x0046 5 f q 0 0 (s.setSq q (some { sq with disabled := true })))

/-- R376: CQHEAD of queue q. -/
def takeHead (f q v : Nat) (s : State) : State :=
  match s.cq q with
  | none => s
  | some cq =>
    if !ownsCq f q s then s
    else if v < cq.size then s.setCq q (some { cq with head := v })
    else logErr false 0x0046 5 f q 1 0 s

/-- R372: the doorbell words of group g whose bitmap bits are set; the block of words is at host byte a. -/
def takeDoorbells (f g w a : Nat) (s : State) : State :=
  (List.range 32).foldl (fun s b =>
    if w.testBit b then
      let d := hostNat s (a + 4 * b) 4
      takeHead f (32 * g + b) (d / 65536) (takeTail f (32 * g + b) (d % 65536) s)
    else s) s

/-- R372: a read of a group ends; another begins where one was asked for. -/
def endRead (f g : Nat) (active : Bool) (s : State) : State :=
  let r := s.group f g
  s.setGroup f g (if r.again then { r with again := false, failed := false } else { reading := false, again := false, active := active, failed := false })

/-- How reading the doorbell page comes out: done, waiting for a host page, or failed. -/
inductive PageRead where
  | done (s : State)
  | wait (s : State)
  | bad (s : State)

/-- R132, R366, R367: a read of n bytes of a function's ring or page, without a PASID. -/
def ringRead (f b n : Nat) (s : State) (k : Nat → State → PageRead) : PageRead :=
  match hostXl .dispatcher f none true (0, 0) b (true, false) s with
  | .wait s => .wait s
  | .fail _ s => .bad s
  | .at a => match takeHostBad a n s with
    | (true, s) => .bad s
    | (false, s) => k a s

/-- R372: the bitmap word, then the doorbell words. -/
def readGroup (f g : Nat) (s : State) : PageRead :=
  let base := (s.fn f).dbpg.base.toNat
  ringRead f (base + 0x20000 + 4 * g) 4 s fun a s =>
    let w := hostNat s a 4
    if w = 0 then .done (endRead f g false s)
    else ringRead f (base + 128 * g) 128 s fun a s => .done (endRead f g true (takeDoorbells f g w a s))

/-- R372: the read of group g that has begun; a failed one is left to its retry (R376). -/
def execGroupRead (f : FuncIx) (g : BitVec 10) (s : State) : Host.Outcome State Fault Refusal :=
  let r := s.group f g.toNat
  if !r.reading || r.failed || s.power.phase != .ready then .next s
  else if !(s.fn f).dbpg.en then .next (endRead f g.toNat false s)
  else match readGroup f g.toNat s with
    | .done s => .next s
    | .wait s => .next s
    | .bad s => .next (s.setGroup f g.toNat { s.group f g.toNat with failed := true })

/-- R376: the read has failed twice. -/
def groupLost (f g : Nat) (s : State) : State := endRead f g false (logErr true 0x0047 5 f g 0 0 s)

/-- R376: the failed read is tried once more; ok says whether the host answers it. -/
def execDoorbellReadRetry (f : FuncIx) (g : BitVec 10) (ok : Bool) (s : State) : Host.Outcome State Fault Refusal :=
  if !(s.group f g.toNat).failed || s.power.phase != .ready then .next s
  else if !ok then .next (groupLost f g.toNat s)
  else match readGroup f g.toNat s with
    | .done s => .next s
    | .wait s => .next s
    | .bad s => .next (groupLost f g.toNat s)

/-! ### Moderation (R379, R396, R397) -/

/-- R396: the message of CQ q is sent, and N and the timer return to 0. -/
def sendModerated (q : Nat) (s : State) : State :=
  match s.cq q with
  | some c => sendVec c.func c.vec.toNat (s.setCq q (some { c with n := 0, timer := none }))
  | none => s

/-- R396: an entry has been written to CQ q. -/
def countWritten (q : Nat) (s : State) : State :=
  match s.cq q with
  | some c =>
    if !c.ien then s
    else
      let s := s.setCq q (some { c with n := c.n + 1, timer := some (c.timer.getD s.tick.toNat) })
      if c.count ≤ c.n + 1 then sendModerated q s else s
  | none => s

/-- R396: the timer of CQ q reaches CURTIME. -/
def execModerationTimer (q : BitVec 15) (s : State) : Host.Outcome State Fault Refusal :=
  match s.cq q.toNat with
  | some c => if c.timer.isSome && decide (0 < c.n) then .next (sendModerated q.toNat s) else .next s
  | none => .next s

/-- R396: a CQ with entries since its last message has reached the COUNT, or the TIME since the first of them, that take force. -/
def moderationDue (a : Admq) (c : Cq) (tick : Nat) : Bool :=
  decide (0 < c.n) && (decide (a.stCount.toNat ≤ c.n) || c.timer.elim false (fun t => decide (a.stTime.toNat ≤ tick - t)))

/-- R379, R396: the staged COUNT and TIME go to the CQ that CQMSEL names. -/
def commitModeration (f : Nat) (s : State) : State :=
  let a := (s.fn f).admq
  let q := a.cqmsel.toNat
  if !ownsCq f q s || (decide (a.stCount ≠ 0) && decide (a.stTime = 0)) then s.setFn f { s.fn f with admq := { a with modCerr := true } }
  else
    let s := s.setFn f { s.fn f with admq := { a with modStaged := false } }
    match s.cq q with
    | some c =>
      let s' := s.setCq q (some { c with count := a.stCount.toNat, time := a.stTime.toNat })
      if moderationDue a c s.tick.toNat then sendModerated q s' else s'
    | none => s

/-- R15, R377, R563: a write of CQMOD; its COMMIT takes in the COUNT and TIME of that same write (DESIGN CHOICE, assumption 75). -/
def writeCqmod (f : Nat) (v : W32) (s : State) : State :=
  let a := (s.fn f).admq
  let s := s.setFn f { s.fn f with admq := { a with
    modCerr := a.modCerr && !bitAt v 9, stCount := BitVec.ofNat 8 (bitsOf v 24 8), stTime := BitVec.ofNat 12 (bitsOf v 12 12), modStaged := true } }
  if bitAt v 0 && a.modStaged then commitModeration f s else s

/-- CQMOD written with v and COMMIT set. -/
def execModerationCommit (f : FuncIx) (v : W32) (s : State) : Host.Outcome State Fault Refusal :=
  .next (hostWrite f.val (writeCqmod f.val (v ||| 1)) s)

/-! ### Commits and deletions that wait (R378, R383) -/

/-- R381, R392: a submission queue as it is created. -/
def Sq.new (f : Nat) (base : BitVec 64) (size cq prio weight : Nat) : Sq :=
  { func := f, base := base, size := size, cq := cq, prio := prio, weight := weight, head := 0, tail := 0, disabled := false, fetched := [],
    deleting := none, passes := 0 }

/-- R381, R392: a completion queue as it is created. -/
def Cq.new (f : Nat) (base : BitVec 64) (size : Nat) (vec : BitVec 11) (ien : Bool) (count time : Nat) : Cq :=
  { func := f, base := base, size := size, vec := vec, ien := ien, count := count, time := time, head := 0, tail := 0, phase := true,
    disabled := false, retry := false, held := [], n := 0, timer := none }

/-- R378: the rings of a committed group. A ring whose base or size changes starts again, and a disabled one with it (R567). -/
def applyRings (f : Nat) (r : Rings) (s : State) : State :=
  let a := (s.fn f).admq
  let sq0 := Sq.new f r.asq r.asqSize.toNat f 0 1
  let cq0 := Cq.new f r.acq r.acqSize.toNat r.vec r.ien 0 0
  let sq := match s.sq f with
    | some q => if q.base = r.asq ∧ q.size = r.asqSize.toNat then q else sq0
    | none => sq0
  let cq := match s.cq f with
    | some c =>
      if c.base = r.acq ∧ c.size = r.acqSize.toNat then { c with vec := r.vec, ien := r.ien }
      else { cq0 with count := c.count, time := c.time, n := c.n, timer := c.timer, held := c.held }
    | none => cq0
  let s := s.setFn f { s.fn f with admq := { a with due := none, cur := r } }
  (s.setSq f (some sq)).setCq f (some cq)

/-- The entries of queue q that its CQ still holds. -/
def holdsFor (q cq : Nat) (s : State) : Bool :=
  match s.cq cq with
  | some c => c.held.any (fun e => decide (e.sqid = q))
  | none => false

/-- R383: a DELETE_SQ of the function has not completed. -/
def deletingSq (f : Nat) (s : State) : Bool :=
  s.disp.sq.any (fun e => match e.2 with | some q => decide (q.func = f) && q.deleting.isSome | none => false)

/-- R378: admin commands of the function that have been fetched and have not completed with their entries written. -/
def adminBusy (f : Nat) (s : State) : Bool :=
  s.mem.scrub.any (fun e => decide (e.func = f)) || deletingSq f s || holdsFor f f s

/-- An admin command of function f completes. -/
def adminDone (f cid status info : Nat) (s : State) : State := holdEntry f (plainEntry cid f status info) s

/-- R383: a DELETE_SQ completes once no started job of its queue is left and their entries are written. -/
def settleDelete (q : Nat) (s : State) : State :=
  match s.sq q with
  | none => s
  | some sq =>
    match sq.deleting with
    | none => s
    | some cid =>
      if s.disp.jobs.any (fun e => match e.2 with | some j => decide (j.sq = q) | none => false) || holdsFor q sq.cq s then s
      else adminDone sq.func cid.toNat 0 0 (s.setSq q none)

/-- R378: a commit of the admin rings that waits takes effect. -/
def settleCommit (f : Nat) (s : State) : State :=
  match (s.fn f).admq.due with
  | some r => if adminBusy f s then s else applyRings f r s
  | none => s

/-- R378, R383: what waited for admin commands and jobs to end (DEDUCED, assumption 47). -/
def settleQueues (s : State) : State :=
  let s := (s.disp.sq.map Prod.fst).foldl (fun s q => settleDelete q s) s
  (s.funcs.map Prod.fst).foldl (fun s f => settleCommit f s) s

/-- R368: a ring size. -/
def ringSize (n : Nat) : Bool := [16, 32, 64, 128, 256, 512, 1024, 2048, 4096, 8192, 16384, 32768, 65536].contains n

/-- R378, R514: a commit of the admin rings. -/
def commitAdmq (f : Nat) (s : State) : State :=
  let a := (s.fn f).admq
  let r := a.st
  if r.en && (isMember s || !ringSize r.asqSize.toNat || !ringSize r.acqSize.toNat || decide (r.asq = 0) || decide (r.acq = 0) || decide (vectorCount f ≤ r.vec.toNat)) then
    s.setFn f { s.fn f with admq := { a with cerr := true } }
  else settleCommit f (s.setFn f { s.fn f with admq := { a with staged := false, due := some r } })

/-- R12, R378: staged values of the admin rings wait for a commit, or for one that is due. -/
def Admq.shownStaged (a : Admq) : Bool := a.staged || a.due.isSome

/-- R15, R377, R563: a write of ACTL; its COMMIT takes in the AVEC, AIEN and EN of that same write (DESIGN CHOICE, assumption 75). -/
def writeActl (f : Nat) (v : W32) (s : State) : State :=
  let a := (s.fn f).admq
  let r := { a.st with vec := BitVec.ofNat 11 (bitsOf v 16 11), ien := bitAt v 15, en := bitAt v 1 }
  let s := s.setFn f { s.fn f with admq := { a with cerr := a.cerr && !bitAt v 9, staged := true, st := r } }
  if bitAt v 0 && a.shownStaged then commitAdmq f s else s

/-- R7, R377: a write in the ADMQ block. -/
def writeAdmq (f off : Nat) (v : W32) (s : State) : State :=
  let a := (s.fn f).admq
  let put := fun (a : Admq) => s.setFn f { s.fn f with admq := a }
  match off with
  | 0x00 => put { a with heldAsq := some (v &&& ~~~4095#32), staged := true }
  | 0x04 => put { a with st := { a.st with asq := joinHalves a.heldAsq a.cur.asq v }, heldAsq := none, staged := true }
  | 0x08 => put { a with heldAcq := some (v &&& ~~~4095#32), staged := true }
  | 0x0C => put { a with st := { a.st with acq := joinHalves a.heldAcq a.cur.acq v }, heldAcq := none, staged := true }
  | 0x10 => put { a with st := { a.st with asqSize := BitVec.ofNat 17 (bitsOf v 0 17) }, staged := true }
  | 0x14 => put { a with st := { a.st with acqSize := BitVec.ofNat 17 (bitsOf v 0 17) }, staged := true }
  | 0x18 => writeActl f v s
  | 0x40 => put { a with cqmsel := BitVec.ofNat 16 (bitsOf v 0 16) }
  | 0x44 => writeCqmod f v s
  | _ => s

/-- ACTL written with v and COMMIT set. -/
def execAdminQueueCommit (f : FuncIx) (v : W32) (s : State) : Host.Outcome State Fault Refusal :=
  .next (hostWrite f.val (writeActl f.val (v ||| 1)) s)

/-! ### Fetching descriptors (R393, R398) -/

/-- Descriptors fetched and not started, over all queues. -/
def fetchedInAll (s : State) : Nat := (s.disp.sq.map (fun e => match e.2 with | some q => q.fetched.length | none => 0)).foldl (· + ·) 0

/-- R370, R378, R383, R398, R567: the dispatcher may fetch from queue q. -/
def canFetch (q : Nat) (sq : Sq) (s : State) : Bool :=
  let fn := s.fn sq.func
  decide (s.power.phase = .ready) && s.disp.fetching && fn.ready && fn.dbpg.en && (decide (64 ≤ q) || fn.admq.cur.en) && decide (sq.head ≠ sq.tail)
    && !sq.disabled && sq.deleting.isNone && decide (sq.fetched.length < 8) && decide (fetchedInAll s < 4096)
    && (match s.cq sq.cq with | some c => !c.disabled | none => false)
    && (decide (64 ≤ q) || (fn.admq.due.isNone && !deletingSq sq.func s))

/-- R132, R393: the descriptor d is fetched from the head of queue q: true when it has been read. A failed read completes with
HOST_PAGE_INVALID and CID 0xFFFF. -/
def fetchSlot (q : Nat) (d : Descriptor) (s : State) : Bool × State :=
  match s.sq q with
  | none => (false, s)
  | some sq =>
    if !canFetch q sq s then (false, s)
    else
      let passed := fun (s : State) => s.setSq q (some { sq with head := (sq.head + 1) % sq.size })
      match ringRead sq.func (sq.base.toNat + 64 * sq.head) 64 s (fun a s => .done (putHost a d.toNat 64 s)) with
      | .done s => (true, passed s)
      | .wait s => (false, s)
      | .bad s => (false, holdEntry sq.cq (plainEntry 0xFFFF q 0x0011 0) (passed s))

/-- R398: a job descriptor waits in its queue to be started. -/
def fetchJob (q : Nat) (d : Descriptor) (s : State) : State :=
  match fetchSlot q d s with
  | (false, s) => s
  | (true, s) =>
    if q < 64 then holdEntry q (plainEntry (dNat d 2 2) q 0x0030 0) s
    else match s.sq q with
      | some sq => s.setSq q (some { sq with fetched := sq.fetched ++ [d] })
      | none => s

/-- R381: OPC names an admin command. -/
def adminOpc (n : Nat) : Bool := decide (0x80 ≤ n) && decide (n ≤ 0x88)

/-- R382, R385: a descriptor of OPC 0x00, or one of no command of its queue's kind. -/
def execJobNop (q : BitVec 15) (desc : Descriptor) (s : State) : Host.Outcome State Fault Refusal :=
  let o := dByte desc 0
  if o = 1 ∨ o = 2 ∨ (q.toNat < 64 ∧ adminOpc o = true) then .next s else .next (fetchJob q.toNat desc s)
/-- R385: a descriptor of OPC 0x01. -/
def execNative (q : BitVec 15) (desc : Descriptor) (s : State) : Host.Outcome State Fault Refusal :=
  if dByte desc 0 = 1 then .next (fetchJob q.toNat desc s) else .next s

/-! ### Admin commands (R381 to R384) -/

/-- R382, R393: the byte offset of the first field at fault: a byte that is not named and not 0, or a check that fails. -/
def faultAt (d : Descriptor) (named : List (Nat × Nat)) (checks : List (Nat × Bool)) : Option Nat :=
  (List.range 64).find? (fun i =>
    (!(((0, 1) :: (2, 2) :: named).any (fun r => decide (r.1 ≤ i) && decide (i < r.1 + r.2))) && decide (dByte d i ≠ 0)) ||
      checks.any (fun c => decide (c.1 = i) && c.2))

/-- R381, R382: an admin command of function f with its OPC, the fields it names and its checks, and what it does. -/
def admin (opc : Nat) (named : List (Nat × Nat)) (f : Nat) (d : Descriptor) (checks : State → List (Nat × Bool)) (act : Nat → State → State) (s : State) : State :=
  if dByte d 0 ≠ opc then s
  else match fetchSlot f d s with
    | (false, s) => s
    | (true, s) =>
      match faultAt d named (checks s) with
      | some o => adminDone f (dNat d 2 2) 0x0030 o s
      | none => act (dNat d 2 2) s

/-- R367: numbers of I/O queues. -/
def ioQueue (q : Nat) : Bool := decide (64 ≤ q) && decide (q ≤ 32767)

def execCreateCq (f : FuncIx) (desc : Descriptor) (s : State) : Host.Outcome State Fault Refusal :=
  let base := dNat desc 16 8
  let q := dNat desc 28 2
  let v := dNat desc 30 2
  let t := dNat desc 34 2
  .next (admin 0x80 [(16, 8), (24, 4), (28, 2), (30, 2), (32, 1), (34, 2)] f.val desc
    (fun s => [(16, decide (base = 0) || decide (base % 4096 ≠ 0)), (24, !ringSize (dNat desc 24 4)), (28, !ioQueue q || (s.cq q).isSome),
      (30, decide (v / 2048 % 16 ≠ 0) || decide (vectorCount f.val ≤ v % 2048)), (32, decide (dByte desc 32 ≠ 0) && decide (t % 4096 = 0)), (34, decide (4096 ≤ t))])
    (fun cid s => adminDone f.val cid 0 0
      (s.setCq q (some (Cq.new f.val (BitVec.ofNat 64 base) (dNat desc 24 4) (BitVec.ofNat 11 v) (decide (32768 ≤ v)) (dByte desc 32) t)))) s)

/-- R397: a moderated message still pending is sent before DELETE_CQ completes. -/
def execDeleteCq (f : FuncIx) (desc : Descriptor) (s : State) : Host.Outcome State Fault Refusal :=
  let q := dNat desc 28 2
  .next (admin 0x81 [(28, 2)] f.val desc
    (fun s => [(28, decide (q < 64) || !ownsCq f.val q s || s.disp.sq.any (fun e => match e.2 with | some x => decide (x.cq = q) | none => false))])
    (fun cid s =>
      let pending := match s.cq q with | some c => decide (0 < c.n) | none => false
      adminDone f.val cid 0 0 ((if pending then sendModerated q s else s).setCq q none)) s)

def execCreateSq (f : FuncIx) (desc : Descriptor) (s : State) : Host.Outcome State Fault Refusal :=
  let base := dNat desc 16 8
  let q := dNat desc 28 2
  .next (admin 0x82 [(16, 8), (24, 4), (28, 2), (30, 2), (32, 1), (33, 1)] f.val desc
    (fun s => [(16, decide (base = 0) || decide (base % 4096 ≠ 0)), (24, !ringSize (dNat desc 24 4)), (28, !ioQueue q || (s.sq q).isSome),
      (30, !ownsCq f.val (dNat desc 30 2) s), (32, decide (8 ≤ dByte desc 32)), (33, decide (dByte desc 33 = 0) || decide (16 < dByte desc 33))])
    (fun cid s => adminDone f.val cid 0 0
      (s.setSq q (some (Sq.new f.val (BitVec.ofNat 64 base) (dNat desc 24 4) (dNat desc 30 2) (dByte desc 32) (dByte desc 33))))) s)

/-- The reservation of a queue goes with the job it was for. -/
def unreserve (q : Nat) (s : State) : State := if s.disp.reserve = some q then { s with disp := { s.disp with reserve := none } } else s

/-- R383. -/
def execDeleteSq (f : FuncIx) (desc : Descriptor) (s : State) : Host.Outcome State Fault Refusal :=
  let q := dNat desc 28 2
  .next (admin 0x83 [(28, 2)] f.val desc (fun s => [(28, decide (q < 64) || !ownsSq f.val q s)])
    (fun cid s => match s.sq q with
      | some sq =>
        let s := unreserve q (s.setSq q (some { sq with fetched := [], deleting := some (BitVec.ofNat 16 cid) }))
        settleDelete q (sq.fetched.foldl (fun s d => holdEntry sq.cq (unstarted (dNat d 2 2) q 0x0021 0) s) s)
      | none => s) s)

/-- R382: a job that has started and not completed uses the context. -/
def ctxInUse (c : Nat) (s : State) : Bool :=
  s.disp.jobs.any (fun e => match e.2 with | some j => decide (dNat j.desc 4 2 = c) | none => false)

/-- R111: a context record is written. -/
def setCtx (c : Nat) (r : Option Ctx) (s : State) : State := { s with ctxs := tset none s.ctxs c r }

/-- R112, R382: the checks of a context record. -/
def contextChecks (f : Nat) (d : Descriptor) (s : State) : List (Nat × Bool) :=
  let c := dNat d 16 2
  let fl := dNat d 18 2
  let save := dNat d 40 8
  [(16, decide (4096 ≤ c) || ctxInUse c s || (match s.ctx c with | some r => decide (r.func ≠ f) | none => false)),
   (18, decide (8 ≤ fl) || decide (fl % 4 = 2)), (20, decide (2 ^ 20 ≤ dNat d 20 4)),
   (24, decide (2 ^ 40 ≤ dNat d 24 8) || rootBad s (dNat d 24 8)), (32, decide (dNat d 32 8 % 4096 ≠ 0)),
   (40, decide (2 ^ 40 ≤ save) || decide (save % 65536 ≠ 0) || decide (0xF000000000 ≤ save))]

/-- R382: every cached translation of a context goes. -/
def dropContext (c : Nat) (s : State) : State := dropTlb (fun k => decide (k / 2 ^ 25 = c)) s

def execSetContext (f : FuncIx) (desc : Descriptor) (s : State) : Host.Outcome State Fault Refusal :=
  let c := dNat desc 16 2
  .next (admin 0x84 [(16, 32)] f.val desc (contextChecks f.val desc)
    (fun cid s => adminDone f.val cid 0 0 (dropContext c (setCtx c (some
      { func := f.val, supv := bitAt desc 144, htrap := bitAt desc 145, prien := bitAt desc 146, pasid := BitVec.ofNat 20 (dNat desc 20 4),
        ptroot := BitVec.ofNat 40 (dNat desc 24 8), hostBase := BitVec.ofNat 64 (dNat desc 32 8), saveVa := BitVec.ofNat 40 (dNat desc 40 8) }) s))) s)

/-- R382: the context in force or staged in a window of SPACE 2. -/
def windowUses (f c : Nat) (s : State) : Bool :=
  let w := (s.fn f).win
  (decide (w.space = 2) && decide (w.ctx.toNat = c)) || (decide (w.stSpace = 2) && decide (w.stCtx.toNat = c))

def execDeleteContext (f : FuncIx) (desc : Descriptor) (s : State) : Host.Outcome State Fault Refusal :=
  let c := dNat desc 16 2
  .next (admin 0x85 [(16, 2)] f.val desc
    (fun s => [(16, decide (4096 ≤ c) || ctxInUse c s || windowUses f.val c s || (match s.ctx c with | some r => decide (r.func ≠ f.val) | none => true))])
    (fun cid s => adminDone f.val cid 0 0 (dropContext c (setCtx c none s))) s)

/-- R383: the started job of a CID with a share that has not ended. -/
def startedJob (q cid : Nat) (s : State) : Option Nat :=
  (s.disp.jobs.find? (fun e => match e.2 with
    | some j => decide (j.sq = q) && decide (dNat j.desc 2 2 = cid) && j.ending.isNone && j.shares.any (fun h => match h with | .ended _ => false | _ => true)
    | none => false)).map Prod.fst

/-- R383: end the job that ABORT names: whether one was found. -/
def abortJob (q cid : Nat) (s : State) : Bool × State :=
  match startedJob q cid s with
  | some j => (true, finishJob j (JobEnd.plain 0x0020 0) s)
  | none =>
    match s.sq q with
    | some sq => match sq.fetched.find? (fun d => decide (dNat d 2 2 = cid)) with
      | some d => (true, holdEntry sq.cq (unstarted cid q 0x0020 0) (unreserve q (s.setSq q (some { sq with fetched := sq.fetched.erase d }))))
      | none => (false, s)
    | none => (false, s)

/-- DEDUCED, assumption 48. -/
def execAbort (f : FuncIx) (desc : Descriptor) (s : State) : Host.Outcome State Fault Refusal :=
  let q := dNat desc 28 2
  .next (admin 0x86 [(28, 2), (30, 2)] f.val desc (fun s => [(28, !ownsSq f.val q s)])
    (fun cid s =>
      let (found, s) := abortJob q (dNat desc 30 2) s
      adminDone f.val cid 0 (if found then 1 else 0) s) s)

/-- R57, R104, R384: a tract range of a module of the cascade, against that module's own tract count. -/
def rangeChecks (module_ lo hi : Nat) (d : Descriptor) (s : State) : List (Nat × Bool) :=
  let m := dByte d module_
  [(module_, decide (8 ≤ m) || !inCascade s m), (lo, decide (dNat d hi 4 < dNat d lo 4)), (hi, decide (tractsOf s m ≤ dNat d hi 4))]

/-- R106: one more SCRUB waits. -/
def addScrub (e : Scrub) (s : State) : State := { s with mem := { s.mem with scrub := s.mem.scrub ++ [e] } }

/-- R104, R106: the SCRUB joins those that wait. -/
def execScrub (f : FuncIx) (desc : Descriptor) (s : State) : Host.Outcome State Fault Refusal :=
  .next (admin 0x87 [(16, 1), (20, 4), (24, 4), (28, 1), (32, 8)] f.val desc
    (fun s => [(0, decide (f.val ≠ 0)), (28, decide (2 ≤ dByte desc 28))] ++ rangeChecks 16 20 24 desc s)
    (fun cid s => addScrub
      { func := f.val, cid := BitVec.ofNat 16 cid, module := dByte desc 16, first := dNat desc 20 4, last := dNat desc 24 4,
        rewrite := decide (dByte desc 28 = 1), addr := BitVec.ofNat 64 (dNat desc 32 8), lanes := 0 } s) s)

/-- R384: tracts given to a function. -/
def setOwners (f lo : Nat) : Nat → Tbl Nat → Tbl Nat
  | 0, m => m
  | n + 1, m => setOwners f (lo + 1) n (tset 0 m lo f)

/-- R384: the range moves to a function, zeroed; another module's range is that module's. -/
def assignTracts (m f lo hi : Nat) (s : State) : State :=
  if m ≠ s.straps.modId.toNat then s
  else
    let s := zeroTracts lo hi (dropLeaves lo hi s)
    { s with mem := { s.mem with owner := setOwners f lo (hi + 1 - lo) s.mem.owner } }

def execAssignTracts (f : FuncIx) (desc : Descriptor) (s : State) : Host.Outcome State Fault Refusal :=
  .next (admin 0x88 [(16, 1), (20, 4), (24, 4), (28, 1)] f.val desc
    (fun s => [(0, decide (f.val ≠ 0)), (16, decide (64 ≤ dByte desc 16))] ++ rangeChecks 28 20 24 desc s)
    (fun cid s => adminDone f.val cid 0 0 (assignTracts (dByte desc 28) (dByte desc 16) (dNat desc 20 4) (dNat desc 24 4) s)) s)

/-! ### The end of a scrub (R105 to R107) -/

/-- R107: the summary record, as fields (offset, bytes, value). -/
def summaryFields (e : Scrub) (c : ScrubCount) : List (Nat × Nat × Nat) :=
  let as := c.addrs.take 16
  [(0, 4, e.last + 1 - e.first), (4, 4, as.length), (8, 8, c.corr), (16, 8, c.uncorr), (24, 8, c.poison), (32, 4, e.lanes), (36, 28, 0)]
    ++ (List.range 16).map (fun i => (64 + 8 * i, 8, (as[i]?).getD 0))

/-- R105: the scrub of this module's tracts; another module's counts are free (DESIGN CHOICE, assumption 16). -/
def runScrub (e : Scrub) (s : State) : ScrubCount × State :=
  if e.module = s.straps.modId.toNat then
    let c := s.mem.memc
    let s := if c.busy && decide (c.curFirst ≤ e.last) && decide (e.first ≤ c.curLast) then finishTracts s else s
    scrubTracts e.rewrite e.first e.last s
  else
    let n := fun i => Config.freeNat s.draw i
    ({ corr := n 0, uncorr := n 1, poison := 64 * n 2, addrs := (List.range (min 16 (n 1))).map (fun i => (e.module * 2 ^ 37 + 64 * n (3 + i)) % 2 ^ 40) }, s.drawn)

/-- R107: lanes found dead while the scrub ran, which the entry that stands first has counted; another module's are free. -/
def newLanes (e : Scrub) (s : State) : Nat :=
  if e.module = s.straps.modId.toNat then (s.mem.scrub.head?).elim 0 Scrub.lanes else Config.freeNat s.draw 0

/-- R106: the first scrub ends: its summary record is written and it completes. -/
def execScrubDone (s : State) : Host.Outcome State Fault Refusal :=
  match s.mem.scrub with
  | [] => .next s
  | e :: _ =>
    if s.power.phase ≠ .ready then .next s
    else
      let a := e.addr.toNat
      let finish := fun (status : Nat) (s : State) =>
        let s := { s with mem := { s.mem with scrub := s.mem.scrub.drop 1 } }
        settleQueues (adminDone e.func e.cid.toNat status 0 (if status = 0 then logErr false 0x0021 5 0 0 0 0 s else s))
      if e.module = s.straps.modId.toNat ∧ scrubBarred e.rewrite e.first e.last s = true then .next s
      else match hostXl .dispatcher e.func none true (0, 0) a (false, true) s with
      | .wait s => .next s
      | .fail _ s => .next (finish 0x0011 (runScrub e s).2)
      | .at b =>
        match hostXl .dispatcher e.func none true (0, 0) (a + 191) (false, true) s with
        | .wait s => .next s
        | .fail _ s => .next (finish 0x0011 (runScrub e s).2)
        | .at b2 =>
          let (c, s) := runScrub e s
          let e := { e with lanes := newLanes e s }
          let place := fun o => if (a + o) / 4096 = a / 4096 then b + o else b2 - 191 + o
          .next (finish 0 (ordered ((summaryFields e c).foldl (fun s x => (List.range x.2.1).foldl (fun s i => putHost (place (x.1 + i)) (x.2.2 / 2 ^ (8 * i)) 1 s) s) s)))

/-! ### Writing completion entries (R391 to R395, R567) -/

/-- R391: the 32 bytes of an entry, as a little-endian number. -/
def entryBytes (e : Entry) (sqhead module_ : Nat) (phase : Bool) : Nat :=
  e.cid.toNat + e.sqid % 2 ^ 16 * 2 ^ 16 + sqhead % 2 ^ 16 * 2 ^ 32 + e.status.toNat * 2 ^ 48 + (e.cause % 64 + e.detail.toNat * 256) * 2 ^ 64
    + e.sealZero.toNat * 2 ^ 96 + e.reason % 256 * 2 ^ 104 + e.field % 2 ^ 16 * 2 ^ 112 + e.info.toNat * 2 ^ 128 + e.rcount.toNat * 2 ^ 192
    + e.share % 256 * 2 ^ 224 + (if e.hostOff then 2 ^ 232 else 0) + ((if phase then 1 else 0) + module_ * 2) * 2 ^ 248

/-- R395: the CQ holds size - 1 entries. -/
def cqFull (c : Cq) : Bool := decide ((c.tail + 1) % c.size = c.head)

/-- R392: the entry goes into the slot at the tail, at host byte a. -/
def putEntry (q : Nat) (c : Cq) (e : Entry) (rest : List Entry) (a : Nat) (s : State) : State :=
  let sqhead := match s.sq e.sqid with | some x => x.head | none => 0
  let s := ordered (putHost a (entryBytes e sqhead s.straps.modId.toNat c.phase) 32 s)
  let tail := (c.tail + 1) % c.size
  let s := s.setCq q (some { c with tail := tail, phase := if tail = 0 then !c.phase else c.phase, held := rest, retry := false })
  settleQueues (countWritten q s)

/-- R390: the ended jobs whose entries go to CQ q, tried again. -/
def retryEnding (q : Nat) (s : State) : State :=
  (s.disp.jobs.filterMap (fun e => e.2.bind (fun j => if j.ending.isSome && decide (jobCq s j = q) then some e.1 else none))).foldl (fun s j => tryFinish j s) s

/-- R392, R394, R395, R567: the oldest entry held for CQ q is written, unless the CQ is full or its page waits; a failed
translation is left to its retry. -/
def execCompletionEntryWrite (q : BitVec 15) (s : State) : Host.Outcome State Fault Refusal :=
  if s.power.phase ≠ .ready then .next s
  else
    let s := settleQueues (retryEnding q.toNat s)
    match s.cq q.toNat with
    | none => .next s
    | some c =>
      match c.held with
      | [] => .next s
      | e :: rest =>
        if c.retry || c.disabled || cqFull c || !cqLive q.toNat c s then .next s
        else match hostXl .dispatcher c.func none true (0, 0) (c.base.toNat + 32 * c.tail) (false, true) s with
          | .wait s => .next s
          | .fail _ s => .next (s.setCq q.toNat (some { c with retry := true }))
          | .at a => .next (putEntry q.toNat c e rest a s)

/-- R567: CQ q is disabled. -/
def disableCq (q : Nat) (s : State) : State :=
  match s.cq q with
  | none => s
  | some c =>
    let s := s.setCq q (some { c with disabled := true, retry := false, held := [] })
    let s := logErr true 0x0064 5 c.func q 0 0 s
    let s := { s with disp := { s.disp with sq := tmap none (fun _ x => x.map (fun x => if x.cq = q then { x with fetched := [] } else x)) s.disp.sq } }
    settleQueues s

/-- R567: the failed translation of CQ q is tried once more; ok says whether the host answers it. -/
def execCqWriteRetry (q : BitVec 15) (ok : Bool) (s : State) : Host.Outcome State Fault Refusal :=
  match s.cq q.toNat with
  | none => .next s
  | some c =>
    match c.held with
    | [] => .next s
    | e :: rest =>
      if !c.retry || s.power.phase != .ready then .next s
      else if !ok then .next (disableCq q.toNat s)
      else match hostXl .dispatcher c.func none true (0, 0) (c.base.toNat + 32 * c.tail) (false, true) s with
        | .wait s => .next s
        | .fail _ s => .next (disableCq q.toNat s)
        | .at a => .next (putEntry q.toNat c e rest a s)

/-- R395: the doorbell word of a full CQ is read again for its head. -/
def execCqHeadRecheck (q : BitVec 15) (s : State) : Host.Outcome State Fault Refusal :=
  match s.cq q.toNat with
  | none => .next s
  | some c =>
    if !cqFull c || c.held.isEmpty || !(s.fn c.func).dbpg.en || s.power.phase != .ready then .next s
    else match ringRead c.func ((s.fn c.func).dbpg.base.toNat + 4 * q.toNat) 4 s (fun a s => .done (takeHead c.func q.toNat (hostNat s a 4 / 65536) s)) with
      | .done s => .next s
      | .wait s => .next s
      | .bad s => .next s

end Sys2Proof.Machine
end

