-- ==== Sys2Proof/Machine/Gauges.lean ====
section
/-! DEFINITION. The gauges of the transfer engines (R41 to R53): one field of a record between host bytes and device words. -/

namespace Sys2Proof.Machine

/-- R421: one field of a field list; bad marks a reserved bit or byte that is not 0. -/
structure GaugeField where
  hoff : Nat
  gauge : Nat
  doff : Nat
  n : Nat
  size : Nat
  scale : Nat
  point : Bool
  blank : Bool
  fill : Bool
  deriving DecidableEq, Repr

/-- R41: the gauge moves an amount. -/
def GaugeField.amount (f : GaugeField) : Bool := decide (3 ≤ f.gauge)

/-- R41: host bytes of a field. -/
def GaugeField.bytes (f : GaugeField) : Nat :=
  match f.gauge with
  | 0 => 4 * f.n
  | 1 => 3 * f.n
  | 2 => 5 * ((f.n + 1) / 2)
  | 5 => 8
  | _ => f.size

/-- Host bytes as a little-endian number. -/
def leNat : List Byte → Nat
  | [] => 0
  | b :: bs => b.toNat + 256 * leNat bs

/-- A number in n little-endian bytes. -/
def leBytes : Nat → Nat → List Byte
  | 0, _ => []
  | n + 1, v => BitVec.ofNat 8 v :: leBytes n (v / 256)

/-- What the input of a field comes to: words, with the amount; or a reason code of R52. -/
inductive GaugeIn where
  | ok (ws : List Word) (v : Int)
  | bad (reason : Nat)
  deriving DecidableEq, Repr

/-! ### Word gauges (R43 to R45) -/

/-- n containers of w bytes, one word each. -/
def containersIn (w : Nat) : Nat → List Byte → List Nat
  | 0, _ => []
  | n + 1, bs => leNat (bs.take w) :: containersIn w n (bs.drop w)

/-- R43, R44: containers of w bytes; the bits above bit 19 are 0. -/
def wordsIn (w n : Nat) (bs : List Byte) : GaugeIn :=
  let cs := containersIn w n bs
  if cs.all (fun c => decide (c < 2 ^ 20)) then .ok (cs.map (BitVec.ofNat 20)) 0 else .bad 1

/-- R45: two words in each 5-byte group; an odd last group has its upper half 0. -/
def denseIn (n : Nat) (bs : List Byte) : GaugeIn :=
  let gs := containersIn 5 ((n + 1) / 2) bs
  let ws := (gs.flatMap (fun g => [BitVec.ofNat 20 g, BitVec.ofNat 20 (g / 2 ^ 20)]))
  if n % 2 = 1 ∧ (ws[n]?).getD 0 ≠ 0 then .bad 1 else .ok (ws.take n) 0

/-- R45: the groups of a list of words. -/
def denseOut : List Word → List Byte
  | [] => []
  | [a] => leBytes 5 a.toNat
  | a :: b :: r => leBytes 5 (a.toNat + b.toNat * 2 ^ 20) ++ denseOut r

/-! ### Digits (R47, R48) -/

/-- R47: a digit. -/
def isDigit (b : Byte) : Bool := decide (0x30 ≤ b.toNat) && decide (b.toNat ≤ 0x39)

/-- Digits as a number. -/
def digitsNat (ds : List Byte) : Nat := ds.foldl (fun t b => 10 * t + (b.toNat - 0x30)) 0

/-- R47, R52: text input: the value in units of 10^-SCALE, or the lowest reason that applies. A point with no digit anywhere is without
digits and not out of order (DESIGN CHOICE, assumption 90). -/
def textIn (f : GaugeField) (bs : List Byte) : Int ⊕ Nat :=
  let known := fun (b : Byte) => isDigit b || b = 0x20 || b = 0x2B || b = 0x2D || b = 0x2E
  let r := bs.dropWhile (· = 0x20)
  let neg := decide (r.head? = some 0x2D)
  let r := if r.head? = some 0x2D ∨ r.head? = some 0x2B then r.drop 1 else r
  let ds := r.takeWhile isDigit
  let r := r.dropWhile isDigit
  let dot := decide (r.head? = some 0x2E)
  let r := if dot then r.drop 1 else r
  let fs := if dot then r.takeWhile isDigit else []
  let r := if dot then r.dropWhile isDigit else r
  let rest := r.dropWhile (· = 0x20)
  if !bs.all known || !rest.isEmpty || (dot && !f.point) || (ds.isEmpty && !fs.isEmpty) then .inr 2
  else if ds.isEmpty then (if f.blank && bs.all (· = 0x20) then .inl 0 else .inr 3)
  else if dot && (decide (f.scale < fs.length) || decide (f.scale = 0)) then .inr 4
  else
    let m := if f.point then digitsNat ds * 10 ^ f.scale + digitsNat fs * 10 ^ (f.scale - fs.length) else digitsNat ds
    .inl (if neg then -Int.ofNat m else Int.ofNat m)

/-- The decimal digits of a number, at least w of them; fuel bounds them. -/
def decimalDigits : Nat → Nat → List Byte
  | 0, _ => []
  | w + 1, v => decimalDigits w (v / 10) ++ [BitVec.ofNat 8 (0x30 + v % 10)]

/-- The count of digits of a number below 10^bound, at least 1. -/
def digitCount (bound v : Nat) : Nat := ((List.range (bound + 1)).find? (fun k => decide (0 < k) && decide (v < 10 ^ k))).getD (bound + 1)

/-- R48: text output: none where the value needs more than WIDTH bytes. -/
def textOut (f : GaugeField) (v : Int) : Option (List Byte) :=
  let m := v.natAbs
  let frac := if f.point then f.scale else 0
  let count := max (digitCount 64 m) (frac + 1)
  let ds := decimalDigits count m
  let body := if 0 < frac then ds.take (count - frac) ++ [0x2E] ++ ds.drop (count - frac) else ds
  let sign : List Byte := if v < 0 then [0x2D] else []
  let pad := f.size - sign.length - body.length
  if f.size < sign.length + body.length then none
  else if f.fill then some (sign ++ List.replicate pad 0x30 ++ body)
  else some (List.replicate pad 0x20 ++ sign ++ body)

/-! ### Packed decimal and binary (R49, R50) -/

/-- The nibbles of a byte string, high first. -/
def nibbles (bs : List Byte) : List Nat := bs.flatMap (fun b => [b.toNat / 16, b.toNat % 16])

/-- R49, R52: packed input. -/
def packedIn (bs : List Byte) : Int ⊕ Nat :=
  let ns := nibbles bs
  let ds := ns.dropLast
  let sg := ns.getLastD 0
  if ds.any (fun d => decide (10 ≤ d)) then .inr 5
  else if sg < 10 then .inr 6
  else
    let m := Int.ofNat (ds.foldl (fun t d => 10 * t + d) 0)
    .inl (if sg = 0xB ∨ sg = 0xD then -m else m)

/-- R49: packed output of LENGTH bytes. -/
def packedOut (len : Nat) (v : Int) : Option (List Byte) :=
  if 10 ^ (2 * len - 1) ≤ v.natAbs then none
  else
    let ns := (decimalDigits (2 * len - 1) v.natAbs).map (fun b => b.toNat - 0x30) ++ [if v < 0 then 0xD else 0xC]
    some ((List.range len).map (fun i => BitVec.ofNat 8 ((ns[2 * i]?).getD 0 * 16 + (ns[2 * i + 1]?).getD 0)))

/-- R50: a 64-bit two's complement integer. -/
def binaryIn (bs : List Byte) : Int := (BitVec.ofNat 64 (leNat bs)).toInt

/-- R53: a 64-bit integer, or none outside its range. -/
def binaryOut (v : Int) : Option (List Byte) :=
  if -(2 ^ 63) ≤ v ∧ v < 2 ^ 63 then some (leBytes 8 (BitVec.ofInt 64 v).toNat) else none

/-! ### Fields -/

/-- R46, R52: an amount in the limbs of the field. -/
def amountIn (f : GaugeField) : Int ⊕ Nat → GaugeIn
  | .inr r => .bad r
  | .inl v => match normalised f.n v with
    | some ws => .ok ws v
    | none => .bad 7

/-- R41: host bytes of a field to device words. -/
def GaugeField.input (f : GaugeField) (bs : List Byte) : GaugeIn :=
  match f.gauge with
  | 0 => wordsIn 4 f.n bs
  | 1 => wordsIn 3 f.n bs
  | 2 => denseIn f.n bs
  | 3 => amountIn f (textIn f bs)
  | 4 => amountIn f (packedIn bs)
  | _ => amountIn f (.inl (binaryIn bs))

/-- R41, R53: device words of a field to host bytes; none is VALUE_RANGE. -/
def GaugeField.output (f : GaugeField) (ws : List Word) : Option (List Byte) :=
  match f.gauge with
  | 0 => some (ws.flatMap (fun w => leBytes 4 w.toNat))
  | 1 => some (ws.flatMap (fun w => leBytes 3 w.toNat))
  | 2 => some (denseOut ws)
  | 3 => textOut f (qValue ws)
  | 4 => packedOut f.size (qValue ws)
  | _ => binaryOut (qValue ws)

/-! ### Field lists (R42, R46) -/

/-- Two runs of numbers meet. -/
def runsMeet (a n b m : Nat) : Bool := decide (a < b + m) && decide (b < a + n)

/-- R41, R46, R421: a field on its own: its gauge code, its parameters, and its place in a record of h bytes and d words. -/
def GaugeField.bad (f : GaugeField) (h d : Nat) : Bool :=
  decide (6 ≤ f.gauge) || decide (f.n = 0) || decide ((if f.amount then 8 else 32) < f.n) || decide (d < f.doff + f.n) || decide (h < f.hoff + f.bytes) ||
    (match f.gauge with
     | 3 => decide (f.size = 0) || decide (48 < f.size)
     | 4 => decide (f.size = 0) || decide (20 < f.size)
     | _ => decide (f.size ≠ 0)) ||
    (if f.amount then decide (9 < f.scale) else decide (f.scale ≠ 0)) || (decide (f.gauge ≠ 3) && (f.point || f.blank || f.fill))

/-- R42: two fields overlap, in host bytes only where the transfer writes them. -/
def GaugeField.meets (f g : GaugeField) (toHost : Bool) : Bool :=
  runsMeet f.doff f.n g.doff g.n || (toHost && runsMeet f.hoff f.bytes g.hoff g.bytes)

/-- R42: the first field in list order that is bad or meets an earlier one. -/
def firstBadField (h d : Nat) (toHost : Bool) (fs : List GaugeField) : Option Nat :=
  (List.range fs.length).find? (fun i => match fs[i]? with
    | some f => f.bad h d || (fs.take i).any (fun g => f.meets g toHost)
    | none => false)

end Sys2Proof.Machine
end

