-- ==== Sys2Proof/Machine/Services.lean ====
section
/-! DEFINITION. The service jobs (R404 to R429): parameter blocks, the six services record by record, commit points and the
journal's runs. -/

namespace Sys2Proof.Machine

/-! ### The parameter block (R406 to R408) -/

/-- R406: n little-endian bytes of a parameter block from byte o. -/
def pNat (bs : List Byte) (o n : Nat) : Nat := leNat ((bs.drop o).take n)

/-- R407: a file reference. -/
structure FileRef where
  addr : Nat
  raw : Nat
  fmt : RecFmt
  count : Nat
  scale : Nat
  deriving DecidableEq, Repr

/-- R407: the file reference at byte o. -/
def fileAt (bs : List Byte) (o : Nat) : FileRef :=
  { addr := pNat bs o 5, raw := pNat bs (o + 5) 5, fmt := recFmt (BitVec.ofNat 40 (pNat bs (o + 5) 5)), count := pNat bs (o + 10) 4,
    scale := pNat bs (o + 14) 1 }

/-- R407: words of a file. -/
def FileRef.words (f : FileRef) : Nat := f.count * f.fmt.len
/-- The format of its records. -/
def FileRef.form (f : FileRef) : Fmt := .record f.fmt f.scale
/-- R407: the first word of record i. -/
def FileRef.at_ (f : FileRef) (i : Nat) : Nat := f.addr + i * f.fmt.len

/-- R115, R408: n words from v lie in the paged range or in the host window. -/
def inWindow (v n : Nat) : Bool := decide (v + n ≤ 0xF000000000) || (decide (0xF000000000 ≤ v) && decide (v + n ≤ 0xF800000000))

/-- R236, R407, R408: the checks of the file reference at byte o; amount: the service needs amount field 0. -/
def fileChecks (bs : List Byte) (o : Nat) (amount : Bool) : List (Nat × Bool) :=
  let f := fileAt bs o
  [(o, !inWindow f.addr f.words), (o + 5, decide (2 ^ 30 ≤ f.raw) || !f.fmt.good || (amount && f.fmt.a0.isNone)), (o + 14, decide (10 ≤ f.scale))]

/-- R408: two files share a word. -/
def filesMeet (a b : FileRef) : Bool := runsMeet a.addr a.words b.addr b.words && decide (0 < a.words) && decide (0 < b.words)

/-- R408, R412, R414, R427: an output may share words with an input only as an exact alias, and not in a journalled job. -/
def overlapBad (out inp : FileRef) (alias_ journal : Bool) : Bool := filesMeet out inp && (journal || !alias_ || decide (out.addr ≠ inp.addr))

/-- R393, R408: the first byte at fault of a block of n bytes, with the runs of bytes the tables name. -/
def paramFault (bs : List Byte) (named : List (Nat × Nat)) (checks : List (Nat × Bool)) : Option Nat :=
  (List.range 256).find? (fun i =>
    (!(named.any (fun r => decide (r.1 ≤ i) && decide (i < r.1 + r.2))) && decide (pNat bs i 1 ≠ 0)) || checks.any (fun c => decide (c.1 = i) && c.2))

/-- R406: JOURNAL. -/
def pJournal (bs : List Byte) : Bool := (pNat bs 1 1).testBit 0
/-- R406: RESTART. -/
def pRestart (bs : List Byte) : Bool := (pNat bs 1 1).testBit 1
/-- R406: COMMITN. -/
def pCommit (bs : List Byte) : Nat := pNat bs 8 4

/-- R406, R408: the checks of the common header. n: the service has commit points by COMMITN (DEDUCED, assumption 50). -/
def headerChecks (bs : List Byte) (n : Bool) (sealA sealB : Bool) : List (Nat × Bool) :=
  let a := pNat bs 2 1
  let b := pNat bs 3 1
  let c := pCommit bs
  [(0, decide (pNat bs 0 1 ≠ 1)), (1, decide (4 ≤ pNat bs 1 1)), (2, decide (8 < a) || (!sealA && decide (a ≠ 0))),
   (3, decide (8 < b) || (!sealB && decide (b ≠ 0)) || (decide (a = b) && decide (a ≠ 0))), (4, pJournal bs && decide (pNat bs 4 4 = 0)),
   (8, if pJournal bs && n then decide (c < 65536) else decide (c ≠ 0))]

/-- R406: the bytes the common header names. -/
def headerNamed : List (Nat × Nat) := [(0, 12), (16, 5), (24, 5)]

/-! ### The checks of each service -/

/-- R412. -/
def sortFault (bs : List Byte) : Option Nat :=
  let i := fileAt bs 32
  let o := fileAt bs 48
  let sc : FileRef := { i with addr := pNat bs 16 5 }
  let needs := decide (pNat bs 2 1 ≠ 0)
  paramFault bs (headerNamed ++ [(32, 15), (48, 15)])
    (headerChecks bs false true false ++ fileChecks bs 32 needs ++ fileChecks bs 48 false ++
      [(16, filesMeet sc i || filesMeet sc o), (24, decide (pNat bs 24 5 < i.words)), (48, overlapBad o i true (pJournal bs)), (53, decide (o.raw ≠ i.raw)),
       (58, decide (o.count < i.count)), (62, decide (o.scale ≠ i.scale))])

/-- R414. -/
def postFault (bs : List Byte) : Option Nat :=
  let m := fileAt bs 32
  let t := fileAt bs 48
  let n := fileAt bs 64
  let e := fileAt bs 80
  let jn := pJournal bs
  paramFault bs (headerNamed ++ [(32, 15), (48, 15), (64, 15), (80, 15)])
    (headerChecks bs true true true ++ fileChecks bs 32 true ++ fileChecks bs 48 true ++ fileChecks bs 64 false ++ fileChecks bs 80 false ++
      [(53, decide (t.fmt.klen ≠ m.fmt.klen)), (62, decide (t.scale ≠ m.scale)), (64, overlapBad n m true jn || overlapBad n t false jn), (69, decide (n.raw ≠ m.raw)),
       (74, decide (n.count < m.count)), (78, decide (n.scale ≠ m.scale)), (80, overlapBad e m false jn || overlapBad e t false jn || overlapBad e n false jn),
       (85, decide (e.raw ≠ t.raw)), (90, decide (e.count < t.count)), (94, decide (e.scale ≠ t.scale))])

/-- A Gregorian leap year. -/
def leapYear (y : Nat) : Bool := decide (y % 4 = 0) && (decide (y % 100 ≠ 0) || decide (y % 400 = 0))
/-- Days of a month. -/
def monthDays (y m : Nat) : Nat := if m = 2 then (if leapYear y then 29 else 28) else if m = 4 ∨ m = 6 ∨ m = 9 ∨ m = 11 then 30 else 31
/-- R416: a date: year, month, day. -/
def dateAt (bs : List Byte) (o : Nat) : Nat × Nat × Nat := (pNat bs o 2, pNat bs (o + 2) 1, pNat bs (o + 3) 1)
/-- R416: a valid date. -/
def dateOk (d : Nat × Nat × Nat) : Bool :=
  decide (1900 ≤ d.1) && decide (d.1 ≤ 2399) && decide (1 ≤ d.2.1) && decide (d.2.1 ≤ 12) && decide (1 ≤ d.2.2) && decide (d.2.2 ≤ monthDays d.1 d.2.1)
/-- Days of a year. -/
def yearDays (y : Nat) : Nat := if leapYear y then 366 else 365
/-- The day's number in its year, from 0. -/
def dayOfYear (d : Nat × Nat × Nat) : Nat := ((List.range (d.2.1 - 1)).map (fun m => monthDays d.1 (m + 1))).foldl (· + ·) 0 + d.2.2 - 1
/-- Days from the first day of 1900. -/
def dayNumber (d : Nat × Nat × Nat) : Nat := ((List.range (d.1 - 1900)).map (fun y => yearDays (1900 + y))).foldl (· + ·) 0 + dayOfYear d

/-- R416. -/
def accrueFault (bs : List Byte) : Option Nat :=
  let a := fileAt bs 32
  let i := fileAt bs 48
  let table : FileRef := { a with addr := pNat bs 80 5, fmt := recFmt 63, count := 2 * (pNat bs 65 1 + 1) }
  let add := decide (pNat bs 66 1 = 1)
  paramFault bs (headerNamed ++ [(32, 15), (48, 15), (64, 3), (68, 8), (80, 5)])
    (headerChecks bs true true add ++ fileChecks bs 32 true ++ fileChecks bs 48 true ++
      [(48, overlapBad i a false (pJournal bs)), (53, decide (i.fmt.koff ≠ 0) || decide (i.fmt.klen ≠ a.fmt.klen)), (58, decide (i.count < a.count)), (62, decide (i.scale ≠ a.scale)),
       (64, decide (a.fmt.len ≤ pNat bs 64 1)), (66, decide (2 ≤ pNat bs 66 1) || (add && pJournal bs)), (68, !dateOk (dateAt bs 68)),
       (72, !dateOk (dateAt bs 72) || decide (dayNumber (dateAt bs 72) ≤ dayNumber (dateAt bs 68))), (80, decide (0xF000000000 < table.addr + 64 * (pNat bs 65 1 + 1)))])

/-- R419. -/
def reconcileFault (bs : List Byte) : Option Nat :=
  let a := fileAt bs 32
  let b := fileAt bs 48
  let o := fileAt bs 64
  let n := (a.fmt.a0.getD (0, 0)).2
  let k := a.fmt.klen
  let jn := pJournal bs
  paramFault bs (headerNamed ++ [(32, 15), (48, 15), (64, 15)])
    (headerChecks bs true true true ++ fileChecks bs 32 true ++ fileChecks bs 48 true ++ fileChecks bs 64 true ++
      [(53, decide (b.fmt.klen ≠ k) || decide ((b.fmt.a0.getD (0, 0)).2 ≠ n)), (62, decide (b.scale ≠ a.scale)), (64, overlapBad o a false jn || overlapBad o b false jn),
       (69, decide (o.fmt.koff ≠ 0) || decide (o.fmt.klen ≠ k) || decide (o.fmt.a0 ≠ some (k, n)) || decide (o.fmt.len ≠ k + n + 3)), (74, decide (o.count < a.count + b.count))])

/-- R421: field f of the field list. -/
def gaugeAt (bs : List Byte) (f : Nat) : GaugeField :=
  let o := 64 + 8 * f
  let x := pNat bs (o + 6) 1
  { hoff := pNat bs o 2, gauge := pNat bs (o + 2) 1, doff := pNat bs (o + 3) 1, n := pNat bs (o + 4) 1, size := pNat bs (o + 5) 1,
    scale := x % 16, point := x.testBit 4, blank := x.testBit 5, fill := x.testBit 6 }

/-- R421: the fields of the list. -/
def gaugeList (bs : List Byte) : List GaugeField := (List.range (pNat bs 33 1)).map (gaugeAt bs)

/-- R421: a reserved bit of entry f. -/
def entryReserved (bs : List Byte) (f : Nat) : Bool := decide (128 ≤ pNat bs (64 + 8 * f + 6) 1) || decide (pNat bs (64 + 8 * f + 7) 1 ≠ 0)

/-- R41, R42, R46, R421: the first entry at fault. -/
def fieldFault (bs : List Byte) : Option Nat :=
  let fs := gaugeList bs
  let h := pNat bs 34 2
  let d := pNat bs 36 1
  (List.range fs.length).find? (fun i => entryReserved bs i || (match fs[i]? with
    | some f => f.bad h d || (fs.take i).any (fun g => f.meets g (decide (pNat bs 32 1 = 1)))
    | none => false))

/-- R421: n words from v lie in the paged range or the yard. -/
def inPagedOrYard (v n : Nat) : Bool := decide (v + n ≤ 0xF000000000) || (decide (0xFFFC000000 ≤ v) && decide (v + n ≤ 0xFFFE000000))

/-- R421. -/
def convertFault (bs : List Byte) : Option Nat :=
  let n := pNat bs 33 1
  let amt := pNat bs 37 1
  let fields := match fieldFault bs with
    | some f => [(64 + 8 * f, true)]
    | none => []
  paramFault bs (headerNamed ++ [(32, 6), (40, 8), (48, 5), (56, 4), (64, 192)])
    (headerChecks bs true true false ++
      [(32, decide (2 ≤ pNat bs 32 1)), (33, decide (n = 0) || decide (22 < n)), (34, decide (pNat bs 34 2 = 0)), (36, decide (pNat bs 36 1 = 0) || decide (32 < pNat bs 36 1)),
       (37, decide (amt ≠ 0xFF) && (decide (n ≤ amt) || !(gaugeAt bs amt).amount)), (48, !inPagedOrYard (pNat bs 48 5) (pNat bs 56 4 * pNat bs 36 1))]
      ++ (if n ≤ 22 then fields else []))

/-- R423: range r of ZERO: MODE 0: address and pages. -/
def zeroRange (bs : List Byte) (r : Nat) : Nat × Nat := (pNat bs (40 + 16 * r) 5, pNat bs (48 + 16 * r) 4)

/-- R423: tract range r of ZERO: module, first, last. -/
def zeroTractRange (bs : List Byte) (r : Nat) : Nat × Nat × Nat := (pNat bs (40 + 16 * r) 1, pNat bs (44 + 16 * r) 4, pNat bs (48 + 16 * r) 4)

/-- R424: every tract of a range of this module is assigned to the function. -/
def tractsOwned (func lo hi : Nat) (s : State) : Bool :=
  if func = 0 then (s.mem.owner.all (fun e => !(decide (lo ≤ e.1) && decide (e.1 ≤ hi))))
  else (List.range (hi + 1 - lo)).all (fun i => decide (tget 0 s.mem.owner (lo + i) = func))

/-- R423, R424. -/
def zeroFault (func : Nat) (bs : List Byte) (s : State) : Option Nat :=
  let m := pNat bs 32 1
  let n := pNat bs 33 1
  let rs := List.range n
  let named := rs.flatMap (fun r => if m = 0 then [(40 + 16 * r, 5), (48 + 16 * r, 4)] else [(40 + 16 * r, 1), (44 + 16 * r, 8)])
  let checks := rs.flatMap (fun r =>
    let o := 40 + 16 * r
    if m = 0 then [(o, decide ((zeroRange bs r).1 % 65536 ≠ 0) || decide (0xF000000000 < (zeroRange bs r).1 + 65536 * (zeroRange bs r).2))]
    else
      let t := zeroTractRange bs r
      [(o, decide (8 ≤ t.1) || !inCascade s t.1), (o + 4, decide (t.2.2 < t.2.1)), (o + 8, decide (tractsOf s t.1 ≤ t.2.2)),
       (o + 4, decide (t.1 = s.straps.modId.toNat) && decide (t.2.2 < s.variant.tracts) && !tractsOwned func t.2.1 t.2.2 s)])
  paramFault bs (headerNamed ++ [(32, 2)] ++ (if n ≤ 8 then named else []))
    (headerChecks bs false false false ++ [(1, pJournal bs), (32, decide (2 ≤ m)), (33, decide (n = 0) || decide (8 < n))] ++ (if n ≤ 8 then checks else []))

/-- R408: the first byte of the parameter block at fault, by SERVICE. -/
def serviceFault (service func : Nat) (bs : List Byte) (s : State) : Option Nat :=
  match service with
  | 1 => sortFault bs
  | 2 => postFault bs
  | 3 => accrueFault bs
  | 4 => reconcileFault bs
  | 5 => convertFault bs
  | _ => zeroFault func bs s

/-! ### The product table (R417) -/

/-- R417: product p: its 64 words, as the job keeps them after its parameter block. -/
def productWords (bs : List Byte) (p : Nat) : List Word := (List.range 64).map (fun i => BitVec.ofNat 20 (pNat bs (256 + 256 * p + 4 * i) 4))

/-- R417: a product. -/
structure Product where
  tiers : Nat
  mode : Nat
  dayCount : Nat
  bound : List Int
  rate : List Int
  deriving DecidableEq, Repr

/-- R417: the fields of a product. -/
def productOf (ws : List Word) : Product :=
  let w0 := wordAt ws 0
  { tiers := bitsOf w0 6 4 + 1, mode := bitsOf w0 3 3, dayCount := bitsOf w0 0 3,
    bound := (List.range 8).map (fun t => qValue ((ws.drop (8 + 4 * t)).take 4)), rate := (List.range 8).map (fun t => qValue ((ws.drop (40 + 2 * t)).take 2)) }

/-- R417: what refuses a product. -/
def productBad (ws : List Word) : Bool :=
  let p := productOf ws
  let b := fun t => (p.bound[t]?).getD 0
  decide (4 ≤ p.dayCount) || decide (p.mode = 7) || decide (8 < p.tiers) || decide (bitsOf (wordAt ws 0) 10 10 ≠ 0)
    || ((ws.drop 1).take 7 ++ ws.drop 56).any (fun w => decide (w ≠ 0)) || (List.range (p.tiers - 2)).any (fun t => decide (b (t + 2) ≤ b (t + 1)))

/-- R418: the tier of a balance. -/
def tierOf (p : Product) (b : Int) : Nat :=
  (List.range p.tiers).foldl (fun t i => if i = 0 ∨ (p.bound[i]?).getD 0 ≤ b then i else t) 0

/-- R418: the days of the period that fall in year y. -/
def daysIn (st en : Nat × Nat × Nat) (y : Nat) : Nat :=
  let lo := if st.1 = y then dayOfYear st else 0
  let hi := if en.1 = y then dayOfYear en else yearDays y
  if y < st.1 ∨ en.1 < y then 0 else hi - lo

/-- R418: the days factor and the divisor of a day count. -/
def dayFactor (dc : Nat) (st en : Nat × Nat × Nat) : Int × Nat :=
  let d := dayNumber en - dayNumber st
  match dc with
  | 0 => (d, 1000000000 * 365)
  | 1 => (d, 1000000000 * 360)
  | 2 => (((List.range (en.1 + 1 - st.1)).map (fun i => Int.ofNat (daysIn st en (st.1 + i) * (133590 / yearDays (st.1 + i))))).foldl (· + ·) 0, 1000000000 * 133590)
  | _ =>
    let d1 := min st.2.2 30
    let d2 := if en.2.2 = 31 ∧ d1 = 30 then 30 else en.2.2
    (360 * ((en.1 : Int) - st.1) + 30 * ((en.2.1 : Int) - st.2.1) + ((d2 : Int) - d1), 1000000000 * 360)

/-- R418: the interest of a balance under a product. -/
def interestOf (p : Product) (st en : Nat × Nat × Nat) (b : Int) : Int :=
  let r := (p.rate[tierOf p b]?).getD 0
  let f := dayFactor p.dayCount st en
  roundDiv (b * r * f.1) f.2 p.mode

/-! ### Running a service -/

/-- What one more record comes to: progress, a wait, or the end of the job. -/
inductive Turn where
  | go (p : Progress) (s : State)
  | stall (s : State)
  | fail (x : JobEnd) (s : State)

/-- Where the job's service makes its accesses from: the primary core of its first share, at service level. -/
def serviceCore (job : Job) : Nat :=
  match job.shares with
  | .on l :: _ => 2 * l
  | _ => 0

/-- The translation settings of the job's service. -/
def serviceXl (job : Job) (s : State) : Xl := coreXl (serviceCore job) 2 s

/-- R410: a value goes to a seal of the job, held with its first share; seal 0 takes nothing. -/
def feedSeal (job : Job) (i : Nat) (v : Int) (s : State) : State :=
  if i = 0 then s
  else
    let k := serviceCore job
    s.setCore k { s.core k with seals := tset 0 (s.core k).seals i ((s.core k).sealAt i + v) }

/-- R410: to SEALA. -/
def feedA (job : Job) (v : Int) (s : State) : State := feedSeal job (pNat job.param 2 1) v s
/-- R410: to SEALB. -/
def feedB (job : Job) (v : Int) (s : State) : State := feedSeal job (pNat job.param 3 1) v s

/-- R390, R409: a trap ends the service: the share it arose in and the firmware's own PC and status are free (DESIGN CHOICE, assumption 22). -/
def trapEnd (job : Job) (t : Trap) (s : State) : JobEnd :=
  let st := causeStatus t.cause
  let n := job.shares.length
  let fr := fun i => Config.freeWord s.draw i
  { status := st, cause := t.cause, detail := t.detail, info := t.addr.toNat, reason := 0, field := 0, hostOff := false,
    share := if n ≤ 1 then 0 else Config.freeNat s.draw 8 % n,
    frame := [fr 0, fr 1, fr 2, BitVec.ofNat 20 (bitsOf (fr 3) 6 4 * 64 + t.cause), t.addr.extractLsb' 0 20, t.addr.extractLsb' 20 20, t.detail, fr 7] }

/-- The turn of a record at stream position e. -/
def turnOf (job : Job) (e : Nat) (r : Res Progress) : Turn :=
  match r with
  | .ok p s => .go p s
  | .stall s => .stall s
  | .trap t s => .fail (trapEnd job (elemTrap t (e % 64)) s) s.drawn

/-- R407: read record i of a file. -/
def readRec (job : Job) (f : FileRef) (i : Nat) (s : State) : Res (List Word) := readMem (.core (serviceCore job)) (serviceXl job s) (f.at_ i) f.fmt.len s

/-- Translate record i of an output. -/
def recPlaces (job : Job) (f : FileRef) (i : Nat) (s : State) : Res (List Place) := xlate (.core (serviceCore job)) (serviceXl job s) .write (f.at_ i) f.fmt.len s

/-- Write translated words. -/
def putRec (job : Job) (ps : List Place) (ws : List Word) (s : State) : State := writePlaces (serviceCore job / 2) (ps.zip ws) s

/-- R300: KEY_ORDER at the record at address v. -/
def keyOrder {α : Type} (v : Nat) (s : State) : Res α := .trap (formatTrap v 7) s

/-- R300: the key of the record read is below the one before it, or equal where strict. -/
def outOfOrder (prev : Option Nat) (key : Nat) (strict : Bool) : Bool :=
  match prev with
  | some k => decide (key < k) || (strict && decide (key = k))
  | none => false

/-- The counts of a service, numbered from 0, one of them raised. -/
def bump (cs : List Nat) (i n : Nat) : List Nat := (List.range 5).map (fun c => (cs[c]?).getD 0 + if c = i then n else 0)

/-! #### SORT (R412, R413) -/

/-- R413: records of a run. -/
def runLen (f : FileRef) : Nat := min 65536 (262144 / f.fmt.len / 64 * 64)

/-- The least m up to a bound with 64^m at least n. -/
def log64 (n : Nat) : Nat := ((List.range 8).find? (fun m => decide (n ≤ 64 ^ m))).getD 8

/-- R413: passes over the file. -/
def sortPasses (f : FileRef) : Nat := 1 + max 1 (log64 ((f.count + runLen f - 1) / runLen f))

/-- R413: where pass q writes: the last pass writes OUT, and passes alternate with the scratch area. -/
def sortTarget (bs : List Byte) (q : Nat) : FileRef :=
  let f := fileAt bs 32
  if (sortPasses f - 1 - q) % 2 = 0 then fileAt bs 48 else { f with addr := pNat bs 16 5 }

/-- Read n records of a file from record i. -/
def readRun (job : Job) (f : FileRef) : Nat → Nat → State → Res (List (List Word))
  | _, 0, s => .ok [] s
  | i, n + 1, s => (readRec job f i s).bind fun r s => (readRun job f (i + 1) n s).bind fun rs s => .ok (r :: rs) s

/-- Translate n records of an output from record i. -/
def runPlaces (job : Job) (f : FileRef) : Nat → Nat → State → Res (List (List Place))
  | _, 0, s => .ok [] s
  | i, n + 1, s => (recPlaces job f i s).bind fun p s => (runPlaces job f (i + 1) n s).bind fun ps s => .ok (p :: ps) s

/-- R302 to R304, R413: one run of a pass is formed or merged, whole. -/
def sortTurn (job : Job) (s : State) : Turn :=
  let bs := job.param
  let f := fileAt bs 32
  let p := job.prog
  let q := p.pos2
  let size := runLen f * 64 ^ q
  let n := min size (f.count - p.out2)
  let src := if q = 0 then f else sortTarget bs (q - 1)
  let dst := sortTarget bs q
  let final := decide (q + 1 = sortPasses f)
  turnOf job p.out2 ((readRun job src p.out2 n s).bind fun rs s =>
    let rs := sortRecs f.form rs
    (runPlaces job dst p.out2 n s).bind fun ps s =>
      let s := (ps.zip rs).foldl (fun s e => putRec job e.1 e.2 s) s
      let sum := (rs.map (elemAmount f.form)).foldl (· + ·) 0
      let s := if q = 0 then feedA job sum s else if final then feedA job (-sum) s else s
      let at_ := p.out2 + n
      let out := if final then p.out + n else p.out
      if f.count ≤ at_ then
        .ok { p with pos := f.count, pos2 := q + 1, out := out, out2 := 0, counts := bump [f.count, q] 5 0 } s
      else .ok { p with out := out, out2 := at_ } s)

/-! #### POST (R414, R415) -/

/-- R298: the transactions up to key k: those below it with their numbers, and those equal to it. -/
def takeTrans (job : Job) (t : FileRef) (k : Option Nat) : Nat → Nat → Option Nat → State → Res (List (Nat × List Word) × List (List Word) × Option Nat)
  | _, 0, prev, s => .ok ([], [], prev) s
  | i, n + 1, prev, s =>
    (readRec job t i s).bind fun r s =>
      let key := elemKey t.form r
      if outOfOrder prev key false then keyOrder (t.at_ i) s
      else if k.elim false (fun k => decide (k < key)) then .ok ([], [], prev) s
      else
        (takeTrans job t k (i + 1) n (some key) s).bind fun x s =>
          if k = some key then .ok (x.1, r :: x.2.1, x.2.2) s else .ok ((i, r) :: x.1, x.2.1, x.2.2) s

/-- R415: the exceptions in TRANS order, translated. -/
def excepts (job : Job) (f : FileRef) : Nat → List (Nat × List Word) → State → Res (List (List Place))
  | _, [], s => .ok [] s
  | i, _ :: rs, s => (recPlaces job f i s).bind fun p s => (excepts job f (i + 1) rs s).bind fun ps s => .ok (p :: ps) s

/-- R410, R415: exceptions written and fed. -/
def putExcepts (job : Job) (f : FileRef) (ps : List (List Place)) (rs : List (Nat × List Word)) (s : State) : State :=
  (ps.zip rs).foldl (fun s e => feedB job (elemAmount f.form e.2.2) (feedA job (elemAmount f.form e.2.2) (putRec job e.1 e.2.2 s))) s

/-- R415: the next master with its postings, or after the last master the transactions that are left. -/
def postTurn (job : Job) (s : State) : Turn :=
  let bs := job.param
  let m := fileAt bs 32
  let t := fileAt bs 48
  let nm := fileAt bs 64
  let ex := fileAt bs 80
  let p := job.prog
  let left := t.count - p.pos2
  if p.pos < m.count then
    turnOf job p.pos ((readRec job m p.pos s).bind fun r s =>
      let key := elemKey m.form r
      if outOfOrder p.keyA key true then keyOrder (m.at_ p.pos) s
      else (takeTrans job t (some key) p.pos2 left p.keyB s).bind fun x s =>
        let sum := (x.2.1.map (elemAmount t.form)).foldl (· + ·) 0
        (excepts job ex p.out2 x.1 s).bind fun eps s =>
          (recPlaces job nm p.pos s).bind fun ps s =>
            match normalised m.form.amountLimbs (elemAmount m.form r + sum) with
            | none => .trap (trapOf 6 (nm.at_ p.pos) 0) s
            | some ws =>
              let s := feedA job sum (putExcepts job ex eps x.1 (putRec job ps (withAmount m.form r ws) s))
              let n := x.1.length + x.2.1.length
              let cs := bump (bump (bump (bump p.counts 0 1) 1 n) 2 (if x.2.1.isEmpty then 0 else 1)) 3 x.1.length
              .ok { p with pos := p.pos + 1, pos2 := p.pos2 + n, out := p.out + 1, out2 := p.out2 + x.1.length, counts := cs, keyA := some key, keyB := x.2.2 } s)
  else
    turnOf job p.pos ((takeTrans job t none p.pos2 left p.keyB s).bind fun x s =>
      (excepts job ex p.out2 x.1 s).bind fun eps s =>
        let s := putExcepts job ex eps x.1 s
        .ok { p with pos2 := t.count, out2 := p.out2 + x.1.length, counts := bump (bump p.counts 1 x.1.length) 3 x.1.length, keyB := x.2.2 } s)

/-! #### ACCRUE (R416 to R418) -/

/-- R416: an INTEREST record: the key at word 0 and the interest; its other words are free (DESIGN CHOICE, assumption 22). -/
def interestRec (f : FileRef) (key amount : List Word) (s : State) : List Word :=
  withAmount f.form (key ++ (List.range (f.fmt.len - key.length)).map (fun i => Config.freeWord s.draw i)) amount

/-- R418: the next account. -/
def accrueTurn (job : Job) (s : State) : Turn :=
  let bs := job.param
  let a := fileAt bs 32
  let o := fileAt bs 48
  let p := job.prog
  let add := decide (pNat bs 66 1 = 1)
  turnOf job p.pos ((readRec job a p.pos s).bind fun r s =>
    let b := elemAmount a.form r
    let prod := (wordAt r (pNat bs 64 1)).toNat
    let known := decide (prod ≤ pNat bs 65 1)
    let v := if known then interestOf (productOf (productWords bs prod)) (dateAt bs 68) (dateAt bs 72) b else 0
    (recPlaces job o p.pos s).bind fun ps s =>
      (if add then recPlaces job a p.pos s else Res.ok [] s).bind fun qs s =>
        match normalised o.form.amountLimbs v, normalised a.form.amountLimbs (b + v) with
        | none, _ => .trap (trapOf 6 (o.at_ p.pos) 0) s
        | some ws, bal =>
          if add && bal.isNone then .trap (trapOf 6 (a.at_ p.pos) 0) s
          else
            let s := (putRec job ps (interestRec o (keyWords a.form r) ws s) s).drawn
            let s := if add then putRec job qs (withAmount a.form r (bal.getD [])) s else s
            let s := feedA job v s
            let s := if add then feedB job (v - v) s else s
            let cs := bump (bump (bump (bump p.counts 0 1) 1 (if known then 0 else 1)) 2 (if v = 0 then 0 else 1)) 3 (if add then 1 else 0)
            .ok { p with pos := p.pos + 1, out := p.out + 1, counts := cs } s)

/-! #### RECONCILE (R419, R420) -/

/-- The records of a file from record i up that have a key, in file order. -/
def groupFrom (job : Job) (f : FileRef) (key : Nat) : Nat → Nat → State → Res (List (Nat × List Word))
  | _, 0, s => .ok [] s
  | i, n + 1, s =>
    (readRec job f i s).bind fun r s =>
      if elemKey f.form r = key then (groupFrom job f key (i + 1) n s).bind fun rs s => .ok ((i, r) :: rs) s else .ok [] s

/-- The records below record i that have a key, next to it, in file order. -/
def groupBelow (job : Job) (f : FileRef) (key : Nat) : Nat → List (Nat × List Word) → State → Res (List (Nat × List Word))
  | 0, acc, s => .ok acc s
  | i + 1, acc, s =>
    (readRec job f i s).bind fun r s => if elemKey f.form r = key then groupBelow job f key i ((i, r) :: acc) s else .ok acc s

/-- R420: each A record in order takes the first B record of its value that is not taken: the records paired. -/
def pairUp (fa fb : Fmt) : List (Nat × List Word) → List (Nat × List Word) → List Nat × List Nat
  | [], _ => ([], [])
  | (i, a) :: as, bs =>
    match bs.find? (fun b => decide (elemAmount fb b.2 = elemAmount fa a)) with
    | some b => let x := pairUp fa fb as (bs.filter (fun c => decide (c.1 ≠ b.1))); (i :: x.1, b.1 :: x.2)
    | none => pairUp fa fb as bs

/-- R420: the records of a key that are paired, among A below hi and all of B. -/
def pairedIn (job : Job) (a b : FileRef) (key hi at_ : Nat) (s : State) : Res (List Nat × List Nat) :=
  (groupBelow job a key hi [] s).bind fun as s =>
    (groupBelow job b key at_ [] s).bind fun b0 s =>
      (groupFrom job b key at_ (b.count - at_) s).bind fun b1 s => .ok (pairUp a.form b.form as (b0 ++ b1)) s

/-- R420: the break record of record i of a file. -/
def breakRec (f : FileRef) (side i : Nat) (r : List Word) : List Word :=
  let am := f.fmt.a0.getD (0, 0)
  keyWords f.form r ++ (r.drop am.1).take am.2 ++ [BitVec.ofNat 20 side, BitVec.ofNat 20 i, BitVec.ofNat 20 (i / 2 ^ 20)]

/-- R420: a B record whose key has passed: a break unless it is paired. -/
def reconcileB (job : Job) (s : State) : Res Progress :=
  let a := fileAt job.param 32
  let b := fileAt job.param 48
  let o := fileAt job.param 64
  let p := job.prog
  (readRec job b p.pos2 s).bind fun r s =>
    let key := elemKey b.form r
    let v := elemAmount b.form r
    if outOfOrder p.keyB key false then keyOrder (b.at_ p.pos2) s
    else (pairedIn job a b key p.pos p.pos2 s).bind fun x s =>
      let p := { p with pos2 := p.pos2 + 1, keyB := some key, counts := bump p.counts 1 1 }
      if x.2.contains (p.pos2 - 1) then .ok p (feedA job (-v) s)
      else (recPlaces job o p.out s).bind fun ps s =>
        let s := putRec job ps (breakRec b 1 (p.pos2 - 1) r) s
        .ok { p with out := p.out + 1, counts := bump p.counts 4 1 } (feedB job (-v) (feedA job (-v + v) s))

/-- R420: the next A record: paired, or a break. -/
def reconcileA (job : Job) (r : List Word) (s : State) : Res Progress :=
  let a := fileAt job.param 32
  let b := fileAt job.param 48
  let o := fileAt job.param 64
  let p := job.prog
  let key := elemKey a.form r
  let v := elemAmount a.form r
  (pairedIn job a b key (p.pos + 1) p.pos2 s).bind fun x s =>
    let p := { p with pos := p.pos + 1, keyA := some key, counts := bump p.counts 0 1 }
    if x.1.contains (p.pos - 1) then .ok { p with counts := bump p.counts 2 1 } (feedA job v s)
    else (recPlaces job o p.out s).bind fun ps s =>
      let s := putRec job ps (breakRec a 0 (p.pos - 1) r) s
      .ok { p with out := p.out + 1, counts := bump p.counts 3 1 } (feedB job v (feedA job (v - v) s))

/-- R420: one more record of A or B in key order. -/
def reconcileTurn (job : Job) (s : State) : Turn :=
  let a := fileAt job.param 32
  let b := fileAt job.param 48
  let p := job.prog
  if p.pos < a.count then
    turnOf job p.pos ((readRec job a p.pos s).bind fun r s =>
      let key := elemKey a.form r
      if outOfOrder p.keyA key false then keyOrder (a.at_ p.pos) s
      else if p.pos2 < b.count then
        (readRec job b p.pos2 s).bind fun q s => if elemKey b.form q < key then reconcileB job s else reconcileA job r s
      else reconcileA job r s)
  else turnOf job p.pos2 (reconcileB job s)

/-! #### CONVERT (R421, R422) -/

/-- R422: the transfer engine that takes record r: consecutive slices on a free count of engines, at most 16 (DESIGN CHOICE, assumption 22). -/
def engineOf (job : Job) (r : Nat) : Nat :=
  let n := 1 + Config.freeNat job.started 1000 % 16
  let slice := max 1 ((pNat job.param 56 4 + n - 1) / n)
  (Config.freeNat job.started 1001 + r / slice) % 16

/-- R132: translate the host pages of n bytes from b: (page, address of the page). -/
def hostPages (who : Who) (func : Nat) (pasid : Option (BitVec 20)) (prien : Bool) (ctx : Nat) (write : Bool) : Nat → Nat → State → Res (List (Nat × Nat))
  | _, 0, s => .ok [] s
  | page, n + 1, s =>
    match hostXl who func pasid prien (ctx, 0) (page * 4096) (!write, write) s with
    | .wait s => .stall s
    | .fail r s => .trap (xlTrap 9 (if write then .write else .read) 0 0 r true) s
    | .at a => (hostPages who func pasid prien ctx write (page + 1) n s).bind fun ps s => .ok ((page, a) :: ps) s

/-- A host byte through translated pages. -/
def hostPlace (ps : List (Nat × Nat)) (b : Nat) : Nat := ((ps.find? (fun e => decide (e.1 = b / 4096))).map Prod.snd).getD 0 + b % 4096

/-- R51, R132: how a record stops its engine: by invalid data (field, reason), or by a fault. -/
inductive RecStop where
  | data (field reason : Nat)
  | fault (t : Trap)
  | wait

/-- R51: the fields of a record on input, in list order: the words of each, or the first invalid field. -/
def recordIn (h : Nat → Byte) : Nat → List GaugeField → List (List Word × Int) ⊕ (Nat × Nat)
  | _, [] => .inl []
  | i, f :: fs =>
    match f.input ((List.range f.bytes).map (fun o => h (f.hoff + o))) with
    | .bad r => .inr (i, r)
    | .ok ws v => match recordIn h (i + 1) fs with
      | .inl r => .inl ((ws, v) :: r)
      | .inr e => .inr e

/-- R51, R53: the fields of a record on output. -/
def recordOut (ws : List Word) : Nat → List GaugeField → List (List Byte) ⊕ (Nat × Nat)
  | _, [] => .inl []
  | i, f :: fs =>
    match f.output ((ws.drop f.doff).take f.n) with
    | none => .inr (i, 7)
    | some bs => match recordOut ws (i + 1) fs with
      | .inl r => .inl (bs :: r)
      | .inr e => .inr e

/-- R51, R132, R410: convert record r whole, or say what stops it: its host pages are translated before its device pages (DESIGN
CHOICE, assumption 92). -/
def convertRec (job : Job) (r : Nat) (s : State) : Option RecStop × State :=
  let bs := job.param
  let out := decide (pNat bs 32 1 = 1)
  let h := pNat bs 34 2
  let d := pNat bs 36 1
  let host := pNat bs 40 8 + r * h
  let dev := pNat bs 48 5 + r * d
  let fs := gaugeList bs
  let e := Who.engine (engineOf job r)
  let xl := serviceXl job s
  let amt := pNat bs 37 1
  let pasid := pasidOf s xl
  match hostPages e job.func pasid xl.prien xl.ctx out (host / 4096) ((host + h - 1) / 4096 + 1 - host / 4096) s with
  | .stall s => (some .wait, s)
  | .trap t s => (some (.fault t), s)
  | .ok hp s =>
    match xlate e xl (if out then .read else .write) dev d s with
    | .stall s => (some .wait, s)
    | .trap t s => (some (.fault t), s)
    | .ok ps s =>
      if out then
        match readPlaces e .read dev ps s with
        | .stall s => (some .wait, s)
        | .trap t s => (some (.fault { t with detail := 0 }), s)
        | .ok ws s =>
          match recordOut ws 0 fs with
          | .inr x => (some (.data x.1 x.2), s)
          | .inl os =>
            let byte := fun o => (((fs.zip os).find? (fun x => decide (x.1.hoff ≤ o) && decide (o < x.1.hoff + x.2.length))).bind (fun x => x.2[o - x.1.hoff]?)).getD 0
            let s := relaxed ((List.range h).foldl (fun s o => putHost (hostPlace hp (host + o)) (byte o).toNat 1 s) s)
            (none, match fs[amt]? with
              | some f => feedA job (qValue ((ws.drop f.doff).take f.n)) s
              | none => s)
      else
        match s.hostBad.find? (fun b => hp.any (fun p => decide (b / 4096 = p.2 / 4096)) && (List.range h).any (fun o => decide (hostPlace hp (host + o) = b))) with
        | some b => (some (.fault (poisonTrap .read 0 false true)), { s with hostBad := s.hostBad.erase b })
        | none =>
          match recordIn (fun o => hostByteAt s (hostPlace hp (host + o))) 0 fs with
          | .inr x => (some (.data x.1 x.2), s)
          | .inl vs =>
            let ws := (fs.zip vs).flatMap (fun x => ((ps.drop x.1.doff).zip x.2.1))
            let s := writePlaces 0 ws s
            (none, match vs[amt]? with
              | some v => feedA job v.2 s
              | none => s)

/-- R422: after a stop, each record above it that another engine has taken may or may not have been written: free. -/
def convertBeyond (job : Job) (slice : Nat) : Nat → Nat → State → State
  | _, 0, s => s
  | r, n + 1, s =>
    let s := if engineOf job r ≠ slice ∧ Config.freeBit s.draw r = true then (convertRec job r s).2 else s
    convertBeyond job slice (r + 1) n s

/-- R51, R132, R393: the end of a CONVERT that stops at record r. -/
def convertEnd (job : Job) (r : Nat) (x : RecStop) : JobEnd :=
  let off := r * pNat job.param 34 2
  match x with
  | .data f c =>
    { JobEnd.plain 0x0010 off with cause := if c = 7 then 6 else 7, reason := c, field := f, hostOff := true }
  | .fault t =>
    let st := causeStatus t.cause
    { JobEnd.plain st off with cause := t.cause, detail := if t.cause = 11 then 0 else t.detail, hostOff := true }
  | .wait => JobEnd.plain 0 0

/-- R51, R422: the next record. -/
def convertTurn (job : Job) (s : State) : Turn :=
  let p := job.prog
  match convertRec job p.pos s with
  | (none, s) =>
    let n := p.pos + 1
    .go { p with pos := n, out := n, counts := bump [n, n * pNat job.param 34 2, n * pNat job.param 36 1] 5 0 } s
  | (some .wait, s) => .stall s
  | (some x, s) => .fail (convertEnd job p.pos x) (convertBeyond job (engineOf job p.pos) (p.pos + 1) (pNat job.param 56 4 - p.pos - 1) s).drawn

/-! #### ZERO (R423, R424) -/

/-- The unit number n of a list of runs: the run and the offset in it. -/
def runAt : Nat → Nat → List Nat → Option (Nat × Nat)
  | _, _, [] => none
  | r, n, c :: cs => if n < c then some (r, n) else runAt (r + 1) (n - c) cs

/-- R423: pages of each range, or in MODE 1 one step for each range. -/
def zeroSteps (bs : List Byte) : List Nat :=
  (List.range (pNat bs 33 1)).map (fun r => if pNat bs 32 1 = 0 then (zeroRange bs r).2 else 1)

/-- R424: the next page, or the next range of tracts. -/
def zeroTurn (job : Job) (s : State) : Turn :=
  let bs := job.param
  let p := job.prog
  match runAt 0 p.pos (zeroSteps bs) with
  | none => .go { p with pos := p.pos + 1 } s
  | some (r, i) =>
    if pNat bs 32 1 = 0 then
      match xlate (.core (serviceCore job)) (serviceXl job s) .write ((zeroRange bs r).1 + 65536 * i) 1 s with
      | .stall s => .stall s
      | .trap t s => .fail (trapEnd job t s) s.drawn
      | .ok ps s =>
        let s := match ps with
          | [.dev a] => if isLocal s a then zeroPage (localOf a) s else s
          | _ => s
        .go { p with pos := p.pos + 1, out := p.out + 1, counts := bump p.counts 0 1 } s
    else
      let t := zeroTractRange bs r
      let s := if t.1 = s.straps.modId.toNat then zeroTracts t.2.1 t.2.2 (dropLeaves t.2.1 t.2.2 s) else s
      .go { p with pos := p.pos + 1, counts := bump p.counts 1 (t.2.2 + 1 - t.2.1) } s

/-! ### Commit points (R425, R426, R429) -/

/-- The SERVICE of a job. -/
def Job.service (job : Job) : Nat := dByte job.desc 8

/-- One more record (DEDUCED, assumption 51). -/
def serviceTurn (job : Job) (s : State) : Turn :=
  match job.service with
  | 1 => sortTurn job s
  | 2 => postTurn job s
  | 3 => accrueTurn job s
  | 4 => reconcileTurn job s
  | 5 => convertTurn job s
  | _ => zeroTurn job s

/-- The service has done all its records. -/
def serviceOver (job : Job) : Bool :=
  let bs := job.param
  let p := job.prog
  match job.service with
  | 1 => decide (sortPasses (fileAt bs 32) ≤ p.pos2)
  | 2 => decide ((fileAt bs 32).count ≤ p.pos) && decide ((fileAt bs 48).count ≤ p.pos2)
  | 3 => decide ((fileAt bs 32).count ≤ p.pos)
  | 4 => decide ((fileAt bs 32).count ≤ p.pos) && decide ((fileAt bs 48).count ≤ p.pos2)
  | 5 => decide (pNat bs 56 4 ≤ p.pos)
  | _ => decide ((zeroSteps bs).foldl (· + ·) 0 ≤ p.pos)

/-- R425: a commit point lies between the progress before and after a record. -/
def commitDue (job : Job) (before after : Progress) : Bool :=
  pJournal job.param && (match job.service with
    | 1 => decide (before.pos2 ≠ after.pos2)
    | 6 => false
    | _ => decide (before.pos ≠ after.pos) && decide (after.pos % max 1 (pCommit job.param) = 0))

/-- R426: the CRC-32 of parameter bytes 2, 3, 8 to 11 and 32 to 255. -/
def paramCrc (bs : List Byte) : BitVec 32 := Config.crc32 ((bs.drop 2).take 2 ++ (bs.drop 8).take 4 ++ (bs.drop 32).take 224)

/-- R426, R427: the run of a function's RUNID. -/
def isRun (func runid : Nat) (e : Unit_ × Option Unit_) : Bool := decide (e.1.func = func) && decide (e.1.runid.toNat = runid)

/-- R426: the unit a restart uses: the higher sequence number with a good CRC. -/
def bestUnit (e : Unit_ × Option Unit_) : Option Unit_ :=
  match e.2 with
  | some u => if u.good && (decide (e.1.seq ≤ u.seq) || !e.1.good) then some u else if e.1.good then some e.1 else none
  | none => if e.1.good then some e.1 else none

/-- R426: the run is complete. -/
def runComplete (e : Unit_ × Option Unit_) : Bool := match bestUnit e with | some u => u.complete | none => false

/-- Remove the first that meets p. -/
def dropFirst {α : Type} (p : α → Bool) : List α → List α
  | [] => []
  | a :: l => if p a then l else a :: dropFirst p l

/-- R426: each commit point writes the older of the run's two units; a new run takes a free slot or that of the oldest complete run. -/
def storeUnit (u : Unit_) (rs : List (Unit_ × Option Unit_)) : List (Unit_ × Option Unit_) :=
  if rs.any (isRun u.func u.runid.toNat) then
    rs.map (fun e => if isRun u.func u.runid.toNat e then
      (match e.2 with
       | none => (e.1, some u)
       | some o => if e.1.seq < o.seq then (u, some o) else (e.1, some u)) else e)
  else (if 65536 ≤ rs.length then dropFirst runComplete rs else rs) ++ [(u, none)]

/-- R426: the sequence number of the next unit of a run. -/
def nextSeq (func runid : Nat) (rs : List (Unit_ × Option Unit_)) : Nat :=
  match rs.find? (isRun func runid) with
  | some e => max e.1.seq (e.2.elim 0 Unit_.seq) + 1
  | none => 1

/-- R314, R426: the unit of a commit point. -/
def unitOf (job : Job) (complete : Bool) (status : Nat) (s : State) : Unit_ :=
  let bs := job.param
  let p := job.prog
  let m := fun i => if i = 0 then 0 else mergedSeal s job i
  { runid := BitVec.ofNat 32 (pNat bs 4 4), func := job.func, service := job.service, seq := nextSeq job.func (pNat bs 4 4) s.steward.runs, paramCrc := paramCrc bs,
    inPos := p.pos, inPos2 := p.pos2, outCount := p.out, outCount2 := p.out2, sealA := m (pNat bs 2 1), sealB := m (pNat bs 3 1), counts := p.counts,
    complete := complete, status := BitVec.ofNat 16 status, good := true }

/-- R492, R500: a journal or flash write that supply warning refuses is logged. -/
def logRefused (s : State) : State := logErr false 0x0057 6 0 0 0 0 s

/-- R425, R429, R535: the unit of a commit point is written, or supply warning refuses it and ends the job. -/
def writeUnit (j : Nat) (complete : Bool) (status : Nat) (s : State) : State :=
  match s.job j with
  | none => s
  | some job =>
    if s.power.warn then finishJob j (JobEnd.plain 0x0031 0) (logRefused s)
    else
      let u := unitOf job complete status s
      let s := { s with steward := { s.steward with runs := storeUnit u s.steward.runs, writes := s.steward.writes + 1 } }
      s.setJob j (some { job with prog := { job.prog with commits := job.prog.commits + 1 } })

/-- R315, R425: the run has reached its end: its last unit, then its completion. -/
def completeRun (j : Nat) (s : State) : State :=
  match s.job j with
  | none => s
  | some job =>
    let st := sealStatus (dByte job.desc 9) (mergedSeals s job) 0
    let s := if pJournal job.param then writeUnit j true st s else s
    match s.job j with
    | some job => if job.ending.isSome then s else finishJob j (JobEnd.plain 0 0) s
    | none => s

/-- One record after another, up to a wait, the end of the run or, where asked, the next commit point. -/
def runService (once : Bool) (j : Nat) : Nat → State → State
  | 0, s => s
  | n + 1, s =>
    match s.job j with
    | none => s
    | some job =>
      if job.ending.isSome then s
      else if serviceOver job then completeRun j s
      else match serviceTurn job s with
        | .stall s => s
        | .fail x s => finishJob j x s
        | .go p s =>
          let job' := { job with prog := p }
          let s := s.setJob j (some job')
          if commitDue job job.prog p && !serviceOver job' then (if once then writeUnit j false 0 s else runService once j n (writeUnit j false 0 s))
          else runService once j n s

/-- No more records than this. -/
def serviceFuel (job : Job) : Nat :=
  let bs := job.param
  match job.service with
  | 1 => 10 * (fileAt bs 32).count + 10
  | 5 => pNat bs 56 4 + 2
  | 6 => (zeroSteps bs).foldl (· + ·) 0 + 2
  | _ => (fileAt bs 32).count + (fileAt bs 48).count + 3

/-- The job runs on its bents: it is a service of the given number, started, not pre-empted, ended or moving. -/
def serviceRuns (svc j : Nat) (s : State) : Option Job :=
  match s.job j with
  | some job =>
    if dByte job.desc 0 = 2 ∧ (svc = 0 ∨ job.service = svc) ∧ job.ending.isNone = true ∧ job.preempted = false ∧ s.power.phase = .ready
        ∧ job.shares.all (fun h => match h with | .on _ => true | _ => false) = true then some job else none
  | none => none

/-- R98: a word on its way to or from the unit that runs the service has failed parity: it is asked for again. -/
def logPort (job : Job) (twice : Bool) (s : State) : State :=
  let u := if job.service = 5 then (3, engineOf job job.prog.pos) else (0, s.physOf (serviceCore job / 2))
  let s := logErr false 0x0012 u.1 u.2 0 0 0 (countErr 4 s)
  if twice then logErr true 0x0013 u.1 u.2 0 0 0 s else s

/-- R98: the block of the first word that record r of an input CONVERT writes is poisoned. -/
def poisonRecord (job : Job) (r : Nat) (s : State) : State :=
  match xlate (.engine (engineOf job r)) (serviceXl job s) .write (pNat job.param 48 5 + r * pNat job.param 36 1) 1 s with
  | .ok [.dev a] s => if isLocal s a then setPoison (localOf a / 64) true s else s
  | _ => s

/-- R51, R95, R98: the job's next access meets a port whose second copy fails too: a read, or a transfer engine's write of host
memory, ends it with UNCORRECTABLE_MEMORY; a write of device memory poisons its block. Zeroing moves no word. -/
def portLost (j : Nat) (job : Job) (s : State) : State :=
  let p := job.prog
  match job.service with
  | 5 =>
    if pNat job.param 32 1 = 1 then finishJob j (convertEnd job p.pos (.fault (poisonTrap .read 0 false false))) s
    else poisonRecord job p.pos (runService false j (serviceFuel job) s)
  | 6 => runService false j (serviceFuel job) s
  | _ => finishJob j (trapEnd job (elemTrap (poisonTrap .read ((fileAt job.param 32).at_ p.pos) false false) (p.pos % 64)) s) s.drawn

/-- R98, R404: a started service runs; port: its first access finds good words (0), or bad ones and then good (1) or bad ones again (2). -/
def runWith (port : Fin 3) (j : Nat) (job : Job) (s : State) : State :=
  if port.val = 0 ∨ serviceOver job = true then runService false j (serviceFuel job) s
  else
    let s := logPort job (decide (port.val = 2)) s
    if port.val = 2 then portLost j job s else runService false j (serviceFuel job) s

/-- R404: the two moments of a service row: fetch of its descriptor, and the run of a started job. -/
def serviceRow (svc : Nat) (x : ServiceStep) (s : State) : State :=
  match x with
  | .fetch q d =>
    let n := dByte d 8
    if dByte d 0 = 2 ∧ (n = svc ∨ (svc = 1 ∧ (n = 0 ∨ 6 < n))) then fetchJob q.toNat d s else s
  | .run j port => match serviceRuns svc j s with
    | some job => runWith port j job s
    | none => s

def execSort (svc : ServiceStep) (s : State) : Host.Outcome State Fault Refusal := .next (serviceRow 1 svc s)
def execPost (svc : ServiceStep) (s : State) : Host.Outcome State Fault Refusal := .next (serviceRow 2 svc s)
def execAccrue (svc : ServiceStep) (s : State) : Host.Outcome State Fault Refusal := .next (serviceRow 3 svc s)
def execReconcile (svc : ServiceStep) (s : State) : Host.Outcome State Fault Refusal := .next (serviceRow 4 svc s)
def execConvert (svc : ServiceStep) (s : State) : Host.Outcome State Fault Refusal := .next (serviceRow 5 svc s)
def execZero (svc : ServiceStep) (s : State) : Host.Outcome State Fault Refusal := .next (serviceRow 6 svc s)

/-- R425: a journalled service runs to its next commit point and writes its unit. -/
def execCommitPoint (job : Nat) (s : State) : Host.Outcome State Fault Refusal :=
  match serviceRuns 0 job s with
  | some j => if pJournal j.param then .next (runService true job (serviceFuel j) s) else .next s
  | none => .next s

end Sys2Proof.Machine
end

