-- ==== Sys2Proof/Machine/JobStart.lean ====
section
/-! DEFINITION. Choosing and starting a job (R385 to R388, R395, R399 to R401, R404, R408, R417, R426 to R428). -/

namespace Sys2Proof.Machine

/-! ### The choice (R385, R395, R399, R400, R402) -/

/-- R399: the highest priority among queues. -/
def bestPrio (qs : List (Nat × Sq × Descriptor)) : Nat := (qs.map (fun q => q.2.1.prio)).foldl min 8

/-- R402: a pre-empted job that could be restored ranks ahead of an unstarted job of priority p. -/
def restoreFirst (p : Nat) (s : State) : Bool :=
  restorable s (fun n => decide (n ≤ p))

/-- R399: weighted round robin within one priority: a free choice among the queues that have turns left; a new round begins when none has.
(DESIGN CHOICE, assumption 53). -/
def chooseQueue (s : State) : Option (Nat × Sq × Descriptor) × State :=
  let qs := readyQueues s
  let p := bestPrio qs
  let mine := qs.filter (fun q => decide (q.2.1.prio = p))
  let held := s.disp.reserve.bind (fun q => qs.find? (fun e => decide (e.1 = q)))
  match held with
  | some h => if h.2.1.prio ≤ p then (some h, s) else fresh mine p s
  | none => fresh mine p s
where
  /-- The choice among the queues of one priority. -/
  fresh (mine : List (Nat × Sq × Descriptor)) (p : Nat) (s : State) : Option (Nat × Sq × Descriptor) × State :=
    let left := mine.filter (fun q => decide (q.2.1.passes < q.2.1.weight))
    if left.isEmpty then
      let s' := { s with disp := { s.disp with sq := tmap none (fun _ q => q.map (fun q => if q.prio = p then { q with passes := 0 } else q)) s.disp.sq } }
      (pickOne s.draw 0 (mine.map (fun q => (q.1, { q.2.1 with passes := 0 }, q.2.2))), s')
    else (pickOne s.draw 0 left, s)

/-! ### The checks (R386, R387, R404) -/

/-- R386, R516: the modules a MODMASK names; 0 names this module (DEDUCED, assumption 52). -/
def modulesOf (d : Descriptor) (s : State) : List Nat :=
  if dByte d 7 = 0 then [s.straps.modId.toNat] else (List.range 8).filter (fun m => (dByte d 7).testBit m)

/-- R386, R404: the byte offset of the first field of a job descriptor at fault. A NOP is no job: only its reserved bits and
its addresses are checked (DEDUCED, assumption 89). -/
def jobFault (func : Nat) (d : Descriptor) (s : State) : Option Nat :=
  let o := dByte d 0
  let svc := dByte d 8
  let entry := dNat d 32 8
  let c := s.ctx (dNat d 4 2)
  let supvStart := bitAt d 9
  let job := decide (o ≠ 0)
  faultAt d [(1, 1), (4, 2), (6, 1), (7, 1), (8, 1), (9, 1), (16, 8), (24, 8), (32, 8), (40, 8)]
    [(0, decide (2 < o)), (1, decide (4 ≤ dByte d 1) || (job && supvStart && (decide (o = 2) || !(c.elim false Ctx.supv)))),
     (4, decide (4096 ≤ dNat d 4 2) || (job && (match c with | some r => decide (r.func ≠ func) | none => true))),
     (6, job && (decide (dByte d 6 = 0) || decide ((inService s).length < dByte d 6))), (7, job && !((modulesOf d s).all (inCascade s))),
     (8, if o = 2 then decide (svc = 0) || decide (6 < svc) else job && decide (svc ≠ 0)),
     (16, decide (dNat d 16 8 % 64 ≠ 0) || (decide (o = 2) && decide (dNat d 16 8 = 0))), (24, decide (dNat d 24 8 % 64 ≠ 0)),
     (32, decide (2 ^ 40 ≤ entry) || (decide (o = 1) && decide (0xF000000000 ≤ entry)) || (decide (o = 2) && decide (entry ≠ 0))),
     (40, decide (dNat d 40 8 % 64 ≠ 0) || (decide (o = 2) && decide (dNat d 40 8 ≠ 0)))]

/-- R387: a chain map is refused. -/
def chainBad (gang : Nat) (m : List (BitVec 16)) : Bool :=
  let es := m.zipIdx
  let on := es.filter (fun e => bitAt e.1 15)
  let target := fun (e : BitVec 16 × Nat) => bitsOf e.1 1 5
  m.any (fun e => decide (bitsOf e 6 9 ≠ 0)) || on.any (fun e => decide (gang ≤ target e) || decide (target e = e.2 / 2) || decide (gang ≤ e.2 / 2))
    || !((on.map (fun e => bitsOf e.1 0 6)).Nodup)

/-! ### What is read before a start (R385, R401, R408, R417) -/

/-- What the reads and translations before a start come to. -/
inductive Ready (α : Type) where
  | ok (v : α) (s : State)
  | wait (s : State)
  | fail (e : Entry) (s : State)

/-- Go on with the value. -/
def Ready.bind {α β : Type} (r : Ready α) (f : α → State → Ready β) : Ready β :=
  match r with
  | .ok v s => f v s
  | .wait s => .wait s
  | .fail e s => .fail e s

/-- R385, R393: the n bytes at host address b, n at most 256 and aligned, read for a job; none are read from address 0. -/
def jobBytes (q : Nat) (d : Descriptor) (xl : Xl) (b n : Nat) (s : State) : Ready (List Byte) :=
  if b = 0 then .ok [] s
  else match hostXl .dispatcher xl.func (pasidOf s xl) xl.prien (xl.ctx, 0) b (true, false) s with
    | .wait s => .wait s
    | .fail _ s => .fail (unstarted (dNat d 2 2) q 0x0011 0) s
    | .at a => match takeHostBad a n s with
      | (true, s) => .fail (unstarted (dNat d 2 2) q 0x0013 0) s
      | (false, s) => .ok ((List.range n).map (fun i => hostByteAt s (a + i))) s

/-- R111, R114: the translation settings of a job before it has a bent. -/
def jobXl (func : Nat) (d : Descriptor) (s : State) : Xl :=
  let c := dNat d 4 2
  match s.ctx c with
  | some r => { ctx := c, root := r.ptroot, lvl := 2, func := func, pasid := r.pasid, hostBase := r.hostBase, prien := r.prien, supv := r.supv, htrap := r.htrap }
  | none => { ctx := c, root := 0, lvl := 2, func := func, pasid := 0, hostBase := 0, prien := false, supv := false, htrap := false }

/-- The entry of a job refused for the field at a byte offset. -/
def invalid (q : Nat) (d : Descriptor) (o : Nat) : Entry := unstarted (dNat d 2 2) q 0x0030 o

/-- An entry for a fault met before the start, with its status where the rule names one. -/
def faultEntry (q : Nat) (d : Descriptor) (t : Trap) (status : Nat) : Entry :=
  { unstarted (dNat d 2 2) q status t.addr.toNat with cause := t.cause, detail := t.detail }

/-- R417: the product table of an ACCRUE job, 4 bytes a word. -/
def productTable (q : Nat) (d : Descriptor) (xl : Xl) (bs : List Byte) (s : State) : Ready (List Byte) :=
  let n := pNat bs 65 1 + 1
  match readMem .dispatcher xl (pNat bs 80 5) (64 * n) s with
  | .stall s => .wait s
  | .trap t s => .fail (faultEntry q d t (causeStatus t.cause)) s
  | .ok ws s =>
    if (List.range n).any (fun p => productBad ((ws.drop (64 * p)).take 64)) then .fail (invalid q d 144) s
    else .ok (ws.flatMap (fun w => leBytes 4 w.toNat)) s

/-- R426, R427: what the journal says of a service job: nothing, a unit to go on from, or the byte at fault. -/
def journalStart (func service : Nat) (bs : List Byte) (s : State) : Option Unit_ ⊕ Nat :=
  if pRestart bs then
    match (s.steward.runs.find? (isRun func (pNat bs 4 4))).bind bestUnit with
    | some u => if u.service = service ∧ u.paramCrc = paramCrc bs then .inl (some u) else .inr 65
    | none => .inr 65
  else if pJournal bs && decide (65536 ≤ (s.steward.runs.filter (fun e => !isRun func (pNat bs 4 4) e)).length) && !s.steward.runs.any runComplete then .inr 68
  else .inl none

/-- R386, R408, R417, R427: the parameter block, checked: its bytes with the product table, and a unit to go on from. -/
def startParam (q : Nat) (func : Nat) (d : Descriptor) (s : State) : Ready (List Byte × Option Unit_) :=
  let xl := jobXl func d s
  (jobBytes q d xl (dNat d 16 8) 256 s).bind fun bs s =>
    if dByte d 0 = 1 then
      if (List.range 64).any (fun i => decide (2 ^ 20 ≤ pNat bs (4 * i) 4)) then .fail (invalid q d 16) s else .ok (bs, none) s
    else match serviceFault (dByte d 8) func bs s with
      | some o => .fail (invalid q d (64 + o)) s
      | none => match journalStart func (dByte d 8) bs s with
        | .inr o => .fail (invalid q d o) s
        | .inl u =>
          if dByte d 8 = 3 ∧ (u.elim false Unit_.complete) = false then (productTable q d xl bs s).bind fun t s => .ok (bs ++ t, u) s
          else .ok (bs, u) s

/-- R387: the chain map, checked. -/
def startChain (q func : Nat) (d : Descriptor) (s : State) : Ready (List (BitVec 16)) :=
  (jobBytes q d (jobXl func d s) (dNat d 40 8) 128 s).bind fun bs s =>
    let m := if bs.isEmpty then [] else (List.range 64).map (fun i => BitVec.ofNat 16 (pNat bs (2 * i) 2))
    if chainBad (dByte d 6) m then .fail (invalid q d 40) s else .ok m s

/-- R133: translate the pages of save areas from virtual address v, each readable and writable, in the paged range. -/
def savePages (q : Nat) (d : Descriptor) (xl : Xl) : Nat → Nat → State → Ready (List Nat)
  | _, 0, s => .ok [] s
  | v, n + 1, s =>
    if 0xF000000000 ≤ v then .fail (faultEntry q d (xlTrap 10 .locked v 0 7 false) 0x0012) s
    else match xlate .dispatcher xl .locked v 1 s with
    | .stall s => .wait s
    | .trap t s => .fail (faultEntry q d t (if t.cause = 11 then 0x0013 else 0x0012)) s
    | .ok ps s =>
      let g := match ps with
        | [.dev a] => a
        | _ => 0
      (savePages q d xl (v + 65536) n s).bind fun gs s => .ok (g :: gs) s

/-- Lists of 16. -/
def sixteens : Nat → List Nat → List (List Nat)
  | 0, _ => []
  | n + 1, l => l.take 16 :: sixteens n (l.drop 16)

/-! ### The start (R388, R401) -/

/-- R388: the core that runs a share of a NATIVE job. -/
def startCore (d : Descriptor) (supv : Bool) (index total : Nat) : Core :=
  let lvl := bitAt d 9
  let a : Arch := { Arch.reset with
    pc := BitVec.ofNat 40 (dNat d 32 8), pl := if lvl then 1 else 0, ld := 0, sill := 0xFFFFFF0000
    a := tset 0 [] 15 0xFFFFFFFFF0, d := tset 0 (tset 0 [] 0 (BitVec.ofNat 20 index)) 1 (BitVec.ofNat 20 total)
    evmask := if supv && !lvl then 0 else 1 }
  { Core.reset with arch := a, ckpt := a, run := .running }

/-- R388: share i of job j starts on bent l. -/
def startShare (j i l : Nat) (d : Descriptor) (r : Ctx) (param : List Byte) (index total : Nat) (s : State) : State :=
  let native := decide (dByte d 0 = 1)
  let c := dNat d 4 2
  let b := s.bent l
  let s := resetSignals l s
  let s := s.setBent l { b with
    ctxid := BitVec.ofNat 12 c, ptroot := r.ptroot, stCtxid := BitVec.ofNat 20 c, stPtroot := r.ptroot, staged := false, cerr := false, split := false
    bench := if native then tsetMany 0 [] 0 ((List.range 64).map (fun w => BitVec.ofNat 20 (pNat param (4 * w) 4))) else []
    bad := [], v := [], vBad := [], p := [], slots := [], slotBad := [], dcache := [], dBad := [], share := some (j, i) }
  (s.setCore (2 * l) (if native then startCore d r.supv index total else Core.reset)).setCore (2 * l + 1) Core.reset

/-- R388: the shares of a job start in order on the bents of a list. -/
def startShares (j : Nat) (d : Descriptor) (r : Ctx) (param : List Byte) (first total : Nat) : Nat → List Nat → State → State
  | _, [], s => s
  | i, l :: ls, s => startShares j d r param first total (i + 1) ls (startShare j i l d r param (first + i) total s)

/-- R428: progress from a unit. -/
def Unit_.progress (u : Unit_) : Progress :=
  { pos := u.inPos, pos2 := u.inPos2, out := u.outCount, out2 := u.outCount2, counts := u.counts, keyA := none, keyB := none, commits := 0, resumed := u.inPos }

/-- R425: a run that has done nothing. -/
def Progress.zero : Progress := { pos := 0, pos2 := 0, out := 0, out2 := 0, counts := [], keyA := none, keyB := none, commits := 0, resumed := 0 }

/-- R426: the seals of a unit, as partials. -/
def unitSeals (bs : List Byte) (u : Unit_) : Tbl Int :=
  let a := pNat bs 2 1
  let b := pNat bs 3 1
  let t : Tbl Int := if a = 0 then [] else tset 0 [] a u.sealA
  if b = 0 then t else tset 0 t b u.sealB

/-- R399: the chosen descriptor leaves its queue, which has used one turn. -/
def takeDescriptor (q : Nat) (sq : Sq) (s : State) : State :=
  unreserve q (s.setSq q (some { sq with fetched := sq.fetched.drop 1, passes := sq.passes + 1 }))

/-- R401: the job takes its number and its shares start together; a complete run only completes (R428). -/
def startJob (q : Nat) (sq : Sq) (d : Descriptor) (r : Ctx) (bs : List Byte) (u : Option Unit_) (chain : List (BitVec 16)) (save : List (List Nat)) (ls : List Nat) (s : State) :
    State :=
  let j := s.disp.next
  let here := s.straps.modId.toNat
  let ms := modulesOf d s
  let gang := dByte d 6
  let done := u.elim false Unit_.complete
  let job : Job :=
    { func := sq.func, sq := q, desc := if done then d &&& ~~~(BitVec.ofNat 512 (255 * 2 ^ 72)) else d, prio := sq.prio, others := ms.filter (fun m => decide (m ≠ here)),
      shares := if done then [.ended (u.elim [] (unitSeals bs))] else ls.map Share.on, preempted := false, param := bs, prog := u.elim Progress.zero Unit_.progress,
      started := s.disp.starts, startedAt := s.tick.toNat, chain := chain, save := save, awaits := [], ending := none }
  let s := takeDescriptor q sq s
  let s := { s with disp := { s.disp with next := j + 1, starts := s.disp.starts + 1 } }
  let fresh := decide (dByte d 0 = 2) && pJournal bs && !pRestart bs
  let s := if fresh then { s with steward := { s.steward with runs := s.steward.runs.filter (fun e => !isRun sq.func (pNat bs 4 4) e) } } else s
  let s := s.setJob j (some job)
  if done then finishJob j (JobEnd.plain (u.elim 0 (fun u => u.status.toNat)) 0) s
  else
    let s := startShares j d r bs ((ms.filter (fun m => decide (m < here))).length * gang) (ms.length * gang) 0 ls s
    match ls, u with
    | [], _ => finishJob j (JobEnd.plain 0 0) s
    | l :: _, some u => s.setCore (2 * l) { s.core (2 * l) with seals := unitSeals bs u }
    | _, none => s

/-- R386, R393: a descriptor that does not start completes with an entry. -/
def refuseJob (q : Nat) (sq : Sq) (d : Descriptor) (e : Entry) (s : State) : State := holdEntry sq.cq { e with bar := barrier d } (takeDescriptor q sq s)

/-- R400: the chosen job cannot start: it holds a reservation. -/
def reserveFor (q : Nat) (s : State) : State := { s with disp := { s.disp with reserve := some q } }

/-- R401: the chosen job is checked and started. -/
def tryStart (q : Nat) (sq : Sq) (d : Descriptor) (s : State) : State :=
  match jobFault sq.func d s, s.ctx (dNat d 4 2) with
  | some o, _ => refuseJob q sq d (invalid q d o) s
  | none, c =>
    if dByte d 0 = 0 then refuseJob q sq d (unstarted (dNat d 2 2) q 0 0) s
    else match c with
    | none => s
    | some r =>
      let local_ := (modulesOf d s).contains s.straps.modId.toNat
      let n := if local_ then dByte d 6 else 0
      if (freeBents s).length < n then reserveFor q s
      else
        let xl := jobXl sq.func d s
        let pre := (startParam q sq.func d s).bind fun p s => (startChain q sq.func d s).bind fun m s =>
          if p.2.elim false Unit_.complete then .ok (p, m, []) s
          else (savePages q d xl r.saveVa.toNat (16 * n) s).bind fun gs s => .ok (p, m, gs) s
        match pre with
        | .wait s => reserveFor q s
        | .fail e s => refuseJob q sq d e s
        | .ok (p, m, gs) s =>
          if p.2.elim false Unit_.complete then startJob q sq d r p.1 p.2 m [] [] s
          else match takeBents n s with
            | (none, s) => reserveFor q s
            | (some ls, s) => startJob q sq d r p.1 p.2 m (sixteens n gs) ls s

/-- R399 to R401: the dispatcher chooses a job and starts it, unless a pre-empted job of its priority or better comes first. -/
def execJobStart (s : State) : Host.Outcome State Fault Refusal :=
  if s.power.phase ≠ .ready ∨ s.disp.fetching = false then .next s
  else match chooseQueue s with
    | (none, s) => .next s
    | (some (q, sq, d), s) => if restoreFirst sq.prio s then .next s else .next (tryStart q sq d s)

end Sys2Proof.Machine
end

