-- ==== Sys2Proof/Machine/Pcie.lean ====
section
/-! DEFINITION. The PCI Express port: the BAR2 aperture and its window (R353 to R357), MSI-X (R358 to R360), the link (R363, R364),
function resets (R364, R365) and errors (R366). -/

namespace Sys2Proof.Machine

/-- The port's answer to a read of the host. -/
def answer (v : W32) (ep : Bool) (s : State) : State := { s with port := { s.port with data := v, ep := ep, ur := false } }

/-- R6: a BAR0 access of another width or alignment; one of 32 bits and aligned is none of these. -/
def execUnsupportedAccess (_f : FuncIx) (off : BitVec 26) (bytes : Nat) (s : State) : Host.Outcome State Fault Refusal :=
  if bytes = 4 ∧ off.toNat % 4 = 0 then .next s else .next (unsupported s)

/-! ### The window (R353, R354) -/

/-- R354, R514: the window is committed or refused; a member of a cascade serves no SPACE 2 (DEDUCED, assumption 77). -/
def commitWin (f : Nat) (s : State) : State :=
  let w := (s.fn f).win
  let bad :=
    (isMember s && decide (w.stSpace = 2)) || (decide (w.stSpace = 0) && (decide (f ≠ 0) || !inCascade s (bitsOf w.stBase 37 3))) || (decide (w.stSpace = 1) && decide (w.stBase ≠ 0)) ||
      (decide (w.stSpace = 2) && (match s.ctx w.stCtx.toNat with | some c => decide (c.func ≠ f) | none => true))
  if !w.staged then s
  else if bad then s.setFn f { s.fn f with win := { w with cerr := true } }
  else s.setFn f { s.fn f with win := { w with staged := false, base := w.stBase, space := w.stSpace, ctx := w.stCtx } }

/-- R353, R563: a write of WINCTL. -/
def writeWinctl (f : Nat) (v : W32) (s : State) : State :=
  let w := (s.fn f).win
  let s := s.setFn f { s.fn f with win := { w with
    cerr := w.cerr && !bitAt v 9, fault := w.fault && !bitAt v 10, stSpace := BitVec.ofNat 2 (bitsOf v 1 2), stCtx := BitVec.ofNat 12 (bitsOf v 16 12), staged := true } }
  if bitAt v 0 then commitWin f s else s

/-- R7, R353: a write in the WIN block. -/
def writeWin (f off : Nat) (v : W32) (s : State) : State :=
  let w := (s.fn f).win
  match off with
  | 0 => s.setFn f { s.fn f with win := { w with held := some (v &&& 0xFFF00000#32), staged := true } }
  | 4 => s.setFn f { s.fn f with win := { w with stBase := BitVec.ofNat 8 (bitsOf v 0 8) ++ w.held.getD (w.base.setWidth 32), held := none, staged := true } }
  | 8 => writeWinctl f v s
  | _ => s

/-- WINCTL written with v and COMMIT set. -/
def execWindowCommit (f : FuncIx) (v : W32) (s : State) : Host.Outcome State Fault Refusal :=
  .next (hostWrite f.val (writeWinctl f.val (v ||| 1)) s)

/-! ### The aperture (R355, R356) -/

/-- R353: WINCTL.FAULT (DEDUCED, assumption 49). -/
def winFault (f : Nat) (s : State) : State := s.setFn f { s.fn f with win := { (s.fn f).win with fault := true } }

/-- R566: an aperture entry of the error log. -/
def logApt (ue : Bool) (code f addr ctx : Nat) (s : State) : State := logErr ue code 7 f addr 0 ctx s

/-- R355: the word of the window a byte offset reaches. -/
def winTarget (w : Win) (off : BitVec 32) : Nat := (w.base.toNat + off.toNat / 4) % 2 ^ 40

/-- R566: the CTXID an entry carries. -/
def winCtx (w : Win) : Nat := if w.space = 2 then w.ctx.toNat else 0

/-- R355: the translation settings of SPACE 2: supervisor level in context CTXID. -/
def winXl (f : Nat) (w : Win) (s : State) : Option Xl :=
  match s.ctx w.ctx.toNat with
  | some c =>
    if c.func = f then
      some { ctx := w.ctx.toNat, root := c.ptroot, lvl := 1, func := f, pasid := c.pasid, hostBase := c.hostBase, prien := false, supv := c.supv, htrap := c.htrap }
    else none
  | none => none

/-- R122: every claim whose zeroing is under way ends. -/
def finishClaims (s : State) : State := (s.mem.claims.map Prod.fst).foldl (fun s c => finishClaim (c / 2) (decide (c % 2 = 1)) s) s

/-- R120, R122, R355: a word of SPACE 2; an access that meets zero on first touch goes on when the zeroing is done. -/
def winXlate (f : Nat) (w : Win) (acc : Acc) (v : Nat) (s : State) : Res Place :=
  match winXl f w s with
  | none => .trap (xlTrap 10 acc v 0 7 false) s
  | some xl =>
    if 0xF000000000 ≤ v then .trap (xlTrap 10 acc v 0 7 false) s
    else match xlateWord (.aperture f) xl acc v 1 s with
      | .stall s => xlateWord (.aperture f) xl acc v 1 (finishClaims s)
      | r => r

/-- R57, R65, R95, R355: read a global word through the aperture; another module's word is a free value, or poisoned (DESIGN CHOICE, assumption 16). -/
def readGlobal (f g ctx : Nat) (s : State) : State :=
  if !inCascade s (moduleOf g) then answer 0 false (winFault f (logApt false 0x0005 f g 0 s))
  else if !isLocal s g then
    if Config.freeBit s.draw g then answer 0 true (logApt true 0x0006 f g ctx s.drawn) else answer ((Config.freeWord s.draw g).setWidth 32) false s.drawn
  else if isHole s (localOf g) then answer 0 false (logApt false 0x0005 f g 0 s)
  else match blkRead s (localOf g / 64) [g % 64] with
    | (some [w], s) => answer (w.setWidth 32) false s
    | (_, s) => answer 0 true (logApt true 0x0006 f g ctx s)

/-- R355, R356, R566: a read of the container at byte offset off. APERTURE_POISON has the global address of the poisoned word, an entry of the
page table among them; for a yard word, which has none, its address in the yard window (DESIGN CHOICE, assumption 91). -/
def aptRead (f : Nat) (off : BitVec 32) (s : State) : State :=
  let w := (s.fn f).win
  let t := winTarget w off
  match w.space.toNat with
  | 0 => readGlobal f t 0 s
  | 1 =>
    if 2 ^ 25 ≤ t then answer 0 false s
    else if !yardAllows s 49 f t 1 .read then answer 0 false (winFault f (logApt false 0x0007 f t 0 s))
    else match sramRead (yardWord s t) (healYard t) s with
      | (true, s) => answer ((tget 0 s.mem.yard t).setWidth 32) false s
      | (false, s) => answer 0 true (logApt true 0x0006 f (0xFFFC000000 + t) 0 s)
  | 2 =>
    match winXlate f w .read t s with
    | .ok (.dev g) s => readGlobal f g (winCtx w) s
    | .ok _ s => answer 0 false s
    | .stall s => s
    | .trap x s =>
      if x.cause = 11 then answer 0 true (logApt true 0x0006 f x.addr.toNat (winCtx w) s) else answer 0 false (winFault f (logApt false 0x0042 f t (winCtx w) s))
  | _ => answer 0 false s

/-- R528, R530: the PF before READY answers zeroes and discards writes, with no unsupported request. -/
def quiet (f : Nat) (s : State) : Bool := decide (f = 0) && s.port.cfg && (decide (s.power.phase = .raised) || decide (s.power.phase = .recovery) || decide (s.power.phase = .aux))

/-- R361: a read of BAR2, served by a raised module that is not dormant. -/
def execBar2Read (f : FuncIx) (off : BitVec 32) (s : State) : Host.Outcome State Fault Refusal :=
  if quiet f.val s then .next (answer 0 false s)
  else if s.power.phase = .ready ∧ (s.fn f).enabled = true then .next (aptRead f.val off s) else .next (unsupported s)

/-- R57, R355: write a global word through the aperture. -/
def writeGlobal (f g : Nat) (v : Word) (s : State) : State :=
  if !inCascade s (moduleOf g) then winFault f (logApt false 0x0005 f g 0 s)
  else if !isLocal s g then s
  else if isHole s (localOf g) then winFault f (logApt false 0x0005 f g 0 s)
  else blkWrite (localOf g / 64) [(g % 64, v)] s

/-- R355: a good container written at byte offset off. -/
def aptPut (f : Nat) (off : BitVec 32) (v : Word) (s : State) : State :=
  let w := (s.fn f).win
  let t := winTarget w off
  match w.space.toNat with
  | 0 => writeGlobal f t v s
  | 1 =>
    if 2 ^ 25 ≤ t then winFault f s
    else if !yardAllows s 49 f t 1 .write then winFault f (logApt false 0x0007 f t 0 s)
    else { s with mem := { s.mem with yard := tset 0 s.mem.yard t v, yardBad := terase s.mem.yardBad t } }
  | 2 =>
    match winXlate f w .write t s with
    | .ok (.dev g) s => writeGlobal f g v s
    | .ok _ s => s
    | .stall s => s
    | .trap _ s => winFault f (logApt false 0x0042 f t (winCtx w) s)
  | _ => s

/-- R355, R356: a container written with its byte enables and EP. -/
def aptWrite (f : Nat) (off : BitVec 32) (v : W32) (be : BitVec 4) (ep : Bool) (s : State) : State :=
  let w := (s.fn f).win
  let t := winTarget w off
  let off3 := decide (w.space = 3)
  if ep then countAer 1 (logApt true 0x0044 f t (winCtx w) (if off3 then s else winFault f s))
  else if off3 then s
  else if be ≠ 15 ∨ 2 ^ 20 ≤ v.toNat then logApt false 0x0043 f t (winCtx w) (winFault f s)
  else aptPut f off (v.setWidth 20) s

def execBar2Write (f : FuncIx) (off : BitVec 32) (v : W32) (be : BitVec 4) (ep : Bool) (s : State) : Host.Outcome State Fault Refusal :=
  if quiet f.val s then .next s
  else if s.power.phase = .ready ∧ (s.fn f).enabled = true then .next (aptWrite f.val off v be ep s) else .next (unsupported s)

/-! ### MSI-X (R358 to R360) -/

/-- R359: an unmasked vector takes its address and data, and sends the message it holds. -/
def latchVector (f v : Nat) (s : State) : State :=
  let fn := s.fn f
  let e := tget Vector.reset fn.vec v
  if e.mask || fn.fmask then s
  else
    let s := s.setFn f { fn with vec := tset Vector.reset fn.vec v { e with curAddr := e.addr, curData := e.data, pba := false } }
    if e.pba then sendVec f v s else s

/-- R358: the Mask bit of a vector. -/
def setMask (f v : Nat) (m : Bool) (s : State) : State :=
  let fn := s.fn f
  let e := tget Vector.reset fn.vec v
  let s' := s.setFn f { fn with vec := tset Vector.reset fn.vec v { e with mask := m } }
  if e.mask && !m then latchVector f v s' else s'

def execVectorUnmask (f : FuncIx) (vec : BitVec 11) (s : State) : Host.Outcome State Fault Refusal :=
  .next (hostWrite f.val (fun s => if vec.toNat < vectorCount f.val then setMask f.val vec.toNat false s else s) s)

/-- R358, R359: a write of a 32-bit register of the MSI-X table; the PBA is read-only. -/
def writeMsix (f off : Nat) (v : W32) (s : State) : State :=
  let n := off / 16
  if vectorCount f ≤ n then s
  else
    let fn := s.fn f
    let e := tget Vector.reset fn.vec n
    let put := fun (e : Vector) => s.setFn f { fn with vec := tset Vector.reset fn.vec n e }
    match off % 16 with
    | 0 => put { e with addr := e.addr.extractLsb' 32 32 ++ v }
    | 4 => put { e with addr := v ++ e.addr.extractLsb' 0 32 }
    | 8 => put { e with data := v }
    | _ => setMask f n (bitAt v 0) s

/-- R358: the Function Mask goes: every unmasked vector takes its registers and sends what it holds. -/
def clearFmask (f : Nat) (s : State) : State :=
  let s := s.setFn f { s.fn f with fmask := false }
  ((s.fn f).vec.map Prod.fst).foldl (fun s v => latchVector f v s) s

/-- R360: Bus Master Enable returns: the messages that waited go. -/
def resumeBus (f : Nat) (s : State) : State :=
  let mine := s.port.waits.filter (fun w => decide (w.1 = f))
  let s := s.setFn f { s.fn f with bme := true }
  mine.foldl (fun s w => sendVec w.1 w.2 s) { s with port := { s.port with waits := s.port.waits.filter (fun w => !decide (w.1 = f)) } }

/-- R360, R361: the configuration write reaches an enabled function of a module whose supply is up. -/
def execBusMasterEnable (f : FuncIx) (s : State) : Host.Outcome State Fault Refusal :=
  if (s.fn f).enabled then .next (resumeBus f.val s) else .next s

/-! ### The link (R363, R364) -/

/-- R363: with no Translation Request outstanding the module requests L1. -/
def execAspmL1Entry (s : State) : Host.Outcome State Fault Refusal :=
  if s.port.up && s.port.aspm && s.ats.asked.isEmpty then .next { s with port := { s.port with l1 := true } } else .next s

/-- R342: a width the link may train to. -/
def trainedWidth (n : Nat) : PcieWidth :=
  match n % 4 with
  | 0 => .x1
  | 1 => .x4
  | 2 => .x8
  | _ => .x16

/-- R342: a rate the link may train to. -/
def trainedRate (n : Nat) : PcieRate :=
  match n % 6 with
  | 0 => .g2_5
  | 1 => .g5
  | 2 => .g8
  | 3 => .g16
  | 4 => .g32
  | _ => .g64

/-- R342, R343: the link has trained to the widest width and the highest rate that both ends support. The spec does not give the other
end, so width, rate and mode are free values (DESIGN CHOICE, assumption 97); 64 GT/s runs in Flit mode only. -/
def execPcieLinkUp (s : State) : Host.Outcome State Fault Refusal :=
  let rate := trainedRate (Config.freeNat s.draw 1)
  .next { s.drawn with port := { s.port with up := true, l1 := false, width := trainedWidth (Config.freeNat s.draw 0), rate := rate,
                                             flit := Config.freeBit s.draw 2 || decide (rate = .g64) } }

/-! ### Function resets (R364, R365) -/

/-- R365: the contexts of functions. -/
def ctxsOf (fs : List Nat) (s : State) : List Nat := s.ctxs.filterMap (fun e => match e.2 with | some c => if fs.contains c.func then some e.1 else none | none => none)

/-- R365: every job of a function ends without an entry, and the bents that ran it are cleared. -/
def dropJobs (fs : List Nat) (s : State) : State :=
  let js := s.disp.jobs.filterMap (fun e => match e.2 with | some j => if fs.contains j.func then some e.1 else none | none => none)
  let s := js.foldl (fun s j => (endShares j s).setJob j none) s
  { s with pair := { s.pair with takeover := s.pair.takeover.map (fun t =>
      { t with share := match t.share with | some (j, i) => if js.contains j then none else some (j, i) | none => none }) } }

/-- R365: the yard regions of functions: their words are zeroed and EN is cleared. -/
def dropRegions (fs cs : List Nat) (s : State) : State :=
  let mine := fun (e : Nat × Region) => e.2.en && (if e.1 / 8 = 49 then fs.contains e.2.tag.toNat else cs.contains e.2.tag.toNat)
  let hit := s.mem.region.filter mine
  let inside := fun w => hit.any (fun e => decide (e.2.base.toNat ≤ w) && decide (w ≤ e.2.lim.toNat))
  { s with mem := { s.mem with
      yard := tdrop inside s.mem.yard
      yardBad := tdrop inside s.mem.yardBad
      region := tmap Region.reset (fun k r => if mine (k, r) then { r with en := false } else r) s.mem.region } }

/-- R365: the queues and contexts of functions, and their translations. -/
def dropQueues (fs cs : List Nat) (s : State) : State :=
  let s := dropTlb (fun k => cs.contains (k / 2 ^ 25)) s
  let keep := fun f => !fs.contains f
  { s with
    ctxs := tdrop (fun c => cs.contains c) s.ctxs
    ats := { s.ats with
      atc := s.ats.atc.filter (fun e => keep e.func), asked := s.ats.asked.filter (fun e => keep e.func), reqs := s.ats.reqs.filter (fun e => keep e.func)
      fails := s.ats.fails.filter (fun e => keep e.func), held := s.ats.held.filter (fun e => keep e.2.1) }
    port := { s.port with waits := s.port.waits.filter (fun w => keep w.1) }
    mem := { s.mem with scrub := s.mem.scrub.filter (fun e => keep e.func) }
    disp := { s.disp with
      sq := s.disp.sq.filter (fun e => match e.2 with | some q => keep q.func | none => true)
      cq := s.disp.cq.filter (fun e => match e.2 with | some q => keep q.func | none => true)
      group := tdrop (fun g => fs.contains (g / 1024)) s.disp.group
      reserve := match s.disp.reserve with
        | some q => (match s.sq q with | some x => if keep x.func then some q else none | none => none)
        | none => none } }

/-- R364: Max_Payload_Size stays over an FLR, as in PCI Express (PRESUMED, assumption 76). -/
def keptCfg (f : Nat) (s : State) : Tbl W32 :=
  let d := cfgReset f 0x68
  tset d [] 0x68 ((d &&& ~~~0xE0#32) ||| (cfgReg f 0x68 s &&& 0xE0#32))

/-- R17, R364: the registers of a function return to their reset values, and it is not ready (DEDUCED, assumption 54). -/
def resetFunc (keepEnabled : Bool) (s : State) (f : Nat) : State :=
  s.setFn f { Func.reset f with cfg := keptCfg f s, enabled := decide (f = 0) || (keepEnabled && (s.fn f).enabled), resetting := true }

/-- R365: what an FLR does for the functions in its scope. -/
def resetScope (fs : List Nat) (keepEnabled : Bool) (s : State) : State :=
  let cs := ctxsOf fs s
  fs.foldl (resetFunc keepEnabled) (dropQueues fs cs (dropRegions fs cs (dropJobs fs s)))

/-- R17: the staged fields of the blocks the PF owns, with their values in force: no ECCFLIP and no comparator test stays armed
(DEDUCED, assumption 45). -/
def resetPfBlocks (s : State) : State :=
  { s with
    mem := { s.mem with
      ecc := { EccFlip.reset with fired := s.mem.ecc.fired }
      region := tmap Region.reset (fun _ r => { r with base := 0, lim := 0, stBase := 0, stLim := 0, staged := false, cerr := false }) s.mem.region }
    power := { s.power with
      stSrc := false, stDiv := 0, islStaged := false, islCerr := false
      island := tmap Island.reset (fun _ i => { i with src := false, div := 0, heldPair := none }) s.power.island }
    scarf := { s.scarf with link := tmap Link.reset (fun _ l => { l with en := true, maxw := false, stEn := true, stMaxw := false, staged := false, cerr := false }) s.scarf.link }
    pair := { s.pair with bent := 0, mode := 0, staged := false, cerr := false, armed := false, curBent := 0, curMode := 0 } }

/-- R342, R349: the PASID and Page Request enables and the page-request allocation return to their reset values. -/
def enablesReset (s : State) : State :=
  { s with port := { s.port with pasidEn := Port.reset.pasidEn, priEn := Port.reset.priEn }, ats := { s.ats with opra := Ats.reset.opra } }

/-- R63, R364, R384: the PF's reset: VFs are disabled, the running operation stops, and every tract is recoded strong with zeroing and is the PF's. -/
def pfReset (s : State) : State :=
  let s := enablesReset (resetPfBlocks (resetScope (List.range 64) false s))
  { s with
    port := { s.port with vfEn := false, numVfs := 0, waits := [] }
    mem := { s.mem with
      tcmap := [], owner := []
      memc := { Memc.reset with busy := true, flr := true, curFirst := 0, curLast := s.variant.tracts - 1 } } }

/-- The module is raised, dormant or not. -/
def raisedUp (s : State) : Bool := decide (s.power.phase = .ready) || decide (s.power.phase = .dormant)

/-- R364: configuration registers return to their reset values. -/
def configReset (s : State) : State :=
  let s := enablesReset (s.setFn 0 { s.fn 0 with cfg := [] })
  { s with port := { s.port with aspm := Port.reset.aspm } }

def execPfFlr (s : State) : Host.Outcome State Fault Refusal := if raisedUp s then .next (pfReset s) else .next s
def execHotReset (s : State) : Host.Outcome State Fault Refusal :=
  if raisedUp s then .next (configReset (pfReset s)) else .next s
def execPcieLinkDown (s : State) : Host.Outcome State Fault Refusal :=
  let down := fun (s : State) => { s with port := { s.port with up := false, l1 := false } }
  .next (down (configReset (if raisedUp s then pfReset s else s)))

/-- R364, R365: an FLR of VF f. -/
def execVfFlr (f : FuncIx) (s : State) : Host.Outcome State Fault Refusal :=
  if f.val = 0 ∨ raisedUp s = false ∨ (s.fn f).enabled = false then .next s else .next (resetScope [f.val] true s)

/-- R365, R384: zero every tract assigned to a VF. -/
def zeroOwned (f : Nat) (s : State) : State := (s.mem.owner.filter (fun e => decide (e.2 = f))).foldl (fun s e => zeroTracts e.1 e.1 s) s

/-- R352, R364, R365, R537: the clearing and zeroing of a function's reset end, with the link up and no mailbox command running. -/
def execResetComplete (f : FuncIx) (s : State) : Host.Outcome State Fault Refusal :=
  let fn := s.fn f
  if !fn.resetting || !s.port.up || s.power.phase != .ready then .next s
  else if f.val = 0 then
    if s.stwd.busy then .next s
    else
      let s := if s.mem.memc.flr then finishTracts s else s
      .next { s.setFn 0 { s.fn 0 with resetting := false, ready := true } with stwd := Stwd.reset }
  else
    let s := zeroOwned f.val s
    .next (s.setFn f { s.fn f with resetting := false, ready := (s.fn f).enabled })

/-! ### Reads of host memory and errors (R366) -/

/-- R344: a completion brings the bytes of host memory it read, of one request at most. -/
def execReadCompletion (_f : FuncIx) (addr : BitVec 64) (data : List Byte) (s : State) : Host.Outcome State Fault Refusal :=
  let data := data.take (maxRead s)
  let hi := addr.toNat + data.length
  .next (data.zipIdx.foldl (fun s e => putHost (addr.toNat + e.2) e.1.toNat 1 s)
    { s with hostBad := s.hostBad.filter (fun b => !(decide (addr.toNat ≤ b) && decide (b < hi))) })

/-- R366, R566: a read fails: it is logged and counted, and the requester finds it failed. -/
def failRead (f addr detail ctx va : Nat) (s : State) : State :=
  let s := countAer (if detail = 1 then 7 else 2) (logErr true 0x0045 7 f va detail ctx s)
  { s with hostBad := s.hostBad ++ [addr] }

/-- R344: with Completion Timeout Disable set no read times out. -/
def execCompletionTimeout (f : FuncIx) (addr : BitVec 64) (ctx : BitVec 12) (va : W40) (s : State) : Host.Outcome State Fault Refusal :=
  if timeoutOff s then .next s else .next (failRead f.val addr.toNat 2 ctx.toNat va.toNat s)
def execPoisonedTlpReceived (f : FuncIx) (addr : BitVec 64) (ctx : BitVec 12) (va : W40) (s : State) : Host.Outcome State Fault Refusal :=
  .next (failRead f.val addr.toNat 1 ctx.toNat va.toNat s)
def execUnexpectedCompletion (s : State) : Host.Outcome State Fault Refusal := .next (countAer 4 s)
/-- R366: with checking enabled. -/
def execEcrcError (s : State) : Host.Outcome State Fault Refusal := if ecrcChecked s then .next (countAer 5 s) else .next s
def execMalformedTlp (s : State) : Host.Outcome State Fault Refusal := .next (countAer 6 s)
def execReceiverError (s : State) : Host.Outcome State Fault Refusal := .next (countAer 0 s)

end Sys2Proof.Machine
end

