-- ==== Sys2Proof/Machine/Scarf.lean ====
section
/-! DEFINITION. Scarf links and cascades (R501 to R524): training, replay, routes, remote requests, and forming, losing and
regaining modules. -/

namespace Sys2Proof.Machine

/-! ### Topology (R508, R510) -/

/-- R522: link l exists on this variant (DESIGN CHOICE, assumption 66). -/
def hasLink (l : Nat) (s : State) : Bool := decide (l < s.variant.links)

/-- R506, R511: the link carries flits, or holds them while it retrains. -/
def Link.joined (k : Link) : Bool := decide (k.state = 2) || decide (k.state = 3) || decide (k.state = 4) || (decide (k.state = 1) && decide (k.width ≠ 0))

/-- The joined links of this module. -/
def ownEdges (s : State) : List Edge :=
  ((List.range 4).filter (fun l => hasLink l s && (s.link l).joined && !(s.link l).heldDown)).map
    (fun l => { a := s.straps.modId, al := BitVec.ofNat 2 l, b := (s.link l).peerMod, bl := (s.link l).peerLink })

/-- R508: the links that join modules: those told of other modules, and this module's own. -/
def topology (told : List Edge) (s : State) : List Edge :=
  told.filter (fun e => decide (e.a ≠ s.straps.modId) && decide (e.b ≠ s.straps.modId)) ++ ownEdges s

/-- The links of a module, with the module at the other end. -/
def linksOf (es : List Edge) (m : BitVec 3) : List (Nat × BitVec 3) :=
  es.flatMap (fun e => (if e.a = m then [(e.al.toNat, e.b)] else []) ++ (if e.b = m then [(e.bl.toNat, e.a)] else []))

/-- The modules within n links of one. -/
def within (es : List Edge) (m : BitVec 3) : Nat → List (BitVec 3)
  | 0 => [m]
  | n + 1 => ((within es m n).flatMap (fun x => x :: (linksOf es x).map Prod.snd)).eraseDups

/-- R510: links on a shortest path between two modules. -/
def distance (es : List Edge) (x m : BitVec 3) : Option Nat := (List.range 8).find? (fun n => (within es m n).contains x)

/-- The least of several numbers. -/
def leastOf : List Nat → Option Nat
  | [] => none
  | n :: ns => some (ns.foldl min n)

/-- R510: the first link from x to m: the lowest-numbered one on a shortest path. -/
def firstLink (es : List Edge) (x m : BitVec 3) : Option Nat :=
  match distance es x m with
  | some (n + 1) => leastOf ((linksOf es x).filterMap (fun p => if (within es m n).contains p.2 then some p.1 else none))
  | _ => none

/-- R510, R522: SCRFRT: bit 3 and the link, for each module that a route reaches. -/
def routesOf (es : List Edge) (me : BitVec 3) : Tbl Nat :=
  (List.range 8).foldl (fun t m => match firstLink es me (BitVec.ofNat 3 m) with | some l => tset 0 t m (8 + l) | none => t) []

/-- A set of modules as PRESENT holds it. -/
def moduleBits (ms : List (BitVec 3)) : BitVec 8 := ms.foldl (fun b m => b ||| BitVec.ofNat 8 (2 ^ m.toNat)) 0

/-- R510, R511: the routes in force are those of the links known. -/
def reroute (told : List Edge) (s : State) : State :=
  let es := topology told s
  { s with scarf := { s.scarf with edges := es, route := routesOf es s.straps.modId } }

/-! ### Links (R504 to R507, R523) -/

/-- R522: counters stop at their greatest value. -/
def satInc (n : Nat) : Nat := min (2 ^ 32 - 1) (n + 1)

/-- R524: an entry with KIND 8 and the link number. -/
def logLink (code l : Nat) (s : State) : State := logErr false code 8 l 0 0 0 s

/-- R506: link l changes; a change of STATE fires event source 5 with status bit 0. -/
def changeLink (l : Nat) (f : Link → Link) (s : State) : State :=
  let k := s.link l
  let t := s.setLink l (f k)
  if (f k).state = k.state then t else fireSrc 5 1 t

/-- R506: the link goes down. -/
def linkDown (l : Nat) (s : State) : State := changeLink l (fun k => { k with state := 0, width := 0 }) (logLink 0x005A l s)

/-- R505, R506, R522: an enabled link retrains; its flits wait. -/
def retrain (l : Nat) (s : State) : State :=
  let k := s.link l
  if !k.en || k.heldDown then s
  else changeLink l (fun k => { k with state := 1, retrain := satInc k.retrain, replayed := none, asked := false }) (logLink 0x0058 l s)

/-- R523: the link is the only route from this module to a module of PRESENT. -/
def onlyRoute (l : Nat) (s : State) : Bool :=
  let es := topology s.scarf.edges s
  let without := es.filter (fun e => !(decide (e.a = s.straps.modId) && decide (e.al.toNat = l)))
  (List.range 8).any (fun m => bitAt s.scarf.present m && (distance es s.straps.modId (BitVec.ofNat 3 m)).isSome &&
    (distance without s.straps.modId (BitVec.ofNat 3 m)).isNone)

/-- R523: EN and MAXW are committed, through a retrain of the link, or refused. -/
def commitLink (l : Nat) (s : State) : State :=
  let k := s.link l
  if !k.staged then s
  else if !k.stEn && onlyRoute l s then s.setLink l { k with cerr := true }
  else
    let s := s.setLink l { k with en := k.stEn, maxw := k.stMaxw, staged := false }
    if k.stEn then retrain l s else changeLink l (fun k => { k with state := 5, width := 0 }) s

/-- R15, R522, R563: a write of LINKCFG; its COMMIT takes in the EN and MAXW of that same write (DESIGN CHOICE, assumption 75). -/
def writeLinkcfg (l : Nat) (v : W32) (s : State) : State :=
  if !hasLink l s then s
  else
    let k := s.link l
    let s := s.setLink l { k with cerr := k.cerr && !bitAt v 9, stMaxw := bitAt v 3, stEn := bitAt v 2, staged := true }
    let s := if bitAt v 0 && k.staged then commitLink l s else s
    if bitAt v 1 && !(bitAt v 0 && k.staged && (s.link l).state = 1) then retrain l s else s

/-- LINKCFG written with v and COMMIT set. -/
def execLinkConfigCommit (l : Nat) (v : W32) (s : State) : Host.Outcome State Fault Refusal :=
  if 4 ≤ l then .fault .noSuchUnit else .next (hostWrite 0 (writeLinkcfg l (v ||| 1)) s)

/-- LINKCFG.RETRAIN alone; the staged fields keep their values. -/
def execLinkRetrain (l : Nat) (s : State) : Host.Outcome State Fault Refusal :=
  if 4 ≤ l then .fault .noSuchUnit else .next (hostWrite 0 (fun s => if hasLink l s then retrain l s else s) s)

/-- R506: lanes lose lock: a link that uses one of them retrains. -/
def execLaneLockLoss (l : Nat) (lanes : BitVec 8) (s : State) : Host.Outcome State Fault Refusal :=
  if 4 ≤ l then .fault .noSuchUnit
  else
    let k := s.link l
    if !hasLink l s || k.state < 2 || 3 < k.state then .next s
    else
      let low := decide (k.laneOk &&& 15 = 15)
      let used : BitVec 8 := if k.width = 8 then 255 else if low then 15 else 240
      let s := s.setLink l { k with laneOk := k.laneOk &&& ~~~lanes }
      .next (if used &&& lanes = 0 then s else retrain l s)

/-- R509: the case this module finds at the peer of a link: two heads, or its own number (DEDUCED, assumption 60). -/
def refusedPeer (p : Sys2Proof.Peer) (s : State) : Bool := (s.straps.head && p.head) || decide (p.mod = s.straps.modId)

/-- R509: links of this module are held down, and the case is logged with a module number. -/
def refuseCascade (ls : List Nat) (m : Nat) (s : State) : State :=
  logErr true 0x005F 8 15 0 m 0 (ls.foldl (fun s l => changeLink l (fun k => { k with state := 0, width := 0, heldDown := true }) s) s)

/-- R504, R506: the link comes into service at 8 or 4 lanes; one that was down begins its flits anew (DESIGN CHOICE, assumption 78). -/
def linkUp (l : Nat) (lanes : BitVec 8) (p : Sys2Proof.Peer) (s : State) : State :=
  let k := s.link l
  let full := decide (lanes = 255) && !k.maxw
  let s := if full || k.maxw then s else logLink 0x0059 l s
  changeLink l (fun k => { k with
    state := if full || k.maxw then 2 else 3, width := if full then 8 else 4, laneOk := lanes, peerMod := p.mod, peerLink := p.link
    expect := if k.width = 0 then 0 else k.expect }) s

/-- R504, R506, R509, R557: training ends: at 8 lanes, at 4, or with the link down. -/
def execLinkTrainingComplete (l : Nat) (lanes : BitVec 8) (peer : Sys2Proof.Peer) (s : State) : Host.Outcome State Fault Refusal :=
  if 4 ≤ l then .fault .noSuchUnit
  else if !hasLink l s || (s.link l).state ≠ 1 then .next s
  else
    let half := decide (lanes &&& 15 = 15) || decide (lanes &&& 240 = 240)
    if !half || !peer.clocksAgree then .next (linkDown l (s.setLink l { s.link l with laneOk := lanes }))
    else if refusedPeer peer s then
      .next (refuseCascade [l] peer.mod.toNat (s.setLink l { s.link l with laneOk := lanes, peerMod := peer.mod, peerLink := peer.link }))
    else .next (linkUp l lanes peer s)

/-- R506, R509: every 100 ms a link that is down is tried again; one held down is tried once its case is cleared. -/
def execLinkRetry (l : Nat) (s : State) : Host.Outcome State Fault Refusal :=
  if 4 ≤ l then .fault .noSuchUnit
  else if !hasLink l s || !(s.link l).en || (s.link l).state ≠ 0 || !(decide (s.power.phase = .raised) || decide (s.power.phase = .ready)) then .next s
  else .next (changeLink l (fun k => { k with state := 1, heldDown := false }) s)

/-- R505, R522: a flit arrives: in order it is delivered; a bad one is asked for again, once. How many codewords of a good flit were
corrected, and whether a bad one had a CRC-32C error or an uncorrectable codeword, is free (DESIGN CHOICE, assumption 79). -/
def execFlitReceive (l : Nat) (seq : BitVec 12) (good : Bool) (s : State) : Host.Outcome State Fault Refusal :=
  if 4 ≤ l then .fault .noSuchUnit
  else
    let k := s.link l
    if k.state ≠ 2 ∧ k.state ≠ 3 then .next s
    else if good then
      let k := { k with fecCorr := min (2 ^ 32 - 1) (k.fecCorr + Config.freeNat s.draw (4 + l)) }
      .next ((s.setLink l (if seq = k.expect then { k with expect := k.expect + 1, asked := false } else k)).drawn)
    else .next ((s.setLink l { k with asked := true, fecUnc := if Config.freeBit s.draw l then satInc k.fecUnc else k.fecUnc }).drawn)

/-- R505: the peer asks for a flit again: a replay; after 8 in a row of one flit the link retrains. -/
def execNak (l : Nat) (seq : BitVec 12) (s : State) : Host.Outcome State Fault Refusal :=
  if 4 ≤ l then .fault .noSuchUnit
  else
    let k := s.link l
    if k.state ≠ 2 ∧ k.state ≠ 3 then .next s
    else
      let n := match k.replayed with | some (q, n) => if q = seq then n + 1 else 1 | none => 1
      let s := s.setLink l { k with retry := satInc k.retry, replayed := some (seq, n) }
      .next (if 8 ≤ n then retrain l s else s)

/-- R507: in dormant every link that is up enters low-power idle. -/
def idleLinks (s : State) : State :=
  (List.range 4).foldl (fun s l => if (s.link l).state = 2 ∨ (s.link l).state = 3 then changeLink l (fun k => { k with state := 4 }) s else s) s

/-- R507: at a wake every link leaves low-power idle, at the width it had. -/
def wakeLinks (s : State) : State :=
  (List.range 4).foldl (fun s l =>
    if (s.link l).state = 4 then changeLink l (fun k => { k with state := if k.width = 8 ∨ k.maxw = true then 2 else 3 }) s else s) s

/-- R504, R522, R529: at raising the enabled links start training, and the counters are 0. -/
def startLinks (s : State) : State :=
  (List.range 4).foldl (fun s l => if hasLink l s && (s.link l).en then changeLink l (fun k => { k with state := 1 }) s else s) s

/-! ### Routes and remote requests (R510 to R512) -/

/-- R511: the head recomputes the routes after link number link has changed. -/
def execRouteChange (link : Fin 4) (edges : List Edge) (s : State) : Host.Outcome State Fault Refusal :=
  if s.scarf.formed then .next (fireSrc 5 2 (logLink 0x005B link.val (reroute edges s))) else .next s

/-- R511: the response kept for a request of the last 100 ms. -/
def keptFor (origin : BitVec 3) (tag : Nat) (s : State) : Option Kept :=
  s.scarf.kept.find? (fun k => decide (k.origin = origin) && decide (k.tag = tag) && decide (s.tick.toNat < k.at_ + 100000))

/-- R57, R74, R95, R512: the request is served at the pseudo-channel controller: its word, and whether it is poisoned. -/
def serveRemote (l : Nat) (req : RemoteReq) (s : State) : (Word × Bool) × State :=
  let a := match req with | .read a => a | .write a _ => a | .lockedAdd a _ => a
  let g := localOf a
  if isHole s g then ((0, false), logErr false 0x0005 8 l a 0 0 s)
  else match req with
    | .read _ => (match blkRead s (g / 64) [g % 64] with
      | (some [w], s) => ((w, false), s)
      | (_, s) => ((0, true), s))
    | .write _ v => ((0, false), blkWrite (g / 64) [(g % 64, v)] s)
    | .lockedAdd _ v => (match blkRead (openFetch s) (g / 64) [g % 64] with
      | (some [w], s) => ((w, false), closeFetch (lockedEnd (g / 64) [(g % 64, w + v)] s))
      | (_, s) => ((0, true), closeFetch (lockedEnd (g / 64) [] s)))

/-- R76: the request is a locked sequence that may not start yet. -/
def remoteBarred (req : RemoteReq) (s : State) : Bool := match req with | .lockedAdd a _ => lockBarred s (localOf a / 64) | _ => false

/-- R511, R512: a request from another module for this one's memory: answered from its kept response, or served and kept. -/
def execRemoteRequest (l : Nat) (origin : BitVec 3) (tag : Nat) (req : RemoteReq) (s : State) : Host.Outcome State Fault Refusal :=
  if 4 ≤ l then .fault .noSuchUnit
  else
    let a := match req with | .read a => a | .write a _ => a | .lockedAdd a _ => a
    let up := decide ((s.link l).state = 2) || decide ((s.link l).state = 3)
    if !up || !s.scarf.formed || s.power.phase ≠ .ready || !isLocal s a || (keptFor origin tag s).isSome || remoteBarred req s then .next s
    else
      let ((w, p), s) := serveRemote l req s
      let fresh := s.scarf.kept.filter (fun k => decide (s.tick.toNat < k.at_ + 100000))
      .next { s with scarf := { s.scarf with kept := fresh ++ [{ origin := origin, tag := tag, word := w, poisoned := p, at_ := s.tick.toNat }] } }

/-! ### Forming, losing and regaining (R508, R509, R518 to R521) -/

/-- R508, R529: the cascade is formed, and the module is READY. -/
def formCascade (headMod : BitVec 3) (told : List Edge) (s : State) : State :=
  let s := reroute told s
  let s := { s with
    scarf := { s.scarf with formed := true, headLost := false, headMod := headMod, present := moduleBits (within s.scarf.edges s.straps.modId 8) }
    power := { s.power with phase := .ready }
    disp := { s.disp with fetching := true } }
  (List.range 64).foldl (fun s f => if (s.fn f).enabled then s.setFn f { s.fn f with ready := true } else s) s

/-- R508, R509: the formation window closes: with one head reached the cascade forms; a second head refuses it; with none the
module waits. -/
def execFormationWindowClose (headMod : BitVec 3) (edges : List Edge) (s : State) : Host.Outcome State Fault Refusal :=
  let waits := s.power.phase = .raised ∧ s.power.fault = false
  let again := s.power.phase = .ready ∧ s.scarf.formed = false
  let reached := (within (topology edges s) s.straps.modId 8).contains headMod
  if ¬(waits ∨ again) ∨ reached = false then .next s
  else if s.straps.head ∧ headMod ≠ s.straps.modId then .next (refuseCascade ((ownEdges s).map (fun e => e.al.toNat)) headMod.toNat s)
  else if ¬s.straps.head ∧ headMod = s.straps.modId then .next s
  else .next (formCascade headMod edges s)

/-- R519: a job has a share on module m: running there, or saved in its memory. -/
def jobOn (m : Nat) (job : Job) : Bool :=
  job.others.contains m || job.shares.zipIdx.any (fun e => match e.1 with
    | .saved .. => ((job.save[e.2]?).getD []).any (fun g => decide (moduleOf g = m))
    | _ => false)

/-- R316: a value out of the range of a seal. -/
def sealLost : Int := 10 ^ 80

/-- R519: the jobs with a share on the lost module end, every seal out of range. -/
def loseJobs (m : Nat) (s : State) : State :=
  (liveJobs s).foldl (fun s j => if jobOn m j.2 then recordEnd j.1 (JobEnd.plain 0x00FF m) (List.replicate 8 sealLost) (endShares j.1 s) else s) s

/-- The address of the first buffered store of a core that goes to module m. -/
def strayStore (m : Nat) (c : Core) : Option Nat :=
  (c.stores.flatMap StoreEntry.at_).findSome? (fun p => match p with | .dev g => if moduleOf g = m then some g else none | _ => none)

/-- R519: an access of a job to the lost module that still waits is discarded, and ends the job.
(DESIGN CHOICE, assumption 56). -/
def loseStores (m k : Nat) (s : State) : State :=
  match strayStore m (s.core k), (s.bent (k / 2)).share with
  | some g, some (j, i) =>
    let c := s.core k
    let keep := fun (e : StoreEntry) => !e.at_.any (fun p => match p with | .dev g => decide (moduleOf g = m) | _ => false)
    let s := s.setCore k { c with stores := c.stores.filter keep }
    finishJob j { JobEnd.plain 0x0013 g with share := i } (logErr true 0x005E 8 15 g m 0 s)
  | _, _ => s

/-- R520: this member has lost its head: it discards every share of every cascade job. -/
def loseHead (s : State) : State :=
  let s := s.disp.jobs.foldl (fun s e => (endShares e.1 s).setJob e.1 none) s
  { s with scarf := { s.scarf with headLost := true, formed := false } }

/-- R518, R519, R520: module m of the cascade is lost. -/
def execModuleLost (m : BitVec 3) (s : State) : Host.Outcome State Fault Refusal :=
  if !s.scarf.formed || !bitAt s.scarf.present m.toNat || decide (m = s.straps.modId) then .next s
  else
    let bit : BitVec 8 := BitVec.ofNat 8 (2 ^ m.toNat)
    let s := { s with scarf := { s.scarf with present := s.scarf.present &&& ~~~bit, lostSeen := s.scarf.lostSeen ||| bit } }
    let s := fireSrc 5 4 (logErr true 0x005C 8 15 0 m.toNat 0 s)
    if m = s.scarf.headMod then .next (loseHead s)
    else .next ((List.range 64).foldl (fun s k => loseStores m.toNat k s) (loseJobs m.toNat s))

/-- R509, R521: module m joins the cascade, or is held out where its number is present. -/
def execModuleJoined (m : BitVec 3) (edges : List Edge) (s : State) : Host.Outcome State Fault Refusal :=
  if !s.scarf.formed || s.power.phase ≠ .ready || decide (m = s.straps.modId) then .next s
  else if bitAt s.scarf.present m.toNat then
    .next (refuseCascade ((edges.filter (fun e => decide (e.a = s.straps.modId) && decide (e.b = m))).map (fun e => e.al.toNat)) m.toNat s)
  else if !(within (topology edges s) s.straps.modId 8).contains m then .next s
  else
    let s := reroute edges s
    let s := { s with scarf := { s.scarf with present := s.scarf.present ||| BitVec.ofNat 8 (2 ^ m.toNat) } }
    .next (fireSrc 5 8 (logErr false 0x005D 8 15 0 m.toNat 0 s))

end Sys2Proof.Machine
end

