-- ==== Sys2Proof/Machine/Firmware.lean ====
section
/-! DEFINITION. Firmware slots, their verification, boot, anti-rollback and the update lock (R525 to R528, R531 to R533). -/

namespace Sys2Proof.Machine

/-! ### Slots (R525, R526) -/

/-- R525: bytes of a slot. -/
def slotSize : Nat := 8388608

/-- R525: the number of a slot: 0 A, 1 B. -/
def slotNo (b : Bool) : Nat := if b then 1 else 0

/-- Byte off of a slot: as written, erased, or as it was before its first write (DESIGN CHOICE, assumption 4). -/
def slotByte (s : State) (b : Bool) (off : Nat) : Byte :=
  match tget none s.flash.slot (slotNo b * slotSize + off) with
  | some v => v
  | none => if tget false s.flash.erased (slotNo b) then 255 else Config.flashByte (slotNo b) off

/-- n bytes of a slot from byte off. -/
def slotBytes (s : State) (b : Bool) (off n : Nat) : List Byte := (List.range n).map (fun i => slotByte s b (off + i))

/-- A big-endian number. -/
def beBytes (bs : List Byte) : Nat := bs.foldl (fun n b => 256 * n + b.toNat) 0

/-- R525: SVN of a slot. -/
def slotSvn (s : State) (b : Bool) : Nat := (slotByte s b 8).toNat
/-- R525: VARIANTS of a slot. -/
def slotVariants (s : State) (b : Bool) : Nat := (slotByte s b 9).toNat
/-- R525: LENGTH of a slot. -/
def slotLength (s : State) (b : Bool) : Nat := leNat (slotBytes s b 12 4)

/-- R526: the image is authentic: MAGIC, LENGTH, KEY, SIG and DIGEST. -/
def authentic (s : State) (b : Bool) : Bool :=
  decide (slotBytes s b 0 4 = [0x4B, 0x56, 0x46, 0x57]) && decide (1 ≤ slotLength s b) && decide (slotLength s b ≤ 8388352) &&
    decide (Config.sha384 (slotBytes s b 160 96) = Config.keyDigest) &&
    Config.ecdsaValid (slotBytes s b 64 96) (slotBytes s b 160 96) (slotBytes s b 0 64) &&
    decide (beBytes (slotBytes s b 16 48) = Config.sha384 (slotBytes s b 256 (slotLength s b)))

/-- R525: the bit of VARIANTS. -/
def Variant.bit : Variant → Nat
  | .kl8x256 => 0
  | .kl8x128 => 1

/-- R526, R533, R539: 0 where the slot verifies, else the status of the first check that fails.
(DEDUCED, assumption 57). -/
def verifySlot (s : State) (b : Bool) : Nat :=
  if !authentic s b then 5
  else if !(slotVariants s b).testBit s.variant.bit then 7
  else if slotSvn s b < s.flash.minSvn then 6
  else 0

/-! ### Boot (R527, R528, R541, R542) -/

/-- R541: what state sensor 21 reads: D0, dormant, D3cold, recovery, stopped. -/
def powerState : Phase → Nat
  | .raised | .ready => 0
  | .dormant => 1
  | .off | .aux => 2
  | .recovery => 3
  | .stopped => 4

/-- The phase changes; the endpoint queues a change of state sensor 21 (R542). -/
def setPhase (p : Phase) (s : State) : State :=
  let t := { s with power := { s.power with phase := p } }
  if powerState p = powerState s.power.phase then t else queueEvent (.sensor 21) t

/-- R528, R544: FW_SIG_FAIL of a slot. -/
def logSigFail (b : Bool) (s : State) : State := logErr true 0x0061 6 0 0 (slotNo b) 0 s

/-- R528: neither slot verifies. -/
def enterRecovery (s : State) : State :=
  let s := setPhase .recovery s
  { s with power := { s.power with fault := true }, port := { s.port with cfg := true }, steward := { s.steward with recovery := true } }

/-- R527, R528: the boot ROM boots the slot of the activation record, the other one, or none. -/
def bootRom (s : State) : State :=
  let a := s.flash.active
  let run := fun (b : Bool) (s : State) =>
    { s with flash := { s.flash with running := b }, steward := { s.steward with recovery := false } }
  if verifySlot s a = 0 then run a s
  else if verifySlot s (!a) = 0 then run (!a) (logErr true 0x0060 6 0 0 (slotNo (!a)) 0 (logSigFail a s))
  else enterRecovery (run a (logSigFail (!a) (logSigFail a s)))

/-! ### The update lock and flash writes (R532, R533) -/

/-- R532: the slot that does not run. -/
def inactive (s : State) : Bool := !s.flash.running

/-- R532: the path (true: PLDM) holds the lock, or it is free. -/
def lockFree (path : Bool) (s : State) : Bool := match s.flash.lock with | some p => decide (p = path) | none => true

/-- R532: take the lock. -/
def takeLock (path : Bool) (s : State) : State := { s with flash := { s.flash with lock := some path } }

/-- R532: free the lock. -/
def freeLock (s : State) : State := { s with flash := { s.flash with lock := none, begun := false } }

/-- R532: the inactive slot is erased, and its activation record is cleared. -/
def eraseInactive (s : State) : State :=
  let n := slotNo (inactive s)
  { s with flash := { s.flash with
      slot := tdrop (fun k => decide (k / slotSize = n)) s.flash.slot, erased := tset false s.flash.erased n true, active := s.flash.running } }

/-- R533: an update fails: the inactive slot is left invalid and the lock is freed. -/
def failUpdate (s : State) : State := freeLock (if s.flash.begun then eraseInactive s else s)

/-- R532: bytes written into the inactive slot; the first write of an update erases it. -/
def writeSlot (off : Nat) (bs : List Byte) (s : State) : State :=
  let s := if s.flash.begun then s else eraseInactive s
  let b := slotNo (inactive s) * slotSize
  { s with flash := { s.flash with begun := true, slot := bs.zipIdx.foldl (fun m e => tset none m (b + off + e.2) (some e.1)) s.flash.slot } }

/-- R532, R533, R538, R539: a chunk for the inactive slot from one of the two paths, and the status. -/
def flashChunk (path : Bool) (off : Nat) (bs : List Byte) (ok : Bool) (s : State) : Nat × State :=
  if !lockFree path s then (4, s)
  else if s.power.warn then (8, logErr false 0x0057 6 0 0 0 0 (failUpdate (takeLock path s)))
  else if !ok then (9, failUpdate (takeLock path (writeSlot off [] s)))
  else (0, writeSlot off bs (takeLock path s))

/-- R533, R539: the inactive slot is verified and recorded for the next raising, and the lock is freed. -/
def activateSlot (path ok : Bool) (s : State) : Nat × State :=
  if !lockFree path s then (4, s)
  else if s.power.warn then (8, logErr false 0x0057 6 0 0 0 0 (failUpdate s))
  else
    let v := verifySlot s (inactive s)
    if v ≠ 0 then (v, freeLock s)
    else if !ok then (9, failUpdate s)
    else (0, freeLock { s with flash := { s.flash with active := inactive s } })

/-! ### Anti-rollback (R531) -/

/-- R531, R539, R544: SVN_COMMIT, and its status. In recovery it is not allowed. -/
def commitSvn (ok : Bool) (s : State) : Nat × State :=
  let v := slotSvn s s.flash.running
  if s.steward.recovery then (1, s)
  else if s.power.warn then (8, logErr false 0x0057 6 0 0 0 0 s)
  else if v ≤ s.flash.minSvn then (0, s)
  else if !ok then (9, s)
  else (0, logErr false 0x0062 6 0 0 v 0 { s with flash := { s.flash with minSvn := v } })

end Sys2Proof.Machine
end

