-- ==== Sys2Proof/Machine/Power.lean ====
section
/-! DEFINITION. Boot, raising and loss of power (R527 to R530, R550 to R555), the dormant state (R362, R490, R491, R517), the
power sequencer (R486, R487), island clocks (R479 to R484), and supply, heat and brake (R488, R492 to R496). -/

namespace Sys2Proof.Machine

/-- R500: an entry with KIND 6. -/
def logPower (ue : Bool) (code detail : Nat) (s : State) : State := logErr ue code 6 0 0 detail 0 s

/-- The main rails are on. -/
def mainOn (s : State) : Bool := decide (s.power.phase = .raised) || decide (s.power.phase = .ready) || decide (s.power.phase = .dormant)

/-- R541, R542: a change of state sensor 22 is queued for polling. -/
def noteSensor (old s : State) : State :=
  if s.power.warn = old.power.warn ∧ s.power.therm = old.power.therm ∧ s.power.brake = old.power.brake then s else queueEvent (.sensor 22) s

/-- R556: CLKREQ# is low while both supplies are in range. -/
def setClkreq (s : State) : State :=
  { s with power := { s.power with clkreq := s.power.precharged && decide (s.power.phase ≠ .off) } }

/-! ### Losing the main rails (R364, R493, R554) -/

/-- R493: whether a safe stop ended the last power-on, as the journal store keeps it. -/
def keptStop (s : State) : Bool :=
  match s.power.phase with
  | .raised | .ready | .dormant => false
  | _ => s.power.stopPrev

/-- R364, R446, R554: the main rails go: everything but the auxiliary domain returns to reset. The flash, the journal store with its dead-lane
map and retired list, the endpoint and the host's own memory stay. -/
def loseMain (s : State) : State :=
  let s := failUpdate s
  let gone := fun p => tget false s.pair.retiredList p
  { State.reset with
    variant := s.variant, straps := s.straps, host := s.host, hostBad := s.hostBad, sent := s.sent, draw := s.draw, pending := s.pending
    mem := { Mem.reset with dead := s.mem.dead }
    pair := { Pair.reset s.variant with
      retiredList := s.pair.retiredList
      phys := s.pair.phys.filterMap (fun e => if gone e.1 then some (e.1, { Phys.absent with state := 3, reason := e.2.reason }) else none)
      lmap := [] }
    flash := s.flash
    steward := { s.steward with writes := 0, update := .idle }
    power := { Power.reset with
      phase := s.power.phase, vin := s.power.vin, warn := s.power.warn, warnPin := s.power.warnPin, brake := s.power.brake, stopPrev := keptStop s
      tdie := s.power.tdie, tdram := s.power.tdram, precharged := s.power.precharged, reserve := s.power.reserve, fault := s.power.fault
      wakePin := s.power.wakePin, clkreq := s.power.clkreq } }

/-- R493, R494, R550: the module stops, with its log entry in the journal copy, and FAULT# asserted.
(DEDUCED, assumption 58). -/
def stopModule (code : Nat) (s : State) : State :=
  let e : ErrEntry := { code := code, kind := 6, unit := 0, addr := 0, detail := 0, ctx := 0, time := s.time, ue := true }
  let s := setPhase .stopped (loseMain (queueEvent (.entry code) (copyEntry e s)))
  { s with power := { s.power with fault := true, stopPrev := true } }

/-- R493: with main input gone the precharge goes as well. -/
def inputGone (s : State) : State :=
  setClkreq { s with power := { s.power with vin := Config.freeNat s.draw 0 % 40000, precharged := false }, draw := s.draw + 1 }

/-- R493: the input has been below 40 V for 20 microseconds. -/
def execSafeStop (s : State) : Host.Outcome State Fault Refusal :=
  if mainOn s then .next (inputGone (stopModule 0x0053 s)) else .next (inputGone s)

/-- R550: the input has been above 62 V for 20 microseconds: as a safe stop. -/
def execOvervoltageStop (s : State) : Host.Outcome State Fault Refusal :=
  let high := fun (s : State) => { s with power := { s.power with vin := 62001 + Config.freeNat s.draw 0 % 18000 }, draw := s.draw + 1 }
  if mainOn s then .next (high (stopModule 0x0053 s)) else .next (high s)

/-- R364, R528, R543, R554: PERST# low: the main rails go off and device memory is lost; the steward core keeps running. -/
def execPerstAssert (s : State) : Host.Outcome State Fault Refusal :=
  if s.power.phase = .off then .next s
  else
    let s := loseMain s
    let s := setPhase (if s.steward.recovery then .recovery else .aux) s
    .next { s with
      power := { s.power with fault := s.steward.recovery, wakePin := false }
      port := { s.port with cfg := s.steward.recovery } }

/-- R554: VAUX33 below 3.0 V for 10 microseconds: the main rails go off, and the steward core with them. -/
def execVauxLoss (s : State) : Host.Outcome State Fault Refusal :=
  let s := loseMain s
  .next (setClkreq { s with
    power := { s.power with phase := .off, reserve := false, fault := false, wakePin := false, warn := false }
    steward := { s.steward with eid := 0, tid := 0, smbAddr := 3, reply := [], cc := 0, polled := [], alert := false, recovery := false } })

/-! ### Coming up (R527 to R530, R551 to R553) -/

/-- R493, R551: VIN54 is applied; at 44 V or above the stores precharge, and a stopped module may raise again. -/
def execPrecharge (mv : Nat) (s : State) : Host.Outcome State Fault Refusal :=
  let s := { s with power := { s.power with vin := mv, precharged := s.power.precharged || decide (44000 ≤ mv) } }
  let s := if s.power.phase = .stopped ∧ 44000 ≤ mv then
      let s := setPhase .aux s
      { s with power := { s.power with fault := false } }
    else s
  .next (setClkreq s)

/-- R527, R528, R549: VAUX33 reaches 3.0 V: SMB_ADDR is read and the boot ROM runs. -/
def execBoot (straps : Straps) (s : State) : Host.Outcome State Fault Refusal :=
  if s.power.phase ≠ .off then .next s
  else
    let s := { s with power := { s.power with phase := .aux }, steward := { s.steward with smbAddr := straps.smbAddr } }
    .next (setClkreq (bootRom s))

/-- R552: the journal reserve is charged. -/
def execReserveCharged (s : State) : Host.Outcome State Fault Refusal :=
  if s.power.phase = .off then .next s else .next { s with power := { s.power with reserve := true } }

/-- R481, R529 step 3: the reference oscillator is trimmed against a source: the one REFSEL names, in auto one of the two (DESIGN CHOICE, assumption 83). -/
def trimClock (s : State) : State :=
  let src : BitVec 2 := if s.power.refsel = 0 then BitVec.ofNat 2 (1 + Config.freeNat s.draw 1 % 2) else s.power.refsel
  { s with power := { s.power with locked := true, hold := false, refuse := src, trim := Config.trim s.draw }, draw := s.draw + 1 }

/-- R446: physical bents in order take the logical numbers, and the rest become spares. -/
def assignBents (n : Nat) : Nat → List Nat → Pair → Pair
  | _, [], q => q
  | l, p :: ps, q =>
    let v := tget Phys.absent q.phys p
    let q := if l < n then
        { q with phys := tset Phys.absent q.phys p { v with state := 1, lbent := l }, lmap := tset none q.lmap l (some p) }
      else { q with phys := tset Phys.absent q.phys p { v with state := 2, lbent := 0 } }
    assignBents n (l + 1) ps q

/-- R444, R446, R529 step 7: every bent not in the retired list runs self-test, a failure retires it, and the logical numbers are mapped. -/
def mapBents (failed : List Nat) (s : State) : State :=
  let tested := (List.range s.variant.physBents).filter (fun p => !tget false s.pair.retiredList p)
  let s := (tested.filter (fun p => failed.contains p)).foldl (fun s p => markRetired p 5 s) s
  { s with pair := assignBents s.variant.bents 0 (tested.filter (fun p => !failed.contains p)) { s.pair with lmap := [] } }

/-- R88, R212: every bent in service is cleared, with its service store written. -/
def clearBents (s : State) : State := (inService s).foldl (fun s l => readyBent l s) s

/-- R527, R533: a slot activated since the boot, or recovery, makes raising run the boot ROM first. -/
def bootIfNeeded (s : State) : State := if s.steward.recovery ∨ s.flash.active ≠ s.flash.running then bootRom s else s

/-- R529, R530: the steps of raising before the one that cannot complete; 10 where all complete.
(DEDUCED, assumption 59). -/
def raise (straps : Straps) (failed : List Nat) (stop : Nat) (s : State) : State :=
  let s := { s with straps := { straps with smbAddr := s.straps.smbAddr }, power := { s.power with fault := false }, tick := 0 }
  let s := if 2 < stop then startLinks s else s
  let s := if 3 < stop then trimClock s else s
  let s := if 5 < stop then { s with port := { s.port with cfg := true } } else s
  let s := if 7 < stop then mapBents failed s else s
  let s := if 8 < stop then clearBents s else s
  let s := if 5 < stop then setPhase .raised s else s
  if 9 < stop then s
  else
    let s := logErr true 0x0063 6 0 0 stop 0 s
    { s with power := { s.power with fault := true } }

/-- R529, R530, R552, R553: PERST# is released with main input at or above 44 V, firmware running and the reserve charged. -/
def execRaising (straps : Straps) (failed : List Nat) (stuck : Option Nat) (s : State) : Host.Outcome State Fault Refusal :=
  let p := s.power
  let low := (p.phase = .aux ∧ p.fault = false) ∨ p.phase = .recovery
  if ¬low ∨ p.precharged = false ∨ p.reserve = false ∨ p.vin < 44000 then .next s
  else
    let s := bootIfNeeded s
    if s.steward.recovery then .next s
    else .next (raise straps failed (match stuck with | some n => if 1 ≤ n then n else 10 | none => 10) s)

/-! ### Dormant (R361, R362, R490, R491, R517) -/

/-- R362 steps 1 to 4: fetching stops, every running share is pre-empted, moderated messages are sent, requests that wait at the controllers are
served, merge buffers retire. -/
def drainJobs (s : State) : State :=
  let s := { s with disp := { s.disp with fetching := false } }
  let s := (liveJobs s).foldl (fun s j => if j.2.preempted || movingJob s j.1 then s else preemptJob 8 [] j.1 s) s
  let due := s.disp.cq.filterMap (fun e => e.2.bind (fun c => if 0 < c.n then some e.1 else none))
  flushMerge (serveAll (due.foldl (fun s q => sendModerated q s) s))

/-- A completion queue holds an entry that can be written. -/
def entryDue (c : Cq) : Bool := !c.held.isEmpty && !c.disabled && !cqFull c

/-- R362, R447: every share is saved, and every completion entry is written. -/
def drained (s : State) : Bool :=
  (inService s).all (fun l => (s.bent l).share.isNone) && s.pair.takeover.isEmpty &&
    s.disp.jobs.all (fun e => match e.2 with | some j => j.ending.isNone | none => true) &&
    s.disp.cq.all (fun e => match e.2 with | some c => !entryDue c | none => true)

/-- The islands that are powered down in dormant (R490): bents, memory controller groups, purlin matrix and girt bus. -/
def powerMain (on : Bool) (s : State) : State :=
  (List.range 44).foldl (fun s i =>
    let v := s.island i
    let (src, div) := if on then v.heldPair.getD (v.src, v.div) else (v.src, v.div)
    s.setIsland i { v with powered := on, running := on, src := src, div := div, heldPair := if on then none else v.heldPair }) s

/-- R490, R507: the module is dormant. -/
def enterDormant (s : State) : State :=
  let s := powerMain false (idleLinks s)
  setPhase .dormant { s with power := { s.power with seqQueue := [] } }

/-- R362, R490: entry goes on; once all is drained the module is dormant. -/
def goDormant (s : State) : State :=
  let s := drainJobs s
  if drained s then enterDormant s else s

/-- R88, R490, R491, R497, R507: the wake: bents and the yard are cleared, links leave idle, held page responses are acted on, and the module is READY.
(DEDUCED, assumption 61). -/
def wake (s : State) : State :=
  let s := setPhase .ready s
  let s := { s with mem := { s.mem with yard := [], yardBad := [] } }
  let s := actAllHeld (wakeLinks (clearBents (powerMain true s)))
  let w := s.power.wakes
  { s with
    disp := { s.disp with fetching := true }
    power := { s.power with
      pme := false, wakes := if w = 65535 then w else w + 1, wakeUs := BitVec.ofNat 16 (Config.freeNat s.draw 0 % 251) }
    draw := s.draw + 1 }

/-- R361, R362, R514: PMCSR of the PF is written with D3hot. A member's PowerState changes configuration only. The write is given
again until the module is dormant (DESIGN CHOICE, assumption 80). -/
def toD3hot (s : State) : State :=
  if s.power.phase ≠ .ready then s
  else
    let s := { s with port := { s.port with d3hot := true } }
    if isMember s then s else goDormant s

def execPowerstateD3hot (s : State) : Host.Outcome State Fault Refusal := .next (toD3hot s)

/-- R490, R491, R514: PMCSR of the PF is written with D0: an entry stops where it is, and a dormant module wakes. -/
def toD0 (s : State) : State :=
  let s := if s.port.d3hot then { s with port := { s.port with d3hot := false } } else s
  if isMember s then s
  else if s.power.phase = .dormant then wake s
  else if s.power.phase = .ready then { s with disp := { s.disp with fetching := true } }
  else s

def execPowerstateD0 (s : State) : Host.Outcome State Fault Refusal := .next (toD0 s)

/-- R517: a member receives the head's dormant request. -/
def execCascadeDormantRequest (s : State) : Host.Outcome State Fault Refusal :=
  if s.power.phase = .ready && isMember s then .next (goDormant s) else .next s

/-- R517: a member receives the head's wake request. -/
def execCascadeWakeRequest (s : State) : Host.Outcome State Fault Refusal :=
  if !isMember s then .next s
  else if s.power.phase = .dormant then .next (wake s)
  else if s.power.phase = .ready then .next { s with disp := { s.disp with fetching := true } }
  else .next s

/-! ### The sequencer (R486, R487) -/

/-- R479: the variant has island i. -/
def hasIsland (i : Nat) (s : State) : Bool :=
  decide (i < 50) && match s.variant with
    | .kl8x256 => true
    | .kl8x128 => !((decide (17 ≤ i) && decide (i < 34)) || (decide (38 ≤ i) && decide (i < 42)) || decide (i = 47) || decide (i = 48))

/-- The logical bent a physical bent runs as. -/
def logicalOf (p : Nat) (s : State) : Option Nat := (inService s).find? (fun l => decide (s.physOf l = p))

/-- R484, R486: an island is powered: a pair that was held is applied, and a bent comes up cleared (R88, R487). -/
def powerUp (i : Nat) (s : State) : State :=
  let v := s.island i
  let (src, div) := v.heldPair.getD (v.src, v.div)
  let s := s.setIsland i { v with powered := true, running := true, src := src, div := div, heldPair := none }
  match logicalOf i s with
  | some l => if (s.bent l).share.isNone then readyBent l s else s
  | none => s

/-- R487: an island is powered down, unless a share has been assigned to its bent. -/
def powerDown (i : Nat) (s : State) : State :=
  match logicalOf i s with
  | some l => if (s.bent l).share.isSome || takingOver s l then s else s.setIsland i { s.island i with powered := false, running := false }
  | none => s

/-- R486: the first request of the sequencer's queue is admitted. -/
def execSequencerAdmission (s : State) : Host.Outcome State Fault Refusal :=
  match s.power.seqQueue with
  | [] => .next s
  | (up, i) :: r =>
    let s := { s with power := { s.power with seqQueue := r } }
    .next (if up then powerUp i s else powerDown i s)

/-- R487: logical bent l has had no share for GCTL.IDLE microseconds. -/
def execBentPowerDown (l : Nat) (s : State) : Host.Outcome State Fault Refusal :=
  if 32 ≤ l then .fault .noSuchUnit
  else
    let p := s.physOf l
    let idle := s.power.phase = .ready ∧ s.power.idle ≠ 0 ∧ (inService s).contains l = true ∧ (s.bent l).share = none ∧ takingOver s l = false
    if idle ∧ (s.island p).powered = true ∧ s.power.seqQueue.contains (false, p) = false then
      .next { s with power := { s.power with seqQueue := s.power.seqQueue ++ [(false, p)] } }
    else .next s

/-! ### Island clocks (R481 to R484, R498) -/

/-- R25, R482: a core has work pending: it runs, or a stream operation, a vector instruction or a buffered store is not done. -/
def coreBusy (k : Nat) (s : State) : Bool :=
  let c := s.core k
  decide (c.run = .running) || !c.ops.isEmpty || !c.vops.isEmpty || !c.stores.isEmpty

/-- R25, R482: the memory controllers or the purlin matrix have work or an access pending: a job, a tract operation, a scrub, a request
that waits, or a merge-buffer entry. -/
def memoryBusy (s : State) : Bool :=
  !(liveJobs s).isEmpty || s.mem.memc.busy || !s.mem.scrub.isEmpty || !s.mem.waits.isEmpty || !s.mem.merge.isEmpty

/-- R25, R482: an island has work: a core of its bent, the memory for its controllers and the purlin matrix, a link in use. The PCI Express block
and the steward core never stop. Every access of the girt bus, like every host access of BAR2, is one step, so none is pending between two. -/
def islandBusy (i : Nat) (s : State) : Bool :=
  if i < 34 then
    match logicalOf i s with
    | some l => coreBusy (2 * l) s || coreBusy (2 * l + 1) s
    | none => false
  else if i < 43 then memoryBusy s
  else if i = 43 then false
  else if i = 44 ∨ i = 49 then true
  else (s.link (i - 45)).joined

/-- R482: the island's clock runs. -/
def islandRuns (i : Nat) (s : State) : Bool := (s.island i).powered && ((s.island i).running || islandBusy i s)

/-- R482: an island has had no work for 32 of its cycles. -/
def execIslandClockStop (island : Fin 50) (s : State) : Host.Outcome State Fault Refusal :=
  if hasIsland island s && (s.island island).powered && !islandBusy island s then .next (s.setIsland island { s.island island with running := false })
  else .next s

/-- R484: an island runs on a pair. -/
def applyPair (i : Nat) (forced : Bool) (pair : Bool × BitVec 2) (s : State) : State :=
  s.setIsland i { s.island i with src := pair.1, div := pair.2, forced := forced, heldPair := none }

/-- R12, R483, R484: the staged pair is committed to the island ISLSEL names; for a powered-down island, or an old clock that does not toggle, the
pair is held. STAGED is cleared at the COMMIT in either case (DESIGN CHOICE, assumption 95). -/
def commitIsland (toggles : Bool) (s : State) : State :=
  let i := s.power.islsel.toNat
  if !s.power.islStaged then s
  else if i = 44 ∨ i = 49 ∨ hasIsland i s = false ∨ (s.power.stSrc = false ∧ (s.island i).locked = false) then
    { s with power := { s.power with islCerr := true } }
  else
    let pair := (s.power.stSrc, s.power.stDiv)
    let s := { s with power := { s.power with islStaged := false } }
    if (s.island i).powered && (toggles || !islandRuns i s) then applyPair i false pair s
    else s.setIsland i { s.island i with heldPair := some pair }

/-- R15, R498, R563: a write of ISLCLK; its COMMIT takes in the SRC and DIV of that same write (DESIGN CHOICE, assumption 75). -/
def writeIslclk (v : W32) (toggles : Bool) (s : State) : State :=
  let i := s.power.islsel.toNat
  let was := s.power.islStaged
  let s := if bitAt v 10 then s.setIsland i { s.island i with forced := false } else s
  let s := { s with power := { s.power with
    islCerr := s.power.islCerr && !bitAt v 9, stDiv := BitVec.ofNat 2 (bitsOf v 2 2), stSrc := bitAt v 1, islStaged := true } }
  if bitAt v 0 && was then commitIsland toggles s else s

/-- ISLCLK written with v and COMMIT set, on an island whose old clock toggles or not. -/
def execIslandClockSwitch (v : W32) (toggles : Bool) (s : State) : Host.Outcome State Fault Refusal :=
  .next (hostWrite 0 (writeIslclk (v ||| 1) toggles) s)

/-- R484, R500: the old clock has been silent for 640 ns: the switch is forced. -/
def execClkswForced (island : Fin 50) (s : State) : Host.Outcome State Fault Refusal :=
  match (s.island island).heldPair with
  | some pair =>
    if (s.island island).powered then
      let s := applyPair island true pair s
      .next (fireModule 8 (logPower false 0x0050 island.val { s with power := { s.power with clkForced := true } }))
    else .next s
  | none => .next s

/-- R481, R500: the trim source src (1 REFCLK, 2 the auxiliary reference) stops, or neither can be used (0): the oscillator holds its trim, and
in auto mode moves to the other reference where that is present. -/
def execTrimHold (src : Fin 3) (other : Bool) (s : State) : Host.Outcome State Fault Refusal :=
  if !mainOn s || decide (s.power.refuse.toNat ≠ src.val ∧ src.val ≠ 0) || decide (src.val = 0 ∧ s.power.refsel ≠ 0) then .next s
  else
    let use : BitVec 2 := if src.val = 0 then 0 else if s.power.refsel = 0 ∧ other then BitVec.ofNat 2 (3 - src.val) else s.power.refuse
    .next (logPower false 0x0051 0 { s with power := { s.power with hold := true, refuse := use } })

/-! ### Supply warning (R492) -/

/-- R492: two samples below 42 V, or with SUPPLY_WARN# asserted: the module enters supply warning. -/
def execSupplyWarning (mv : Nat) (pin : Bool) (s : State) : Host.Outcome State Fault Refusal :=
  if s.power.phase = .off ∨ s.power.phase = .stopped then .next s
  else
    let t := { s with power := { s.power with vin := mv, warnPin := pin } }
    if s.power.warn = true ∨ (42000 ≤ mv ∧ pin = false) then .next t
    else .next (noteSensor s (fireModule 2 (logPower false 0x0052 0 { t with power := { t.power with warn := true, warnSeen := true } })))

/-- R492: the input has been at or above 43 V, and SUPPLY_WARN# deasserted, for 10 ms. -/
def execSupplyWarningEnd (s : State) : Host.Outcome State Fault Refusal :=
  if s.power.warn = false then .next s
  else
    let t := { s with power := { s.power with warn := false, warnPin := false, vin := 43000 + Config.freeNat s.draw 0 % 17001 }, draw := s.draw + 1 }
    .next (noteSensor s (fireSrc 2 2 t))

/-! ### Heat and brake (R494, R495) -/

/-- R494: a step of the thermal throttle; at THROT 16 again it has ended. -/
def throttleStep (die : Nat) (s : State) : State :=
  let p := s.power
  let n := p.throt.toNat
  let low := p.tthr.toNat - 2
  if p.therm then
    if low < die then { s with power := { p with throt := BitVec.ofNat 5 (max 1 (n - 1)) } }
    else if die < low then
      let m := min 16 (n + 1)
      let t := { s with power := { p with throt := BitVec.ofNat 5 m, therm := decide (m ≠ 16) } }
      if m = 16 then fireSrc 3 2 t else t
    else s
  else if p.tthr.toNat ≤ die then
    fireModule 3 (logPower false 0x0054 0 { s with power := { p with therm := true, thermSeen := true, throt := BitVec.ofNat 5 (max 1 (n - 1)) } })
  else s

/-- R494, R561: the steward core reads the hottest junction and the hottest stack; held: at a trip level for 1 ms. -/
def execThermalSample (die dram : Nat) (held : Bool) (s : State) : Host.Outcome State Fault Refusal :=
  if !mainOn s then .next s
  else
    let t := { s with power := { s.power with tdie := die, tdram := dram, hotRefresh := decide (85 < dram) } }
    if held && (decide (s.power.ttrip.toNat ≤ die) || decide (95 ≤ dram)) then .next (stopModule 0x0055 t)
    else .next (noteSensor s (throttleStep die t))

/-- R495: PWR_BRAKE# is asserted. -/
def execPowerBrake (s : State) : Host.Outcome State Fault Refusal :=
  if s.power.brake = true ∨ s.power.phase = .off ∨ s.power.phase = .stopped then .next s
  else .next (noteSensor s (fireModule 4 (logPower false 0x0056 0 { s with power := { s.power with brake := true, brakeSeen := true } })))

/-- R495: PWR_BRAKE# is released. -/
def execPowerBrakeRelease (s : State) : Host.Outcome State Fault Refusal :=
  if s.power.brake = false then .next s else .next (noteSensor s (fireSrc 4 2 { s with power := { s.power with brake := false } }))

/-! ### The power loop (R485, R488, R496, R560) -/

/-- R560: the greatest sustained power, W. -/
def Variant.watts : Variant → Nat
  | .kl8x256 => 720
  | .kl8x128 => 390

/-- R496, R560: the limits in watts with their CAPSRC. -/
def limits (s : State) : List (Nat × Nat) :=
  let p := s.power
  [(min p.cap.toNat s.variant.watts, 1)] ++ (if p.brake then [(min p.brakecap.toNat s.variant.watts, 2)] else []) ++ (if p.warn then [(60, 3)] else [])

/-- R496: the least limit. -/
def leastLimit (s : State) : Nat × Nat := (limits s).foldl (fun a b => if b.1 < a.1 then b else a) (min s.power.cap.toNat s.variant.watts, 1)

/-- R496, R498: CAPSRC: none while the bents are not throttled, the thermal limit while it throttles, else the least limit
(DEDUCED, assumption 82). -/
def capSrc (s : State) : Nat := if s.power.throt = 16 then 0 else if s.power.therm then 4 else (leastLimit s).2

/-- The mean of powers in mW, as watts. -/
def meanWatts (l : List (Nat × Nat)) : Nat := (l.map Prod.snd).foldl (· + ·) 0 / (1000 * max 1 l.length)

/-- R488, R496, R498: the power loop takes a sample of the input power in mW: PIN is its average over 1 ms, and THROT the value, which the spec
does not give, that keeps power within the limits (DESIGN CHOICE, assumption 81); a thermal throttle is not raised. -/
def execPowerLoop (milliwatts : Nat) (s : State) : Host.Outcome State Fault Refusal :=
  if s.power.phase ≠ .raised ∧ s.power.phase ≠ .ready then .next s
  else
    let p := s.power
    let now := s.tick.toNat
    let l := p.samples.filter (fun e => decide (now < e.1 + 1000)) ++ [(now, milliwatts)]
    let n := 1 + Config.freeNat s.draw 0 % 16
    .next { s with
      power := { p with
        samples := l, pin := meanWatts l, iin := milliwatts * 100 / max 1 p.vin
        throt := BitVec.ofNat 5 (if p.therm then min n p.throt.toNat else n) }
      draw := s.draw + 1 }

/-! ### Journal writes (R535) -/

/-- R535: a unit write completes. -/
def execJournalWriteComplete (s : State) : Host.Outcome State Fault Refusal :=
  if s.steward.writes = 0 then .next s
  else .next (fireModule 6 { s with steward := { s.steward with writes := s.steward.writes - 1 } })

end Sys2Proof.Machine
end

