-- ==== Sys2Proof/Machine/Mailbox.lean ====
section
/-! DEFINITION. The STWD mailbox (R536 to R539), the host area of the journal store (R534, R535) and the readings of the
endpoint's sensors (R541). -/

namespace Sys2Proof.Machine

/-! ### Sensors (R541) -/

/-- R54, R541: DRAM stacks of the variant: one to a memory controller group (R479). -/
def Variant.stacks : Variant → Nat
  | .kl8x256 => 8
  | .kl8x128 => 4

/-- R108, R459: a PAIR counter summed over the physical bents. -/
def pairSum (n : Nat) (s : State) : Nat := (s.pair.phys.map (fun e => tget 0 e.2.cnt n)).foldl (· + ·) 0

/-- R541: the bits of state sensor 22. -/
def supplyBits (s : State) : Nat := (if s.power.warn then 1 else 0) + (if s.power.therm then 2 else 0) + (if s.power.brake then 4 else 0)

/-- R541: the reading of a sensor; none where the variant lacks it. The temperature of one stack is free up to the hottest (DESIGN CHOICE, assumption 84). -/
def sensor (id : Nat) (s : State) : Option Nat :=
  match id with
  | 1 => some s.power.vin
  | 2 => some s.power.iin
  | 3 => some s.power.pin
  | 4 => some s.power.tdie
  | 5 => some s.power.tdram
  | 14 => some (inService s).length
  | 15 => some (tget 0 s.errl.cnt 0)
  | 16 => some (tget 0 s.errl.cnt 1)
  | 17 => some (tget 0 s.errl.cnt 2)
  | 18 => some (tget 0 s.errl.cnt 3)
  | 19 => some (pairSum 3 s)
  | 20 => some (pairSum 2 s)
  | 21 => some (powerState s.power.phase)
  | 22 => some (supplyBits s)
  | n => if 6 ≤ n ∧ n ≤ 13 ∧ n - 6 < s.variant.stacks then some (Config.freeNat s.draw n % (s.power.tdram + 1)) else none

/-! ### The journal store (R534) -/

/-- R534: bytes of the host area. -/
def hostArea : Nat := 16777216

/-- R534, R535: byte off of the host area (DESIGN CHOICE, assumption 4). -/
def journalAt (s : State) (off : Nat) : Byte := (tget none s.steward.journal off).getD (Config.journalByte off)

/-- R109, R534: the 16 bytes of an entry of the error-log copy. -/
def copyBytes (e : ErrEntry) : List Byte :=
  leBytes 4 (e.code * 2 ^ 16 + e.kind * 2 ^ 12 + e.unit) ++ leBytes 4 e.addr ++
    leBytes 4 (e.detail % 256 * 2 ^ 24 + e.ctx % 4096 * 2 ^ 12 + e.addr / 2 ^ 32 % 256) ++ leBytes 4 e.time

/-! ### The mailbox (R536, R537) -/

/-- R537: GO: the command is captured; ignored while one runs. -/
def mailboxGo (s : State) : State :=
  let m := s.stwd
  if m.busy then s
  else fireModule 0 { s with stwd := { m with
    busy := true, done := false, cOpc := m.opc, cTag := m.tag, cAddr := m.addr, cLen := m.len.toNat, cArg0 := m.arg0.toNat, cPos := 0, result := none } }

/-- R536, R7: a write in the STWD block. -/
def writeStwd (off : Nat) (v : W32) (s : State) : State :=
  let m := s.stwd
  let put := fun (m : Stwd) => { s with stwd := m }
  match off with
  | 0x00 =>
    let s := put { m with done := m.done && !bitAt v 30, vec := BitVec.ofNat 11 (bitsOf v 16 11), ien := bitAt v 15 }
    if bitAt v 0 then mailboxGo s else s
  | 0x04 => put { m with tag := BitVec.ofNat 8 (bitsOf v 8 8), opc := BitVec.ofNat 8 (bitsOf v 0 8) }
  | 0x08 => put { m with held := some (v &&& ~~~4095#32) }
  | 0x0C => put { m with addr := joinHalves m.held m.addr v, held := none }
  | 0x10 => put { m with len := BitVec.ofNat 13 (bitsOf v 0 13) }
  | 0x14 => put { m with arg0 := v }
  | 0x18 => put { m with arg1 := v }
  | _ => s

/-- R539: the running command has its status. -/
def mbEnd (st : Nat) (s : State) : State := { s with stwd := { s.stwd with result := some (BitVec.ofNat 16 st) } }

/-- R538, R539: the running command has its status and results. -/
def mbRes (st r0 r1 : Nat) (s : State) : State :=
  { s with stwd := { s.stwd with result := some (BitVec.ofNat 16 st), res0 := BitVec.ofNat 32 r0, res1 := BitVec.ofNat 32 r1 } }

/-- R528, R538: a command of the mailbox; in recovery only 0x01 to 0x03. -/
def knownOpc (n : Nat) (s : State) : Bool := decide (1 ≤ n) && decide (n ≤ 11) && (!s.steward.recovery || decide (n ≤ 3))

/-- R537, R538: the steward core carries out the command the mailbox runs, where it is this one. -/
def mailbox (opc : Nat) (body : State → State) (s : State) : State :=
  if s.stwd.busy && decide (s.stwd.result = none) && decide (s.stwd.cOpc.toNat = opc) && knownOpc opc s then body s else s

/-- R537, R539: n bytes of the buffer from byte o, read or written through ATS without a PASID; a failure is HOST_PAGE, and a page being translated
makes the command wait. -/
def withBuffer (o n : Nat) (write : Bool) (k : Nat → State → State) (s : State) : State :=
  if n = 0 then k 0 s
  else match hostXl .steward 0 none true (0, 0) (s.stwd.cAddr.toNat + o) (!write, write) s with
    | .wait s => s
    | .fail _ s => mbEnd 3 s
    | .at a => if write then k a s else match takeHostBad a n s with
      | (true, s) => mbEnd 3 s
      | (false, s) => k a s

/-- Bytes written to host memory from byte a. -/
def putBytes (a : Nat) (bs : List Byte) (s : State) : State := ordered (bs.zipIdx.foldl (fun s e => putHost (a + e.2) e.1.toNat 1 s) s)

/-- R537, R539: the command ends: MBRSP and DONE, and a message where IEN is set. A command that is none of R538 is BAD_OPC. -/
def execMailboxComplete (s : State) : Host.Outcome State Fault Refusal :=
  let m := s.stwd
  let fin := fun (st : BitVec 16) =>
    let s := { s with stwd := { m with busy := false, done := true, status := st, rtag := m.cTag, result := none } }
    if m.ien then sendVec 0 m.vec.toNat s else s
  if !m.busy then .next s
  else match m.result with
    | some st => .next (fin st)
    | none => if knownOpc m.cOpc.toNat s then .next s else .next (fin 1)

/-! ### The commands (R538) -/

/-- R532, R538: FW_WRITE. -/
def fwWrite (ok : Bool) (s : State) : State :=
  let m := s.stwd
  if m.cArg0 % 4096 ≠ 0 ∨ slotSize ≤ m.cArg0 ∨ m.cLen = 0 ∨ 4096 < m.cLen then mbEnd 2 s
  else withBuffer 0 m.cLen false (fun a s =>
    let (st, s) := flashChunk false m.cArg0 ((List.range m.cLen).map (fun i => hostByteAt s (a + i))) ok s
    mbEnd st s) s

def execFwWrite (ok : Bool) (s : State) : Host.Outcome State Fault Refusal := .next (mailbox 1 (fwWrite ok) s)

/-- R526, R538: FW_VERIFY. -/
def fwVerify (s : State) : State :=
  if !lockFree false s then mbEnd 4 s
  else
    let b := inactive s
    let byte := fun i => (slotByte s b i).toNat
    mbRes (verifySlot s b) (slotSvn s b + slotVariants s b * 256) (byte 4 * 2 ^ 24 + byte 5 * 2 ^ 16 + byte 7 * 256 + byte 6) s

def execFwVerify (s : State) : Host.Outcome State Fault Refusal := .next (mailbox 2 fwVerify s)

/-- R533: FW_ACTIVATE. -/
def execFwActivate (ok : Bool) (s : State) : Host.Outcome State Fault Refusal :=
  .next (mailbox 3 (fun s => let (st, s) := activateSlot false ok s; mbEnd st s) s)

/-- R531: SVN_COMMIT. -/
def execSvnCommit (ok : Bool) (s : State) : Host.Outcome State Fault Refusal :=
  .next (mailbox 4 (fun s => let (st, s) := commitSvn ok s; mbRes st s.flash.minSvn s.stwd.res1.toNat s) s)

/-- R538: JREAD. -/
def jread (s : State) : State :=
  let m := s.stwd
  if 4096 < m.cLen ∨ hostArea < m.cArg0 + m.cLen then mbEnd 2 s
  else withBuffer 0 m.cLen true (fun a s => mbEnd 0 (putBytes a ((List.range m.cLen).map (fun i => journalAt s (m.cArg0 + i))) s)) s

def execJread (s : State) : Host.Outcome State Fault Refusal := .next (mailbox 5 jread s)

/-- R535, R538: one unit of a JWRITE is written; with none left the command has ended. -/
def jwriteUnit (s : State) : State :=
  let m := s.stwd
  withBuffer m.cPos 256 false (fun a s =>
    let s := { s with
      stwd := { s.stwd with cPos := m.cPos + 256 }
      steward := { s.steward with
        writes := s.steward.writes + 1
        journal := (List.range 256).foldl (fun t i => tset none t (m.cArg0 + m.cPos + i) (some (hostByteAt s (a + i)))) s.steward.journal } }
    if m.cLen ≤ m.cPos + 256 then mbEnd 0 s else s) s

/-- R492, R538: JWRITE, a unit at a time in ascending order. -/
def jwrite (s : State) : State :=
  let m := s.stwd
  if m.cArg0 % 256 ≠ 0 ∨ m.cLen % 256 ≠ 0 ∨ 4096 < m.cLen ∨ hostArea < m.cArg0 + m.cLen then mbEnd 2 s
  else if s.power.warn then mbEnd 8 (logRefused s)
  else if m.cLen = 0 then mbEnd 0 s
  else jwriteUnit s

def execJwrite (s : State) : Host.Outcome State Fault Refusal := .next (mailbox 6 jwrite s)

/-- R534, R538: LOG_READ: the entries held from the index on, as many as the buffer takes (DEDUCED, assumption 62). -/
def logRead (s : State) : State :=
  let m := s.stwd
  if m.cLen % 16 ≠ 0 ∨ 4096 < m.cLen then mbEnd 2 s
  else
    let bs := ((s.steward.log.drop m.cArg0).take (m.cLen / 16)).flatMap copyBytes
    withBuffer 0 bs.length true (fun a s => mbRes 0 s.steward.log.length s.stwd.res1.toNat (putBytes a bs s)) s

def execLogRead (s : State) : Host.Outcome State Fault Refusal := .next (mailbox 7 logRead s)

/-- R472, R538: SET_SLEEP. -/
def execSetSleep (s : State) : Host.Outcome State Fault Refusal :=
  .next (mailbox 8 (fun s => mbEnd 0 { s with sleep := s.stwd.cArg0.testBit 0 }) s)

/-- R492, R538: a change of the journal store's records is a unit write; supply warning refuses it. -/
def journalWrite (f : State → State) (s : State) : State :=
  if s.power.warn then mbEnd 8 (logRefused s)
  else mbEnd 0 (f { s with steward := { s.steward with writes := s.steward.writes + 1 } })

/-- R446, R538: CLEAR_RETIRED. -/
def clearRetired (s : State) : State :=
  let p := s.stwd.cArg0
  if p = 255 then journalWrite (fun s => { s with pair := { s.pair with retiredList := [] } }) s
  else if s.variant.physBents ≤ p then mbEnd 2 s
  else journalWrite (fun s => { s with pair := { s.pair with retiredList := tset false s.pair.retiredList p false } }) s

def execClearRetired (s : State) : Host.Outcome State Fault Refusal := .next (mailbox 9 clearRetired s)

/-- R426, R538: RUN_DISCARD of a run of the PF. -/
def runDiscard (s : State) : State :=
  let r := s.stwd.cArg0
  if !s.steward.runs.any (isRun 0 r) then mbEnd 10 s
  else journalWrite (fun s => { s with steward := { s.steward with runs := s.steward.runs.filter (fun e => !isRun 0 r e) } }) s

def execRunDiscard (s : State) : Host.Outcome State Fault Refusal := .next (mailbox 10 runDiscard s)

/-- R538, R541: SENSORS: 22 readings; the value of one that is unavailable is free (DESIGN CHOICE, assumption 84). -/
def sensors (s : State) : State :=
  let m := s.stwd
  if m.cLen < 256 ∨ 4096 < m.cLen then mbEnd 2 s
  else
    let bs := (List.range 22).flatMap (fun i => leBytes 4 ((sensor (i + 1) s).getD (Config.freeNat s.draw (32 + i))))
    withBuffer 0 88 true (fun a s => mbEnd 0 (putBytes a bs s.drawn)) s

def execSensors (s : State) : Host.Outcome State Fault Refusal := .next (mailbox 11 sensors s)

end Sys2Proof.Machine
end

