-- ==== Sys2Proof/Machine/Manage.lean ====
section
/-! DEFINITION. The management endpoint (R540 to R543): MCTP control, PLDM base, monitoring and control, and firmware update. The reply
holds the response's data that this manual names; completion codes are those of the named standards (PRESUMED, assumption 7). -/

namespace Sys2Proof.Machine

/-- A response with a completion code. -/
def respond (cc : Nat) (bs : List Byte) (s : State) : State := { s with steward := { s.steward with cc := cc, reply := bs } }

/-- R463, R540: a request arrives at the endpoint of a steward core that runs: event source 9 fires. -/
def request (body : State → State) (s : State) : State := if s.power.phase = .off then s else body (fireModule 9 s)

/-- R528, R540: a request of PLDM monitoring and control is not served in recovery. -/
def monitor (body : State → State) (s : State) : State := request (fun s => if s.steward.recovery then respond 5 [] s else body s) s

/-! ### MCTP control (R540) -/

/-- Endpoint IDs 0 and 255 are reserved. -/
def setEid (eid : Byte) (s : State) : State :=
  if eid = 0 ∨ eid = 255 then respond 2 [] s else respond 0 [0, eid, 0] { s with steward := { s.steward with eid := eid } }

def execSetEndpointId (eid : Byte) (s : State) : Host.Outcome State Fault Refusal := .next (request (setEid eid) s)
def execGetEndpointId (s : State) : Host.Outcome State Fault Refusal := .next (request (fun s => respond 0 [s.steward.eid, 0, 0] s) s)
def execGetEndpointUuid (s : State) : Host.Outcome State Fault Refusal :=
  .next (request (respond 0 ((List.range 16).map (fun i => Config.endpointUuid.extractLsb' (8 * (15 - i)) 8))) s)
/-- Message types 0 and 1, and 255 for the base itself; another type is not supported. -/
def execGetMctpVersionSupport (typ : Byte) (s : State) : Host.Outcome State Fault Refusal :=
  .next (request (if typ = 0 ∨ typ = 1 ∨ typ = 255 then respond 0 (Config.pldmTable 16 typ.toNat) else respond 0x80 []) s)
/-- The two message types. -/
def execGetMessageTypeSupport (s : State) : Host.Outcome State Fault Refusal := .next (request (respond 0 [2, 0, 1]) s)

/-! ### PLDM base (R540) -/

def execGettid (s : State) : Host.Outcome State Fault Refusal := .next (request (fun s => respond 0 [s.steward.tid] s) s)
/-- Terminus IDs 0 and 255 are reserved. -/
def execSettid (tid : Byte) (s : State) : Host.Outcome State Fault Refusal :=
  .next (request (fun s => if tid = 0 ∨ tid = 255 then respond 2 [] s else respond 0 [] { s with steward := { s.steward with tid := tid } }) s)

/-- R528, R540: the PLDM types served: 0 base, 2 monitoring and control, 5 firmware update. -/
def pldmTypes (s : State) : List Nat := if s.steward.recovery then [0, 5] else [0, 2, 5]

def execGetpldmversion (typ : Byte) (s : State) : Host.Outcome State Fault Refusal :=
  .next (request (fun s => if (pldmTypes s).contains typ.toNat then respond 0 (Config.pldmTable typ.toNat 0) s else respond 0x83 [] s) s)
def execGetpldmtypes (s : State) : Host.Outcome State Fault Refusal :=
  .next (request (fun s => respond 0 (leBytes 8 (((pldmTypes s).map (2 ^ ·)).foldl (· + ·) 0)) s) s)
def execGetpldmcommands (typ : Byte) (s : State) : Host.Outcome State Fault Refusal :=
  .next (request (fun s => if (pldmTypes s).contains typ.toNat then respond 0 (Config.pldmTable typ.toNat 1) s else respond 0x83 [] s) s)

/-! ### Monitoring and control (R540 to R543) -/

def execGetpdrrepositoryinfo (s : State) : Host.Outcome State Fault Refusal := .next (monitor (respond 0 (Config.pldmTable 2 2)) s)
/-- R541: the PDR of a record handle, where there is one. -/
def execGetpdr (rec : Nat) (s : State) : Host.Outcome State Fault Refusal :=
  .next (monitor (match Config.pdr rec with | [] => respond 0x82 [] | bs => respond 0 bs) s)

/-- R541: a numeric sensor: its operational state, 2 where unavailable, and its reading. -/
def readNumeric (id : Nat) (s : State) : State :=
  if id = 0 ∨ 20 < id then respond 0x80 [] s
  else match sensor id s with
    | some v => respond 0 (0 :: leBytes 4 v) s.drawn
    | none => respond 0 [2] s

def execGetsensorreading (id : Nat) (s : State) : Host.Outcome State Fault Refusal := .next (monitor (readNumeric id) s)
/-- R541: state sensors 21 and 22. -/
def execGetstatesensorreadings (id : Nat) (s : State) : Host.Outcome State Fault Refusal :=
  .next (monitor (fun s => if id = 21 ∨ id = 22 then respond 0 (leBytes 1 ((sensor id s).getD 0)) s else respond 0x80 [] s) s)

/-- R9, R498: a power limit in range. -/
def goodCap (w : Nat) : Bool := decide (60 ≤ w) && decide (w ≤ 720)

def execSetCapEffecter (watts : Nat) (s : State) : Host.Outcome State Fault Refusal :=
  .next (monitor (fun s => if goodCap watts then respond 0 [] { s with power := { s.power with cap := BitVec.ofNat 10 watts } } else respond 2 [] s) s)
def execSetBrakecapEffecter (watts : Nat) (s : State) : Host.Outcome State Fault Refusal :=
  .next (monitor (fun s => if goodCap watts then respond 0 [] { s with power := { s.power with brakecap := BitVec.ofNat 10 watts } } else respond 2 [] s) s)
/-- R541, R543: effecter 3. -/
def execWakeRequest (value : Nat) (s : State) : Host.Outcome State Fault Refusal :=
  .next (monitor (fun s => if value = 1 then respond 0 [] (requestWake s) else respond 2 [] s) s)
/-- R531, R541: effecter 4. -/
def execSvnCommitEffecter (value : Nat) (ok : Bool) (s : State) : Host.Outcome State Fault Refusal :=
  .next (monitor (fun s => if value = 1 then (let (st, s) := commitSvn ok s; respond (if st = 0 then 0 else 1) [] s) else respond 2 [] s) s)
/-- R541: the value in force of an effecter; that of 3 and 4 is free. -/
def execGetnumericeffectervalue (id : Nat) (s : State) : Host.Outcome State Fault Refusal :=
  .next (monitor (fun s =>
    if id = 1 then respond 0 (leBytes 2 s.power.cap.toNat) s
    else if id = 2 then respond 0 (leBytes 2 s.power.brakecap.toNat) s
    else if id = 3 ∨ id = 4 then respond 0 (Config.pldmTable 2 (16 + id)) s
    else respond 0x80 [] s) s)

/-- R542: an event as it is reported: its kind and number. -/
def PollEvent.bytes : PollEvent → List Byte
  | .entry c => 0 :: leBytes 2 c
  | .sensor n => 1 :: leBytes 2 n
  | .retired p => 2 :: leBytes 2 p

/-- R542: the oldest event is acknowledged or not, and the oldest that then stands is returned; ALERT# goes with the last. -/
def poll (ack : Bool) (s : State) : State :=
  let l := if ack then s.steward.polled.drop 1 else s.steward.polled
  respond 0 (match l with | [] => [] | e :: _ => e.bytes) { s with steward := { s.steward with polled := l, alert := !l.isEmpty } }

def execPollforplatformeventmessage (ack : Bool) (s : State) : Host.Outcome State Fault Refusal := .next (monitor (poll ack) s)

/-! ### Firmware update (R532, R533, R540) -/

/-- The update's state changes. -/
def setUpdate (u : Update) (s : State) : State := { s with steward := { s.steward with update := u } }

/-- A command that runs only in some states of the update. -/
def inUpdate (us : List Update) (body : State → State) (s : State) : State :=
  request (fun s => if us.contains s.steward.update then body s else respond 0x84 [] s) s

def execQuerydeviceidentifiers (s : State) : Host.Outcome State Fault Refusal := .next (request (respond 0 (Config.pldmTable 5 2)) s)
/-- R525: the version that runs, and the one that the next raising boots where it is another. -/
def execGetfirmwareparameters (s : State) : Host.Outcome State Fault Refusal :=
  .next (request (fun s =>
    respond 0 (slotBytes s s.flash.running 4 4 ++ (if s.flash.active = s.flash.running then [] else slotBytes s s.flash.active 4 4)) s) s)

/-- R532: an update begins by taking the lock. -/
def beginUpdate (s : State) : State :=
  if s.steward.update ≠ .idle ∧ s.steward.update ≠ .activate then respond 0x81 [] s
  else if !lockFree true s then respond 4 [] s
  else respond 0 [] (setUpdate .learn (takeLock true s))

def execRequestupdate (s : State) : Host.Outcome State Fault Refusal := .next (request beginUpdate s)
def execPasscomponenttable (s : State) : Host.Outcome State Fault Refusal :=
  .next (inUpdate [.learn] (fun s => respond 0 [] (setUpdate .ready s)) s)
def execUpdatecomponent (s : State) : Host.Outcome State Fault Refusal :=
  .next (inUpdate [.ready] (fun s => respond 0 [] (setUpdate .download s)) s)

/-- R532, R533: data for the inactive slot; a refusal or a flash failure ends the update. -/
def takeData (off : Nat) (data : List Byte) (ok : Bool) (s : State) : State :=
  if slotSize < off + data.length then respond 0x83 [] s
  else
    let (st, s) := flashChunk true off data ok s
    if st = 0 then respond 0 [] s else respond 1 [] (setUpdate .idle s)

def execRequestfirmwaredata (offset : Nat) (data : List Byte) (ok : Bool) (s : State) : Host.Outcome State Fault Refusal :=
  .next (inUpdate [.download] (takeData offset data ok) s)
def execTransfercomplete (s : State) : Host.Outcome State Fault Refusal :=
  .next (inUpdate [.download] (fun s => respond 0 [] (setUpdate .verify s)) s)

/-- R526, R532: the slot is verified; a failure ends the update and frees the lock. -/
def verifyStep (next : Update) (s : State) : State :=
  let v := verifySlot s (inactive s)
  if v = 0 then respond 0 [0] (setUpdate next s) else respond 0 [BitVec.ofNat 8 v] (setUpdate .idle (freeLock s))

def execVerifycomplete (s : State) : Host.Outcome State Fault Refusal := .next (inUpdate [.verify] (verifyStep .apply) s)
/-- R540: ApplyComplete leaves the slot as FW_VERIFY does. -/
def execApplycomplete (s : State) : Host.Outcome State Fault Refusal := .next (inUpdate [.apply] (verifyStep .ready) s)
/-- R533, R540: ActivateFirmware runs FW_ACTIVATE; activation follows the next raising. -/
def execActivatefirmware (ok : Bool) (s : State) : Host.Outcome State Fault Refusal :=
  .next (inUpdate [.ready] (fun s =>
    let (st, s) := activateSlot true ok s
    if st = 0 then respond 0 [0, 0] (setUpdate .activate s) else respond 1 [] (setUpdate .idle s)) s)

/-- The number of an update state. -/
def Update.code : Update → Byte
  | .idle => 0
  | .learn => 1
  | .ready => 2
  | .download => 3
  | .verify => 4
  | .apply => 5
  | .activate => 6

def execGetstatus (s : State) : Host.Outcome State Fault Refusal := .next (request (fun s => respond 0 [s.steward.update.code] s) s)
/-- The component starts again from its first write; the update keeps the lock. -/
def execCancelupdatecomponent (s : State) : Host.Outcome State Fault Refusal :=
  .next (inUpdate [.download, .verify, .apply] (fun s =>
    let s := if s.flash.begun then eraseInactive s else s
    respond 0 [] (setUpdate .ready { s with flash := { s.flash with begun := false } })) s)
/-- R532, R533: the update is cancelled: the slot is left invalid and the lock is freed. -/
def execCancelupdate (s : State) : Host.Outcome State Fault Refusal :=
  .next (inUpdate [.learn, .ready, .download, .verify, .apply] (fun s => respond 0 [] (setUpdate .idle (failUpdate s))) s)

end Sys2Proof.Machine
end

