-- ==== Sys2Proof/Machine/Registers.lean ====
section
/-! DEFINITION. Host writes to registers (R6 to R19, R351, R530): the BAR0 map and the fields that have no row of their own, and the
enables of configuration space (R347; their places are those of PCI Express, PRESUMED, assumption 10). -/

namespace Sys2Proof.Machine

/-! ### Blocks of BAR0 -/

/-- R374, R497: GCTL. -/
def writeGctl (off : Nat) (v : W32) (s : State) : State :=
  match off with
  | 0x04 => { s with power := { s.power with idle := BitVec.ofNat 16 (bitsOf v 0 16) } }
  | 0x10 => { s with power := { s.power with poll := BitVec.ofNat 16 (bitsOf v 0 16) } }
  | _ => s

/-- R61, R82, R101: MEMC: the tract registers, ECCFLIP and the yard regions. -/
def writeMemc (off : Nat) (v : W32) (s : State) : State :=
  let c := s.mem.memc
  let e := s.mem.ecc
  let memc := fun (c : Memc) => { s with mem := { s.mem with memc := c } }
  let ecc := fun (e : EccFlip) => { s with mem := { s.mem with ecc := e } }
  match off with
  | 0x10 => memc { c with trfirst := BitVec.ofNat 16 (bitsOf v 0 16), staged := true }
  | 0x14 => memc { c with trlast := BitVec.ofNat 16 (bitsOf v 0 16), staged := true }
  | 0x18 => writeTrctl v s
  | 0x100 => ecc { e with heldAddr := some v, staged := true }
  | 0x104 => ecc { e with addr := BitVec.ofNat 5 (bitsOf v 0 5) ++ e.heldAddr.getD (BitVec.ofNat 32 (64 * e.curBlk)), heldAddr := none, staged := true }
  | 0x108 => ecc { e with heldMask := some v, staged := true }
  | 0x10C => ecc { e with mask := joinHalves e.heldMask e.curMask v, heldMask := none, staged := true }
  | 0x110 => writeEccctl v s
  | _ =>
    let m := (off - 0x8000) / 0x80
    let r := off % 0x80 / 0x10
    let g := s.region m r
    if off < 0x8000 ∨ 50 ≤ m then s
    else match off % 0x10 with
      | 0 => s.setRegion m r { g with stBase := BitVec.ofNat 25 (bitsOf v 0 25), staged := true }
      | 4 => s.setRegion m r { g with stLim := BitVec.ofNat 25 (bitsOf v 0 25), staged := true }
      | 8 => hostYrattr m r v s
      | _ => s

/-- R108: ERRL. -/
def writeErrl (off : Nat) (v : W32) (s : State) : State :=
  match off with
  | 0 => { s with errl := { s.errl with ovf := s.errl.ovf && !bitAt v 2, ue := s.errl.ue && !bitAt v 1 } }
  | 4 =>
    let s := if bitAt v 1 then clearErrl s else s
    if bitAt v 0 then popErrl s else s
  | 8 => { s with errl := { s.errl with vec := BitVec.ofNat 11 (bitsOf v 16 11), ueie := bitAt v 1, ceie := bitAt v 0 } }
  | _ => s

/-- R9, R496, R498: PWRCAP, each field kept where its new value is reserved. -/
def writePwrcap (v : W32) (s : State) : State :=
  let keep := fun (old : BitVec 10) (n : Nat) => if goodCap n then BitVec.ofNat 10 n else old
  { s with power := { s.power with brakecap := keep s.power.brakecap (bitsOf v 16 10), cap := keep s.power.cap (bitsOf v 0 10) } }

/-- R498: PWEVT. -/
def writePwevt (v : W32) (s : State) : State :=
  let p := s.power
  { s with power := { p with
    clkForced := p.clkForced && !bitAt v 4, stopPrev := p.stopPrev && !bitAt v 3, thermSeen := p.thermSeen && !bitAt v 2
    brakeSeen := p.brakeSeen && !bitAt v 1, warnSeen := p.warnSeen && !bitAt v 0 } }

/-- R481, R498: REFCTL.REFSEL; the oscillator is trimmed against the source chosen. -/
def writeRefctl (v : W32) (s : State) : State :=
  if bitsOf v 0 2 = 3 then s else trimClock { s with power := { s.power with refsel := BitVec.ofNat 2 (bitsOf v 0 2) } }

/-- R498: PWCK. -/
def writePwck (off : Nat) (v : W32) (s : State) : State :=
  match off with
  | 0x10 => writePwrcap v s
  | 0x14 =>
    let n := bitsOf v 0 8
    if 80 ≤ n ∧ n ≤ 100 then { s with power := { s.power with tthr := BitVec.ofNat 8 n } } else s
  | 0x18 => writePwevt v s
  | 0x20 => writeRefctl v s
  | 0x40 => { s with power := { s.power with islsel := BitVec.ofNat 6 (bitsOf v 0 6) } }
  | 0x44 => writeIslclk v true s
  | _ => s

/-- R522: SCRF. -/
def writeScrf (off : Nat) (v : W32) (s : State) : State :=
  if off = 0 then { s with scarf := { s.scarf with lostSeen := s.scarf.lostSeen &&& ~~~(BitVec.ofNat 8 (bitsOf v 0 8)) } }
  else if 0x100 ≤ off ∧ off < 0x200 ∧ off % 0x40 = 0 then writeLinkcfg ((off - 0x100) / 0x40) v s
  else s

/-- R459: PAIR. -/
def writePair (off : Nat) (v : W32) (s : State) : State :=
  match off with
  | 0 =>
    let s := { s with pair := { s.pair with nosplit := bitAt v 0 } }
    if bitAt v 1 then clearPairCounters s else s
  | 0x10 => writeCmptest v s
  | _ => s

/-- R373: the KNOCK register. -/
def writeKnock (f off : Nat) (v : W32) (s : State) : State := if off = 0 then knock f (bitAt v 31) (bitsOf v 0 10) s else s

/-- R19, R351: the blocks of a VF. -/
def writeVfBlock (f off : Nat) (v : W32) (s : State) : State :=
  if 0x2000 ≤ off ∧ off < 0x3000 then writeAdmq f (off - 0x2000) v s
  else if 0x3000 ≤ off ∧ off < 0x4000 then writeDbpg f (off - 0x3000) v s
  else if 0x4000 ≤ off ∧ off < 0x5000 then writeKnock f (off - 0x4000) v s
  else if 0x100000 ≤ off ∧ off < 0x200000 then writeWin f (off - 0x100000) v s
  else s

/-- R19, R351: the blocks only the PF has. -/
def writePfBlock (off : Nat) (v : W32) (s : State) : State :=
  if 0x1000 ≤ off ∧ off < 0x2000 then writeGctl (off - 0x1000) v s
  else if 0x10000 ≤ off ∧ off < 0x20000 then writeMemc (off - 0x10000) v s
  else if 0x20000 ≤ off ∧ off < 0x30000 then writeErrl (off - 0x20000) v s
  else if 0x30000 ≤ off ∧ off < 0x40000 then writePwck (off - 0x30000) v s
  else if 0x40000 ≤ off ∧ off < 0x50000 then writeScrf (off - 0x40000) v s
  else if 0x50000 ≤ off ∧ off < 0x60000 then writePair (off - 0x50000) v s
  else if 0x70000 ≤ off ∧ off < 0x80000 then writeStwd (off - 0x70000) v s
  else writeVfBlock 0 off v s

/-- R528, R530: before READY the PF serves IDENT and STWD only. -/
def writeBar0 (f off : Nat) (v : W32) (s : State) : State :=
  if quiet f s then (if 0x70000 ≤ off ∧ off < 0x80000 then writeStwd (off - 0x70000) v s else s)
  else hostWrite f (if f = 0 then writePfBlock off v else writeVfBlock f off v) s

/-! ### Configuration space (R347, R348, R360) -/

/-- R360: Bus Master Enable. -/
def writeCommand (f : Nat) (v : W32) (s : State) : State :=
  if bitAt v 2 then resumeBus f s else s.setFn f { s.fn f with bme := false }

/-- R358: MSI-X Enable and Function Mask. -/
def writeMsixControl (f : Nat) (v : W32) (s : State) : State :=
  let s := s.setFn f { s.fn f with msixEn := bitAt v 31 }
  if bitAt v 30 then s.setFn f { s.fn f with fmask := true } else if (s.fn f).fmask then clearFmask f s else s

/-- R348: VF Enable: VFs 1 to NumVFs come up, or every VF is reset. -/
def writeVfEnable (on : Bool) (s : State) : State :=
  if on = s.port.vfEn then s
  else if on then
    let s := { s with port := { s.port with vfEn := true } }
    ((List.range 64).filter (fun f => decide (0 < f) && decide (f ≤ s.port.numVfs.toNat))).foldl
      (fun s f => s.setFn f { s.fn f with enabled := true, ready := raisedUp s && !(s.fn f).resetting }) s
  else
    let s := { s with port := { s.port with vfEn := false } }
    resetScope ((List.range 64).filter (fun f => (s.fn f).enabled && decide (f ≠ 0))) false s

/-- R361, R362: PMCSR of the PF: PowerState, PME_En, and PME_Status, cleared by writing 1; PowerState 1 and 2 name no state of the module. -/
def writePmcsr (v : W32) (s : State) : State :=
  let s := putCfg 0 0x44 v (if bitAt v 15 then { s with power := { s.power with pme := false } } else s)
  if bitsOf v 0 2 = 3 then toD3hot s else if bitsOf v 0 2 = 0 then (if s.port.d3hot then toD0 s else s) else s

/-- R347: the registers of the PF's configuration space that have a field of their own in the state. -/
def writePfConfig (off : Nat) (v : W32) (s : State) : State :=
  match off with
  | 0x44 => writePmcsr v s
  | 0x70 => { s with port := { s.port with aspm := bitAt v 1, l1 := s.port.l1 && bitAt v 1 } }
  | 0x104 => clearAer aerBits v s
  | 0x110 => clearAer aerSoft v s
  | 0x250 => writeVfEnable (bitAt v 0) (putCfg 0 0x250 v s)
  | 0x258 =>
    let n := bitsOf v 0 16
    if s.port.vfEn ∨ totalVfs (isMember s) < n then s else { s with port := { s.port with numVfs := BitVec.ofNat 16 n } }
  | 0x294 => { s with port := { s.port with priEn := bitAt v 0 } }
  | 0x29C => { s with ats := { s.ats with opra := v.toNat } }
  | 0x2A4 => { s with port := { s.port with pasidEn := bitAt v 16 } }
  | _ => putCfg 0 off v s

/-- R347, R348, R361: a configuration write of function f, served from step 5 of raising on. -/
def writeConfig (f off : Nat) (v : W32) (s : State) : State :=
  if !s.port.cfg || !(s.fn f).enabled || !reached f s then s
  else match off with
    | 0x04 => writeCommand f v (putCfg f 0x04 v s)
    | 0x50 => writeMsixControl f v s
    | _ => if f = 0 then writePfConfig off v s else putCfg f off v s

/-- R6, R10: a host write of a 32-bit register, aligned, in BAR0, BAR4 or configuration space. -/
def execRegisterWrite (f : FuncIx) (sp : RegSpace) (off : BitVec 26) (v : W32) (s : State) : Host.Outcome State Fault Refusal :=
  let o := off.toNat
  if o % 4 ≠ 0 then .next (if sp = .bar0 then unsupported s else s)
  else match sp with
    | .bar0 => .next (writeBar0 f o v s)
    | .bar4 => .next (hostWrite f (writeMsix f o v) s)
    | .config => .next (writeConfig f o v s)

end Sys2Proof.Machine
end

