-- ==== Sys2Proof/Machine/RegRead.lean ====
section
/-! DEFINITION. What a host read of a register returns in BAR0 (R8, R10, R12, R351, R352) and in BAR4 (R358); of configuration space,
configRead says it. No row of the table is such a read, and none changes the state. -/

namespace Sys2Proof.Machine

/-- Bits 31 to 0, or 63 to 32, of a 64-bit value. -/
def halfOf (v : Nat) (high : Bool) : Nat := if high then v / 2 ^ 32 % 2 ^ 32 else v % 2 ^ 32

/-- R7, R12: the low half of a 64-bit register as it reads: a low half held for its high half, else what is staged (DEDUCED, assumption 85). -/
def lowHalf (held : Option W32) (v : Nat) : Nat :=
  match held with
  | some h => h.toNat
  | none => halfOf v false

/-- R352: IDENT of function f. -/
def readIdent (f off : Nat) (s : State) : Nat :=
  let byte := fun i => (slotByte s s.flash.running i).toNat
  match off with
  | 0x00 => 0x004B4C38
  | 0x04 => 0x41 * 2 ^ 16 + (match s.variant with | .kl8x256 => 1 | .kl8x128 => 2)
  | 0x08 => byte 4 * 2 ^ 24 + byte 5 * 2 ^ 16 + byte 7 * 256 + byte 6
  | 0x0C => (inService s).length * 2 ^ 16 + bitTo s.straps.head 3 + s.straps.modId.toNat
  | 0x10 => s.variant.tracts
  | 0x14 => 32768 * 2 ^ 16 + 32768
  | 0x18 => f * 256 + bitTo s.power.warn 1 + bitTo (s.fn f).ready 0
  | _ => 0

/-- R377: ADMQ of function f. -/
def readAdmq (f off : Nat) (s : State) : Nat :=
  let a := (s.fn f).admq
  let owned := ownsCq f a.cqmsel.toNat s
  match off with
  | 0x00 => lowHalf a.heldAsq a.st.asq.toNat
  | 0x04 => halfOf a.st.asq.toNat true
  | 0x08 => lowHalf a.heldAcq a.st.acq.toNat
  | 0x0C => halfOf a.st.acq.toNat true
  | 0x10 => a.st.asqSize.toNat
  | 0x14 => a.st.acqSize.toNat
  | 0x18 => bitTo a.cur.en 31 + a.st.vec.toNat * 2 ^ 16 + bitTo a.st.ien 15 + bitTo a.cerr 9 + bitTo a.shownStaged 8 + bitTo a.st.en 1
  | 0x1C => match s.sq f with | some q => q.head | none => 0
  | 0x40 => a.cqmsel.toNat
  | 0x44 => a.stCount.toNat * 2 ^ 24 + a.stTime.toNat * 2 ^ 12 + bitTo a.modCerr 9 + bitTo a.modStaged 8
  | 0x48 => match s.cq a.cqmsel.toNat with
    | some c => if owned then c.count * 2 ^ 24 + c.time * 2 ^ 12 + 1 else 0
    | none => 0
  | _ => 0

/-- R370: DBPG of function f. -/
def readDbpg (f off : Nat) (s : State) : Nat :=
  let d := (s.fn f).dbpg
  match off with
  | 0 => lowHalf d.held d.stBase.toNat
  | 4 => halfOf d.stBase.toNat true
  | 8 => bitTo d.en 16 + bitTo d.cerr 9 + bitTo d.staged 8 + bitTo d.stEn 1
  | _ => 0

/-- R353: WIN of function f. -/
def readWin (f off : Nat) (s : State) : Nat :=
  let w := (s.fn f).win
  match off with
  | 0x00 => lowHalf w.held w.stBase.toNat
  | 0x04 => halfOf w.stBase.toNat true
  | 0x08 => w.stCtx.toNat * 2 ^ 16 + bitTo w.fault 10 + bitTo w.cerr 9 + bitTo w.staged 8 + w.stSpace.toNat * 2
  | 0x10 => halfOf w.base.toNat false
  | 0x14 => halfOf w.base.toNat true
  | 0x18 => w.ctx.toNat * 2 ^ 16 + w.space.toNat * 2
  | _ => 0

/-- R61, R82, R91, R101: MEMC. -/
def readMemc (off : Nat) (s : State) : Nat :=
  let c := s.mem.memc
  let e := s.mem.ecc
  match off with
  | 0x10 => c.trfirst.toNat
  | 0x14 => c.trlast.toNat
  | 0x18 => bitTo c.busy 31 + bitTo c.cerr 8 + bitTo c.staged 4 + bitTo c.op 2 + bitTo c.code 1
  | 0x1C => c.done.toNat
  | 0x100 => lowHalf e.heldAddr e.addr.toNat
  | 0x104 => halfOf e.addr.toNat true
  | 0x108 => lowHalf e.heldMask e.mask.toNat
  | 0x10C => halfOf e.mask.toNat true
  | 0x110 => bitTo e.armed 31 + bitTo e.fired 30 + bitTo e.cerr 9 + bitTo e.staged 8 + bitTo e.mode 6 + e.window.toNat * 2
  | _ =>
    if 0x400 ≤ off ∧ off < 0x800 then (tget 0 s.mem.dead ((off - 0x400) / 4)).toNat
    else if 0x4000 ≤ off ∧ off < 0x6000 then ((List.range 32).map (fun i => bitTo (s.strong (8 * (off - 0x4000) + i)) i)).foldl (· + ·) 0
    else if 0x8000 ≤ off ∧ off < 0x9900 then
      let g := s.region ((off - 0x8000) / 0x80) (off % 0x80 / 0x10)
      match off % 0x10 with
      | 0 => g.stBase.toNat
      | 4 => g.stLim.toNat
      | 8 => bitTo g.en 31 + g.tag.toNat * 2 ^ 19 + bitTo g.cerr 9 + bitTo g.staged 8 + bitTo g.anyctx 3 + bitTo g.w 2 + bitTo g.rd 1
      | _ => 0
    else 0

/-- R108, R109: ERRL. -/
def readErrl (off : Nat) (s : State) : Nat :=
  let l := s.errl
  match off with
  | 0x00 => l.ring.length * 2 ^ 16 + bitTo l.ovf 2 + bitTo l.ue 1 + bitTo (!l.ring.isEmpty) 0
  | 0x08 => l.vec.toNat * 2 ^ 16 + bitTo l.ueie 1 + bitTo l.ceie 0
  | _ =>
    if 0x10 ≤ off ∧ off < 0x20 then
      match l.ring with
      | e :: _ => leNat ((copyBytes e).drop (off - 0x10) |>.take 4)
      | [] => 0
    else if 0x100 ≤ off ∧ off < 0x118 then tget 0 l.cnt ((off - 0x100) / 4)
    else 0

/-- R479, R480: the clock in force of island i, MHz. -/
def islandFreq (i : Nat) (s : State) : Nat :=
  let v := s.island i
  let own := if i < 34 then 1600 else if i < 42 then 1200 else if i = 42 then 1600 else if i = 43 then 400 else if i = 44 then 1000
    else if i < 49 then 1660 else 800
  (if v.src then 100 else own) / 2 ^ v.div.toNat

/-- R498: PWCK. -/
def readPwck (off : Nat) (s : State) : Nat :=
  let p := s.power
  let i := p.islsel.toNat
  let v := s.island i
  match off with
  | 0x00 => capSrc s * 2 ^ 24 + p.throt.toNat * 2 ^ 16 + bitTo p.therm 2 + bitTo p.brake 1 + bitTo p.warn 0
  | 0x04 => p.iin % 2 ^ 16 * 2 ^ 16 + p.vin % 2 ^ 16
  | 0x08 => p.pin % 1024
  | 0x0C => p.tdram % 256 * 256 + p.tdie % 256
  | 0x10 => p.brakecap.toNat * 2 ^ 16 + p.cap.toNat
  | 0x14 => p.ttrip.toNat * 256 + p.tthr.toNat
  | 0x18 => bitTo p.clkForced 4 + bitTo p.stopPrev 3 + bitTo p.thermSeen 2 + bitTo p.brakeSeen 1 + bitTo p.warnSeen 0
  | 0x20 => bitTo p.locked 31 + bitTo p.hold 30 + p.refuse.toNat * 2 ^ 28 + p.trim.toNat * 2 ^ 16 + p.refsel.toNat
  | 0x40 => i
  | 0x44 => v.div.toNat * 2 ^ 24 + bitTo v.src 23 + bitTo v.forced 10 + bitTo p.islCerr 9 + bitTo p.islStaged 8 + p.stDiv.toNat * 4 + bitTo p.stSrc 1
  | 0x48 => if hasIsland i s then islandFreq i s * 2 ^ 20 + bitTo v.locked 2 + bitTo (islandRuns i s) 1 + bitTo v.powered 0 else 0
  | _ => 0

/-- R522: SCRF. -/
def readScrf (off : Nat) (s : State) : Nat :=
  let c := s.scarf
  if off = 0 then bitTo c.formed 31 + bitTo c.headLost 30 + c.headMod.toNat * 2 ^ 24 + c.present.toNat * 2 ^ 16 + c.lostSeen.toNat
  else if off = 4 then ((List.range 8).map (fun m => tget 0 c.route m * 16 ^ m)).foldl (· + ·) 0
  else if 0x100 ≤ off ∧ hasLink ((off - 0x100) / 0x40) s then
    let k := s.link ((off - 0x100) / 0x40)
    match off % 0x40 with
    | 0x00 => bitTo k.cerr 9 + bitTo k.staged 8 + bitTo k.stMaxw 3 + bitTo k.stEn 2
    | 0x04 => k.peerMod.toNat * 2 ^ 29 + k.peerLink.toNat * 2 ^ 27 + k.laneOk.toNat * 2 ^ 16 + k.width.toNat * 256 + k.state
    | 0x08 => k.retry
    | 0x0C => k.fecCorr
    | 0x10 => k.fecUnc
    | 0x14 => k.retrain
    | _ => 0
  else 0

/-- R459: PAIR. -/
def readPair (off : Nat) (s : State) : Nat :=
  let q := s.pair
  let count := fun st => ((List.range s.variant.physBents).filter (fun p => decide ((s.phys p).state = st))).length
  if off = 0 then bitTo q.nosplit 0
  else if off = 4 then count 3 * 2 ^ 24 + (inService s).length * 2 ^ 16 + count 2
  else if off = 0x10 then bitTo q.armed 31 + bitTo q.fired 30 + q.bent.toNat * 2 ^ 16 + bitTo q.cerr 9 + bitTo q.staged 8 + q.mode.toNat * 4
  else if 0x100 ≤ off ∧ off < 0x180 then
    match tget none q.lmap ((off - 0x100) / 4) with
    | some p => 2 ^ 31 + p
    | none => 0
  else if 0x200 ≤ off ∧ off < 0x288 then
    let v := s.phys ((off - 0x200) / 4)
    let on := decide (v.state = 1) || decide (v.state = 4)
    v.reason * 2 ^ 28 + (if on then v.lbent * 2 ^ 16 else 0) + bitTo (on && (s.bent v.lbent).split) 3 + v.state
  else if 0x1000 ≤ off ∧ off < 0x1440 then tget 0 (s.phys ((off - 0x1000) / 0x20)).cnt (off % 0x20 / 4)
  else 0

/-- R536: STWD. -/
def readStwd (off : Nat) (s : State) : Nat :=
  let m := s.stwd
  match off with
  | 0x00 => bitTo m.busy 31 + bitTo m.done 30 + m.vec.toNat * 2 ^ 16 + bitTo m.ien 15
  | 0x04 => m.tag.toNat * 256 + m.opc.toNat
  | 0x08 => lowHalf m.held m.addr.toNat
  | 0x0C => halfOf m.addr.toNat true
  | 0x10 => m.len.toNat
  | 0x14 => m.arg0.toNat
  | 0x18 => m.arg1.toNat
  | 0x1C => m.status.toNat * 2 ^ 16 + m.rtag.toNat * 256
  | 0x20 => m.res0.toNat
  | 0x24 => m.res1.toNat
  | _ => 0

/-- R374, R497: GCTL. -/
def readGctl (off : Nat) (s : State) : Nat :=
  match off with
  | 0x00 => s.power.wakes.toNat * 2 ^ 16 + s.power.wakeUs.toNat
  | 0x04 => s.power.idle.toNat
  | 0x10 => s.power.poll.toNat
  | _ => 0

/-- R19, R351: the register of function f at a BAR0 offset. -/
def readBlock (f off : Nat) (s : State) : Nat :=
  if off < 0x1000 then readIdent f off s
  else if 0x2000 ≤ off ∧ off < 0x3000 then readAdmq f (off - 0x2000) s
  else if 0x3000 ≤ off ∧ off < 0x4000 then readDbpg f (off - 0x3000) s
  else if 0x100000 ≤ off ∧ off < 0x200000 then readWin f (off - 0x100000) s
  else if f ≠ 0 then 0
  else if off < 0x2000 then readGctl (off - 0x1000) s
  else if 0x10000 ≤ off ∧ off < 0x20000 then readMemc (off - 0x10000) s
  else if 0x20000 ≤ off ∧ off < 0x30000 then readErrl (off - 0x20000) s
  else if 0x30000 ≤ off ∧ off < 0x40000 then readPwck (off - 0x30000) s
  else if 0x40000 ≤ off ∧ off < 0x50000 then readScrf (off - 0x40000) s
  else if 0x50000 ≤ off ∧ off < 0x60000 then readPair (off - 0x50000) s
  else if 0x70000 ≤ off ∧ off < 0x80000 then readStwd (off - 0x70000) s
  else 0

/-- R358, R359: the MSI-X table of function f as written, its mask bits, and the read-only PBA. -/
def readMsix (f off : Nat) (s : State) : Nat :=
  let pba := if f = 0 then 0x8000 else 0x400
  let e := fun n => tget Vector.reset (s.fn f).vec n
  if off < 16 * vectorCount f then
    let v := e (off / 16)
    match off % 16 with
    | 0 => halfOf v.addr.toNat false
    | 4 => halfOf v.addr.toNat true
    | 8 => v.data.toNat
    | _ => bitTo v.mask 0
  else if pba ≤ off ∧ off < pba + vectorCount f / 8 then ((List.range 32).map (fun i => bitTo (e (8 * (off - pba) + i)).pba i)).foldl (· + ·) 0
  else 0

/-- R358, R361, R530: what an aligned 32-bit read of BAR4 returns. -/
def bar4Read (f off : Nat) (s : State) : W32 :=
  if s.power.phase = .dormant ∨ quiet f s then 0 else BitVec.ofNat 32 (readMsix f off s)

/-- R12, R351, R361, R530: what a 32-bit read of BAR0 returns: before READY IDENT and STWD only, and nothing in dormant. -/
def bar0Read (f off : Nat) (s : State) : W32 :=
  if s.power.phase = .dormant then 0
  else if quiet f s ∧ ¬(off < 0x1000 ∨ (0x70000 ≤ off ∧ off < 0x80000)) then 0
  else BitVec.ofNat 32 (readBlock f off s)

end Sys2Proof.Machine
end

