-- ==== Sys2Proof/Machine/Dispatch.lean ====
section
/-! DEFINITION. One arm per command: the meaning it has. -/

namespace Sys2Proof.Machine

/-- The effect of a command on everything but the queue. -/
def exec (i : Instr) (s : State) : Host.Outcome State Fault Refusal :=
  match i with
  | .add k x y => Sys2Proof.Machine.execAdd k x y s
  | .sub k x y => Sys2Proof.Machine.execSub k x y s
  | .and k x y => Sys2Proof.Machine.execAnd k x y s
  | .or k x y => Sys2Proof.Machine.execOr k x y s
  | .xor k x y => Sys2Proof.Machine.execXor k x y s
  | .andn k x y => Sys2Proof.Machine.execAndn k x y s
  | .shl k x y => Sys2Proof.Machine.execShl k x y s
  | .shr k x y => Sys2Proof.Machine.execShr k x y s
  | .sar k x y => Sys2Proof.Machine.execSar k x y s
  | .mov k x y => Sys2Proof.Machine.execMov k x y s
  | .neg k x y => Sys2Proof.Machine.execNeg k x y s
  | .not k x y => Sys2Proof.Machine.execNot k x y s
  | .cc k x y cond => Sys2Proof.Machine.execCc k x y cond s
  | .addi k x imm => Sys2Proof.Machine.execAddi k x imm s
  | .ldi k x imm => Sys2Proof.Machine.execLdi k x imm s
  | .lui k x imm => Sys2Proof.Machine.execLui k x imm s
  | .andi k x imm => Sys2Proof.Machine.execAndi k x imm s
  | .ori k x imm => Sys2Proof.Machine.execOri k x imm s
  | .xori k x imm => Sys2Proof.Machine.execXori k x imm s
  | .shli k x imm => Sys2Proof.Machine.execShli k x imm s
  | .shri k x imm => Sys2Proof.Machine.execShri k x imm s
  | .sari k x imm => Sys2Proof.Machine.execSari k x imm s
  | .ldi20 k xa xb xc imm => Sys2Proof.Machine.execLdi20 k xa xb xc imm s
  | .cmpi k xa xb xc imm => Sys2Proof.Machine.execCmpi k xa xb xc imm s
  | .cmp k xa xb xc imm => Sys2Proof.Machine.execCmp k xa xb xc imm s
  | .mul k x y => Sys2Proof.Machine.execMul k x y s
  | .mulwu k x y => Sys2Proof.Machine.execMulwu k x y s
  | .mulws k x y => Sys2Proof.Machine.execMulws k x y s
  | .macu k x y n => Sys2Proof.Machine.execMacu k x y n s
  | .macs k x y n => Sys2Proof.Machine.execMacs k x y n s
  | .ac5 k x y n => Sys2Proof.Machine.execAc5 k x y n s
  | .ladc k x y => Sys2Proof.Machine.execLadc k x y s
  | .lsbb k x y => Sys2Proof.Machine.execLsbb k x y s
  | .ladz k x y => Sys2Proof.Machine.execLadz k x y s
  | .ladzs k x y => Sys2Proof.Machine.execLadzs k x y s
  | .ltop k x y => Sys2Proof.Machine.execLtop k x y s
  | .ltopb k x y => Sys2Proof.Machine.execLtopb k x y s
  | .lnrm k x y => Sys2Proof.Machine.execLnrm k x y s
  | .pdadd k x y => Sys2Proof.Machine.execPdadd k x y s
  | .pdsub k x y => Sys2Proof.Machine.execPdsub k x y s
  | .acz k xa xb xc imm => Sys2Proof.Machine.execAcz k xa xb xc imm s
  | .acmov k xa xb xc imm => Sys2Proof.Machine.execAcmov k xa xb xc imm s
  | .acneg k xa xb xc imm => Sys2Proof.Machine.execAcneg k xa xb xc imm s
  | .aclq k xa xb xc imm => Sys2Proof.Machine.execAclq k xa xb xc imm s
  | .acsq k xa xb xc imm => Sys2Proof.Machine.execAcsq k xa xb xc imm s
  | .acscl k xa xb xc imm => Sys2Proof.Machine.execAcscl k xa xb xc imm s
  | .adiv k xa xb xc imm => Sys2Proof.Machine.execAdiv k xa xb xc imm s
  | .accmp k xa xb xc imm => Sys2Proof.Machine.execAccmp k xa xb xc imm s
  | .aadd k x y => Sys2Proof.Machine.execAadd k x y s
  | .asub k x y => Sys2Proof.Machine.execAsub k x y s
  | .aadds k x y => Sys2Proof.Machine.execAadds k x y s
  | .amov k x y => Sys2Proof.Machine.execAmov k x y s
  | .adw k x y => Sys2Proof.Machine.execAdw k x y s
  | .dwa k x y => Sys2Proof.Machine.execDwa k x y s
  | .smov k x y => Sys2Proof.Machine.execSmov k x y s
  | .sdw k x y => Sys2Proof.Machine.execSdw k x y s
  | .dws k x y => Sys2Proof.Machine.execDws k x y s
  | .aaddd k x y => Sys2Proof.Machine.execAaddd k x y s
  | .sneg k x y => Sys2Proof.Machine.execSneg k x y s
  | .aaddi k x imm => Sys2Proof.Machine.execAaddi k x imm s
  | .lai k xa xb xc imm => Sys2Proof.Machine.execLai k xa xb xc imm s
  | .lahi k xa xb xc imm => Sys2Proof.Machine.execLahi k xa xb xc imm s
  | .sai k xa xb xc imm => Sys2Proof.Machine.execSai k xa xb xc imm s
  | .aaddl k xa xb xc imm => Sys2Proof.Machine.execAaddl k xa xb xc imm s
  | .cmpa k xa xb xc imm => Sys2Proof.Machine.execCmpa k xa xb xc imm s
  | .ld k x y off => Sys2Proof.Machine.execLd k x y off s
  | .st k x y off => Sys2Proof.Machine.execSt k x y off s
  | .ld2 k x y off => Sys2Proof.Machine.execLd2 k x y off s
  | .st2 k x y off => Sys2Proof.Machine.execSt2 k x y off s
  | .lda k x y off => Sys2Proof.Machine.execLda k x y off s
  | .sta k x y off => Sys2Proof.Machine.execSta k x y off s
  | .ldl k xa xb xc imm => Sys2Proof.Machine.execLdl k xa xb xc imm s
  | .stl k xa xb xc imm => Sys2Proof.Machine.execStl k xa xb xc imm s
  | .ld2l k xa xb xc imm => Sys2Proof.Machine.execLd2l k xa xb xc imm s
  | .st2l k xa xb xc imm => Sys2Proof.Machine.execSt2l k xa xb xc imm s
  | .ldal k xa xb xc imm => Sys2Proof.Machine.execLdal k xa xb xc imm s
  | .stal k xa xb xc imm => Sys2Proof.Machine.execStal k xa xb xc imm s
  | .ldx k xa xb xc imm => Sys2Proof.Machine.execLdx k xa xb xc imm s
  | .stx k xa xb xc imm => Sys2Proof.Machine.execStx k xa xb xc imm s
  | .push k x y => Sys2Proof.Machine.execPush k x y s
  | .pop k x y => Sys2Proof.Machine.execPop k x y s
  | .pusha k x y => Sys2Proof.Machine.execPusha k x y s
  | .popa k x y => Sys2Proof.Machine.execPopa k x y s
  | .push2 k x y => Sys2Proof.Machine.execPush2 k x y s
  | .pop2 k x y => Sys2Proof.Machine.execPop2 k x y s
  | .lxadd k xa xb xc imm => Sys2Proof.Machine.execLxadd k xa xb xc imm s
  | .lxchg k xa xb xc imm => Sys2Proof.Machine.execLxchg k xa xb xc imm s
  | .lcas k xa xb xc imm => Sys2Proof.Machine.execLcas k xa xb xc imm s
  | .lqadd k xa xb xc imm => Sys2Proof.Machine.execLqadd k xa xb xc imm s
  | .bz k x imm => Sys2Proof.Machine.execBz k x imm s
  | .bnz k x imm => Sys2Proof.Machine.execBnz k x imm s
  | .br k disp => Sys2Proof.Machine.execBr k disp s
  | .call k disp => Sys2Proof.Machine.execCall k disp s
  | .bzl k xa xb xc imm => Sys2Proof.Machine.execBzl k xa xb xc imm s
  | .bnzl k xa xb xc imm => Sys2Proof.Machine.execBnzl k xa xb xc imm s
  | .brl k xa xb xc imm => Sys2Proof.Machine.execBrl k xa xb xc imm s
  | .calll k xa xb xc imm => Sys2Proof.Machine.execCalll k xa xb xc imm s
  | .ret k imm => Sys2Proof.Machine.execRet k imm s
  | .jr k imm => Sys2Proof.Machine.execJr k imm s
  | .callr k imm => Sys2Proof.Machine.execCallr k imm s
  | .loop k x imm => Sys2Proof.Machine.execLoop k x imm s
  | .loopl k xa xb xc imm => Sys2Proof.Machine.execLoopl k xa xb xc imm s
  | .lexit k imm => Sys2Proof.Machine.execLexit k imm s
  | .bchk k x y off => Sys2Proof.Machine.execBchk k x y off s
  | .movc k xa xb xc imm => Sys2Proof.Machine.execMovc k xa xb xc imm s
  | .xlcommit k xa => Sys2Proof.Machine.execXlcommit k xa s
  | .dinv k xa => Sys2Proof.Machine.execDinv k xa s
  | .iinv k xa => Sys2Proof.Machine.execIinv k xa s
  | .tickcmpWrite k xa cls => Sys2Proof.Machine.execTickcmpWrite k xa cls s
  | .nop k imm => Sys2Proof.Machine.execNop k imm s
  | .trap k imm => Sys2Proof.Machine.execTrap k imm s
  | .brk k imm => Sys2Proof.Machine.execBrk k imm s
  | .rete k imm => Sys2Proof.Machine.execRete k imm s
  | .wait k imm => Sys2Proof.Machine.execWait k imm s
  | .waitEnd k => Sys2Proof.Machine.execWaitEnd k s
  | .fence k imm => Sys2Proof.Machine.execFence k imm s
  | .fenceComplete k => Sys2Proof.Machine.execFenceComplete k s
  | .split k imm => Sys2Proof.Machine.execSplit k imm s
  | .join k imm => Sys2Proof.Machine.execJoin k imm s
  | .xinvPage k imm => Sys2Proof.Machine.execXinvPage k imm s
  | .xinvContext k imm => Sys2Proof.Machine.execXinvContext k imm s
  | .xinvFunction k imm => Sys2Proof.Machine.execXinvFunction k imm s
  | .sealchk k imm => Sys2Proof.Machine.execSealchk k imm s
  | .sealchkMerged k imm => Sys2Proof.Machine.execSealchkMerged k imm s
  | .sealBarrierRelease job => Sys2Proof.Machine.execSealBarrierRelease job s
  | .sealclr k imm => Sys2Proof.Machine.execSealclr k imm s
  | .vsetc k imm => Sys2Proof.Machine.execVsetc k imm s
  | .jend k imm => Sys2Proof.Machine.execJend k imm s
  | .evclm k imm => Sys2Proof.Machine.execEvclm k imm s
  | .evcmp k imm => Sys2Proof.Machine.execEvcmp k imm s
  | .evrd k imm => Sys2Proof.Machine.execEvrd k imm s
  | .evwr k imm => Sys2Proof.Machine.execEvwr k imm s
  | .evset k imm => Sys2Proof.Machine.execEvset k imm s
  | .sadd k xa xb xc w1 => Sys2Proof.Machine.execSadd k xa xb xc w1 s
  | .ssub k xa xb xc w1 => Sys2Proof.Machine.execSsub k xa xb xc w1 s
  | .sladd k xa xb xc w1 => Sys2Proof.Machine.execSladd k xa xb xc w1 s
  | .snorm k xa xb xc w1 => Sys2Proof.Machine.execSnorm k xa xb xc w1 s
  | .scmp k xa xb xc w1 => Sys2Proof.Machine.execScmp k xa xb xc w1 s
  | .slogAnd k xa xb xc w1 => Sys2Proof.Machine.execSlogAnd k xa xb xc w1 s
  | .slogOr k xa xb xc w1 => Sys2Proof.Machine.execSlogOr k xa xb xc w1 s
  | .slogXor k xa xb xc w1 => Sys2Proof.Machine.execSlogXor k xa xb xc w1 s
  | .slogAndn k xa xb xc w1 => Sys2Proof.Machine.execSlogAndn k xa xb xc w1 s
  | .slogNot k xa xb xc w1 => Sys2Proof.Machine.execSlogNot k xa xb xc w1 s
  | .scvtPepixoIn k xa xb xc w1 => Sys2Proof.Machine.execScvtPepixoIn k xa xb xc w1 s
  | .scvtPepixoOut k xa xb xc w1 => Sys2Proof.Machine.execScvtPepixoOut k xa xb xc w1 s
  | .scvtWordToAmount k xa xb xc w1 => Sys2Proof.Machine.execScvtWordToAmount k xa xb xc w1 s
  | .scvtAmountToWord k xa xb xc w1 => Sys2Proof.Machine.execScvtAmountToWord k xa xb xc w1 s
  | .smove k xa xb xc w1 => Sys2Proof.Machine.execSmove k xa xb xc w1 s
  | .smul k xa xb xc w1 => Sys2Proof.Machine.execSmul k xa xb xc w1 s
  | .smac k xa xb xc w1 => Sys2Proof.Machine.execSmac k xa xb xc w1 s
  | .sscale k xa xb xc w1 => Sys2Proof.Machine.execSscale k xa xb xc w1 s
  | .sdiv k xa xb xc w1 => Sys2Proof.Machine.execSdiv k xa xb xc w1 s
  | .smitreLeft k xa xb xc w1 => Sys2Proof.Machine.execSmitreLeft k xa xb xc w1 s
  | .smitreInner k xa xb xc w1 => Sys2Proof.Machine.execSmitreInner k xa xb xc w1 s
  | .smitreAnti k xa xb xc w1 => Sys2Proof.Machine.execSmitreAnti k xa xb xc w1 s
  | .ssegCompact k xa xb xc w1 => Sys2Proof.Machine.execSsegCompact k xa xb xc w1 s
  | .ssegRunning k xa xb xc w1 => Sys2Proof.Machine.execSsegRunning k xa xb xc w1 s
  | .ssegMark k xa xb xc w1 => Sys2Proof.Machine.execSsegMark k xa xb xc w1 s
  | .ssortForm k xa xb xc w1 => Sys2Proof.Machine.execSsortForm k xa xb xc w1 s
  | .ssortMerge k xa xb xc w1 => Sys2Proof.Machine.execSsortMerge k xa xb xc w1 s
  | .skcmp k xa xb xc w1 => Sys2Proof.Machine.execSkcmp k xa xb xc w1 s
  | .skcmpOrder k xa xb xc w1 => Sys2Proof.Machine.execSkcmpOrder k xa xb xc w1 s
  | .streamStart k => Sys2Proof.Machine.execStreamStart k s
  | .elementGroup k ev => Sys2Proof.Machine.execElementGroup k ev s
  | .streamFinish k => Sys2Proof.Machine.execStreamFinish k s
  | .streamStop k => Sys2Proof.Machine.execStreamStop k s
  | .vld k xa xb xc w1 => Sys2Proof.Machine.execVld k xa xb xc w1 s
  | .vst k xa xb xc w1 => Sys2Proof.Machine.execVst k xa xb xc w1 s
  | .vgath k xa xb xc w1 => Sys2Proof.Machine.execVgath k xa xb xc w1 s
  | .vscat k xa xb xc w1 => Sys2Proof.Machine.execVscat k xa xb xc w1 s
  | .vadd k xa xb xc w1 => Sys2Proof.Machine.execVadd k xa xb xc w1 s
  | .vsub k xa xb xc w1 => Sys2Proof.Machine.execVsub k xa xb xc w1 s
  | .vcmp k xa xb xc w1 => Sys2Proof.Machine.execVcmp k xa xb xc w1 s
  | .vlog k xa xb xc w1 => Sys2Proof.Machine.execVlog k xa xb xc w1 s
  | .vnorm k xa xb xc w1 => Sys2Proof.Machine.execVnorm k xa xb xc w1 s
  | .vnormAdd k xa xb xc w1 => Sys2Proof.Machine.execVnormAdd k xa xb xc w1 s
  | .vmul k xa xb xc w1 => Sys2Proof.Machine.execVmul k xa xb xc w1 s
  | .vmac k xa xb xc w1 => Sys2Proof.Machine.execVmac k xa xb xc w1 s
  | .vkcmp k xa xb xc w1 => Sys2Proof.Machine.execVkcmp k xa xb xc w1 s
  | .psetn k xa xb xc w1 => Sys2Proof.Machine.execPsetn k xa xb xc w1 s
  | .pand k xa xb xc w1 => Sys2Proof.Machine.execPand k xa xb xc w1 s
  | .por k xa xb xc w1 => Sys2Proof.Machine.execPor k xa xb xc w1 s
  | .pandn k xa xb xc w1 => Sys2Proof.Machine.execPandn k xa xb xc w1 s
  | .pnot k xa xb xc w1 => Sys2Proof.Machine.execPnot k xa xb xc w1 s
  | .pld k xa xb xc w1 => Sys2Proof.Machine.execPld k xa xb xc w1 s
  | .pst k xa xb xc w1 => Sys2Proof.Machine.execPst k xa xb xc w1 s
  | .pcnt k xa xb xc w1 => Sys2Proof.Machine.execPcnt k xa xb xc w1 s
  | .vredSum k xa xb xc w1 => Sys2Proof.Machine.execVredSum k xa xb xc w1 s
  | .vredMin k xa xb xc w1 => Sys2Proof.Machine.execVredMin k xa xb xc w1 s
  | .vredMax k xa xb xc w1 => Sys2Proof.Machine.execVredMax k xa xb xc w1 s
  | .vredSealAdd k xa xb xc w1 => Sys2Proof.Machine.execVredSealAdd k xa xb xc w1 s
  | .vredSealSubtract k xa xb xc w1 => Sys2Proof.Machine.execVredSealSubtract k xa xb xc w1 s
  | .vtbl k xa xb xc w1 => Sys2Proof.Machine.execVtbl k xa xb xc w1 s
  | .vectorStart k => Sys2Proof.Machine.execVectorStart k s
  | .vectorFinish v => Sys2Proof.Machine.execVectorFinish v s
  | .vectorStop k => Sys2Proof.Machine.execVectorStop k s
  | .trapEntry k word => Sys2Proof.Machine.execTrapEntry k word s
  | .timer k => Sys2Proof.Machine.execTimer k s
  | .storeDrain k => Sys2Proof.Machine.execStoreDrain k s
  | .checkpoint k => Sys2Proof.Machine.execCheckpoint k s
  | .rollback k why => Sys2Proof.Machine.execRollback k why s
  | .spareCheckComplete p pass => Sys2Proof.Machine.execSpareCheckComplete p pass s
  | .eventPresentation k => Sys2Proof.Machine.execEventPresentation k s
  | .setp src => Sys2Proof.Machine.execSetp src s
  | .targetCommit src v => Sys2Proof.Machine.execTargetCommit src v s
  | .preemption => Sys2Proof.Machine.execPreemption s
  | .preemptNoticeTimeout k => Sys2Proof.Machine.execPreemptNoticeTimeout k s
  | .pageWaitPreempt l => Sys2Proof.Machine.execPageWaitPreempt l s
  | .shareRestore job => Sys2Proof.Machine.execShareRestore job s
  | .registerWrite f sp off v => Sys2Proof.Machine.execRegisterWrite f sp off v s
  | .unsupportedAccess f off bytes => Sys2Proof.Machine.execUnsupportedAccess f off bytes s
  | .tractRecode v => Sys2Proof.Machine.execTractRecode v s
  | .tractZero v => Sys2Proof.Machine.execTractZero v s
  | .tractOperationDone => Sys2Proof.Machine.execTractOperationDone s
  | .yardRegionCommit m r v => Sys2Proof.Machine.execYardRegionCommit m r v s
  | .eccflipArm v => Sys2Proof.Machine.execEccflipArm v s
  | .eccflipDisarm => Sys2Proof.Machine.execEccflipDisarm s
  | .errlPop => Sys2Proof.Machine.execErrlPop s
  | .errlClrcnt => Sys2Proof.Machine.execErrlClrcnt s
  | .windowCommit f v => Sys2Proof.Machine.execWindowCommit f v s
  | .doorbellPageCommit f v => Sys2Proof.Machine.execDoorbellPageCommit f v s
  | .knockGroup f g => Sys2Proof.Machine.execKnockGroup f g s
  | .knockAll f => Sys2Proof.Machine.execKnockAll f s
  | .groupRead f g => Sys2Proof.Machine.execGroupRead f g s
  | .doorbellReadRetry f g ok => Sys2Proof.Machine.execDoorbellReadRetry f g ok s
  | .poll => Sys2Proof.Machine.execPoll s
  | .adminQueueCommit f v => Sys2Proof.Machine.execAdminQueueCommit f v s
  | .moderationCommit f v => Sys2Proof.Machine.execModerationCommit f v s
  | .createCq f desc => Sys2Proof.Machine.execCreateCq f desc s
  | .deleteCq f desc => Sys2Proof.Machine.execDeleteCq f desc s
  | .createSq f desc => Sys2Proof.Machine.execCreateSq f desc s
  | .deleteSq f desc => Sys2Proof.Machine.execDeleteSq f desc s
  | .setContext f desc => Sys2Proof.Machine.execSetContext f desc s
  | .deleteContext f desc => Sys2Proof.Machine.execDeleteContext f desc s
  | .abort f desc => Sys2Proof.Machine.execAbort f desc s
  | .scrub f desc => Sys2Proof.Machine.execScrub f desc s
  | .scrubDone => Sys2Proof.Machine.execScrubDone s
  | .assignTracts f desc => Sys2Proof.Machine.execAssignTracts f desc s
  | .jobNop q desc => Sys2Proof.Machine.execJobNop q desc s
  | .native q desc => Sys2Proof.Machine.execNative q desc s
  | .sort svc => Sys2Proof.Machine.execSort svc s
  | .post svc => Sys2Proof.Machine.execPost svc s
  | .accrue svc => Sys2Proof.Machine.execAccrue svc s
  | .reconcile svc => Sys2Proof.Machine.execReconcile svc s
  | .convert svc => Sys2Proof.Machine.execConvert svc s
  | .zero svc => Sys2Proof.Machine.execZero svc s
  | .jobStart => Sys2Proof.Machine.execJobStart s
  | .commitPoint job => Sys2Proof.Machine.execCommitPoint job s
  | .completionEntryWrite q => Sys2Proof.Machine.execCompletionEntryWrite q s
  | .cqHeadRecheck q => Sys2Proof.Machine.execCqHeadRecheck q s
  | .cqWriteRetry q ok => Sys2Proof.Machine.execCqWriteRetry q ok s
  | .moderationTimer q => Sys2Proof.Machine.execModerationTimer q s
  | .controllerRead blk r => Sys2Proof.Machine.execControllerRead blk r s
  | .controllerWrite blk words r => Sys2Proof.Machine.execControllerWrite blk words r s
  | .mergeRetire blk => Sys2Proof.Machine.execMergeRetire blk s
  | .requestAging ch => Sys2Proof.Machine.execRequestAging ch s
  | .yardAccess bank turn => Sys2Proof.Machine.execYardAccess bank turn s
  | .firstTouchZeroingDone entry => Sys2Proof.Machine.execFirstTouchZeroingDone entry s
  | .zbRewalk entry => Sys2Proof.Machine.execZbRewalk entry s
  | .zbTakeover entry kind unit ctx => Sys2Proof.Machine.execZbTakeover entry kind unit ctx s
  | .translationCompletion f pasid page res => Sys2Proof.Machine.execTranslationCompletion f pasid page res s
  | .responseSuccess f pasid page => Sys2Proof.Machine.execResponseSuccess f pasid page s
  | .responseInvalidRequest f pasid page => Sys2Proof.Machine.execResponseInvalidRequest f pasid page s
  | .responseFailure f pasid page => Sys2Proof.Machine.execResponseFailure f pasid page s
  | .priTimeout f pasid page => Sys2Proof.Machine.execPriTimeout f pasid page s
  | .atsInvalidateRequest f pasid page pages => Sys2Proof.Machine.execAtsInvalidateRequest f pasid page pages s
  | .invalidateCompletion => Sys2Proof.Machine.execInvalidateCompletion s
  | .bar2Read f off => Sys2Proof.Machine.execBar2Read f off s
  | .bar2Write f off v be ep => Sys2Proof.Machine.execBar2Write f off v be ep s
  | .powerstateD3hot => Sys2Proof.Machine.execPowerstateD3hot s
  | .powerstateD0 => Sys2Proof.Machine.execPowerstateD0 s
  | .cascadeDormantRequest => Sys2Proof.Machine.execCascadeDormantRequest s
  | .cascadeWakeRequest => Sys2Proof.Machine.execCascadeWakeRequest s
  | .aspmL1Entry => Sys2Proof.Machine.execAspmL1Entry s
  | .busMasterEnable f => Sys2Proof.Machine.execBusMasterEnable f s
  | .vectorUnmask f vec => Sys2Proof.Machine.execVectorUnmask f vec s
  | .pfFlr => Sys2Proof.Machine.execPfFlr s
  | .vfFlr f => Sys2Proof.Machine.execVfFlr f s
  | .hotReset => Sys2Proof.Machine.execHotReset s
  | .pcieLinkDown => Sys2Proof.Machine.execPcieLinkDown s
  | .completionTimeout f addr ctx va => Sys2Proof.Machine.execCompletionTimeout f addr ctx va s
  | .poisonedTlpReceived f addr ctx va => Sys2Proof.Machine.execPoisonedTlpReceived f addr ctx va s
  | .unexpectedCompletion => Sys2Proof.Machine.execUnexpectedCompletion s
  | .ecrcError => Sys2Proof.Machine.execEcrcError s
  | .malformedTlp => Sys2Proof.Machine.execMalformedTlp s
  | .receiverError => Sys2Proof.Machine.execReceiverError s
  | .precharge mv => Sys2Proof.Machine.execPrecharge mv s
  | .boot straps => Sys2Proof.Machine.execBoot straps s
  | .raising straps failed stuck => Sys2Proof.Machine.execRaising straps failed stuck s
  | .perstAssert => Sys2Proof.Machine.execPerstAssert s
  | .vauxLoss => Sys2Proof.Machine.execVauxLoss s
  | .supplyWarning mv pin => Sys2Proof.Machine.execSupplyWarning mv pin s
  | .supplyWarningEnd => Sys2Proof.Machine.execSupplyWarningEnd s
  | .safeStop => Sys2Proof.Machine.execSafeStop s
  | .overvoltageStop => Sys2Proof.Machine.execOvervoltageStop s
  | .thermalSample die dram held => Sys2Proof.Machine.execThermalSample die dram held s
  | .powerBrake => Sys2Proof.Machine.execPowerBrake s
  | .powerBrakeRelease => Sys2Proof.Machine.execPowerBrakeRelease s
  | .sequencerAdmission => Sys2Proof.Machine.execSequencerAdmission s
  | .bentPowerDown l => Sys2Proof.Machine.execBentPowerDown l s
  | .islandClockStop island => Sys2Proof.Machine.execIslandClockStop island s
  | .islandClockSwitch v toggles => Sys2Proof.Machine.execIslandClockSwitch v toggles s
  | .clkswForced island => Sys2Proof.Machine.execClkswForced island s
  | .trimHold src other => Sys2Proof.Machine.execTrimHold src other s
  | .journalWriteComplete => Sys2Proof.Machine.execJournalWriteComplete s
  | .pairClrcnt => Sys2Proof.Machine.execPairClrcnt s
  | .cmptestArm v => Sys2Proof.Machine.execCmptestArm v s
  | .cmptestDisarm => Sys2Proof.Machine.execCmptestDisarm s
  | .linkConfigCommit l v => Sys2Proof.Machine.execLinkConfigCommit l v s
  | .linkRetrain l => Sys2Proof.Machine.execLinkRetrain l s
  | .laneLockLoss l lanes => Sys2Proof.Machine.execLaneLockLoss l lanes s
  | .linkTrainingComplete l lanes peer => Sys2Proof.Machine.execLinkTrainingComplete l lanes peer s
  | .linkRetry l => Sys2Proof.Machine.execLinkRetry l s
  | .flitReceive l seq good => Sys2Proof.Machine.execFlitReceive l seq good s
  | .nak l seq => Sys2Proof.Machine.execNak l seq s
  | .routeChange link edges => Sys2Proof.Machine.execRouteChange link edges s
  | .remoteRequest l origin tag req => Sys2Proof.Machine.execRemoteRequest l origin tag req s
  | .formationWindowClose headMod edges => Sys2Proof.Machine.execFormationWindowClose headMod edges s
  | .moduleLost m => Sys2Proof.Machine.execModuleLost m s
  | .moduleJoined m edges => Sys2Proof.Machine.execModuleJoined m edges s
  | .fwWrite ok => Sys2Proof.Machine.execFwWrite ok s
  | .fwVerify => Sys2Proof.Machine.execFwVerify s
  | .fwActivate ok => Sys2Proof.Machine.execFwActivate ok s
  | .svnCommit ok => Sys2Proof.Machine.execSvnCommit ok s
  | .jread => Sys2Proof.Machine.execJread s
  | .jwrite => Sys2Proof.Machine.execJwrite s
  | .logRead => Sys2Proof.Machine.execLogRead s
  | .setSleep => Sys2Proof.Machine.execSetSleep s
  | .clearRetired => Sys2Proof.Machine.execClearRetired s
  | .runDiscard => Sys2Proof.Machine.execRunDiscard s
  | .sensors => Sys2Proof.Machine.execSensors s
  | .mailboxComplete => Sys2Proof.Machine.execMailboxComplete s
  | .setEndpointId eid => Sys2Proof.Machine.execSetEndpointId eid s
  | .getEndpointId => Sys2Proof.Machine.execGetEndpointId s
  | .getEndpointUuid => Sys2Proof.Machine.execGetEndpointUuid s
  | .getMctpVersionSupport typ => Sys2Proof.Machine.execGetMctpVersionSupport typ s
  | .getMessageTypeSupport => Sys2Proof.Machine.execGetMessageTypeSupport s
  | .gettid => Sys2Proof.Machine.execGettid s
  | .settid tid => Sys2Proof.Machine.execSettid tid s
  | .getpldmversion typ => Sys2Proof.Machine.execGetpldmversion typ s
  | .getpldmtypes => Sys2Proof.Machine.execGetpldmtypes s
  | .getpldmcommands typ => Sys2Proof.Machine.execGetpldmcommands typ s
  | .getpdrrepositoryinfo => Sys2Proof.Machine.execGetpdrrepositoryinfo s
  | .getpdr rec => Sys2Proof.Machine.execGetpdr rec s
  | .getsensorreading id => Sys2Proof.Machine.execGetsensorreading id s
  | .getstatesensorreadings id => Sys2Proof.Machine.execGetstatesensorreadings id s
  | .setCapEffecter watts => Sys2Proof.Machine.execSetCapEffecter watts s
  | .setBrakecapEffecter watts => Sys2Proof.Machine.execSetBrakecapEffecter watts s
  | .wakeRequest value => Sys2Proof.Machine.execWakeRequest value s
  | .svnCommitEffecter value ok => Sys2Proof.Machine.execSvnCommitEffecter value ok s
  | .getnumericeffectervalue id => Sys2Proof.Machine.execGetnumericeffectervalue id s
  | .pollforplatformeventmessage ack => Sys2Proof.Machine.execPollforplatformeventmessage ack s
  | .querydeviceidentifiers => Sys2Proof.Machine.execQuerydeviceidentifiers s
  | .getfirmwareparameters => Sys2Proof.Machine.execGetfirmwareparameters s
  | .requestupdate => Sys2Proof.Machine.execRequestupdate s
  | .passcomponenttable => Sys2Proof.Machine.execPasscomponenttable s
  | .updatecomponent => Sys2Proof.Machine.execUpdatecomponent s
  | .requestfirmwaredata offset data ok => Sys2Proof.Machine.execRequestfirmwaredata offset data ok s
  | .transfercomplete => Sys2Proof.Machine.execTransfercomplete s
  | .verifycomplete => Sys2Proof.Machine.execVerifycomplete s
  | .applycomplete => Sys2Proof.Machine.execApplycomplete s
  | .activatefirmware ok => Sys2Proof.Machine.execActivatefirmware ok s
  | .getstatus => Sys2Proof.Machine.execGetstatus s
  | .cancelupdatecomponent => Sys2Proof.Machine.execCancelupdatecomponent s
  | .cancelupdate => Sys2Proof.Machine.execCancelupdate s
  | .dramRefresh ch => Sys2Proof.Machine.execDramRefresh ch s
  | .powerLoop milliwatts => Sys2Proof.Machine.execPowerLoop milliwatts s
  | .readCompletion f addr data => Sys2Proof.Machine.execReadCompletion f addr data s
  | .reserveCharged => Sys2Proof.Machine.execReserveCharged s
  | .pcieLinkUp => Sys2Proof.Machine.execPcieLinkUp s
  | .resetComplete f => Sys2Proof.Machine.execResetComplete f s

end Sys2Proof.Machine
end

