-- ==== Sys2Proof/Safety.lean ====
section
/-! DEFINITION. What the statements speak of: the canonical form of the memories, and what every command leaves
as it found it. -/

namespace Sys2Proof.Machine

/-- The memories of the module and the host memory it has read and written stand in their one canonical form: addresses
strictly rising, and no entry equal to what an unlisted address reads as. -/
def Memory.wf (s : State) : Bool :=
  twf 0 s.mem.words && twf 0 s.mem.yard && twf none s.host && twf none s.steward.journal

/-- What holds of every state of a run: the memories are in canonical form, and the variant is one the spec names. -/
def State.Inv (s : State) : Prop := Memory.wf s = true

/-- What no command changes: the variant and the queue of waiting commands; what none lowers: the minimum SVN of the
fuses (R525); and the canonical form of the memories, which every command keeps. -/
structure Keeps (z s : State) : Prop where
  variant : s.variant = z.variant
  pending : s.pending = z.pending
  minSvn : z.flash.minSvn ≤ s.flash.minSvn
  wf : Memory.wf z = true → Memory.wf s = true

/-- A bent without what its caches hold (R123, R162, R165) and the errors in its memories (R97). -/
def Bent.bare (b : Bent) : Bent := { b with dcache := [], dBad := [], icache := [], iBad := [], tlb := [], bad := [] }

/-- The dispatcher without what its translation caches hold (R123). -/
def Disp.bare (d : Disp) : Disp := { d with tlbs := [] }

/-- What a fetch, a translation or a read leaves as it found it: every core, job, queue, context and pair, the
links and the firmware, host memory, TICK, and of a bent everything but its caches and its errors. -/
structure Quiet (z s : State) : Prop where
  variant : s.variant = z.variant
  straps : s.straps = z.straps
  tick : s.tick = z.tick
  cores : s.cores = z.cores
  bents : ∀ l, (s.bent l).bare = (z.bent l).bare
  ctxs : s.ctxs = z.ctxs
  host : s.host = z.host
  disp : s.disp.bare = z.disp.bare
  pair : s.pair = z.pair
  scarf : s.scarf = z.scarf
  flash : s.flash = z.flash
  pending : s.pending = z.pending

/-! ### The course of one instruction -/

/-- Core k issues an instruction of len words now (R132, R170, R223, R249): it may issue, no cause is ready at its boundary, no comparator
test concerns it, no chain is open, and the fetch succeeds, leaving s1. -/
structure Issues (k len : Nat) (s s1 : State) : Prop where
  ready : ready k s = true
  due : readyCause k s = none
  untested : testArmed k s = false
  closed : (s.core k).chain = []
  fetched : fetchInstr k len (notePlumb k s) = .ok () s1

/-- Nothing but the instruction happens at its end: no result is on its way and no MOVC in its shadow (R148, R149), the
instruction does not close a loop body (R190), no checkpoint falls due (R437), no stop is asked for (R230) and no output already sent
is issued again (R439). -/
structure Calm (k : Nat) (s : State) : Prop where
  flight : (s.arch k).inflight = []
  shadow : (s.arch k).shadow = []
  loop : (s.arch k).ld = 0 ∨ tget 0 (s.arch k).le ((s.arch k).ld.toNat - 1) ≠ (s.arch k).pc
  ckpt : s.split k = true ∨ (s.core k).since < 255 ∧ (s.core k).stores.length < 23
  stop : (s.core k).stop = 0
  replay : (s.core k).replay = []

/-- The registers with pc at the next instruction. -/
def Arch.after (a : Arch) (len : Nat) : Arch := { a with pc := nextPc a len }

/-- An instruction of core k has ended with registers a: beside them only the count since the checkpoint and the draw moved. -/
def ended (k : Nat) (a : Arch) (s : State) : State := (s.setCore k { s.core k with arch := a, since := (s.core k).since + 1 }).drawn

/-- What is on its way to register (file, n), which held old, after its instruction wrote it with distance d (R148). -/
def Arch.flying (a : Arch) (file n : Nat) (old : W80) (d : Nat) : List Inflight :=
  if a.compat || decide (d ≤ 1) then [] else [{ file := file, n := n, old := old, left := d - 1, exact := a.benchFetch }]

/-- DX takes v with distance d (R138, R148); nothing is on its way before. -/
def Arch.putD (a : Arch) (x : Reg) (v : Word) (d : Nat) : Arch :=
  { a with d := tset 0 a.d x.toNat v, inflight := a.flying 1 x.toNat ((a.regD x.toNat).setWidth 80) d }

/-- AX takes v as the mode writes it (R156), with distance d. -/
def Arch.putA (a : Arch) (x : Reg) (v : W40) (d : Nat) : Arch :=
  { a with a := tset 0 a.a x.toNat (a.wrapA v), inflight := a.flying 0 x.toNat ((a.regA x.toNat).setWidth 80) d }

/-- SX takes v. -/
def Arch.putS (a : Arch) (x : Reg) (v : W40) : Arch := { a with s := tset 0 a.s x.toNat v }

/-- ACn takes v with distance d. -/
def Arch.putAC (a : Arch) (n : Nat) (v : W80) (d : Nat) : Arch :=
  { a with ac := tset 0 a.ac n v, inflight := a.flying 2 n (a.regAC n) d }

/-- The pair DX:X+1 takes v, low word first (R138), with distance d. -/
def Arch.putPair (a : Arch) (x : Reg) (v : W40) (d : Nat) : Arch :=
  { a with d := tset 0 (tset 0 a.d x.toNat (v.extractLsb' 0 20)) (pairHi x).toNat (v.extractLsb' 20 20)
           inflight := a.flying 1 x.toNat ((a.regD x.toNat).setWidth 80) d ++ a.flying 1 (pairHi x).toNat ((a.regD (pairHi x).toNat).setWidth 80) d }

/-- The pair DX:X+1 as one value. -/
def Arch.pair (a : Arch) (x : Reg) : W40 := a.regD (pairHi x).toNat ++ a.regD x.toNat

/-- The instruction of len words on core k ends with DX holding v, usable by the next instruction. -/
def setsD (k len : Nat) (x : Reg) (v : Word) (s : State) : Host.Outcome State Fault Refusal := .next (ended k (((s.arch k).putD x v 1).after len) s)
/-- The same with AX. -/
def setsA (k len : Nat) (x : Reg) (v : W40) (s : State) : Host.Outcome State Fault Refusal := .next (ended k (((s.arch k).putA x v 1).after len) s)
/-- The same with SX. -/
def setsS (k len : Nat) (x : Reg) (v : W40) (s : State) : Host.Outcome State Fault Refusal := .next (ended k (((s.arch k).putS x v).after len) s)
/-- The same with ACn and distance d. -/
def setsAC (k len n d : Nat) (v : Int) (s : State) : Host.Outcome State Fault Refusal :=
  .next (ended k (((s.arch k).putAC n (BitVec.ofInt 80 v) d).after len) s)
/-- The same with the pair DX:X+1 and distance d. -/
def setsPair (k len : Nat) (x : Reg) (v : W40) (d : Nat) (s : State) : Host.Outcome State Fault Refusal :=
  .next (ended k (((s.arch k).putPair x v d).after len) s)
/-- The instruction of len words on core k ends with no register changed but pc. -/
def falls (k len : Nat) (s : State) : Host.Outcome State Fault Refusal := .next (ended k ((s.arch k).after len) s)

/-- The instruction at pc on core k traps with the cause, address and DETAIL given, precisely: nothing of its own effect is there
(R206, R209). -/
def trapsAt (k cause : Nat) (addr : W40) (detail : Word) (s s1 : State) : Host.Outcome State Fault Refusal :=
  .next (dueStop k (takeTrap k { cause := cause, pc := (s.arch k).pc, addr := addr, detail := detail } false false s1))

/-- R179: an accumulator can hold v. -/
def accFits (v : Int) : Prop := -(2 ^ 79) ≤ v ∧ v ≤ 2 ^ 79 - 1

/-! ### Further forms of the end of an instruction -/

/-- A result loaded from outside the bench is not fixed by plumb mode (R150). -/
def Arch.dim (a : Arch) (d : Nat) : Arch := if d = 2 then a else { a with inflight := a.inflight.map (fun e => { e with exact := false }) }

/-- The load of len words on core k ends with DX holding the word loaded, with the load's distance. -/
def loadsD (k len : Nat) (x : Reg) (r : Loaded) (s : State) : Host.Outcome State Fault Refusal :=
  .next (ended k ((((s.arch k).putD x (r.words.headD 0) r.dist).dim r.dist).after len) s)
/-- The same with AX and two words, the lower address in the low half (R137). -/
def loadsA (k len : Nat) (x : Reg) (r : Loaded) (s : State) : Host.Outcome State Fault Refusal :=
  .next (ended k ((((s.arch k).putA x (pairOf r.words) r.dist).dim r.dist).after len) s)
/-- The same with the pair DX:X+1. -/
def loadsPair (k len : Nat) (x : Reg) (r : Loaded) (s : State) : Host.Outcome State Fault Refusal :=
  .next (ended k ((((s.arch k).putPair x (pairOf r.words) r.dist).dim r.dist).after len) s)

/-- The instruction of len words on core k ends with pc at the target, as the mode maps it (R155), and nothing else changed. -/
def goesTo (k _len : Nat) (t : W40) (s : State) : Host.Outcome State Fault Refusal :=
  .next (ended k { s.arch k with pc := (s.arch k).map t } s)

/-- R211, R212, R214: core k has entered the handler of trap number num at supervisor level: the frame is in the store buffer below A15, M is set, LD is 0 and
pc is at the handler. -/
def handlerState (k num : Nat) (base : W40) (func : Nat) (ps : List Place) (frame : List Word) (s : State) : State :=
  let s := roomForFrame k s
  let s := s.setCore k { s.core k with stores := (s.core k).stores ++ entriesOf func (s.split k) ps frame }
  recordFrame k (.stack ((s.arch k).map base)) false false (s.setArch k
    { (s.arch k).setMask true with a := tset 0 (s.arch k).a 15 base, pl := 1, ld := 0, pc := handlerPc (s.arch k) num })

/-! ### Accesses of the bench -/

/-- R79, R80: the n words from register address x lie in the part of the bench's window that core k may use. -/
def onBench (k : Nat) (x : W40) (n : Nat) (s : State) : Prop :=
  0xFFFFF80000 ≤ ((s.arch k).map x).toNat ∧ ((s.arch k).map x).toNat + n ≤ (if s.split k then 0xFFFFFC0000 else 2 ^ 40)

/-- R80: the bench word at register address x + i. -/
def benchAt (k : Nat) (x : W40) (i : Nat) (s : State) : Nat := benchIndex k (((s.arch k).map x).toNat - 0xFFFFF80000 + i) s

/-- The places of n bench words from register address x. -/
def benchPlaces (k : Nat) (x : W40) (n : Nat) (s : State) : List Place := (List.range n).map (fun i => .bench (benchAt k x i s))

/-- What the n bench words from register address x hold. -/
def benchHolds (k : Nat) (x : W40) (n : Nat) (s : State) : List Word := (List.range n).map (fun i => tget 0 (s.bent (k / 2)).bench (benchAt k x i s))

/-- R97, R168: n bench words from register address x can be read: they lie on the bench, no error stands in them and no store of them waits
in the buffer. -/
def benchReads (k : Nat) (x : W40) (n : Nat) (s : State) : Prop :=
  onBench k x n s ∧ (∀ i, i < n → tget .good (s.bent (k / 2)).bad (benchAt k x i s) = .good) ∧ youngest (s.core k).stores (benchPlaces k x n s) = none

/-- R167: the words ws can be stored at register address x of the bench: they lie on it and the store buffer has room; outside
compatibility mode, where no store meets code the core holds (R205). -/
def benchWrites (k : Nat) (x : W40) (ws : List Word) (s : State) : Prop :=
  onBench k x ws.length s ∧ (s.arch k).compat = false ∧ (s.core k).stores.length + (ws.length + 1) / 2 ≤ bufferSize k s

/-- R167: core k with the words ws in its store buffer for register address x of the bench. -/
def buffered (k : Nat) (x : W40) (ws : List Word) (s : State) : State :=
  let es := entriesOf (coreXl k (s.arch k).pl.toNat s).func (s.split k) (benchPlaces k x ws.length s) ws
  s.setCore k { s.core k with stores := (s.core k).stores ++ es }

/-- The words loaded from the bench, with their distance (R148). -/
def benchLoad (k : Nat) (x : W40) (n : Nat) (s : State) : Loaded := { words := benchHolds k x n s, dist := 2 }

/-- A committing instruction of len words on core k ends, between two checkpoints (R437, R439), with DX holding v. -/
def commitsD (k len : Nat) (x : Reg) (v : Word) (s : State) : Host.Outcome State Fault Refusal :=
  .next (checkpoint k (ended k (((s.arch k).putD x v 1).after len) s))
/-- The same with no register changed but pc. -/
def commits (k len : Nat) (s : State) : Host.Outcome State Fault Refusal := .next (checkpoint k (ended k ((s.arch k).after len) s))

end Sys2Proof.Machine
end

