-- ==== Sys2Proof/Certificates/Slice0/Obligations.lean ====
section
/-! DEFINITION. The statements: what the commands and the steps of the model do, by the rules of the spec. Each docstring names the rules its
statement formalises, and the log entries of the choices it rests on. -/

open Sys2Proof Sys2Proof.Machine

/-- The queue: a step takes the command at the front and runs it on the state without it; with none waiting the block idles. That a microsecond then passes while the module
is up is the model's choice (log 21). -/
def Obligations.StepRunsFront : Prop :=
  ∀ s : State,
    (∀ c rest, s.pending = c :: rest → step s = exec c { s with pending := rest }) ∧
    (s.pending = [] → step s = .next (idleTick s) ∧ (s.power.phase ≠ .raised → s.power.phase ≠ .ready → step s = .next s) ∧
      (idleTick s).mem = s.mem ∧ (idleTick s).pending = [])

/-- Every step keeps the invariant of State.Inv: the device memory, the yard, the host memory seen and the journal store stand in their one canonical form. For every state
and every command. -/
def Obligations.StepKeepsMemoryForm : Prop :=
  ∀ s t : State, State.Inv s → step s = .next t → State.Inv t

/-- R1, R525, R531: no command changes the variant or the queue of waiting commands, and none lowers the minimum SVN of the fuses; so neither does a step, which takes at most
the front of the queue. -/
def Obligations.FusesNeverFall : Prop :=
  (∀ (c : Instr) (s t : State), exec c s = .next t → t.variant = s.variant ∧ t.pending = s.pending ∧ s.flash.minSvn ≤ t.flash.minSvn) ∧
  (∀ s t : State, step s = .next t → t.variant = s.variant ∧ t.pending = s.pending.drop 1 ∧ s.flash.minSvn ≤ t.flash.minSvn)

/-- R88, R139, R141, R352, R361, R446, R472, R497, R498, R522: the module right after reset, before raising has run: nothing waits and no memory lists anything, IDENT.READY
is 0, every control register holds its reset value and every source is disabled; the spare bents are those above the bents in service. Values the spec does not give are
the model's (logs 4, 9 to 12). -/
def Obligations.ResetState : Prop :=
  let s := State.reset
  State.Inv s ∧ s.pending = [] ∧ s.mem.words = [] ∧ s.mem.yard = [] ∧ s.mem.merge = [] ∧ s.mem.poison = [] ∧ s.power.phase = .aux ∧ s.tick = 0 ∧
  (∀ f, (s.fn f).ready = false ∧ (s.fn f).admq.cur.en = false ∧ (s.fn f).dbpg.en = false ∧ (s.fn f).win.space = (if f = 0 then 0 else 3) ∧ ((s.fn f).enabled = true ↔ f = 0)) ∧
  (∀ k, (s.core k).run = .idle ∧ (s.core k).stores = [] ∧ (s.arch k).pl = 2 ∧ (s.arch k).ld = 0 ∧ (s.arch k).evmask = 1 ∧ (s.arch k).corecfg = 0 ∧ (s.arch k).sln = 0 ∧ (s.arch k).tickcmp = 0 ∧
    (∀ i, (s.arch k).regD i = 0 ∧ (s.arch k).regA i = 0 ∧ (s.arch k).regS i = 0 ∧ (s.arch k).regAC i = 0)) ∧
  (∀ l, s.split l = false ∧ (s.bent l).ctxid = 0 ∧ (s.bent l).ptroot = 0 ∧ ∀ i, tget 0 (s.bent l).bench i = 0) ∧
  (∀ n, (s.src n).prio = 0 ∧ (s.src n).pend = false ∧ (s.src n).stat = 0 ∧ (s.src n).insv = none) ∧
  (∀ p, (s.phys p).state = (if p < 32 then 1 else if p < 34 then 2 else 0)) ∧ (∀ l, l < 32 → s.physOf l = l) ∧
  s.power.cap = 720 ∧ s.power.brakecap = 300 ∧ s.power.ttrip = 110 ∧ s.power.tthr = 95 ∧ s.power.idle = 1000 ∧ s.power.poll = 0 ∧
  s.errl.ring = [] ∧ s.disp.jobs = [] ∧ (∀ l, (s.link l).en = true ∧ (s.link l).state = 0)

/-- R95, R120, R132, R150, R165, R170, R216, R223: the fetch. It leaves every core, job, queue, pair, link and host byte as it was, and of a bent everything but its caches
and its errors; the yard keeps its words. Where it traps, the trap is taken at the instruction and the instruction has no effect; where it waits, the instruction stands. A core
that may not issue does nothing; a cause that is ready at the boundary is taken in place of the instruction; an instruction that is no member of the open chain traps
STREAM_CONFIG at the chain. The last five are shown on NOP. -/
def Obligations.FetchAndIssue : Prop :=
  ∀ (k : CoreIx) (len : Nat) (s s1 : State),
    (Issues k len s s1 → (s.arch k).inflight = [] →
      (∀ j, s1.core j = s.core j) ∧ (∀ l, (s1.bent l).bare = (s.bent l).bare) ∧ s1.mem.yard = s.mem.yard ∧ s1.host = s.host ∧ s1.disp.bare = s.disp.bare ∧ s1.pair = s.pair ∧ s1.scarf = s.scarf ∧
        s1.flash = s.flash ∧ s1.ctxs = s.ctxs ∧ s1.tick = s.tick ∧ s1.pending = s.pending) ∧
    (Issues k len s s1 → (s.arch k).pl = 2 → (s.arch k).inflight = [] → s1.mem = s.mem ∧ s1.power = s.power ∧ ∀ l, s1.bent l = s.bent l) ∧
    (ready k s = false → exec (.nop k 0) s = .next s) ∧
    (∀ t sres vres, ready k s = true → readyCause k s = some (t, sres, vres) →
      exec (.nop k 0) s = .next (dueStop k (takeTrap k { t with pc := chainPc (s.core k) (s.arch k).pc } sres vres s))) ∧
    (ready k s = true → readyCause k s = none → testArmed k s = false →
      ((s.core k).chain ≠ [] → exec (.nop k 0) s = .next (takeTrap k (chainOpenTrap (s.core k)) false false s)) ∧
      ((s.core k).chain = [] →
        (∀ t u, fetchInstr k 1 (notePlumb k s) = .trap t u → t.cause < 14 → exec (.nop k 0) s =
          .next (dueStop k (takeTrap k { t with pc := (s.arch k).pc, addr := if t.cause = 1 ∨ t.cause = 2 then (s.arch k).pc else t.addr } false false u))) ∧
        (∀ u, fetchInstr k 1 (notePlumb k s) = .stall u → exec (.nop k 0) s = .next u)))

/-- R176: the ALU group on two data registers. Each writes DX modulo 2^20 with the result of R176 and changes no other register, no memory and nothing outside the core but
the fetch's own traces. A compare writes 1 where its condition holds and 0 where not (codes 10 to 15 are in IllegalForms). -/
def Obligations.AluRegisterForms : Prop :=
  ∀ (k : CoreIx) (x y : Reg) (s s1 : State), Issues k 1 s s1 → Calm k s →
    let dx := (s.arch k).regD x.toNat
    let dy := (s.arch k).regD y.toNat
    let n := dy.toNat % 32
    let w : Bool → Word := fun p => if p then 1 else 0
    exec (.add k x y) s = setsD k 1 x (dx + dy) s1 ∧ exec (.sub k x y) s = setsD k 1 x (dx - dy) s1 ∧
    exec (.and k x y) s = setsD k 1 x (dx &&& dy) s1 ∧ exec (.or k x y) s = setsD k 1 x (dx ||| dy) s1 ∧
    exec (.xor k x y) s = setsD k 1 x (dx ^^^ dy) s1 ∧ exec (.andn k x y) s = setsD k 1 x (dx &&& ~~~dy) s1 ∧
    exec (.shl k x y) s = setsD k 1 x (dx <<< n) s1 ∧ exec (.shr k x y) s = setsD k 1 x (dx >>> n) s1 ∧
    exec (.sar k x y) s = setsD k 1 x (dx.sshiftRight n) s1 ∧ exec (.mov k x y) s = setsD k 1 x dy s1 ∧
    exec (.neg k x y) s = setsD k 1 x (-dy) s1 ∧ exec (.not k x y) s = setsD k 1 x (~~~dy) s1 ∧
    exec (.cc k x y 0) s = setsD k 1 x (w (dx = dy)) s1 ∧ exec (.cc k x y 1) s = setsD k 1 x (w (dx ≠ dy)) s1 ∧
    exec (.cc k x y 2) s = setsD k 1 x (w (dx.toInt < dy.toInt)) s1 ∧ exec (.cc k x y 3) s = setsD k 1 x (w (dx.toInt ≤ dy.toInt)) s1 ∧
    exec (.cc k x y 4) s = setsD k 1 x (w (dy.toInt < dx.toInt)) s1 ∧ exec (.cc k x y 5) s = setsD k 1 x (w (dy.toInt ≤ dx.toInt)) s1 ∧
    exec (.cc k x y 6) s = setsD k 1 x (w (dx.toNat < dy.toNat)) s1 ∧ exec (.cc k x y 7) s = setsD k 1 x (w (dx.toNat ≤ dy.toNat)) s1 ∧
    exec (.cc k x y 8) s = setsD k 1 x (w (dy.toNat < dx.toNat)) s1 ∧ exec (.cc k x y 9) s = setsD k 1 x (w (dy.toNat ≤ dx.toNat)) s1

/-- R177: the immediate forms; shifts by an immediate need IMM10[9:5] 0, and LDI20 XB and XC 0. LDI20 writes the second word. -/
def Obligations.AluImmediateForms : Prop :=
  (∀ (k : CoreIx) (x : Reg) (imm : BitVec 10) (s s1 : State), Issues k 1 s s1 → Calm k s →
     let dx := (s.arch k).regD x.toNat
     exec (.addi k x imm) s = setsD k 1 x (dx + imm.signExtend 20) s1 ∧ exec (.ldi k x imm) s = setsD k 1 x (imm.signExtend 20) s1 ∧
     exec (.lui k x imm) s = setsD k 1 x (imm ++ dx.extractLsb' 0 10) s1 ∧ exec (.andi k x imm) s = setsD k 1 x (dx &&& imm.setWidth 20) s1 ∧
     exec (.ori k x imm) s = setsD k 1 x (dx ||| imm.setWidth 20) s1 ∧ exec (.xori k x imm) s = setsD k 1 x (dx ^^^ imm.setWidth 20) s1 ∧
     (imm.toNat < 32 →
       exec (.shli k x imm) s = setsD k 1 x (dx <<< imm.toNat) s1 ∧ exec (.shri k x imm) s = setsD k 1 x (dx >>> imm.toNat) s1 ∧
       exec (.sari k x imm) s = setsD k 1 x (dx.sshiftRight imm.toNat) s1)) ∧
  (∀ (k : CoreIx) (xa : Reg) (imm : Word) (s s1 : State), Issues k 2 s s1 → Calm k s → exec (.ldi20 k xa 0 0 imm) s = setsD k 2 xa imm s1)

/-- R175, R177, R182, R184: each long compare writes 1 to its destination when the condition holds and 0 when it does not, with the table of codes that AluRegisterForms
spells out. -/
def Obligations.CompareForms : Prop :=
  ∀ (k : CoreIx) (xa xb xc : Reg) (imm : Word) (s s1 : State), Calm k s →
    let w : Bool → Word := fun p => if p then 1 else 0
    let d : Reg → Word := fun r => (s.arch k).regD r.toNat
    (Issues k 2 s s1 → ∀ b : Bool,
      (condHolds xc.toNat (d xb) imm = some b → exec (.cmpi k xa xb xc imm) s = setsD k 2 xa (w b) s1) ∧
      (imm.toNat < 16 → condHolds imm.toNat (d xb) (d xc) = some b → exec (.cmp k xa xb xc imm) s = setsD k 2 xa (w b) s1) ∧
      (addrCond (imm.toNat % 16) = true → condHolds (imm.toNat % 16) ((s.arch k).regA xb.toNat) ((s.arch k).regA xc.toNat) = some b →
        exec (.cmpa k xa xb xc imm) s = setsD k 2 xa (w b) s1) ∧
      (xb.toNat < 4 → condHolds (imm.toNat % 16) ((s.arch k).regAC xb.toNat) 0 = some b → exec (.accmp k xa xb xc imm) s = setsD k 2 xa (w b) s1))

/-- R148, R178, R179: MUL and the widening multiplies, whose results arrive with distance 2. The multiply-accumulates: the sum into ACn with distance 3, or DECIMAL_OVERFLOW
with everything unchanged. -/
def Obligations.MultiplyGroup : Prop :=
  (∀ (k : CoreIx) (x y : Reg) (s s1 : State), Issues k 1 s s1 → Calm k s →
     let dx := (s.arch k).regD x.toNat
     let dy := (s.arch k).regD y.toNat
     exec (.mul k x y) s = .next (ended k (((s1.arch k).putD x (dx * dy) 2).after 1) s1) ∧
     (x.toNat % 2 = 1 → exec (.mulwu k x y) s = trapsAt k 1 (s.arch k).pc (encRR 0x0C x y 1) s s1 ∧ exec (.mulws k x y) s = trapsAt k 1 (s.arch k).pc (encRR 0x0C x y 2) s s1) ∧
     (x.toNat % 2 = 0 →
       exec (.mulwu k x y) s = setsPair k 1 x (BitVec.ofNat 40 (dx.toNat * dy.toNat)) 2 s1 ∧
       exec (.mulws k x y) s = setsPair k 1 x (BitVec.ofInt 40 (dx.toInt * dy.toInt)) 2 s1)) ∧
  (∀ (k : CoreIx) (x y : Reg) (n : BitVec 2) (s s1 : State), Issues k 1 s s1 → Calm k s →
     let dx := (s.arch k).regD x.toNat
     let dy := (s.arch k).regD y.toNat
     let ac := ((s.arch k).regAC n.toNat).toInt
     (accFits (ac + dx.toNat * dy.toNat) → exec (.macu k x y n) s = setsAC k 1 n.toNat 3 (ac + dx.toNat * dy.toNat) s1) ∧
     (¬accFits (ac + dx.toNat * dy.toNat) → exec (.macu k x y n) s = trapsAt k 6 0 0 s s1) ∧
     (accFits (ac + dx.toInt * dy.toInt) → exec (.macs k x y n) s = setsAC k 1 n.toNat 3 (ac + dx.toInt * dy.toInt) s1) ∧
     (¬accFits (ac + dx.toInt * dy.toInt) → exec (.macs k x y n) s = trapsAt k 6 0 0 s s1) ∧
     (accFits (ac * 100000) → exec (.ac5 k 0 0 n) s = setsAC k 1 n.toNat 3 (ac * 100000) s1) ∧
     (¬accFits (ac * 100000) → exec (.ac5 k 0 0 n) s = trapsAt k 6 0 0 s s1) ∧
     (x ≠ 0 ∨ y ≠ 0 → exec (.ac5 k x y n) s = trapsAt k 1 (s.arch k).pc (encRR 0x0C x y (28 + n.toNat)) s s1))

/-- R182, R284, R289: the long accumulator instructions on registers. -/
def Obligations.LongAccumulators : Prop :=
  ∀ (k : CoreIx) (xa xb xc : Reg) (imm : Word) (s s1 : State), Issues k 2 s s1 → Calm k s → xa.toNat < 4 →
    let ac := ((s.arch k).regAC xa.toNat).toInt
    let from_ := ((s.arch k).regAC xb.toNat).toInt
    let mode := imm.toNat % 8
    let n := (imm.extractLsb' 8 6).toInt
    let dv := ((s.arch k).pair xb).toInt
    exec (.acz k xa xb xc imm) s = setsAC k 2 xa.toNat 3 0 s1 ∧
    (xb.toNat < 4 → exec (.acmov k xa xb xc imm) s = setsAC k 2 xa.toNat 3 from_ s1) ∧
    (xb.toNat < 4 → accFits (-from_) → exec (.acneg k xa xb xc imm) s = setsAC k 2 xa.toNat 3 (-from_) s1) ∧
    (xb.toNat < 4 → ¬accFits (-from_) → exec (.acneg k xa xb xc imm) s = trapsAt k 6 0 0 s s1) ∧
    (-24 ≤ n → n ≤ 24 → mode ≠ 7 → accFits (scaleBy ac n mode) → exec (.acscl k xa xb xc imm) s = setsAC k 2 xa.toNat 3 (scaleBy ac n mode) s1) ∧
    (xb.toNat % 2 = 0 → mode ≠ 7 → dv ≠ 0 → accFits (roundQuot ac dv mode) →
      exec (.adiv k xa xb xc imm) s = setsAC k 2 xa.toNat 1 (roundQuot ac dv mode) s1) ∧
    (xb.toNat % 2 = 0 → mode ≠ 7 → dv = 0 → exec (.adiv k xa xb xc imm) s = trapsAt k 5 0 0 s s1) ∧
    (mode = 7 → -24 ≤ n → n ≤ 24 → exec (.acscl k xa xb xc imm) s = trapsAt k 7 0 3 s s1) ∧
    (¬(-24 ≤ n ∧ n ≤ 24) → exec (.acscl k xa xb xc imm) s = trapsAt k 7 0 4 s s1)

/-- R34, R180, R181: the decimal limb group; the carry and top forms write the pair, the lazy adds DX alone. The packed digit group: digits a and b with the carry or borrow
in bit 0 of DX+1; a nibble above 9 traps FORMAT with subcode 6 and changes nothing. -/
def Obligations.LimbsAndDigits : Prop :=
  (∀ (k : CoreIx) (x y : Reg) (s s1 : State), Issues k 1 s s1 → Calm k s →
     let dx := (s.arch k).regD x.toNat
     let dy := (s.arch k).regD y.toNat
     let c := ((s.arch k).regD (pairHi x).toNat).toInt
     let carry : Int → Host.Outcome State Fault Refusal := fun t =>
       setsPair k 1 x ((BitVec.ofInt 20 (t / 100000) : Word) ++ (BitVec.ofInt 20 (t % 100000) : Word)) 1 s1
     let top : Int → Host.Outcome State Fault Refusal := fun t => setsPair k 1 x ((0 : Word) ++ (BitVec.ofInt 20 t : Word)) 1 s1
     let fitsTop : Int → Prop := fun t => -100000 ≤ t ∧ t ≤ 99999
     let ill : Nat → Host.Outcome State Fault Refusal := fun fn => trapsAt k 1 (s.arch k).pc (encRR 0x29 x y fn) s s1
     (x.toNat % 2 = 1 → exec (.ladc k x y) s = ill 0 ∧ exec (.lsbb k x y) s = ill 1 ∧ exec (.ladz k x y) s = ill 2 ∧ exec (.ladzs k x y) s = ill 3 ∧ exec (.ltop k x y) s = ill 4 ∧ exec (.ltopb k x y) s = ill 5 ∧ exec (.lnrm k x y) s = ill 6) ∧
     (y ≠ 0 → exec (.lnrm k x y) s = ill 6) ∧
     (x.toNat % 2 = 0 →
       exec (.ladc k x y) s = carry (dx.toNat + dy.toNat + c) ∧ exec (.lsbb k x y) s = carry (dx.toNat - dy.toNat + c) ∧
       exec (.lnrm k x 0) s = carry (dx.toNat + c) ∧
       (dx.toNat + dy.toNat ≤ 1048575 → exec (.ladz k x y) s = setsD k 1 x (dx + dy) s1) ∧
       (1048575 < dx.toNat + dy.toNat → exec (.ladz k x y) s = trapsAt k 6 0 0 s s1) ∧
       (-524288 ≤ dx.toInt + dy.toInt → dx.toInt + dy.toInt ≤ 524287 → exec (.ladzs k x y) s = setsD k 1 x (dx + dy) s1) ∧
       (¬(-524288 ≤ dx.toInt + dy.toInt ∧ dx.toInt + dy.toInt ≤ 524287) → exec (.ladzs k x y) s = trapsAt k 6 0 0 s s1) ∧
       (fitsTop (dx.toInt + dy.toInt + c) → exec (.ltop k x y) s = top (dx.toInt + dy.toInt + c)) ∧
       (¬fitsTop (dx.toInt + dy.toInt + c) → exec (.ltop k x y) s = trapsAt k 6 0 0 s s1) ∧
       (fitsTop (dx.toInt - dy.toInt + c) → exec (.ltopb k x y) s = top (dx.toInt - dy.toInt + c)) ∧
       (¬fitsTop (dx.toInt - dy.toInt + c) → exec (.ltopb k x y) s = trapsAt k 6 0 0 s s1))) ∧
  (∀ (k : CoreIx) (x y : Reg) (s s1 : State), Issues k 1 s s1 → Calm k s →
     let dx := (s.arch k).regD x.toNat
     let dy := (s.arch k).regD y.toNat
     let c := ((s.arch k).regD (pairHi x).toNat).toNat % 2
     (x.toNat % 2 = 1 → exec (.pdadd k x y) s = trapsAt k 1 (s.arch k).pc (encRR 0x0D x y 0) s s1 ∧ exec (.pdsub k x y) s = trapsAt k 1 (s.arch k).pc (encRR 0x0D x y 1) s s1) ∧
     (x.toNat % 2 = 0 → ∀ a b : Nat, packed5 dx = some a → packed5 dy = some b →
       exec (.pdadd k x y) s = setsPair k 1 x ((if 100000 ≤ a + b + c then 1 else 0 : Word) ++ pack5 ((a + b + c) % 100000)) 1 s1 ∧
       exec (.pdsub k x y) s = setsPair k 1 x ((if a < b + c then 1 else 0 : Word) ++ pack5 ((a + 100000 - (b + c)) % 100000)) 1 s1) ∧
     (x.toNat % 2 = 0 → packed5 dx = none ∨ packed5 dy = none →
       exec (.pdadd k x y) s = trapsAt k 7 0 6 s s1 ∧ exec (.pdsub k x y) s = trapsAt k 7 0 6 s s1))

/-- R156, R184: the address and stride group: A results as the mode writes them, S results modulo 2^40. The long forms of the group. -/
def Obligations.AddressForms : Prop :=
  (∀ (k : CoreIx) (x y : Reg) (imm : BitVec 10) (s s1 : State), Issues k 1 s s1 → Calm k s →
     let ax := (s.arch k).regA x.toNat
     let ay := (s.arch k).regA y.toNat
     let sy := (s.arch k).regS y.toNat
     let dy := (s.arch k).regD y.toNat
     exec (.aadd k x y) s = setsA k 1 x (ax + ay) s1 ∧ exec (.asub k x y) s = setsA k 1 x (ax - ay) s1 ∧
     exec (.aadds k x y) s = setsA k 1 x (ax + sy) s1 ∧ exec (.amov k x y) s = setsA k 1 x ay s1 ∧
     exec (.aaddd k x y) s = setsA k 1 x (ax + dy.signExtend 40) s1 ∧ exec (.aaddi k x imm) s = setsA k 1 x (ax + imm.signExtend 40) s1 ∧
     exec (.smov k x y) s = setsS k 1 x sy s1 ∧ exec (.sneg k x y) s = setsS k 1 x (-sy) s1 ∧
     (y.toNat % 2 = 0 → exec (.adw k x y) s = setsA k 1 x ((s.arch k).pair y) s1 ∧ exec (.sdw k x y) s = setsS k 1 x ((s.arch k).pair y) s1) ∧
     (x.toNat % 2 = 0 → exec (.dwa k x y) s = setsPair k 1 x ay 1 s1 ∧ exec (.dws k x y) s = setsPair k 1 x sy 1 s1)) ∧
  (∀ (k : CoreIx) (xa xb xc : Reg) (imm : Word) (s s1 : State), Issues k 2 s s1 → Calm k s →
     exec (.lai k xa xb xc imm) s = setsA k 2 xa (imm.signExtend 40) s1 ∧
     exec (.lahi k xa xb xc imm) s = setsA k 2 xa (imm ++ ((s.arch k).regA xa.toNat).extractLsb' 0 20) s1 ∧
     exec (.sai k xa xb xc imm) s = setsS k 2 xa (imm.signExtend 40) s1 ∧
     exec (.aaddl k xa xb xc imm) s = setsA k 2 xa ((s.arch k).regA xb.toNat + imm.signExtend 40) s1)

/-- R194: BCHK goes on where DX lies within the bounds of the pair at DY, signed with FN 0 and unsigned with FN 1, and else traps BOUNDS with DX in DETAIL. -/
def Obligations.BoundsCheck : Prop :=
  ∀ (k : CoreIx) (x y : Reg) (s s1 : State), Issues k 1 s s1 → Calm k s → y.toNat % 2 = 0 →
    let v := (s.arch k).regD x.toNat
    let lo := (s.arch k).regD y.toNat
    let hi := (s.arch k).regD (pairHi y).toNat
    (lo.toInt ≤ v.toInt ∧ v.toInt ≤ hi.toInt → exec (.bchk k x y 0) s = falls k 1 s1) ∧
    (¬(lo.toInt ≤ v.toInt ∧ v.toInt ≤ hi.toInt) → exec (.bchk k x y 0) s = trapsAt k 4 0 v s s1) ∧
    (lo.toNat ≤ v.toNat ∧ v.toNat ≤ hi.toNat → exec (.bchk k x y 1) s = falls k 1 s1) ∧
    (¬(lo.toNat ≤ v.toNat ∧ v.toNat ≤ hi.toNat) → exec (.bchk k x y 1) s = trapsAt k 4 0 v s s1)

/-- R137, R185: the loads: the address is AY plus OFF6, AXB plus the signed IMM20, or AXB plus DXC times r plus the displacement of LDX; the words loaded go to DX, to the
pair or to AX; two words from an odd address trap FORMAT, subcode 1. A load of good words of the bench completes with what they hold. -/
def Obligations.LoadInstructions : Prop :=
  ∀ (k : CoreIx) (x y xc : Reg) (off : BitVec 6) (imm : Word) (s s1 : State), Calm k s →
    let short := (s.arch k).regA y.toNat + off.setWidth 40
    let long := (s.arch k).regA y.toNat + imm.signExtend 40
    let indexed := (s.arch k).regA y.toNat + BitVec.ofNat 40 (((s.arch k).regD xc.toNat).toNat * (imm.toNat % 64)) + (imm.extractLsb' 6 14).signExtend 40
    let given : W40 → Nat → (Loaded → State → Prop) → Prop := fun a n done =>
      (∀ r s2, load k a n s1 = .ok r s2 → done r s2) ∧ (benchReads k a n s1 → done (benchLoad k a n s1) s1)
    (Issues k 1 s s1 →
      given short 1 (fun r s2 => exec (.ld k x y off) s = loadsD k 1 x r s2) ∧
      (short.toNat % 2 = 0 → given short 2 (fun r s2 =>
        exec (.lda k x y off) s = loadsA k 1 x r s2 ∧ (x.toNat % 2 = 0 → exec (.ld2 k x y off) s = loadsPair k 1 x r s2))) ∧
      (short.toNat % 2 = 1 →
        exec (.lda k x y off) s = trapsAt k 7 ((s.arch k).map short) 1 s s1 ∧
        (x.toNat % 2 = 0 → exec (.ld2 k x y off) s = trapsAt k 7 ((s.arch k).map short) 1 s s1))) ∧
    (Issues k 2 s s1 →
      given long 1 (fun r s2 => exec (.ldl k x y 0 imm) s = loadsD k 2 x r s2) ∧
      (long.toNat % 2 = 0 → given long 2 (fun r s2 =>
        exec (.ldal k x y 0 imm) s = loadsA k 2 x r s2 ∧ (x.toNat % 2 = 0 → exec (.ld2l k x y 0 imm) s = loadsPair k 2 x r s2))) ∧
      (long.toNat % 2 = 1 →
        exec (.ldal k x y 0 imm) s = trapsAt k 7 ((s.arch k).map long) 1 s s1 ∧
        (x.toNat % 2 = 0 → exec (.ld2l k x y 0 imm) s = trapsAt k 7 ((s.arch k).map long) 1 s s1)) ∧
      (imm.toNat % 64 ≠ 0 → given indexed 1 (fun r s2 => exec (.ldx k x y xc imm) s = loadsD k 2 x r s2)))

/-- R137, R185: the stores, with the addresses of the loads; the word of DX, the pair's or AX's two words enter the store buffer. A store to the bench completes
wherever the buffer has room. -/
def Obligations.StoreInstructions : Prop :=
  ∀ (k : CoreIx) (x y xc : Reg) (off : BitVec 6) (imm : Word) (s s1 : State), Calm k s →
    let short := (s.arch k).regA y.toNat + off.setWidth 40
    let long := (s.arch k).regA y.toNat + imm.signExtend 40
    let indexed := (s.arch k).regA y.toNat + BitVec.ofNat 40 (((s.arch k).regD xc.toNat).toNat * (imm.toNat % 64)) + (imm.extractLsb' 6 14).signExtend 40
    let d := (s.arch k).regD x.toNat
    let pr := [d, (s.arch k).regD (pairHi x).toNat]
    let ad := [((s.arch k).regA x.toNat).extractLsb' 0 20, ((s.arch k).regA x.toNat).extractLsb' 20 20]
    let given : W40 → List Word → (State → Prop) → Prop := fun a ws done =>
      (∀ s2, store k a ws s1 = .ok () s2 → done s2) ∧ (benchWrites k a ws s1 → done (buffered k a ws s1))
    (Issues k 1 s s1 →
      given short [d] (fun s2 => exec (.st k x y off) s = falls k 1 s2) ∧
      (x.toNat % 2 = 0 → short.toNat % 2 = 0 → given short pr (fun s2 => exec (.st2 k x y off) s = falls k 1 s2)) ∧
      (short.toNat % 2 = 0 → given short ad (fun s2 => exec (.sta k x y off) s = falls k 1 s2)) ∧
      (short.toNat % 2 = 1 →
        exec (.sta k x y off) s = trapsAt k 7 ((s.arch k).map short) 1 s s1 ∧
        (x.toNat % 2 = 0 → exec (.st2 k x y off) s = trapsAt k 7 ((s.arch k).map short) 1 s s1))) ∧
    (Issues k 2 s s1 →
      given long [d] (fun s2 => exec (.stl k x y 0 imm) s = falls k 2 s2) ∧
      (x.toNat % 2 = 0 → long.toNat % 2 = 0 → given long pr (fun s2 => exec (.st2l k x y 0 imm) s = falls k 2 s2)) ∧
      (long.toNat % 2 = 0 → given long ad (fun s2 => exec (.stal k x y 0 imm) s = falls k 2 s2)) ∧
      (long.toNat % 2 = 1 →
        exec (.stal k x y 0 imm) s = trapsAt k 7 ((s.arch k).map long) 1 s s1 ∧
        (x.toNat % 2 = 0 → exec (.st2l k x y 0 imm) s = trapsAt k 7 ((s.arch k).map long) 1 s s1)) ∧
      (imm.toNat % 64 ≠ 0 → given indexed [d] (fun s2 => exec (.stx k x y xc imm) s = falls k 2 s2)))

/-- R80, R115, R167, R168, R432: what a load delivers: the words of the youngest buffered store where that holds exactly them, whatever memory holds; else, where no buffered
store shares a word with it, what memory holds, shown for good words of the bench. What a store does: its words with their places, and nothing else, join the end of
the gated buffer, which holds 16 entries in split execution and 32 in paired; with no room it holds issue. Only the translation touches memory or another core. -/
def Obligations.StoreBufferAndLoads : Prop :=
  (∀ (k : CoreIx) (x : W40) (n : Nat) (s s1 : State) (ps : List Place), (s.arch k).inflight = [] →
     (∀ e : StoreEntry, xlate (.core k) (coreXl k (s.arch k).pl.toNat s) .read ((s.arch k).map x).toNat n s = .ok ps s1 →
       youngest (s1.core k).stores ps = some e → e.at_ = ps → ∃ d t, load k x n s = .ok { words := e.words, dist := d } t ∧ (∀ j, t.core j = s1.core j) ∧ t.mem = s1.mem) ∧
     (benchReads k x n s → load k x n s = .ok (benchLoad k x n s) s)) ∧
  (∀ (k : CoreIx) (x : W40) (ws : List Word) (s s1 : State) (ps : List Place), (s.arch k).inflight = [] → (s.arch k).compat = false →
     xlate (.core k) (coreXl k (s.arch k).pl.toNat s) .write ((s.arch k).map x).toNat ws.length s = .ok ps s1 →
     let es := entriesOf (coreXl k (s.arch k).pl.toNat s).func (s.split k) ps ws
     ((s.core k).stores.length + es.length ≤ (if s.split k then 16 else 32) →
       ∃ t, store k x ws s = .ok () t ∧ t.core k = { s.core k with stores := (s.core k).stores ++ es } ∧
         (∀ j, j ≠ (k : Nat) → t.core j = s.core j) ∧ t.mem = s1.mem ∧ t.bents = s1.bents ∧ t.host = s1.host) ∧
     ((if s.split k then 16 else 32) < (s.core k).stores.length + es.length → store k x ws s = .stall s1) ∧
     (benchWrites k x ws s → store k x ws s = .ok () (buffered k x ws s)))

/-- R136, R137, R186, R217: the stack instructions: a push writes below A15 and a pop reads at it; a popped word goes to its destination after A15 has moved. A push of n words
stores them at A15 - n, counted modulo 2^40, and moves A15 there; where that lies below SILL it traps STACK_SILL with the address mapped and stores nothing. A push to the
bench completes wherever the buffer has room, and a pop of good words of the bench completes with what they hold. -/
def Obligations.StackForms : Prop :=
  (∀ (k : CoreIx) (x : Reg) (s s1 : State), Issues k 1 s s1 → Calm k s →
     let d := (s.arch k).regD x.toNat
     let a := (s.arch k).regA x.toNat
     let top := (s.arch k).regA 15
     let pr := [d, (s.arch k).regD (pairHi x).toNat]
     let ad := [a.extractLsb' 0 20, a.extractLsb' 20 20]
     let pushes : List Word → (State → Prop) → Prop := fun ws done =>
       let base := top - BitVec.ofNat 40 ws.length
       (∀ s2, push k ws s1 = .ok () s2 → done s2) ∧
       (benchWrites k base ws s1 → (s.arch k).sill.toNat ≤ base.toNat →
         done ((buffered k base ws s1).setArch k { s.arch k with a := tset 0 (s.arch k).a 15 base }))
     let pops : Nat → (Loaded → State → Prop) → Prop := fun n done =>
       (∀ r s2, pop k n s1 = .ok r s2 → done r s2) ∧
       (benchReads k top n s1 → done (benchLoad k top n s1) (s1.setArch k { s.arch k with a := tset 0 (s.arch k).a 15 ((s.arch k).wrapA (top + BitVec.ofNat 40 n)) }))
     let sills : List Word → Host.Outcome State Fault Refusal → Prop := fun ws out =>
       let base := (s.arch k).wrapA (top - BitVec.ofNat 40 ws.length)
       base.toNat < (s.arch k).sill.toNat → out = trapsAt k 13 ((s.arch k).map base) 0 s s1
     pushes [d] (fun s2 => exec (.push k x 0) s = falls k 1 s2) ∧ sills [d] (exec (.push k x 0) s) ∧
     pushes ad (fun s2 => exec (.pusha k x 0) s = falls k 1 s2) ∧ sills ad (exec (.pusha k x 0) s) ∧
     (x.toNat % 2 = 0 → pushes pr (fun s2 => exec (.push2 k x 0) s = falls k 1 s2) ∧ sills pr (exec (.push2 k x 0) s)) ∧
     pops 1 (fun r s2 => exec (.pop k x 0) s = loadsD k 1 x r s2) ∧
     (x ≠ 15 → pops 2 (fun r s2 => exec (.popa k x 0) s = loadsA k 1 x r s2)) ∧
     (x.toNat % 2 = 0 → pops 2 (fun r s2 => exec (.pop2 k x 0) s = loadsPair k 1 x r s2))) ∧
  (∀ (k : CoreIx) (ws : List Word) (s : State), (s.arch k).inflight = [] → (s.arch k).compat = false →
     let base := (s.arch k).regA 15 - BitVec.ofNat 40 ws.length
     (base.toNat < (s.arch k).sill.toNat → push k ws s = .trap (trapOf 13 base.toNat 0) s) ∧
     (∀ s1 s2 : State, ∀ ps : List Place, (s.arch k).sill.toNat ≤ base.toNat →
       xlate (.core k) (coreXl k (s.arch k).pl.toNat s) .write base.toNat ws.length s = .ok ps s1 →
       bufferStore k (coreXl k (s.arch k).pl.toNat s).func ps ws s1 = .ok () s2 →
       ∃ t, push k ws s = .ok () t ∧ (t.arch k).regA 15 = base ∧ (t.core k).stores = (s2.core k).stores ∧ t.mem = s2.mem))

/-- R182, R272: ACLQ loads 1 to 8 limbs into ACn with slack allowed; ACSQ stores the accumulator in normalised limbs where it fits, and else traps DECIMAL_OVERFLOW and stores
nothing. On good words of the bench, and into a buffer with room, they complete. -/
def Obligations.AccumulatorMemory : Prop :=
  ∀ (k : CoreIx) (xa xb xc : Reg) (imm : Word) (n : Nat) (s s1 s2 : State), Issues k 2 s s1 → Calm k s → xa.toNat < 4 →
    imm.toNat % 16 = n → 1 ≤ n → n ≤ 8 →
    let a := (s.arch k).regA xb.toNat
    let v := ((s.arch k).regAC xa.toNat).toInt
    (∀ r : Loaded, load k a n s1 = .ok r s2 ∨ (benchReads k a n s1 ∧ r = benchLoad k a n s1 ∧ s2 = s1) →
      (accFits (qValue r.words) → exec (.aclq k xa xb xc imm) s =
        .next (ended k ((((s2.arch k).putAC xa.toNat (BitVec.ofInt 80 (qValue r.words)) 3).dim r.dist).after 2) s2)) ∧
      (¬accFits (qValue r.words) → exec (.aclq k xa xb xc imm) s = trapsAt k 6 0 0 s s2)) ∧
    (∀ ps : List Place, xlate (.core k) (coreXl k (s.arch k).pl.toNat s1) .write ((s.arch k).map a).toNat n s1 = .ok ps s2 →
      (¬(-(100000 ^ n : Int) ≤ v ∧ v ≤ 100000 ^ n - 1) → exec (.acsq k xa xb xc imm) s = trapsAt k 6 0 0 s s2) ∧
      (∀ s3, -(100000 ^ n : Int) ≤ v → v ≤ 100000 ^ n - 1 → (s.split k = false → (s.core k).stores.length + n ≤ 23) →
        store k a (limbsOf n v) s2 = .ok () s3 → exec (.acsq k xa xb xc imm) s = falls k 2 s3)) ∧
    (-(100000 ^ n : Int) ≤ v → v ≤ 100000 ^ n - 1 → (s.split k = false → (s.core k).stores.length + n ≤ 23) → benchWrites k a (limbsOf n v) s1 →
      exec (.acsq k xa xb xc imm) s = falls k 2 (buffered k a (limbsOf n v) s1))

/-- R74, R76, R187, R188: the locked instructions. The buffer drains first; RD and W are needed; while a class-1 request waits where the sequence would run it does not start;
one word is read and written back as one sequence between two checkpoints, and DXA takes the old word. LCAS writes DXC+1 where the old word equals DXC and the old word back
where it does not. LQADD adds the 1, 2 or 4 limbs DXC to DXC+n-1 to the Q-amount in memory; DXA takes 1 for a negative sum and else 0; a sum that does not fit writes nothing
and traps DECIMAL_OVERFLOW. On a word of the bench with no store waiting each completes. -/
def Obligations.LockedInstructions : Prop :=
  (∀ (k : CoreIx) (xa xb xc : Reg) (s s1 : State), Issues k 2 s s1 → Calm k s →
     let x := (s.arch k).regA xb.toNat
     let v := ((s.arch k).map x).toNat
     let dc := (s.arch k).regD xc.toNat
     let dn := (s.arch k).regD (pairHi xc).toNat
     let d := drainAll k (checkpoint k s1)
     (∀ s2 ps, (v < 0xF000000000 ∨ 0xF800000000 ≤ v) → xlate (.core k) (coreXl k (s.arch k).pl.toNat d) .locked v 1 d = .ok ps s2 →
       (lockWaits s2 ps = true → exec (.lxadd k xa xb xc 0) s = .next s2 ∧ exec (.lxchg k xa xb xc 0) s = .next s2 ∧ (xc.toNat % 2 = 0 → exec (.lcas k xa xb xc 0) s = .next s2)) ∧
       (∀ t s3, lockWaits s2 ps = false → readPlaces (.core k) .locked v ps (openFetch s2) = .ok [t] s3 →
         let done : Word → Host.Outcome State Fault Refusal := fun w =>
           let m := closeFetch (lockedWrite k ps [w] s3)
           .next (checkpoint k (ended k (((m.arch k).putD xa t 1).after 2) m))
         exec (.lxadd k xa xb xc 0) s = done (t + dc) ∧ exec (.lxchg k xa xb xc 0) s = done dc ∧
         (xc.toNat % 2 = 0 → exec (.lcas k xa xb xc 0) s = done (if t = dc then dn else t)))) ∧
     ((s.core k).stores = [] → benchReads k x 1 s1 →
       let a := benchAt k x 0 s1
       let t := tget 0 (s1.bent (k / 2)).bench a
       let wrote : Word → State → Prop := fun w m => m.arch k = ((s.arch k).putD xa t 1).after 2 ∧ tget 0 (m.bent (k / 2)).bench a = w ∧
         (∀ b, b ≠ a → tget 0 (m.bent (k / 2)).bench b = tget 0 (s1.bent (k / 2)).bench b) ∧ m.mem.words = s1.mem.words ∧ m.mem.yard = s1.mem.yard ∧ m.host = s1.host
       (∃ m, exec (.lxadd k xa xb xc 0) s = .next m ∧ wrote (t + dc) m) ∧ (∃ m, exec (.lxchg k xa xb xc 0) s = .next m ∧ wrote dc m) ∧
       (xc.toNat % 2 = 0 → ∃ m, exec (.lcas k xa xb xc 0) s = .next m ∧ wrote (if t = dc then dn else t) m))) ∧
  (∀ (k : CoreIx) (xa xb xc : Reg) (n : Nat) (s s1 : State), Issues k 2 s s1 → Calm k s →
     (n = 1 ∨ n = 2 ∨ n = 4) → xc.toNat + n ≤ 16 →
     let x := (s.arch k).regA xb.toNat
     let v := ((s.arch k).map x).toNat
     let limbs := (List.range n).map (fun i => (s.arch k).regD (xc.toNat + i))
     let d := drainAll k (checkpoint k s1)
     let fits : Int → Prop := fun t => -(100000 ^ n : Int) ≤ t ∧ t ≤ 100000 ^ n - 1
     (v % n ≠ 0 → exec (.lqadd k xa xb xc (BitVec.ofNat 20 n)) s = trapsAt k 7 ((s.arch k).map x) 1 s (checkpoint k s1)) ∧
     (∀ s2 s3 ps ws, v % n = 0 → (v < 0xF000000000 ∨ 0xF800000000 ≤ v) → xlate (.core k) (coreXl k (s.arch k).pl.toNat d) .locked v n d = .ok ps s2 →
       lockWaits s2 ps = false → readPlaces (.core k) .locked v ps (openFetch s2) = .ok ws s3 →
       let sum := qValue ws + qValue limbs
       (fits sum →
         let m := closeFetch (lockedWrite k ps (limbsOf n sum) s3)
         exec (.lqadd k xa xb xc (BitVec.ofNat 20 n)) s =
           .next (checkpoint k (ended k (((m.arch k).putD xa (if sum < 0 then 1 else 0) 1).after 2) m))) ∧
       (¬ fits sum → exec (.lqadd k xa xb xc (BitVec.ofNat 20 n)) s = trapsAt k 6 0 0 s (closeFetch (lockedNone ps s3)))) ∧
     ((s.core k).stores = [] → v % n = 0 → benchReads k x n s1 →
       let sum := qValue (benchHolds k x n s1) + qValue limbs
       fits sum → ∃ m, exec (.lqadd k xa xb xc (BitVec.ofNat 20 n)) s = .next m ∧ m.arch k = ((s.arch k).putD xa (if sum < 0 then 1 else 0) 1).after 2 ∧
         (∀ i, i < n → tget 0 (m.bent (k / 2)).bench (benchAt k x i s1) = ((limbsOf n sum)[i]?).getD 0) ∧ m.mem.words = s1.mem.words ∧ m.host = s1.host))

/-- R155, R189: the branches. The displacement counts from the branch's own address; BZ and BNZ test DX (DXA) for 0; JR goes to the AX its field names. A branch not taken
falls through. -/
def Obligations.Branches : Prop :=
  ∀ (k : CoreIx) (x : Reg) (imm : BitVec 10) (disp : BitVec 14) (l : Word) (s s1 : State), Calm k s →
    let pc := (s.arch k).pc
    let dx := (s.arch k).regD x.toNat
    (Issues k 1 s s1 →
      exec (.bz k x imm) s = (if dx = 0 then goesTo k 1 (pc + imm.signExtend 40) s1 else falls k 1 s1) ∧
      exec (.bnz k x imm) s = (if dx = 0 then falls k 1 s1 else goesTo k 1 (pc + imm.signExtend 40) s1) ∧
      exec (.br k disp) s = goesTo k 1 (pc + disp.signExtend 40) s1 ∧
      exec (.jr k imm) s = goesTo k 1 ((s.arch k).regA (imm.toNat % 16)) s1) ∧
    (Issues k 2 s s1 →
      exec (.bzl k x 0 0 l) s = (if dx = 0 then goesTo k 2 (pc + l.signExtend 40) s1 else falls k 2 s1) ∧
      exec (.bnzl k x 0 0 l) s = (if dx = 0 then falls k 2 s1 else goesTo k 2 (pc + l.signExtend 40) s1) ∧
      exec (.brl k 0 0 0 l) s = goesTo k 2 (pc + l.signExtend 40) s1)

/-- R189: the calls push the address of the next instruction and go on at the target, which CALLR takes from the register before the push moves it; RET pops its target. With
the stack on the bench they complete wherever the buffer has room and the words popped are good. -/
def Obligations.CallsAndReturn : Prop :=
  ∀ (k : CoreIx) (imm : BitVec 10) (disp : BitVec 14) (l : Word) (s s1 : State), Calm k s →
    let pc := (s.arch k).pc
    let next : Nat → List Word := fun n => [(nextPc (s.arch k) n).extractLsb' 0 20, (nextPc (s.arch k) n).extractLsb' 20 20]
    let top := (s.arch k).regA 15
    let pushes : Nat → (State → Prop) → Prop := fun n done =>
      (∀ s2, push k (next n) s1 = .ok () s2 → done s2) ∧
      (benchWrites k (top - 2) (next n) s1 → (s.arch k).sill.toNat ≤ (top - 2).toNat →
        done ((buffered k (top - 2) (next n) s1).setArch k { s.arch k with a := tset 0 (s.arch k).a 15 (top - 2) }))
    (Issues k 1 s s1 → pushes 1 (fun s2 =>
      exec (.call k disp) s = goesTo k 1 (pc + disp.signExtend 40) s2 ∧
      exec (.callr k imm) s = goesTo k 1 ((s.arch k).regA (imm.toNat % 16)) s2)) ∧
    (Issues k 2 s s1 → pushes 2 (fun s2 => exec (.calll k 0 0 0 l) s = goesTo k 2 (pc + l.signExtend 40) s2)) ∧
    (Issues k 1 s s1 →
      (∀ r s2, pop k 2 s1 = .ok r s2 → exec (.ret k imm) s = goesTo k 1 (pairOf r.words) s2) ∧
      (benchReads k top 2 s1 → exec (.ret k imm) s = goesTo k 1 (pairOf (benchHolds k top 2 s1))
        (s1.setArch k { s.arch k with a := tset 0 (s.arch k).a 15 ((s.arch k).wrapA (top + 2)) })))

/-- R190, R192: LOOP and LOOPL open the next level over the instructions from the next one to the one at their displacement, with the count of DX or AXA; with three levels
open they trap LOOP_DEPTH. LEXIT closes the innermost. An instruction at LE of the innermost level that completes without a taken branch lowers LC: to a value other than
0 it goes on at LS, as the mode maps it (log 73), and to 0 it leaves the level and falls through. Shown on NOP. -/
def Obligations.HardwareLoops : Prop :=
  (∀ (k : CoreIx) (x : Reg) (imm : BitVec 10) (l : Word) (s s1 : State), Calm k s →
     let a := s.arch k
     let n := a.ld.toNat
     let opened : Nat → W40 → W40 → Host.Outcome State Fault Refusal := fun len disp c =>
       .next (ended k { a with ls := tset 0 a.ls n (nextPc a len), le := tset 0 a.le n (a.map (a.pc + disp)), lc := tset 0 a.lc n c,
                               ld := BitVec.ofNat 2 (n + 1), pc := nextPc a len } s1)
     (Issues k 1 s s1 →
       (1 ≤ imm.toInt → n < 3 → a.regD x.toNat ≠ 0 → a.map (a.pc + imm.signExtend 40) ≠ a.pc →
         exec (.loop k x imm) s = opened 1 (imm.signExtend 40) ((a.regD x.toNat).setWidth 40)) ∧
       (1 ≤ imm.toInt → n = 3 → exec (.loop k x imm) s = trapsAt k 18 0 0 s s1) ∧
       (0 < n → (n = 1 ∨ tget 0 a.le (n - 2) ≠ a.pc) → exec (.lexit k imm) s = .next (ended k { a with ld := a.ld - 1, pc := nextPc a 1 } s1))) ∧
     (Issues k 2 s s1 →
       (2 ≤ l.toInt → n < 3 → a.regA x.toNat ≠ 0 → a.map (a.pc + l.signExtend 40) ≠ a.pc →
         exec (.loopl k x 0 0 l) s = opened 2 (l.signExtend 40) (a.regA x.toNat)) ∧
       (2 ≤ l.toInt → n = 3 → exec (.loopl k x 0 0 l) s = trapsAt k 18 0 0 s s1))) ∧
  (∀ (k : CoreIx) (s s1 : State), Issues k 1 s s1 → (s.arch k).inflight = [] → (s.arch k).shadow = [] → (s.core k).stop = 0 →
     (s.split k = true ∨ (s.core k).since < 255 ∧ (s.core k).stores.length < 24) →
     let a := s.arch k
     let i := a.ld.toNat - 1
     a.ld ≠ 0 → tget 0 a.le i = a.pc →
       (tget 0 a.lc i ≠ 1 → exec (.nop k 0) s = .next (ended k { a with pc := a.map (tget 0 a.ls i), lc := tset 0 a.lc i (tget 0 a.lc i - 1) } s1)) ∧
       (tget 0 a.lc i = 1 → exec (.nop k 0) s = .next (ended k { a with pc := nextPc a 1, lc := tset 0 a.lc i 0, ld := a.ld - 1 } s1)))

/-- R140, R141, R149, R195: a MOVC read of a register of 20 bits goes to DXA, of one of 40 bits to the pair (class 1) or to AXA (class 2); what is read is the value held, or
one written in its shadow (R149). Outside compatibility mode a MOVC write at a sufficient level is held for its shadow of two instructions; a register that no level
writes traps ILLEGAL_INSTRUCTION and too low a level PRIVILEGED_INSTRUCTION. For the registers written without staging. -/
def Obligations.ControlRegisterMoves : Prop :=
  (∀ (k : CoreIx) (xa : Reg) (i v : Nat) (s s1 : State), Issues k 2 s s1 → Calm k s → i < 1024 → ctlRead k i s1 = .ok v s1 →
     (ctlWidth i = some 20 → exec (.movc k xa 0 0 (BitVec.ofNat 20 i)) s = setsD k 2 xa (BitVec.ofNat 20 v) s1) ∧
     (ctlWidth i = some 40 →
       (xa.toNat % 2 = 0 → exec (.movc k xa 1 0 (BitVec.ofNat 20 i)) s = setsPair k 2 xa (BitVec.ofNat 40 v) 1 s1) ∧
       exec (.movc k xa 2 0 (BitVec.ofNat 20 i)) s = setsA k 2 xa (BitVec.ofNat 40 v) s1) ∧
     (ctlWidth i = none → exec (.movc k xa 0 0 (BitVec.ofNat 20 i)) s = trapsAt k 1 (s.arch k).pc (encL 0x19 xa 0 0) s s1)) ∧
  (∀ (k : CoreIx) (xa : Reg) (i lvl : Nat) (s s1 : State), Issues k 2 s s1 → Calm k s → i < 1024 → ctlCommits i = false →
     i ≠ 0x040 → i ≠ 0x041 →
     let a := s.arch k
     let held : W40 → Host.Outcome State Fault Refusal := fun v =>
       .next (ended k { a with pc := nextPc a 2, shadow := [{ idx := i, val := v, left := 2 }] } s1)
     (a.compat = false → ctlLevel i = some lvl → lvl ≤ a.pl.toNat →
       (ctlWidth i = some 20 → exec (.movc k xa 8 0 (BitVec.ofNat 20 i)) s = held ((a.regD xa.toNat).setWidth 40)) ∧
       (ctlWidth i = some 40 → xa.toNat % 2 = 0 → exec (.movc k xa 9 0 (BitVec.ofNat 20 i)) s = held (a.pair xa)) ∧
       (ctlWidth i = some 40 → exec (.movc k xa 10 0 (BitVec.ofNat 20 i)) s = held (a.regA xa.toNat))) ∧
     (ctlWidth i = some 20 → ctlLevel i = none → exec (.movc k xa 8 0 (BitVec.ofNat 20 i)) s = trapsAt k 1 a.pc (encL 0x19 xa 8 0) s s1) ∧
     (ctlWidth i = some 20 → ctlLevel i = some lvl → a.pl.toNat < lvl → exec (.movc k xa 8 0 (BitVec.ofNat 20 i)) s = trapsAt k 2 a.pc (encL 0x19 xa 8 0) s s1))

/-- R113, R149, R164, R165, R225: the rows that are single MOVC writes. XLCOMMIT with a good staged pair takes it and clears STAGED and CERR; DINV and IINV, once their shadow
ends, leave the caches empty; TICKCMP takes the pair or AX and clears the TIMER latch. At the end of its shadow a control-register write takes effect with the instruction
that ends it, shown on NOP: the caches are invalid, TICKCMP holds the value with the latch clear, and CTXID and PTROOT are in force. -/
def Obligations.ShadowedWrites : Prop :=
  (∀ (k : CoreIx) (xa : Reg) (s s1 : State), Issues k 2 s s1 → Calm k s → (s.arch k).compat = false → 1 ≤ (s.arch k).pl.toNat →
     let b := s1.bent (k / 2)
     let d := ((s.arch k).regD xa.toNat).setWidth 40
     let enters : List CtlWrite → State → Prop := fun w t => (t.arch k).shadow = w ∧ (t.arch k).pc = nextPc (s.arch k) 2 ∧ (t.arch k).d = (s.arch k).d ∧ (t.arch k).a = (s.arch k).a ∧ t.mem = s1.mem
     (b.staged = true → rootBad s1 b.stPtroot.toNat = false → ctxOfJob k s1 = true → ∃ t, exec (.xlcommit k xa) s = .next t ∧
       enters [{ idx := 0x040, val := b.stCtxid.setWidth 40, left := 2 }, { idx := 0x041, val := b.stPtroot, left := 2 }] t ∧
       (t.bent (k / 2)).staged = false ∧ (bitAt d 2 = true → (t.bent (k / 2)).cerr = false)) ∧
     (∃ t, exec (.dinv k xa) s = .next t ∧ enters [{ idx := 0x004, val := d ||| 2, left := 2 }] t) ∧
     (∃ t, exec (.iinv k xa) s = .next t ∧ enters [{ idx := 0x004, val := d ||| 1, left := 2 }] t) ∧
     (xa.toNat % 2 = 0 → ∃ t, exec (.tickcmpWrite k xa 1) s = .next t ∧ enters [{ idx := 0x051, val := (s.arch k).pair xa, left := 2 }] t) ∧
     (∃ t, exec (.tickcmpWrite k xa 2) s = .next t ∧ enters [{ idx := 0x051, val := (s.arch k).regA xa.toNat, left := 2 }] t)) ∧
  (∀ (k : CoreIx) (v w : W40) (s s1 : State), Issues k 1 s s1 → (s.arch k).inflight = [] → (s.core k).stop = 0 → (s.arch k).ld = 0 →
     (s.core k).since < 255 → (s.core k).stores.length < 24 →
     let ends : List CtlWrite → Prop := fun l => (s.arch k).shadow = l
     (ends [{ idx := 0x004, val := v, left := 1 }] → ∃ t, exec (.nop k 0) s = .next t ∧
       (bitAt v 1 = true → (t.bent (k / 2)).dcache = []) ∧ (bitAt v 0 = true → (t.bent (k / 2)).icache = []) ∧ (t.arch k).shadow = []) ∧
     (ends [{ idx := 0x051, val := v, left := 1 }] → ∃ t, exec (.nop k 0) s = .next t ∧ (t.arch k).tickcmp = v ∧ (t.core k).timer = false) ∧
     (ends [{ idx := 0x040, val := w, left := 1 }, { idx := 0x041, val := v, left := 1 }] → ∃ t, exec (.nop k 0) s = .next t ∧
       (t.bent (k / 2)).ctxid = BitVec.ofNat 12 w.toNat ∧ (t.bent (k / 2)).ptroot = v))

/-- R196 to R198, R223, R230, R266, R268, R437: NOP only advances pc. WAIT checkpoints and stops issue with pc at the next instruction; where an event above THRESH is pending or
the TIMER latch is set it goes on at once, with EVMASK.M clear by way of the trap; a core under notice of pre-emption stops instead. FENCE without a scope only checkpoints,
and with one it holds issue at itself. FENCE_COMPLETE goes on past the FENCE, with the accesses of its scope performed (an empty store buffer for the scopes that ask for
it, an empty data cache for X), unless pipe work of its scope runs or its host read cannot be sent. WAIT_END lets a core in WAIT run again once its latch is set or an event
above THRESH is pending, and with EVMASK.M clear takes the cause that is ready. -/
def Obligations.WaitsAndFences : Prop :=
  (∀ (k : CoreIx) (imm : BitVec 10) (s s1 : State), Issues k 1 s s1 → Calm k s →
     let after := (s.arch k).after 1
     let saved : State → Prop := fun t => s.split k = true ∨ ((t.core k).ckpt = t.arch k ∧ ∀ e ∈ (t.core k).stores, e.released = true)
     let wakes := (s.core k).timer = true ∨ eventWaits s1 k = true
     exec (.nop k 0) s = falls k 1 s1 ∧
     (1 ≤ (s.arch k).pl.toNat →
       (beingPreempted k s1 = false →
         (¬ wakes → ∃ t, exec (.wait k imm) s = .next t ∧ (t.core k).run = .waiting ∧ t.arch k = after ∧ saved t) ∧
         (wakes → (s.arch k).masked = true → ∃ t, exec (.wait k imm) s = .next t ∧ (t.core k).run = .running ∧ t.arch k = after ∧ saved t) ∧
         (wakes → (s.arch k).masked = false → ∃ u, (u.core k).run = .running ∧ u.arch k = after ∧ saved u ∧
           (eventReady u k = false → exec (.wait k imm) s = .next u) ∧
           (eventReady u k = true → exec (.wait k imm) s = .next (dueStop k (takeTrap k { cause := 16, pc := after.pc, addr := 0, detail := 0 } false false u))))) ∧
       (beingPreempted k s1 = true → ∃ t, exec (.wait k imm) s = .next t ∧ ((t.core k).run = .stopped ∨ (t.core k).run = .idle))) ∧
     ((s.arch k).pl.toNat = 0 → exec (.wait k imm) s = trapsAt k 2 (s.arch k).pc (encSYS 0 8 imm) s (checkpoint k s1)) ∧
     exec (.fence k 0) s = falls k 1 (checkpoint k s1) ∧
     (0 < imm.toNat → imm.toNat < 16 → exec (.fence k imm) s =
       .next ((checkpoint k s1).setCore k { (checkpoint k s1).core k with run := .fenced (imm.setWidth 4) }))) ∧
  (∀ (k : CoreIx) (scope : BitVec 4) (s : State), (s.core k).run = .fenced scope →
     let held := (bitAt scope 0 = true ∧ unfinished (s.core k) = true) ∨ (bitAt scope 3 = true ∧ (s.fn (coreXl k 0 s).func).bme = false)
     (held → exec (.fenceComplete k) s = .next s) ∧
     (¬ held → (s.arch k).inflight = [] → (s.arch k).shadow = [] → (s.arch k).ld = 0 → (s.core k).stop = 0 → testArmed k s = false →
       ∃ t, exec (.fenceComplete k) s = .next t ∧ (t.core k).run = .running ∧ t.arch k = (s.arch k).after 1 ∧
         (bitAt scope 0 = true → (t.core k).past = []) ∧ (1 < scope.toNat → (t.core k).stores = []) ∧ (bitAt scope 2 = true → (t.bent (k / 2)).dcache = []))) ∧
  (∀ (k : CoreIx) (s : State),
     let r := s.setCore k { s.core k with run := .running }
     let u := if (s.core k).timer = true ∨ (s.arch k).masked = true then r else present k r
     let wakes := (s.core k).timer = true ∨ eventWaits s k = true
     ((s.core k).run = .waiting → ¬ wakes → exec (.waitEnd k) s = .next s) ∧
     ((s.core k).run = .waiting → wakes →
       (readyCause k u = none → exec (.waitEnd k) s = .next u) ∧
       (∀ t sres vres, readyCause k u = some (t, sres, vres) → exec (.waitEnd k) s = .next (dueStop k (takeTrap k { t with pc := chainPc (s.core k) (s.arch k).pc } sres vres u)))) ∧
     ((s.core k).run = .waiting → wakes → (s.arch k).masked = true → unreported (s.core k) = (none, none) → exec (.waitEnd k) s = .next r) ∧
     ((s.core k).run = .waiting → (s.core k).timer = true → (s.arch k).masked = false → unreported (s.core k) = (none, none) → (s.core k).chain = [] → (s.core k).notice = none →
       exec (.waitEnd k) s = .next (dueStop k (takeTrap k { cause := 17, pc := (s.arch k).pc, addr := 0, detail := 0 } false false r))) ∧
     ((s.core k).run ≠ .waiting → exec (.waitEnd k) s = .next s))

/-- R206, R209, R211, R212, R214: TRAP and BRK enter the handler at supervisor level: 8 frame words below A15, TRAP's with the address of the next instruction and BRK's with
its own; then PL 1, M set, LD 0, A15 lowered by 8 and pc at the handler. Shown where the context has SUPV, the frame can be written (as it can on the bench, above SILL) and the handler's first
instruction can be fetched. -/
def Obligations.TrapEntry : Prop :=
  ∀ (k : CoreIx) (imm : BitVec 10) (s s1 s2 u : State) (ps : List Place), Issues k 1 s s1 → Calm k s →
    let a := s.arch k
    let base := a.wrapA (a.regA 15 - 8)
    let px := bitAt a.corecfg 1
    let settled := (settle k s1).setCore k { (settle k s1).core k with run := .running, chain := [], chainKey := none }
    let frame : W40 → Nat → List Word := fun pc num =>
      [pc.extractLsb' 0 20, pc.extractLsb' 20 20, a.status, BitVec.ofNat 20 (num + (if a.masked then 256 else 0) + if px then 512 else 0),
       0, 0, imm.setWidth 20, a.sill.extractLsb' 0 20]
    a.pl ≠ 2 → (coreXl k a.pl.toNat s1).supv = true → a.sill.toNat ≤ base.toNat →
    xlate (.core k) (coreXl k a.pl.toNat s1) .write (a.map base).toNat 8 settled = .ok ps s2 ∨ (onBench k base 8 settled ∧ ps = benchPlaces k base 8 settled ∧ s2 = settled) →
    let entered : W40 → Nat → State := fun pc num => handlerState k num base (coreXl k a.pl.toNat s1).func ps (frame pc num) s2
    let fetches : W40 → Nat → Prop := fun pc num =>
      fetchWord k 1 (((entered pc num).arch k).map (handlerPc a num)).toNat (entered pc num) = .ok () u
    (fetches (nextPc a 1) (if px then 10 else 14) → exec (.trap k imm) s = .next u) ∧
    (fetches a.pc (if px then 11 else 15) → exec (.brk k imm) s = .next u)

/-- R218, R221: RETE reads the 8 words at A15 and restores pc, PL, LD, M and SILL from them, A15 raised by 8 as the mode returned to writes it, where the level they name is not
above its own; else it traps PRIVILEGE_RETURN with nothing restored. At service level the frame is the newest of the emergency area, which gives it up, and A15 stays. -/
def Obligations.TrapReturn : Prop :=
  ∀ (k : CoreIx) (s s1 s2 : State) (ws : List Word), Issues k 1 s s1 → Calm k s →
    let a := s.arch k
    let w : Nat → Word := fun i => (ws[i]?).getD 0
    let restored : State → Prop := fun t =>
      (t.arch k).pl = BitVec.ofNat 2 ((w 2).toNat % 4) ∧ (t.arch k).ld = BitVec.ofNat 2 ((w 2).toNat / 16 % 4) ∧
      (t.arch k).masked = decide ((w 3).toNat / 256 % 2 = 1) ∧ (t.arch k).pc = (t.arch k).map (w 1 ++ w 0) ∧
      (t.arch k).sill.extractLsb' 0 20 = w 7 ∧ (t.arch k).d = a.d ∧ (t.arch k).s = a.s ∧ (t.arch k).ac = a.ac
    (a.pl = 1 → loadPairs k (a.regA 15) 4 s1 = .ok ws s2 ∨ (a.compat = false ∧ benchReads k (a.regA 15) 8 s1 ∧ ws = benchHolds k (a.regA 15) 8 s1 ∧ s2 = s1) →
      ((w 2).toNat % 4 ≤ 1 → (s2.core k).ops = [] → (s2.core k).vops = [] → ∃ t, exec (.rete k 0) s = .next t ∧ restored t ∧ (t.arch k).regA 15 = (t.arch k).wrapA (a.regA 15 + 8)) ∧
      (2 ≤ (w 2).toNat % 4 → exec (.rete k 0) s = trapsAt k 3 (a.map (a.regA 15)) (w 2) s s2)) ∧
    (a.pl = 2 → ∀ fs, a.emerg = ws :: fs →
      ((w 2).toNat % 4 ≤ 2 → (s1.core k).ops = [] → (s1.core k).vops = [] → ∃ t, exec (.rete k 0) s = .next t ∧ restored t ∧ (t.arch k).regA 15 = a.regA 15 ∧ (t.arch k).emerg = fs) ∧
      (3 = (w 2).toNat % 4 → exec (.rete k 0) s = trapsAt k 3 (a.map (a.regA 15)) (w 2) s s1))

/-- R158, R173 to R177, R180 to R192, R209: a form whose operand fields the spec does not allow traps ILLEGAL_INSTRUCTION at its own address with its first word in DETAIL,
and has no effect: an odd register of a pair, an accumulator above AC3, a condition that does not exist, a shift count above 31, a field that must be 0. R170 to R174: a word that R173 leaves unassigned spells no instruction and every other word
one, and the words of the short and long forms, at every value of their fields, spell the instruction they stand for. -/
def Obligations.IllegalForms : Prop :=
  (∀ (k : CoreIx) (x y z : Reg) (off : BitVec 6) (imm : BitVec 10) (l : Word) (s s1 : State), Calm k s →
    let ill : Word → Host.Outcome State Fault Refusal := fun w => trapsAt k 1 (s.arch k).pc w s s1
    let illC : Word → Host.Outcome State Fault Refusal := fun w => trapsAt k 1 (s.arch k).pc w s (checkpoint k s1)
    (Issues k 1 s s1 →
      (32 ≤ imm.toNat → exec (.shli k x imm) s = ill (encRI 0x08 x imm) ∧ exec (.shri k x imm) s = ill (encRI 0x09 x imm) ∧ exec (.sari k x imm) s = ill (encRI 0x0A x imm)) ∧
      (10 ≤ z.toNat → exec (.cc k x y z) s = ill (encRR 0x01 x y (16 + z.toNat))) ∧
      (x.toNat % 2 = 1 →
        exec (.dwa k x y) s = ill (encRR 0x18 x y 5) ∧ exec (.dws k x y) s = ill (encRR 0x18 x y 8) ∧
        exec (.ld2 k x y off) s = ill (encRR 0x12 x y off.toNat) ∧ exec (.st2 k x y off) s = ill (encRR 0x13 x y off.toNat) ∧
        exec (.push2 k x y) s = ill (encRR 0x16 x y 4) ∧ exec (.pop2 k x y) s = ill (encRR 0x16 x y 5)) ∧
      (y.toNat % 2 = 1 → exec (.adw k x y) s = ill (encRR 0x18 x y 4) ∧ exec (.sdw k x y) s = ill (encRR 0x18 x y 7) ∧ exec (.bchk k x y off) s = ill (encRR 0x21 x y off.toNat)) ∧
      (2 ≤ off.toNat → exec (.bchk k x y off) s = ill (encRR 0x21 x y off.toNat)) ∧
      (y ≠ 0 → exec (.push k x y) s = ill (encRR 0x16 x y 0) ∧ exec (.pop k x y) s = ill (encRR 0x16 x y 1) ∧ exec (.pusha k x y) s = ill (encRR 0x16 x y 2)) ∧
      (x = 15 ∨ y ≠ 0 → exec (.popa k x y) s = ill (encRR 0x16 x y 3)) ∧
      (imm.toInt ≤ 0 → exec (.loop k x imm) s = ill (encRI 0x20 x imm)) ∧
      ((s.arch k).ld = 0 → exec (.lexit k imm) s = ill (encSYS 0 7 imm)) ∧
      (imm ≠ 0 → exec (.nop k imm) s = ill (encSYS 0 0 imm) ∧ exec (.rete k imm) s = ill (encSYS 0 3 imm) ∧ exec (.jend k imm) s = illC (encSYS 0x28 7 imm)) ∧
      (16 ≤ imm.toNat → exec (.fence k imm) s = ill (encSYS 0x28 0 imm) ∧ exec (.evrd k imm) s = ill (encSYS 0x28 10 imm) ∧ exec (.evclm k imm) s = illC (encSYS 0x28 8 imm) ∧
        exec (.evcmp k imm) s = illC (encSYS 0x28 9 imm) ∧ exec (.evwr k imm) s = illC (encSYS 0x28 11 imm) ∧ exec (.evset k imm) s = illC (encSYS 0x28 12 imm)) ∧
      (256 ≤ imm.toNat → exec (.sealchk k imm) s = illC (encSYS 0x28 4 imm) ∧ exec (.sealclr k imm) s = illC (encSYS 0x28 5 imm)) ∧
      (512 ≤ imm.toNat ∨ (s.arch k).compat = true → exec (.vsetc k imm) s = ill (encSYS 0x28 6 imm)) ∧
      ((s.arch k).pl = 0 → exec (.rete k 0) s = trapsAt k 2 (s.arch k).pc (encSYS 0 3 0) s s1)) ∧
    (Issues k 2 s s1 →
      (y ≠ 0 ∨ z ≠ 0 → exec (.ldi20 k x y z l) s = ill (encL 0x08 x y z) ∧ exec (.bzl k x y z l) s = ill (encL 0x14 x y z) ∧ exec (.bnzl k x y z l) s = ill (encL 0x15 x y z) ∧
        exec (.loopl k x y z l) s = ill (encL 0x18 x y z)) ∧
      (x ≠ 0 → exec (.brl k x y z l) s = ill (encL 0x16 x y z) ∧ exec (.calll k x y z l) s = ill (encL 0x17 x y z)) ∧
      (10 ≤ z.toNat → exec (.cmpi k x y z l) s = ill (encL 0x0C x y z)) ∧
      (10 ≤ l.toNat → exec (.cmp k x y z l) s = ill (encL 0x0F x y z)) ∧
      (addrCond (l.toNat % 16) = false → exec (.cmpa k x y z l) s = ill (encL 0x0D x y z)) ∧
      (4 ≤ x.toNat → exec (.acz k x y z l) s = ill (encL 0x1A x y z) ∧ exec (.aclq k x y z l) s = ill (encL 0x1B x y z) ∧ exec (.acsq k x y z l) s = ill (encL 0x1C x y z) ∧
        exec (.acscl k x y z l) s = ill (encL 0x1D x y z) ∧ exec (.adiv k x y z l) s = ill (encL 0x1E x y z)) ∧
      (4 ≤ x.toNat ∨ 4 ≤ y.toNat → exec (.acmov k x y z l) s = ill (encL 0x1A x y z) ∧ exec (.acneg k x y z l) s = ill (encL 0x1A x y z)) ∧
      (4 ≤ y.toNat → exec (.accmp k x y z l) s = ill (encL 0x1F x y z)) ∧
      (z ≠ 0 → exec (.ldl k x y z l) s = ill (encL 0x00 x y z) ∧ exec (.stl k x y z l) s = ill (encL 0x01 x y z) ∧ exec (.ldal k x y z l) s = ill (encL 0x04 x y z) ∧ exec (.stal k x y z l) s = ill (encL 0x05 x y z)) ∧
      (z ≠ 0 ∨ x.toNat % 2 = 1 → exec (.ld2l k x y z l) s = ill (encL 0x02 x y z) ∧ exec (.st2l k x y z l) s = ill (encL 0x03 x y z)) ∧
      (l.toNat % 64 = 0 → exec (.ldx k x y z l) s = ill (encL 0x06 x y z) ∧ exec (.stx k x y z l) s = ill (encL 0x07 x y z)) ∧
      (l ≠ 0 → exec (.lxadd k x y z l) s = illC (encL 0x10 x y z) ∧ exec (.lxchg k x y z l) s = illC (encL 0x11 x y z)) ∧
      (l ≠ 0 ∨ z.toNat % 2 = 1 → exec (.lcas k x y z l) s = illC (encL 0x12 x y z)) ∧
      (l ≠ 1 → l ≠ 2 → l ≠ 4 → exec (.lqadd k x y z l) s = illC (encL 0x13 x y z)) ∧
      (16 < z.toNat + l.toNat → exec (.lqadd k x y z l) s = illC (encL 0x13 x y z)))) ∧
  (∀ (k : CoreIx) (w0 w1 : Word), decodeWords k w0 w1 = none ↔ illegalWord w0 w1 = true) ∧
  (∀ (k : CoreIx) (x y z : Reg) (off : BitVec 6) (imm : BitVec 10) (disp : BitVec 14) (w : Word),
    let rr : List (Nat × Nat × (CoreIx → Reg → Reg → Instr)) := [(0x01, 0, .add), (0x01, 1, .sub), (0x01, 2, .and), (0x01, 3, .or), (0x01, 4, .xor), (0x01, 5, .andn), (0x01, 6, .shl), (0x01, 7, .shr),
      (0x01, 8, .sar), (0x01, 9, .mov), (0x01, 10, .neg), (0x01, 11, .not), (0x0C, 0, .mul), (0x0C, 1, .mulwu), (0x0C, 2, .mulws), (0x0D, 0, .pdadd), (0x0D, 1, .pdsub), (0x16, 0, .push), (0x16, 1, .pop),
      (0x16, 2, .pusha), (0x16, 3, .popa), (0x16, 4, .push2), (0x16, 5, .pop2), (0x18, 0, .aadd), (0x18, 1, .asub), (0x18, 2, .aadds), (0x18, 3, .amov), (0x18, 4, .adw), (0x18, 5, .dwa), (0x18, 6, .smov),
      (0x18, 7, .sdw), (0x18, 8, .dws), (0x18, 9, .aaddd), (0x18, 10, .sneg), (0x29, 0, .ladc), (0x29, 1, .lsbb), (0x29, 2, .ladz), (0x29, 3, .ladzs), (0x29, 4, .ltop), (0x29, 5, .ltopb), (0x29, 6, .lnrm)]
    let mem : List (Nat × (CoreIx → Reg → Reg → BitVec 6 → Instr)) := [(0x10, .ld), (0x11, .st), (0x12, .ld2), (0x13, .st2), (0x14, .lda), (0x15, .sta)]
    let ri : List (Nat × (CoreIx → Reg → BitVec 10 → Instr)) := [(0x02, .addi), (0x03, .ldi), (0x04, .lui), (0x05, .andi), (0x06, .ori), (0x07, .xori), (0x08, .shli), (0x09, .shri), (0x0A, .sari), (0x19, .aaddi),
      (0x1C, .bz), (0x1D, .bnz), (0x20, .loop)]
    let sys : List (Nat × Nat × (CoreIx → BitVec 10 → Instr)) := [(0x00, 0, .nop), (0x00, 1, .trap), (0x00, 2, .brk), (0x00, 3, .rete), (0x00, 4, .ret), (0x00, 5, .jr), (0x00, 6, .callr), (0x00, 7, .lexit), (0x00, 8, .wait),
      (0x28, 0, .fence), (0x28, 1, .split), (0x28, 2, .join), (0x28, 5, .sealclr), (0x28, 6, .vsetc), (0x28, 7, .jend), (0x28, 8, .evclm), (0x28, 9, .evcmp), (0x28, 10, .evrd), (0x28, 11, .evwr), (0x28, 12, .evset)]
    let long : List (Nat × (CoreIx → Reg → Reg → Reg → Word → Instr)) := [(0x00, .ldl), (0x01, .stl), (0x02, .ld2l), (0x03, .st2l), (0x04, .ldal), (0x05, .stal), (0x06, .ldx), (0x07, .stx), (0x08, .ldi20), (0x09, .lai),
      (0x0A, .lahi), (0x0B, .sai), (0x0C, .cmpi), (0x0D, .cmpa), (0x0E, .aaddl), (0x0F, .cmp), (0x10, .lxadd), (0x11, .lxchg), (0x12, .lcas), (0x13, .lqadd), (0x14, .bzl), (0x15, .bnzl), (0x16, .brl), (0x17, .calll),
      (0x18, .loopl), (0x19, .movc), (0x1B, .aclq), (0x1C, .acsq), (0x1D, .acscl), (0x1E, .adiv), (0x1F, .accmp), (0x29, .vmul), (0x2A, .vmac), (0x38, .smul), (0x39, .smac), (0x3A, .sscale), (0x3B, .sdiv)]
    (∀ r ∈ rr, decodeWords k (encRR r.1 x y r.2.1) w = some (r.2.2 k x y)) ∧ (∀ r ∈ mem, decodeWords k (encRR r.1 x y off.toNat) w = some (r.2 k x y off)) ∧
    (z.toNat < 10 → decodeWords k (encRR 0x01 x y (16 + z.toNat)) w = some (.cc k x y z)) ∧ (off.toNat < 2 → decodeWords k (encRR 0x21 x y off.toNat) w = some (.bchk k x y off)) ∧
    (∀ r ∈ ri, decodeWords k (encRI r.1 x imm) w = some (r.2 k x imm)) ∧ decodeWords k (encJ 0x1E disp) w = some (.br k disp) ∧ decodeWords k (encJ 0x1F disp) w = some (.call k disp) ∧
    (∀ r ∈ sys, decodeWords k (encSYS r.1 r.2.1 imm) w = some (r.2.2 k imm)) ∧ (∀ r ∈ long, decodeWords k (encL r.1 x y z) w = some (r.2 k x y z w)))

/-- R466, R467, R469, R470: EVCLM claims what is presented to the core, or reads 1023; EVCMP completes an event in service at the core whose status word is 0, and otherwise
answers that word; EVRD and EVWR reach a register of the controller, for supervisor level only those of R470; EVSET fires a signal source of the own
bent, or of the bent of the job that its operand names, with the result 1 where the job has no such share. -/
def Obligations.EventInstructions : Prop :=
  ∀ (k : CoreIx) (imm : BitVec 10) (s s1 : State), Issues k 1 s s1 → Calm k s → imm.toNat < 16 →
    let x : Reg := imm.setWidth 4
    let d := (s.arch k).regD x.toNat
    let e := (s.arch k).regD (pairHi x).toNat
    let c := checkpoint k s1
    (1 ≤ (s.arch k).pl.toNat →
      (∀ n v, presentedAt c k = some (n, v) →
        exec (.evclm k imm) s = commitsD k 1 x (BitVec.ofNat 20 (eventNumber n)) (c.setSrc n { v with pend := false, pres := none, insv := some k })) ∧
      (presentedAt c k = none → exec (.evclm k imm) s = commitsD k 1 x 1023 c) ∧
      (imm.toNat % 2 = 0 → ∀ n, eventKey k d.toNat = some n →
        ((c.src n).insv = some (k : Nat) → (c.src n).stat = 0 →
          exec (.evcmp k imm) s = commitsD k 1 (pairHi x) 0 (c.setSrc n { c.src n with insv := none })) ∧
        ((c.src n).insv = some (k : Nat) → (c.src n).stat ≠ 0 → exec (.evcmp k imm) s = commitsD k 1 (pairHi x) (c.src n).stat c) ∧
        ((c.src n).insv ≠ some (k : Nat) → exec (.evcmp k imm) s = commitsD k 1 (pairHi x) 0 c)) ∧
      (imm.toNat % 2 = 0 → ∀ r,
        (evReg s1 k d.toNat = some r → ((s.arch k).pl = 2 ∨ evReach k d.toNat false = true) → exec (.evrd k imm) s = setsD k 1 (pairHi x) (readEv s1 r) s1) ∧
        (evReg c k d.toNat = some r → ((s.arch k).pl = 2 ∨ evReach k d.toNat true = true) → exec (.evwr k imm) s = commits k 1 (writeEv r e c)) ∧
        (evReg c k d.toNat = some r → (s.arch k).pl = 1 → evReach k d.toNat true = false → exec (.evwr k imm) s = trapsAt k 2 (s.arch k).pc (encSYS 0x28 11 imm) s c))) ∧
    (imm.toNat % 2 = 0 →
      let bits := if e = 0 then 1 else e
      let n := d.toNat / 16 % 32
      (bitAt d 9 = true → exec (.evset k imm) s = commitsD k 1 x 0 (fireSrc (signalKey (k / 2) (d.toNat % 16)) bits c)) ∧
      (bitAt d 9 = false → (s1.bent (k / 2)).share = none → exec (.evset k imm) s = commitsD k 1 x 1 c) ∧
      (∀ j i job, bitAt d 9 = false → (s1.bent (k / 2)).share = some (j, i) → s1.job j = some job →
        (job.shares[n]? = none → exec (.evset k imm) s = commitsD k 1 x 1 c) ∧
        (∀ l, job.shares[n]? = some (.on l) → exec (.evset k imm) s = commitsD k 1 x 0 (fireSrc (signalKey l (d.toNat % 16)) bits c))))

/-- R463, R465, R467, R468, R472, R473, R475: SETP of a source that software fires ORs status bit 0 into its status word and sets pending unless the event is in service; a
target commit of a signal source takes the staged pair where both codes are good and else sets CERR, and of a module source changes nothing. A presentation decision
presents to the core the best candidate: enabled, pending, routed to it, of a priority above what it serves, the highest priority first and the lowest number among
equals; with no candidate it claims nothing. No instruction of the core runs. What a core in WAIT does then, unless EVMASK.M is set, WaitsAndFences says. -/
def Obligations.EventSourcesAndPresentation : Prop :=
  (∀ (src : EvSource) (v : Word) (s : State),
     let n := keyOf src
     let tgt : BitVec 7 := BitVec.ofNat 7 ((v ||| 1).toNat / 4 % 128)
     let alt : BitVec 7 := BitVec.ofNat 7 ((v ||| 1).toNat / 512 % 128)
     (n < 10 ∨ 64 ≤ n → ∃ t, exec (.setp src) s = .next t ∧ (t.src n).stat = (s.src n).stat ||| 1 ∧
       (t.src n).pend = ((s.src n).pend || (s.src n).insv.isNone) ∧ t.cores = s.cores ∧ t.mem = s.mem) ∧
     (10 ≤ n → n < 64 → exec (.setp src) s = .next s) ∧
     (n < 64 → exec (.targetCommit src v) s = .next s) ∧
     (64 ≤ n → goodCode tgt = true → goodCode alt = true → ∃ t, exec (.targetCommit src v) s = .next t ∧
       (t.src n).tgt = tgt ∧ (t.src n).alt = alt ∧ (t.src n).staged = false ∧ t.cores = s.cores ∧ t.mem = s.mem) ∧
     (64 ≤ n → goodCode tgt && goodCode alt = false → ∃ t, exec (.targetCommit src v) s = .next t ∧
       (t.src n).tgt = (s.src n).tgt ∧ (t.src n).alt = (s.src n).alt ∧ (t.src n).cerr = true ∧ t.cores = s.cores ∧ t.mem = s.mem)) ∧
  (∀ (k : CoreIx) (s : State), twf Src.reset s.srcs = true → (s.core k).run ≠ .waiting ∨ ((s.arch k).masked = true ∧ unreported (s.core k) = (none, none)) →
     (∀ n e, bestFor (withdraw s) k = some (n, e) → ∃ t, exec (.eventPresentation k) s = .next t ∧ (t.src n).pres = some (k : Nat) ∧ (t.src n).insv = (s.src n).insv ∧
       t.arch k = s.arch k ∧ t.mem = s.mem) ∧
     (∃ t, exec (.eventPresentation k) s = .next t ∧ (∀ n, (t.src n).insv = (s.src n).insv) ∧ (∀ j, t.arch j = s.arch j) ∧ t.mem = s.mem))

/-- R124, R313, R314, R316: SEALCHK goes on where every named seal is zero and else traps SEAL_NONZERO naming those that are not; with G it waits at the barrier; SEALCLR
zeroes the named seals; XINV, after the store buffer has drained, drops the entries of its page, its context or its function from every translation cache;
it waits for an element group in hand under a context of which it drops some. The merged test
opens only when every core of the job has arrived; then each core tests the merged values against the seals it named, and with all of those zero it goes on past the
SEALCHK. Shown on a job of one share. -/
def Obligations.SealsBarrierAndXinv : Prop :=
  (∀ (k : CoreIx) (imm : BitVec 10) (s s1 : State), Issues k 1 s s1 → Calm k s →
     let c := checkpoint k s1
     let m := imm.toNat % 256
     let d := drainAll k c
     let v := ((s.arch k).map ((s.arch k).regA (imm.toNat / 4 % 16))).toNat
     let ctx := (s1.bent (k / 2)).ctxid.toNat
     (imm.toNat < 256 → sealsSettled (s.core k) = true →
       (nonzeroSeals m (s.core k).sealAt = 0 → exec (.sealchk k imm) s = commits k 1 c) ∧
       (nonzeroSeals m (s.core k).sealAt ≠ 0 → exec (.sealchk k imm) s = trapsAt k 12 0 (BitVec.ofNat 20 (nonzeroSeals m (s.core k).sealAt)) s c) ∧
       (s.split k = false → exec (.sealchkMerged k (BitVec.ofNat 10 (256 + m))) s = .next (c.setCore k { c.core k with run := .barrier (BitVec.ofNat 8 m) })) ∧
       (1 ≤ (s.arch k).pl.toNat → exec (.sealclr k imm) s =
         commits k 1 (c.setCore k { c.core k with seals := tdrop (fun i => bitAt imm (i - 1)) (c.core k).seals }))) ∧
     let drops : (Nat → Bool) → Host.Outcome State Fault Refusal → Prop := fun p out =>
       (groupInHand p d = false → out = commits k 1 (dropTlb p d)) ∧ (groupInHand p d = true → out = .next d)
     (1 ≤ (s.arch k).pl.toNat →
       drops (fun n => decide (n = tlbKey ctx v false) || decide (n = tlbKey ctx v true)) (exec (.xinvPage k imm) s) ∧
       drops (fun n => decide (n / 2 ^ 25 = ctx)) (exec (.xinvContext k imm) s)) ∧
     ((s.arch k).pl = 2 → drops (fun n => match s1.ctx (n / 2 ^ 25) with | some x => decide (x.func = (coreXl k 2 s1).func) | none => false) (exec (.xinvFunction k imm) s)) ∧
     ((s.arch k).pl = 1 → exec (.xinvFunction k imm) s = trapsAt k 2 (s.arch k).pc (encSYS 0x28 3 imm) s c)) ∧
  (∀ (j l : Nat) (job : Job) (mask : BitVec 8) (s : State), s.job j = some job →
     (job.shares.all (arrived s) = false → exec (.sealBarrierRelease j) s = .next s) ∧
     (job.shares = [.on l] → (s.core (2 * l)).run = .barrier mask → (s.arch (2 * l)).inflight = [] → (s.arch (2 * l)).shadow = [] → (s.arch (2 * l)).ld = 0 → (s.core (2 * l)).stop = 0 →
       testArmed (2 * l) s = false → nonzeroSeals mask.toNat (fun i => mergedSeal s job i) = 0 →
         ∃ t, exec (.sealBarrierRelease j) s = .next t ∧ (t.core (2 * l)).run = .running ∧ t.arch (2 * l) = (s.arch (2 * l)).after 1 ∧ t.mem = s.mem))

/-- R321, R389, R430, R453 to R455: VSETC sets DX and VCNT to the least of DX, what the vector registers hold and 1,024. JEND ends the core's share: the bent is free and its
cores are as at reset; without a share the core idles. SPLIT with a good block makes the shadow a core of its own with the block's registers; JOIN, once the shadow has
stopped, puts the seals together and makes the pair one again. -/
def Obligations.VsetcJendSplitJoin : Prop :=
  ∀ (k : CoreIx) (imm : BitVec 10) (s s1 : State), Issues k 1 s s1 → Calm k s →
    let x : Reg := imm.setWidth 4
    let l := (k : Nat) / 2
    let c := checkpoint k s1
    let v := ((s.arch k).map ((s.arch k).regA (imm.toNat % 16))).toNat
    (imm.toNat < 512 → (s.arch k).compat = false →
      let n := min ((s.arch k).regD x.toNat).toNat (min (128 * 2 ^ ((s.arch k).vgrp.toNat % 4) / (imm.toNat / 16 + 1)) 1024)
      exec (.vsetc k imm) s = .next (ended k
        { ((s.arch k).putD x (BitVec.ofNat 20 n) 1).after 1 with vgrp := BitVec.ofNat 20 ((s.arch k).vgrp.toNat % 512 + 512 * n) } s1)) ∧
    (s.split k = false → (s.core k).ops = [] → (s.core k).vops = [] → (s1.fn (coreXl k 0 s1).func).bme = true →
      ((s1.bent l).share = none → ∃ t, exec (.jend k 0) s = .next t ∧ (t.core k).run = .idle ∧ (t.core k).stores = []) ∧
      (∀ j i job, (s1.bent l).share = some (j, i) → s1.job j = some job → job.shares[i]? = some (.on l) →
        ∃ t, exec (.jend k 0) s = .next t ∧ (t.bent l).share = none ∧ (t.core k).run = .idle ∧ t.arch k = Arch.reset)) ∧
    (∀ ws s2, 1 ≤ (s.arch k).pl.toNat → s.split k = false → s1.pair.nosplit = false → v % 4096 = 0 → (v < 0xF000000000 ∨ 0xFFFFF80000 ≤ v) →
      readMem (.core k) (coreXl k (s.arch k).pl.toNat c) v 4096 c = .ok ws s2 → (s.core k).vops = [] →
      (blockBad ws = true → exec (.split k imm) s = trapsAt k 7 (BitVec.ofNat 40 v) 8 s s2) ∧
      (blockBad ws = false → ∃ t, exec (.split k imm) s = .next t ∧ t.split k = true ∧ t.arch (2 * l + 1) = archFromBlock ws (s.arch k) ∧
        (t.core (2 * l + 1)).run = .running ∧ t.arch k = (s.arch k).after 1)) ∧
    (∀ ps s2, 1 ≤ (s.arch k).pl.toNat → s.split k = true → (k : Nat) % 2 = 0 → v % 4096 = 0 → (v < 0xF000000000 ∨ 0xFFFFF80000 ≤ v) →
      xlate (.core k) (coreXl k (s.arch k).pl.toNat c) .write v 4096 c = .ok ps s2 → (s2.core (k + 1)).run = .stopped →
      ∃ t, exec (.join k imm) s = .next t ∧ t.split k = false ∧ (t.core (k + 1)).run = .idle ∧
        ∀ i, 1 ≤ i → i ≤ 8 → (t.core k).sealAt i = (s.core k).sealAt i + (s2.core (k + 1)).sealAt i) ∧
    (s1.pair.nosplit = true → 1 ≤ (s.arch k).pl.toNat → exec (.split k imm) s = trapsAt k 1 (s.arch k).pc (encSYS 0x28 1 imm) s c)

/-- R201, R233 to R249, R263, R435, R564: every stream instruction issues between two checkpoints. Where it passes the encoding checks and the configuration checks it is a
member of the open chain; a member that closes the chain puts the whole chain into the queue, with every member's operands as issue read them and, for a key operation,
its two counts zeroed; a full queue keeps the core at the instruction; a member that does not close leaves the chain open. A configuration fault traps STREAM_CONFIG at
the chain's first instruction with its subcode and the member's place; an encoding fault traps ILLEGAL_INSTRUCTION, rounding mode 7 FORMAT. -/
def Obligations.StreamIssue : Prop :=
  ∀ (k : CoreIx) (xa xb xc : Reg) (w1 : Word) (s s1 : State), ready k s = true → readyCause k s = none → testArmed k s = false →
    fetchInstr k 2 (notePlumb k s) = .ok () s1 → Calm k s →
    let c := checkpoint k s1
    let ms := (s.core k).chain.map Prod.fst
    let queues : Nat → Nat → Host.Outcome State Fault Refusal → Prop := fun lop fn out =>
      let i := readIssue k lop fn xa xb xc w1 c
      let f := parseFmt k (w1.toNat % 512) c
      let keyed := 0x3C ≤ lop ∧ lop ≤ 0x3E
      let key := if keyed then some i.kb else (s.core k).chainKey
      let zeroed : State → State := fun t => if keyed then writeCounts k i.kb 0 0 t else t
      (issueIllegal k i f xa xb xc c = true → out = trapsAt k 1 (s.arch k).pc (encL lop xa xb xc) s c) ∧
      (issueIllegal k i f xa xb xc c = false →
        (∀ n, configFault k i f c = some n → out =
          .next (dueStop k (takeTrap k { cause := 19, pc := chainPc (s.core k) (s.arch k).pc, addr := 0, detail := BitVec.ofNat 20 (n + 32 * ms.length) } false false c))) ∧
        (configFault k i f c = none → pipeClass lop = 1 ∧ fn = 7 → out = trapsAt k 7 0 3 s c) ∧
        (configFault k i f c = none → ¬(pipeClass lop = 1 ∧ fn = 7) →
          (closes ms i.m = true → (s.core k).ops.length < queueRoom k s → out = commits k 2 (zeroed (c.setCore k { c.core k with
            ops := (s.core k).ops ++ [{ members := ms ++ [i.m], sln := (s.arch k).sln.toNat, key := key, prog := 0, done := 0, ks := KeyState.start, st := .queued, trap := none, frame := none, olds := [], left := false }]
            chain := []
            chainKey := none }))) ∧
          (closes ms i.m = true → queueRoom k s ≤ (s.core k).ops.length → out = .next c) ∧
          (closes ms i.m = false → out = commits k 2 (zeroed (c.setCore k { c.core k with
            chain := (s.core k).chain ++ [(i.m, (s.arch k).pc)]
            chainSln := if (s.core k).chain.isEmpty then (s.arch k).sln else (s.core k).chainSln
            chainKey := key })))))
    queues 0x30 (fnOf w1) (exec (.sadd k xa xb xc w1) s) ∧ queues 0x31 (fnOf w1) (exec (.ssub k xa xb xc w1) s) ∧
    queues 0x32 (fnOf w1) (exec (.sladd k xa xb xc w1) s) ∧ queues 0x33 (fnOf w1) (exec (.snorm k xa xb xc w1) s) ∧
    queues 0x34 (fnOf w1) (exec (.scmp k xa xb xc w1) s) ∧ queues 0x35 0 (exec (.slogAnd k xa xb xc w1) s) ∧
    queues 0x35 1 (exec (.slogOr k xa xb xc w1) s) ∧ queues 0x35 2 (exec (.slogXor k xa xb xc w1) s) ∧
    queues 0x35 3 (exec (.slogAndn k xa xb xc w1) s) ∧ queues 0x35 4 (exec (.slogNot k xa xb xc w1) s) ∧
    queues 0x36 0 (exec (.scvtPepixoIn k xa xb xc w1) s) ∧ queues 0x36 1 (exec (.scvtPepixoOut k xa xb xc w1) s) ∧
    queues 0x36 2 (exec (.scvtWordToAmount k xa xb xc w1) s) ∧ queues 0x36 3 (exec (.scvtAmountToWord k xa xb xc w1) s) ∧
    queues 0x37 (fnOf w1) (exec (.smove k xa xb xc w1) s) ∧ queues 0x38 (fnOf w1) (exec (.smul k xa xb xc w1) s) ∧
    queues 0x39 (fnOf w1) (exec (.smac k xa xb xc w1) s) ∧ queues 0x3A (fnOf w1) (exec (.sscale k xa xb xc w1) s) ∧
    queues 0x3B (fnOf w1) (exec (.sdiv k xa xb xc w1) s) ∧ queues 0x3C 0 (exec (.smitreLeft k xa xb xc w1) s) ∧
    queues 0x3C 1 (exec (.smitreInner k xa xb xc w1) s) ∧ queues 0x3C 2 (exec (.smitreAnti k xa xb xc w1) s) ∧
    queues 0x3D 0 (exec (.ssegCompact k xa xb xc w1) s) ∧ queues 0x3D 1 (exec (.ssegRunning k xa xb xc w1) s) ∧
    queues 0x3D 2 (exec (.ssegMark k xa xb xc w1) s) ∧ queues 0x3E 0 (exec (.ssortForm k xa xb xc w1) s) ∧
    queues 0x3E 1 (exec (.ssortMerge k xa xb xc w1) s) ∧ queues 0x3F (fnOf w1) (exec (.skcmp k xa xb xc w1) s) ∧
    queues 0x3F 6 (exec (.skcmpOrder k xa xb xc w1) s)

/-- R97, R100, R242, R244, R246, R247, R252, R257 to R260, R310: how a queued operation runs. It starts, or goes on after a stop, once it heads the queue of a core that is not
stopped, its pipes are free and in split execution it is its turn, and with SLN 0 finishes as it starts; an element group of an element-wise member reads the sources,
computes, writes the destination and moves SPROG on; with every group written the operation leaves the queue, SPROG at its groups and SDONE 0; after a fault it stops,
suspended with its progress; a group whose residue check fails a third time writes nothing and retires the bent. The group is shown on a chain of one member and one element
that uses no slot, port, seal or key, and to its end on SADD of words of the bench. -/
def Obligations.StreamProgress : Prop :=
  ∀ (k : CoreIx) (o : StreamOp) (os : List StreamOp) (s : State), (s.core k).ops = o :: os →
    let only : State → Prop := fun t => (∀ j, j ≠ (k : Nat) → t.core j = s.core j) ∧ t.arch k = s.arch k ∧ t.mem = s.mem ∧ t.host = s.host
    let finished : State → Prop := fun t => (t.core k).ops = os ∧ (t.core k).sprog = BitVec.ofNat 40 ((o.sln + 63) / 64) ∧ (t.core k).sdone = 0 ∧ only t
    let alone := gather s 256 [(k : Nat)] { cores := [], hold := false, broken := false }
    (o.st = .queued → (s.core k).run ≠ .stopped → pipesFree o (heldPipes k s) = true → othersTurn k s = false → o.ported = false →
      (o.sln ≠ 0 → ∃ t, exec (.streamStart k) s = .next t ∧ (t.core k).ops = { o with st := .running } :: os ∧ only t) ∧
      (o.sln = 0 → ∃ t, exec (.streamStart k) s = .next t ∧ finished t)) ∧
    (o.st = .running → o.trap = none → (o.sln + 63) / 64 ≤ o.prog → o.ported = false → ∃ t, exec (.streamFinish k) s = .next t ∧ finished t) ∧
    (∀ f, o.st = .running → o.trap = some f → o.ported = false → ∃ t, exec (.streamStop k) s = .next t ∧ (t.core k).sprog = BitVec.ofNat 40 o.prog ∧ only t ∧
      ∃ os', (t.core k).ops = { o with st := .suspended } :: os') ∧
    (∀ m, o.st = .running → o.trap = none → o.members = [m] → o.key = none → o.sln = 1 → o.prog = 0 → o.done = 0 → m.reads = [] → m.lop < 0x3C ∨ m.lop = 0x3F → o.ported = false →
      (∀ y s2, simpleMember k o m 0 [] { slots := [], ports := [], writes := [], seals := [], ks := o.ks } (fetchFor ((k : Nat) / 2) (openFetch s.drawn)) = .ok y s2 → y.seals = [] →
        exec (.elementGroup k { fails := 0, hits := [], port := none }) s = .next (closeFetch (setHead k { o.keepOlds y.writes s2 with prog := 1, done := 0, ks := y.ks } (putElem y.writes s2)))) ∧
      (∀ d b c : Nat, m.lop = 0x30 → m.fd = .word → m.fb = .word → m.fc = .word → m.sealNo = 0 → (s.core k).past = [] → d < 262144 → b < 262144 → c < 262144 →
        (∃ x, m.dst = .mem (BitVec.ofNat 40 (0xFFFFF80000 + d)) x) → (∃ x, m.b = .mem (BitVec.ofNat 40 (0xFFFFF80000 + b)) x) → (∃ x, m.c = .mem (BitVec.ofNat 40 (0xFFFFF80000 + c)) x) →
        let at_ : Nat → Nat := fun n => benchIndex k n s
        let v : State → Nat → Word := fun t n => tget 0 (t.bent ((k : Nat) / 2)).bench n
        tget .good (s.bent ((k : Nat) / 2)).bad (at_ b) = .good → tget .good (s.bent ((k : Nat) / 2)).bad (at_ c) = .good →
        ∃ t o', exec (.elementGroup k { fails := 0, hits := [], port := none }) s = .next t ∧ (t.core k).ops = o' :: os ∧ o'.prog = 1 ∧ o'.done = 0 ∧ o'.trap = none ∧ v t (at_ d) = v s (at_ b) + v s (at_ c) ∧
          (∀ n, n ≠ at_ d → v t n = v s n) ∧ t.mem.words = s.mem.words ∧ t.mem.yard = s.mem.yard ∧ t.host = s.host ∧ t.arch k = s.arch k)) ∧
    (o.st = .running → o.trap = none → o.prog < o.groups → alone.broken = false → alone.hold = false → unequal s alone.cores = false →
      exec (.elementGroup k { fails := 3, hits := [], port := none }) s = .next (retireBent (k / 2) 4 (logErr true 0x0015 0 (s.physOf (k / 2)) 0 0 0 (replays k 2 s))))

/-- R270, R272, R280, R284 to R292: what the decimal instructions compute. A result that fits the destination is written normalised and is the exact sum, difference, product,
quotient, moved, converted or re-scaled value, rounded once where the scales ask for it; one that does not fit traps DECIMAL_OVERFLOW, a quotient by zero DECIMAL_DIVIDE. -/
def Obligations.DecimalResults : Prop :=
  ∀ (m : Member) (e n sc : Nat) (b c old : List Word) (s : State), m.fd = .amount n sc → 1 ≤ n → n ≤ 16 →
    let d : Int := m.fd.scale
    let exact : Option Int :=
      if m.lop = 0x30 then some (qValue b + qValue c)
      else if m.lop = 0x31 then some (qValue b - qValue c)
      else if m.lop = 0x33 ∨ m.lop = 0x37 then some (qValue b)
      else if m.lop = 0x36 ∧ m.fn = 2 then some (b.headD 0).toInt
      else if m.lop = 0x38 then some (scaleBy (qValue b * qValue c) (d - (m.fb.scale + m.fc.scale)) m.fn)
      else if m.lop = 0x39 then some (qValue old + scaleBy (qValue b * qValue c) (d - (m.fb.scale + m.fc.scale)) m.fn)
      else if m.lop = 0x3A then some (scaleBy (qValue b) (d - m.fb.scale) m.fn)
      else if m.lop = 0x3B ∧ qValue c ≠ 0 then
        (let f := d - m.fb.scale + m.fc.scale
         some (if 0 ≤ f then roundQuot (qValue b * 10 ^ f.toNat) (qValue c) m.fn else roundQuot (qValue b) (qValue c * 10 ^ (-f).toNat) m.fn))
      else none
    (∀ v, exact = some v →
      (-(100000 ^ n : Int) ≤ v → v ≤ 100000 ^ n - 1 → ∃ ws a, compute m e b c old s = .ok (ws, a) s ∧ ws.length = n ∧ qValue ws = v ∧
        ∀ i w, ws[i]? = some w → i + 1 < n → w.toNat < 100000) ∧
      (v < -(100000 ^ n : Int) ∨ 100000 ^ n - 1 < v → compute m e b c old s = .trap (trapOf 6 (decimalAddr m e) 0) s)) ∧
    (m.lop = 0x3B → qValue c = 0 → compute m e b c old s = .trap (trapOf 5 (decimalAddr m e) 0) s)

/-- R280: a rounded quotient lies within one unit of the exact one, is exact when it divides, and by the mode is the nearest with ties to even, away from zero or toward zero,
the one toward zero, away from zero, down or up. -/
def Obligations.RoundingModes : Prop :=
  ∀ (n : Int) (q : Nat) (mode : Nat), 0 < q → mode < 7 →
    let r := roundDiv n q mode
    let err := n - r * (q : Int)
    err.natAbs < q ∧ ((q : Int) ∣ n → err = 0) ∧
    (mode ≤ 2 → 2 * err.natAbs ≤ q) ∧
    (mode = 0 → 2 * err.natAbs = q → r % 2 = 0) ∧
    (mode = 1 → 2 * err.natAbs = q → n.natAbs ≤ (r * q).natAbs) ∧
    (mode = 2 → 2 * err.natAbs = q → (r * q).natAbs ≤ n.natAbs) ∧
    (mode = 3 → (r * q).natAbs ≤ n.natAbs ∧ 0 ≤ r * n) ∧
    (mode = 4 → n.natAbs ≤ (r * q).natAbs ∧ 0 ≤ r * n) ∧
    (mode = 5 → r * (q : Int) ≤ n) ∧
    (mode = 6 → n ≤ r * (q : Int))

/-- R201, R249, R318 to R326, R333, R336, R341, R564: every vector instruction issues between two checkpoints. Where it passes the encoding and the configuration checks it enters the
vector queue with the registers it names and the address, stride and scalar that issue read; a full queue keeps the core at it; PCNT instead writes the number of elements
of its predicate below VCNT that are set and leaves VSTART and VDONE as a finished instruction does, once the queue has room, everything before it has started and nothing
that runs writes that predicate. An encoding fault traps ILLEGAL_INSTRUCTION, a configuration fault STREAM_CONFIG, an open chain among them, rounding mode 7 and an odd
predicate address FORMAT. -/
def Obligations.VectorIssue : Prop :=
  ∀ (k : CoreIx) (xa xb xc : Reg) (w1 : Word) (s s1 : State), ready k s = true → readyCause k s = none → testArmed k s = false →
    fetchInstr k 2 (notePlumb k s) = .ok () s1 → Calm k s →
    let c := checkpoint k s1
    let checked : Nat → Nat → Host.Outcome State Fault Refusal → (VecIssue → Prop) → Prop := fun lop fn out accepted =>
      let i := readVec k lop fn xa xb xc w1 c
      (vecIllegal k i xc c = true → out = trapsAt k 1 (s.arch k).pc (encL lop xa xb xc) s c) ∧
      (vecIllegal k i xc c = false →
        (∀ n, (List.range 21).find? (vecHolds k i xa xb xc c) = some n → out =
          .next (dueStop k (takeTrap k { cause := 19, pc := chainPc (s.core k) (s.arch k).pc, addr := 0, detail := BitVec.ofNat 20 (n + 32 * (s.core k).chain.length) } false false c))) ∧
        ((s.core k).chain ≠ [] → ∃ n, n ≤ 12 ∧ (List.range 21).find? (vecHolds k i xa xb xc c) = some n) ∧
        ((List.range 21).find? (vecHolds k i xa xb xc c) = none → accepted i))
    let queues : Nat → Nat → Host.Outcome State Fault Refusal → Prop := fun lop fn out => checked lop fn out fun i =>
      if (lop = 0x29 ∨ lop = 0x2A) ∧ fn = 7 then out = trapsAt k 7 0 3 s c
      else if lop = 0x2C ∧ (fn = 5 ∨ fn = 6) ∧ i.op.base.toNat % 2 = 1 then out = trapsAt k 7 i.op.base 1 s c
      else if (s.core k).vops.length < queueRoom k s then out = commits k 2 (c.setCore k { c.core k with vops := (s.core k).vops ++ [i.op] })
      else out = .next c
    queues 0x20 (fnOf w1) (exec (.vld k xa xb xc w1) s) ∧ queues 0x21 (fnOf w1) (exec (.vst k xa xb xc w1) s) ∧
    queues 0x22 (fnOf w1) (exec (.vgath k xa xb xc w1) s) ∧ queues 0x23 (fnOf w1) (exec (.vscat k xa xb xc w1) s) ∧
    queues 0x24 (fnOf w1) (exec (.vadd k xa xb xc w1) s) ∧ queues 0x25 (fnOf w1) (exec (.vsub k xa xb xc w1) s) ∧
    queues 0x26 (fnOf w1) (exec (.vcmp k xa xb xc w1) s) ∧ queues 0x27 (fnOf w1) (exec (.vlog k xa xb xc w1) s) ∧
    queues 0x28 0 (exec (.vnorm k xa xb xc w1) s) ∧ queues 0x28 1 (exec (.vnormAdd k xa xb xc w1) s) ∧
    queues 0x29 (fnOf w1) (exec (.vmul k xa xb xc w1) s) ∧ queues 0x2A (fnOf w1) (exec (.vmac k xa xb xc w1) s) ∧
    queues 0x2B (fnOf w1) (exec (.vkcmp k xa xb xc w1) s) ∧ queues 0x2C 0 (exec (.psetn k xa xb xc w1) s) ∧
    queues 0x2C 1 (exec (.pand k xa xb xc w1) s) ∧ queues 0x2C 2 (exec (.por k xa xb xc w1) s) ∧
    queues 0x2C 3 (exec (.pandn k xa xb xc w1) s) ∧ queues 0x2C 4 (exec (.pnot k xa xb xc w1) s) ∧
    queues 0x2C 5 (exec (.pld k xa xb xc w1) s) ∧ queues 0x2C 6 (exec (.pst k xa xb xc w1) s) ∧
    queues 0x2D 0 (exec (.vredSum k xa xb xc w1) s) ∧ queues 0x2D 1 (exec (.vredMin k xa xb xc w1) s) ∧
    queues 0x2D 2 (exec (.vredMax k xa xb xc w1) s) ∧ queues 0x2D 3 (exec (.vredSealAdd k xa xb xc w1) s) ∧
    queues 0x2D 4 (exec (.vredSealSubtract k xa xb xc w1) s) ∧ queues 0x2E (fnOf w1) (exec (.vtbl k xa xb xc w1) s) ∧
    checked 0x2C 7 (exec (.pcnt k xa xb xc w1) s) fun i =>
      if queueRoom k s ≤ (s.core k).vops.length ∨ (s.core k).vops.any (fun o => decide (o.st = .queued) || i.op.waitsFor o) then exec (.pcnt k xa xb xc w1) s = .next c
      else exec (.pcnt k xa xb xc w1) s =
        commitsD k 2 xa (BitVec.ofNat 20 ((List.range i.op.vcnt).filter (fun e => ((s.bent (k / 2)).p |> fun p => tget 0 p i.op.xb).getLsbD e)).length) (vecFinished k i.op.vcnt c)

/-- R97, R100, R324 to R326, R333, R334, R336, R337: how queued vector instructions run. The oldest queued one starts, or goes on, once it waits for no earlier one, a pipe of its
class is free and in split execution it is its turn; with no element at fault it finishes, leaving the queue, VSTART at its count and VDONE full, after as many replays as
residue checks of its pipe failed; a third failure writes nothing and retires the bent; with a faulting element it stops, suspended. Finished, an unmasked VADD on
words has added its two groups, element by element, and written nothing else of the bent's registers. -/
def Obligations.VectorProgress : Prop :=
  ∀ (k : CoreIx) (s : State),
    (∀ o before rest, nextQueued (s.core k).vops = some (before, o, rest) → (s.core k).run ≠ .stopped → before.all (fun e => !o.waitsFor e) = true →
      vecPipeFree k (vecClass o.lop) s = true → vecOthersTurn k s = false →
      exec (.vectorStart k) s = .next ((s.setBent (k / 2) { s.bent (k / 2) with lastVop := decide ((k : Nat) % 2 = 1) }).setCore k
        { s.core k with vops := before ++ { o with st := .running } :: rest })) ∧
    (∀ o os fails, (s.core k).vops = o :: os → o.st = .running → fails.val < 3 →
      let z := if vecChecked k s then replays k fails.val s else s
      (runVec k o z.drawn).fault = none → (runVec k o z.drawn).stall = none →
      ∃ t, exec (.vectorFinish { core := k, fails := fails }) s = .next t ∧ (t.core k).vops = os ∧ (t.core k).vstart = BitVec.ofNat 20 o.vcnt ∧ (t.core k).vdone = BitVec.allOnes 128 ∧
        t.arch k = s.arch k ∧ ∀ j, j ≠ (k : Nat) → t.core j = s.core j) ∧
    (vecChecked k s = true → exec (.vectorFinish { core := k, fails := 3 }) s = .next (retireBent (k / 2) 4 (logErr true 0x0015 0 (s.physOf (k / 2)) 0 0 0 (replays k 2 s)))) ∧
    (∀ o os e f, (s.core k).vops = o :: os → o.st = .running → (∀ v ∈ os, v.st ≠ .suspended) → (runVec k o s.drawn).fault = some (e, f) →
      ∃ t o', exec (.vectorStop k) s = .next t ∧ (t.core k).vops = o' :: os ∧ o'.st = .suspended ∧ o'.trap = some f ∧ o'.start ≤ e ∧ t.arch k = s.arch k) ∧
    (∀ o os, (s.core k).vops = o :: os → o.st = .running → o.lop = 0x24 → o.fd = .word → o.fb = .word → o.fc = .word → o.pm = false → o.start = 0 → o.done = 0 → 1 ≤ o.g → o.vcnt ≤ 128 * o.g →
      (o.xb = o.xa ∨ o.xb + o.g ≤ o.xa ∨ o.xa + o.g ≤ o.xb) → (o.xc = o.xa ∨ o.xc + o.g ≤ o.xa ∨ o.xa + o.g ≤ o.xc) →
      (∀ e, e < o.vcnt → tget .good (s.bent (k / 2)).vBad (128 * o.xb + e) = .good ∧ tget .good (s.bent (k / 2)).vBad (128 * o.xc + e) = .good) →
      let v : State → Nat → Word := fun t i => tget 0 (t.bent (k / 2)).v i
      ∃ t, exec (.vectorFinish { core := k, fails := 0 }) s = .next t ∧ (t.core k).vops = os ∧ t.mem = s.mem ∧
        (∀ e, e < o.vcnt → v t (128 * o.xa + e) = v s (128 * o.xb + e) + v s (128 * o.xc + e)) ∧
        (∀ i, (i < 128 * o.xa ∨ 128 * o.xa + o.vcnt ≤ i) → v t i = v s i))

/-- R173, R216, R223 to R225, R230, R402: at its boundary a core takes PREEMPT_NOTICE before TIMER before EVENT, while M is 0 and no chain is open; words that are no
instruction trap ILLEGAL_INSTRUCTION. TIMER counts TICK to TICKCMP and sets the latch. The dispatcher pre-empts a job of lower priority for the reservation where that
meets it and not otherwise; 2 microseconds after a notice the core is asked to stop; a share that waits on a page gives way to ready work; a saved job that may run again
resumes whole on free powered bents. -/
def Obligations.BoundaryTraps : Prop :=
  ∀ (k : CoreIx) (s : State),
    let c := s.core k
    let entry : Nat → Word → State → Host.Outcome State Fault Refusal := fun cause detail s =>
      .next (dueStop k (takeTrap k { cause := cause, pc := c.arch.pc, addr := 0, detail := detail } false false s))
    (atBoundary k s = true → unreported c = (none, none) →
      (c.arch.masked = true ∨ c.chain ≠ [] → exec (.trapEntry k none) s = .next s) ∧
      (c.arch.masked = false → c.chain = [] →
        (∀ n, c.notice = some n → exec (.trapEntry k none) s = entry 22 (n.setWidth 20) s) ∧
        (c.notice = none → c.timer = true → exec (.trapEntry k none) s = entry 17 0 s) ∧
        (c.notice = none → c.timer = false → eventReady s k = true → exec (.trapEntry k none) s = entry 16 0 s) ∧
        (c.notice = none → c.timer = false → eventReady s k = false → exec (.trapEntry k none) s = .next s))) ∧
    (∀ w0 w1 s1, refusedWord k w0 w1 s = true → Issues k (instrLen w0) s s1 → exec (.trapEntry k (some (w0, w1))) s = trapsAt k 1 c.arch.pc w0 s s1) ∧
    (c.run ≠ .idle → ∃ t, exec (.timer k) s = .next t ∧ (t.core k).timer = true ∧ t.tick = c.arch.tickcmp ∧ t.arch k = c.arch ∧ t.mem = s.mem) ∧
    (reservation s = none → exec .preemption s = .next s) ∧
    (∀ gang p j job, reservation s = some (gang, p) → liveJobs s = [(j, job)] → job.preempted = false → movingJob s j = false →
      (p < job.prio → (freeBents s).length < gang → gang ≤ (freeBents s).length + (bentsOf job).length → exec .preemption s = .next (preemptJob (BitVec.ofNat 4 p) [] j s)) ∧
      (job.prio ≤ p ∨ gang ≤ (freeBents s).length → exec .preemption s = .next s)) ∧
    (beingPreempted k s = true → c.run = .running → c.chain ≠ [] → ((k : Nat) % 2 = 0 ∨ s.split k = true) → ∃ t, exec (.preemptNoticeTimeout k) s = .next t ∧ (t.core k).stop = max 1 c.stop ∧ t.arch k = c.arch) ∧
    (beingPreempted k s = false → exec (.preemptNoticeTimeout k) s = .next s) ∧
    (∀ l, 32 ≤ l → exec (.pageWaitPreempt l) s = .fault .noSuchUnit) ∧
    (∀ l j i job, l < 32 → (s.bent l).share = some (j, i) → s.job j = some job → job.preempted = false → movingJob s j = false →
      (pageWaits l s ≠ [] → workReady s job.prio = true → exec (.pageWaitPreempt l) s = .next (preemptJob (BitVec.ofNat 4 job.prio) (pageWaits l s) j s)) ∧
      (pageWaits l s = [] ∨ workReady s job.prio = false → exec (.pageWaitPreempt l) s = .next s)) ∧
    (∀ j job, s.job j = some job → job.preempted = true → job.ending = none → bentsOf job = [] → awaited s job = false → outranked s job.prio = false →
      s.power.phase = .ready → s.disp.fetching = true →
      (∀ ls s2, takeBents (savedShares job).length s = (some ls, s2) →
        exec (.shareRestore j) s = .next (restoreAll j (savedShares job) ls (s2.setJob j (some { job with preempted := false, awaits := [] })))) ∧
      (∀ s2, takeBents (savedShares job).length s = (none, s2) → exec (.shareRestore j) s = .next s2))

/-- R437, R438, R440 to R444, R447, R449, R450, R459, R460: a checkpoint keeps the registers and releases the stores; a rollback puts the registers of the checkpoint back and
drops the stores after it; the third rollback to one checkpoint, or a replay mismatch, retires the bent with its reason; a spare that passes its check takes over, one
that fails is retired with reason 6; CMPTEST arms on a paired bent only. -/
def Obligations.PairCommands : Prop :=
  ∀ (k : CoreIx) (s : State),
    let c := s.core k
    let p := s.physOf (k / 2)
    (s.split k = false → (k : Nat) % 2 = 0 → c.run ≠ .idle →
      (testArmed k s = false → c.arch.shadow = [] → ∃ t, exec (.checkpoint k) s = .next t ∧ (t.core k).ckpt = c.arch ∧ (t.core k).arch = c.arch ∧ (t.core k).since = 0 ∧
        (t.core k).stores = c.stores.map (fun e => { e with released := true }) ∧ t.mem = s.mem ∧ ∀ j, j ≠ (k : Nat) → t.core j = s.core j) ∧
      ((s.bent (k / 2)).share ≠ none → c.rolls < 2 →
        ∃ t, exec (.rollback k .miscompare) s = .next t ∧ (t.core k).arch = c.ckpt ∧ (t.core k).stores = c.stores.filter StoreEntry.released ∧ (t.core k).rolls = c.rolls + 1 ∧
          (t.phys p).state = (s.phys p).state ∧ ∀ j, j ≠ (k : Nat) → t.core j = s.core j) ∧
      ((s.bent (k / 2)).share ≠ none → 2 ≤ c.rolls → c.checkerRolls = 0 →
        ∃ t, exec (.rollback k .signature) s = .next t ∧ (t.phys p).state = 3 ∧ (t.phys p).reason = 1) ∧
      ((s.bent (k / 2)).share ≠ none → ∃ t, exec (.rollback k .replayMismatch) s = .next t ∧ (t.phys p).state = 3 ∧ (t.phys p).reason = 3)) ∧
    (∀ q l, s.pair.takeover.find? (fun t => decide (t.spare = q)) = some { lbent := l, spare := q, share := none } →
      (∃ t, exec (.spareCheckComplete q true) s = .next t ∧ (t.phys q).state = 1 ∧ t.bent l = { Bent.reset with service := some s.flash.running } ∧ t.core (2 * l) = Core.reset) ∧
      (∃ t, exec (.spareCheckComplete q false) s = .next t ∧ (t.phys q).state = 3 ∧ (t.phys q).reason = 6)) ∧
    (hostOpen 0 s = true →
      (∃ t, exec .pairClrcnt s = .next t ∧ (∀ q, (t.phys q).cnt = [] ∨ t.phys q = Phys.absent) ∧ t.cores = s.cores) ∧
      (∀ v : W32, let b := v.toNat / 65536 % 64
        let mode := v.toNat / 4 % 4
        ((s.phys b).state = 1 → mode ≠ 3 → ∃ t, exec (.cmptestArm v) s = .next t ∧ t.pair.armed = true ∧ t.pair.curBent = b ∧ t.pair.curMode = mode ∧ t.pair.staged = false ∧ t.cores = s.cores) ∧
        ((s.phys b).state ≠ 1 ∨ mode = 3 → ∃ t, exec (.cmptestArm v) s = .next t ∧ t.pair.cerr = true ∧ t.pair.armed = (s.pair.armed && !v.getLsbD 1) ∧ t.cores = s.cores)) ∧
      (∃ t, exec .cmptestDisarm s = .next t ∧ t.pair.armed = false ∧ t.pair.bent = s.pair.bent ∧ t.pair.mode = s.pair.mode ∧ t.cores = s.cores)) ∧
    (∀ e es, c.stores = e :: es →
      (e.released = true ∨ s.split k = true → ∃ t, exec (.storeDrain k) s = .next t ∧ (t.core k).stores = es ∧ t.arch k = c.arch ∧
        (∀ a, .yard a ∉ e.at_ → tget 0 t.mem.yard a = tget 0 s.mem.yard a) ∧
        (∀ l a, .bench a ∉ e.at_ → tget 0 (t.bent l).bench a = tget 0 (s.bent l).bench a) ∧
        (∀ a w, e.at_ = [.bench a] → e.words = [w] → tget 0 (t.bent (k / 2)).bench a = w) ∧
        ((∀ a, .dev a ∉ e.at_) → t.mem.words = s.mem.words ∧ t.mem.merge = s.mem.merge)) ∧
      (e.released = false → s.split k = false → exec (.storeDrain k) s = .next s))

/-- R57, R67 to R69, R75, R77, R86, R87, R106: a controller's write of words of a block is what the next read of it returns, the other words of the block and every other
block read as before, and they read the same after the merge buffer has retired the block. A request that waits joins those of its pseudo-channel; one that is served goes
after every earlier request of its class or a lower one, and the others go on waiting; ageing gives the oldest waiting request of class 2 to 4 the rank of class 1. (That a
served request follows an earlier one of its own rank is the model's choice, assumption 74.) Request ageing, refresh and the yard's arbitration change no word; of the
masters at a yard bank the one of best rank is served unless another has lost 16 cycles. A scrub that ends leaves the list with its summary written. -/
def Obligations.ControllerCommands : Prop :=
  ∀ (blk : Nat) (cls : Fin 5) (s : State),
    let newest : List (Nat × Word) → Nat → Option Word := fun ws o => (ws.reverse.find? (fun e => decide (e.1 = o))).map Prod.snd
    let ch := channelOf s.variant blk
    let waits := tget [] s.mem.waits ch
    let sound : Prop := isHole s (64 * blk) = false ∧ poisoned s blk = false ∧ tget [] s.mem.flips blk = [] ∧ tget 0 s.mem.dead ch = 0 ∧ s.mem.fetched = none
    (sound → s.mem.merge = [] → s.mem.ecc.armed = false → savedDraw s blk = none → waits = [] →
      ∀ ws : List (Nat × Word), (∀ e ∈ ws, e.1 < 64) →
        ∃ t u, exec (.controllerWrite blk ws { parity := 0, cls := cls, waits := false }) s = .next t ∧ exec (.mergeRetire blk) t = .next u ∧ u.mem.merge = [] ∧
          ∀ o, o < 64 → (blkRead t blk [o]).1 = some [(newest ws o).getD (tget 0 s.mem.words (64 * blk + o))] ∧
            (blkRead u blk [o]).1 = (blkRead t blk [o]).1 ∧
            ∀ b, b ≠ blk → (blkRead t b [o]).1 = (blkRead s b [o]).1 ∧ (blkRead u b [o]).1 = (blkRead s b [o]).1) ∧
    (sound → waits = [] →
      ∃ t, exec (.controllerRead blk { lane := none, cls := cls, waits := false }) s = .next t ∧ t.mem.words = s.mem.words ∧ t.mem.merge = s.mem.merge ∧ t.mem.poison = s.mem.poison ∧ t.errl = s.errl ∧ t.cores = s.cores) ∧
    (isHole s (64 * blk) = false → ∀ ws : List (Nat × Word),
      (∃ t, exec (.controllerRead blk { lane := none, cls := cls, waits := true }) s = .next t ∧ tget [] t.mem.waits ch = waits ++ [{ cls := cls.val, aged := false, req := .read blk none }] ∧ t.mem.words = s.mem.words ∧ t.mem.merge = s.mem.merge) ∧
      (∃ t, exec (.controllerWrite blk ws { parity := 0, cls := cls, waits := true }) s = .next t ∧ tget [] t.mem.waits ch = waits ++ [{ cls := cls.val, aged := false, req := .write blk ws 0 }] ∧ t.mem.words = s.mem.words ∧ t.mem.merge = s.mem.merge) ∧
      (∃ t, exec (.controllerRead blk { lane := none, cls := cls, waits := false }) s = .next t ∧ tget [] t.mem.waits ch = waits.filter (fun u => decide (cls.val < u.rank))) ∧
      (∃ t, exec (.controllerWrite blk ws { parity := 0, cls := cls, waits := false }) s = .next t ∧ tget [] t.mem.waits ch = waits.filter (fun u => decide (cls.val < u.rank)))) ∧
    (isHole s (64 * blk) = true → ∀ w, exec (.controllerRead blk { lane := none, cls := cls, waits := w }) s = .next s ∧ ∀ ws, exec (.controllerWrite blk ws { parity := 0, cls := cls, waits := w }) s = .next s) ∧
    (∀ c, c < s.variant.channels →
      (∃ t, exec (.dramRefresh c) s = .next t ∧ tget 0 t.mem.refresh c = tget 0 s.mem.refresh c + 1 ∧ t.mem.words = s.mem.words ∧ t.cores = s.cores) ∧
      (∀ (old rest : List Waiting) (w : Waiting), tget [] s.mem.waits c = old ++ w :: rest → (∀ u ∈ old, u.cls < 2 ∨ u.aged = true) → 2 ≤ w.cls → w.aged = false →
        ∃ t, exec (.requestAging c) s = .next t ∧ tget [] t.mem.waits c = old ++ { w with aged := true } :: rest ∧ ({ w with aged := true } : Waiting).rank = 1 ∧ t.mem.words = s.mem.words ∧ t.cores = s.cores)) ∧
    (∀ bank m n, bank < 32 → m < 50 → n < 50 → m ≠ n → yardRank bank m < yardRank bank n → yardLosses s bank n < 16 → yardLosses s bank m < 16 →
      ∃ t, exec (.yardAccess bank { masters := [m, n], hit := none }) s = .next t ∧ yardLosses t bank m = 0 ∧ yardLosses t bank n = yardLosses s bank n + 1 ∧ t.mem.yard = s.mem.yard) ∧
    (∀ bank turn, 32 ≤ bank → exec (.yardAccess bank turn) s = .fault .noSuchUnit) ∧
    (s.mem.scrub = [] → exec .scrubDone s = .next s) ∧
    (∀ e es a b, s.mem.scrub = e :: es → s.power.phase = .ready → s.mem.waits = [] → e.addr.toNat % 4096 ≤ 3904 →
      hostXl .dispatcher e.func none true (0, 0) e.addr.toNat (false, true) s = .at a → hostXl .dispatcher e.func none true (0, 0) (e.addr.toNat + 191) (false, true) s = .at b →
      ∃ t, exec .scrubDone s = .next t ∧ t.mem.scrub.length = es.length ∧ hostNat t a 4 = (e.last + 1 - e.first) % 2 ^ 32 ∧ t.cores = s.cores)

/-- R15, R61 to R64, R82 to R84, R101 to R103, R108, R563: a commit takes the staged fields where they are good and otherwise only sets its CERR. TRCTL with OP 0 recodes the
tracts of the range at once and with OP 1 leaves their code; either way they read zero when the operation is done; with nothing staged before it TRCTL commits nothing (that
its own fields count for its commit only then is the model's choice, assumption 75). A yard region's commit gives it its bounds; ECCCTL arms
on a block that exists; ERRL's POP drops the oldest entry and CLRCNT the counters. -/
def Obligations.RegisterCommits : Prop :=
  ∀ (v : W32) (s : State), hostOpen 0 s = true →
    let c := s.mem.memc
    let lo := c.trfirst.toNat
    let hi := c.trlast.toNat
    let inside : Nat → Prop := fun n => lo ≤ n ∧ n ≤ hi
    (c.staged = true → lo ≤ hi → hi < s.variant.tracts → c.busy = false →
      (∃ t, exec (.tractRecode v) s = .next t ∧ t.mem.memc.busy = true ∧ t.mem.memc.staged = false ∧ t.mem.memc.curFirst = lo ∧ t.mem.memc.curLast = hi ∧
        (∀ n, inside n → t.strong n = v.getLsbD 1) ∧ (∀ n, ¬ inside n → t.strong n = s.strong n) ∧ t.mem.words = s.mem.words) ∧
      (∃ t, exec (.tractZero v) s = .next t ∧ t.mem.memc.busy = true ∧ t.mem.memc.curFirst = lo ∧ t.mem.memc.curLast = hi ∧ (∀ n, t.strong n = s.strong n) ∧ t.mem.words = s.mem.words)) ∧
    (c.staged = true → hi < lo ∨ s.variant.tracts ≤ hi ∨ c.busy = true →
      (∃ t, exec (.tractRecode v) s = .next t ∧ t.mem.memc.cerr = true ∧ t.mem.memc.busy = c.busy ∧ t.mem.tcmap = s.mem.tcmap ∧ t.mem.words = s.mem.words) ∧
      (∃ t, exec (.tractZero v) s = .next t ∧ t.mem.memc.cerr = true ∧ t.mem.memc.busy = c.busy ∧ t.mem.words = s.mem.words)) ∧
    (c.staged = false →
      (∃ t, exec (.tractRecode v) s = .next t ∧ t.mem.memc.busy = c.busy ∧ t.mem.memc.cerr = (c.cerr && !v.getLsbD 8) ∧ t.mem.tcmap = s.mem.tcmap ∧ t.mem.words = s.mem.words) ∧
      (∃ t, exec (.tractZero v) s = .next t ∧ t.mem.memc.busy = c.busy ∧ t.mem.memc.cerr = (c.cerr && !v.getLsbD 8) ∧ t.mem.tcmap = s.mem.tcmap ∧ t.mem.words = s.mem.words)) ∧
    (c.busy = true → s.power.phase ≠ .dormant → ∃ t, exec .tractOperationDone s = .next t ∧ t.mem.memc.busy = false ∧ t.mem.memc.done = BitVec.ofNat 17 (c.curLast + 1 - c.curFirst) ∧
      (∀ a, c.curFirst ≤ a / 2097152 → a / 2097152 ≤ c.curLast → tget 0 t.mem.words a = 0 ∧ poisoned t (a / 64) = false) ∧
      (∀ a, a / 2097152 < c.curFirst ∨ c.curLast < a / 2097152 → tget 0 t.mem.words a = tget 0 s.mem.words a ∧ poisoned t (a / 64) = poisoned s (a / 64))) ∧
    (∀ (m : Fin 50) (r : Fin 8), m ≠ 48 → (s.region m r).staged = true →
      ((s.region m r).stBase.toNat ≤ (s.region m r).stLim.toNat → ∃ t, exec (.yardRegionCommit m r v) s = .next t ∧ (t.region m r).base = (s.region m r).stBase ∧
        (t.region m r).lim = (s.region m r).stLim ∧ (t.region m r).en = v.getLsbD 31 ∧ (t.region m r).staged = false ∧ t.cores = s.cores) ∧
      ((s.region m r).stLim.toNat < (s.region m r).stBase.toNat → ∃ t, exec (.yardRegionCommit m r v) s = .next t ∧ (t.region m r).base = (s.region m r).base ∧
        (t.region m r).lim = (s.region m r).lim ∧ (t.region m r).cerr = true ∧ t.cores = s.cores)) ∧
    (∀ r : Fin 8, exec (.yardRegionCommit 48 r v) s = .next s) ∧
    (isHole s s.mem.ecc.addr.toNat = true → ∃ t, exec (.eccflipArm v) s = .next t ∧ t.mem.ecc.cerr = true ∧ t.mem.words = s.mem.words) ∧
    (isHole s s.mem.ecc.addr.toNat = false → v.getLsbD 6 = false → v.toNat / 2 % 32 ≤ 25 → ∃ t, exec (.eccflipArm v) s = .next t ∧ t.mem.ecc.armed = true ∧
      t.mem.ecc.curBlk = s.mem.ecc.addr.toNat / 64 ∧ t.mem.ecc.curMask = s.mem.ecc.mask ∧ t.mem.words = s.mem.words) ∧
    (∃ t, exec .eccflipDisarm s = .next t ∧ t.mem.ecc.armed = false ∧ t.mem.ecc.addr = s.mem.ecc.addr ∧ t.mem.words = s.mem.words) ∧
    (∃ t, exec .errlPop s = .next t ∧ t.errl.ring = s.errl.ring.drop 1 ∧ t.errl.cnt = s.errl.cnt ∧ t.mem = s.mem) ∧
    (∃ t, exec .errlClrcnt s = .next t ∧ t.errl.cnt = [] ∧ t.errl.ring = s.errl.ring ∧ t.mem = s.mem)

/-- R6 to R10, R19, R108, R347, R348, R351, R352, R358, R361, R374, R459, R498, R528, R530, R536: a host write of a register. An access that is not aligned, or to a module in
dormant, is an unsupported request; before READY the PF serves IDENT and STWD alone; a reserved value leaves its field, a bit written 1 clears a latched flag, and a
read-only word stays. -/
def Obligations.RegisterWrites : Prop :=
  ∀ (f : FuncIx) (off : BitVec 26) (v : W32) (s : State),
    let wr : RegSpace → Host.Outcome State Fault Refusal := fun sp => exec (.registerWrite f sp off v) s
    let pf : Nat → Host.Outcome State Fault Refusal := fun n => exec (.registerWrite 0 .bar0 (BitVec.ofNat 26 n) v) s
    let cfg : Nat → Host.Outcome State Fault Refusal := fun n => exec (.registerWrite f .config (BitVec.ofNat 26 n) v) s
    let refused : Host.Outcome State Fault Refusal → Prop := fun out => ∃ t, out = .next t ∧ t.port.ur = true ∧ t.cores = s.cores ∧ t.mem = s.mem ∧ t.funcs = s.funcs ∧ t.stwd = s.stwd
    let p := s.power
    let hi : BitVec 10 := v.extractLsb' 16 10
    let lo : BitVec 10 := v.extractLsb' 0 10
    let limit : BitVec 10 → BitVec 10 → BitVec 10 := fun old new => if 60 ≤ new.toNat ∧ new.toNat ≤ 720 then new else old
    (off.toNat % 4 ≠ 0 → refused (wr .bar0) ∧ wr .bar4 = .next s ∧ wr .config = .next s) ∧
    (off.toNat % 4 = 0 → p.phase = .dormant → refused (wr .bar0) ∧ refused (wr .bar4)) ∧
    (off.toNat % 4 = 0 → s.port.cfg = false ∨ (s.fn f).enabled = false ∨ reached f s = false → wr .config = .next s) ∧
    (p.phase = .raised → s.port.cfg = true → f = 0 → off.toNat % 4 = 0 → off.toNat < 0x70000 ∨ 0x80000 ≤ off.toNat → wr .bar0 = .next s) ∧
    (p.phase = .raised → s.port.cfg = true → pf 0x70014 = .next { s with stwd := { s.stwd with arg0 := v } }) ∧
    (hostOpen 0 s = true →
      (f = 0 → off.toNat % 4 = 0 → off.toNat < 0x1000 → wr .bar0 = .next s) ∧
      pf 0x1004 = .next { s with power := { p with idle := v.extractLsb' 0 16 } } ∧
      pf 0x1010 = .next { s with power := { p with poll := v.extractLsb' 0 16 } } ∧
      pf 0x30010 = .next { s with power := { p with cap := limit p.cap lo, brakecap := limit p.brakecap hi } } ∧
      (80 ≤ v.toNat % 256 → v.toNat % 256 ≤ 100 → pf 0x30014 = .next { s with power := { p with tthr := v.extractLsb' 0 8 } }) ∧
      (v.toNat % 256 < 80 ∨ 100 < v.toNat % 256 → pf 0x30014 = .next s) ∧
      pf 0x30018 = .next { s with power := { p with clkForced := p.clkForced && !v.getLsbD 4, stopPrev := p.stopPrev && !v.getLsbD 3, thermSeen := p.thermSeen && !v.getLsbD 2, brakeSeen := p.brakeSeen && !v.getLsbD 1, warnSeen := p.warnSeen && !v.getLsbD 0 } } ∧
      pf 0x20000 = .next { s with errl := { s.errl with ovf := s.errl.ovf && !v.getLsbD 2, ue := s.errl.ue && !v.getLsbD 1 } } ∧
      pf 0x20008 = .next { s with errl := { s.errl with vec := v.extractLsb' 16 11, ueie := v.getLsbD 1, ceie := v.getLsbD 0 } } ∧
      (∃ t, pf 0x10010 = .next t ∧ t.mem.memc.trfirst = v.extractLsb' 0 16 ∧ t.mem.memc.staged = true ∧ t.mem.words = s.mem.words ∧ t.cores = s.cores) ∧
      (v.getLsbD 1 = false → pf 0x50000 = .next { s with pair := { s.pair with nosplit := v.getLsbD 0 } }) ∧
      pf 0x40000 = .next { s with scarf := { s.scarf with lostSeen := s.scarf.lostSeen &&& ~~~ (v.extractLsb' 0 8) } }) ∧
    (s.port.cfg = true → (s.fn f).enabled = true → reached f s = true →
      (v.getLsbD 2 = false → ∃ t, cfg 0x04 = .next t ∧ (t.fn f).bme = false ∧ t.cores = s.cores ∧ t.mem = s.mem) ∧
      (v.getLsbD 2 = true → ∃ t, cfg 0x04 = .next t ∧ (t.fn f).bme = true ∧ t.cores = s.cores ∧ t.mem = s.mem) ∧
      (∃ t, cfg 0x50 = .next t ∧ (t.fn f).msixEn = v.getLsbD 31 ∧ (t.fn f).fmask = v.getLsbD 30 ∧ t.cores = s.cores ∧ t.mem = s.mem) ∧
      (f = 0 → s.port.vfEn = false → isMember s = false → v.toNat % 65536 ≤ 63 → cfg 0x258 = .next { s with port := { s.port with numVfs := v.extractLsb' 0 16 } }))

/-- R6, R353 to R357, R361, R563: a good window commit puts the staged base, space and context in force, a bad one sets CERR and leaves them. A container written through
SPACE 0 to a clean block is what a read then returns; a write with other byte enables or bits above 19 sets FAULT and writes nothing, and so does one with EP; SPACE 1
reaches the yard where its region allows it. In dormant an access is an unsupported request, and so is a register access that is not 32 aligned bits. -/
def Obligations.Aperture : Prop :=
  ∀ (f : FuncIx) (s : State),
    let w := (s.fn f).win
    let bad : W32 → Prop := fun v =>
      let sp := v.toNat / 2 % 4
      (isMember s = true ∧ sp = 2) ∨ (sp = 0 ∧ (f ≠ 0 ∨ inCascade s (w.stBase.toNat / 2 ^ 37) = false)) ∨ (sp = 1 ∧ w.stBase ≠ 0) ∨
        (sp = 2 ∧ ∀ c, s.ctx (v.toNat / 65536 % 4096) = some c → c.func ≠ f)
    let open_ := s.power.phase = .ready ∧ (s.fn f).enabled = true
    (hostOpen f s = true → ∀ v : W32,
      (¬ bad v → ∃ t, exec (.windowCommit f v) s = .next t ∧ (t.fn f).win.base = w.stBase ∧ (t.fn f).win.space.toNat = v.toNat / 2 % 4 ∧
        (t.fn f).win.ctx.toNat = v.toNat / 65536 % 4096 ∧ (t.fn f).win.staged = false ∧ t.mem = s.mem ∧ t.cores = s.cores) ∧
      (bad v → ∃ t, exec (.windowCommit f v) s = .next t ∧ (t.fn f).win.cerr = true ∧ (t.fn f).win.base = w.base ∧ (t.fn f).win.space = w.space ∧
        (t.fn f).win.ctx = w.ctx ∧ t.mem = s.mem ∧ t.cores = s.cores)) ∧
    (∀ (off v : W32) (be : BitVec 4) (ep : Bool), open_ →
      (w.space = 0 → isLocal s (winTarget w off) = true → isHole s (localOf (winTarget w off)) = false → poisoned s (localOf (winTarget w off) / 64) = false →
        tget [] s.mem.flips (localOf (winTarget w off) / 64) = [] → tget 0 s.mem.dead (channelOf s.variant (localOf (winTarget w off) / 64)) = 0 → s.mem.merge = [] → s.mem.ecc.armed = false → s.mem.fetched = none →
        v.toNat < 2 ^ 20 → ∃ t u, exec (.bar2Write f off v 15 false) s = .next t ∧ exec (.bar2Read f off) t = .next u ∧ u.port.data = v ∧ u.port.ep = false ∧ u.port.ur = false ∧ t.cores = s.cores) ∧
      (w.space ≠ 3 → be ≠ 15 ∨ 2 ^ 20 ≤ v.toNat → ∃ t, exec (.bar2Write f off v be false) s = .next t ∧ (t.fn f).win.fault = true ∧ t.mem = s.mem ∧ t.cores = s.cores) ∧
      (∃ t, exec (.bar2Write f off v be true) s = .next t ∧ tget 0 t.port.aer 1 = tget 0 s.port.aer 1 + 1 ∧ t.mem = s.mem ∧ t.cores = s.cores) ∧
      (w.space = 1 → winTarget w off < 2 ^ 25 → v.toNat < 2 ^ 20 →
        (yardAllows s 49 f (winTarget w off) 1 .write = true → ∃ t, exec (.bar2Write f off v 15 false) s = .next t ∧ tget 0 t.mem.yard (winTarget w off) = v.setWidth 20 ∧
          (∀ a, a ≠ winTarget w off → tget 0 t.mem.yard a = tget 0 s.mem.yard a) ∧ t.mem.words = s.mem.words) ∧
        (yardAllows s 49 f (winTarget w off) 1 .write = false → ∃ t, exec (.bar2Write f off v 15 false) s = .next t ∧ (t.fn f).win.fault = true ∧ t.mem = s.mem)) ∧
      (w.space = 1 → winTarget w off < 2 ^ 25 → yardAllows s 49 f (winTarget w off) 1 .read = true → tget .good s.mem.yardBad (winTarget w off) = .good →
        ∃ t, exec (.bar2Read f off) s = .next t ∧ t.port.data = (tget 0 s.mem.yard (winTarget w off)).setWidth 32 ∧ t.mem = s.mem)) ∧
    (∀ (off v : W32) (be : BitVec 4) (ep : Bool), s.power.phase = .dormant →
      (∃ t, exec (.bar2Read f off) s = .next t ∧ t.port.ur = true ∧ t.mem = s.mem) ∧ ∃ t, exec (.bar2Write f off v be ep) s = .next t ∧ t.port.ur = true ∧ t.mem = s.mem) ∧
    (∀ (off : BitVec 26) (n : Nat),
      (n = 4 ∧ off.toNat % 4 = 0 → exec (.unsupportedAccess f off n) s = .next s) ∧
      (n ≠ 4 ∨ off.toNat % 4 ≠ 0 → ∃ t, exec (.unsupportedAccess f off n) s = .next t ∧ t.port.ur = true ∧ tget 0 t.port.aer 3 = tget 0 s.port.aer 3 + 1 ∧ t.mem = s.mem))

/-- R358 to R360, R363, R366, R566: unmasking a vector sends the message it held, with the address and data it now holds; Bus Master Enable lets what waited go; L1 is entered
only with ASPM on and no Translation Request outstanding. A link that has trained is up, out of L1 and in Flit mode at 64 GT/s, and nothing but the port changes (its width, rate
and mode are free values, assumption 97). An error is counted; a failed read is logged with its requester; a completion brings the bytes it carries and no
others. -/
def Obligations.PortEvents : Prop :=
  ∀ (f : FuncIx) (s : State),
    let fn := s.fn f
    (∀ vec : BitVec 11, hostOpen f s = true → vec.toNat < vectorCount f →
      let e := tget Vector.reset fn.vec vec.toNat
      (e.mask = true → fn.fmask = false → e.pba = true → fn.msixEn = true → fn.bme = true → ∃ t, exec (.vectorUnmask f vec) s = .next t ∧
        t.sent = s.sent ++ [{ func := f, vec := vec.toNat, addr := e.addr, data := e.data }] ∧ (tget Vector.reset (t.fn f).vec vec.toNat).pba = false ∧ t.mem = s.mem) ∧
      (e.pba = false ∨ fn.fmask = true → ∃ t, exec (.vectorUnmask f vec) s = .next t ∧ (tget Vector.reset (t.fn f).vec vec.toNat).mask = false ∧ t.sent = s.sent ∧ t.mem = s.mem)) ∧
    (fn.enabled = true → ∃ t, exec (.busMasterEnable f) s = .next t ∧ (t.fn f).bme = true ∧ (∀ w ∈ t.port.waits, w.1 ≠ (f : Nat)) ∧ t.mem = s.mem ∧ t.cores = s.cores) ∧
    (∀ v, fn.enabled = true → s.port.waits = [((f : Nat), v)] → fn.msixEn = true → v < vectorCount f → fn.fmask = false → (tget Vector.reset fn.vec v).mask = false →
      ∃ t, exec (.busMasterEnable f) s = .next t ∧ t.sent = s.sent ++ [{ func := f, vec := v, addr := (tget Vector.reset fn.vec v).curAddr, data := (tget Vector.reset fn.vec v).curData }]) ∧
    (fn.enabled = false → exec (.busMasterEnable f) s = .next s) ∧
    (s.port.up = true → s.port.aspm = true → s.ats.asked = [] → exec .aspmL1Entry s = .next { s with port := { s.port with l1 := true } }) ∧
    (s.port.up = false ∨ s.port.aspm = false ∨ s.ats.asked ≠ [] → exec .aspmL1Entry s = .next s) ∧
    (∃ width rate flit, exec .pcieLinkUp s = .next { s.drawn with port := { s.port with up := true, l1 := false, width := width, rate := rate, flit := flit } } ∧ (rate = .g64 → flit = true)) ∧
    (let counts : Nat → Host.Outcome State Fault Refusal → Prop := fun n out => ∃ t, out = .next t ∧ tget 0 t.port.aer n = tget 0 s.port.aer n + 1 ∧
       (∀ i, i ≠ n → tget 0 t.port.aer i = tget 0 s.port.aer i) ∧ t.mem = s.mem ∧ t.cores = s.cores ∧ t.host = s.host
     counts 4 (exec .unexpectedCompletion s) ∧ (ecrcChecked s = true → counts 5 (exec .ecrcError s)) ∧ (ecrcChecked s = false → exec .ecrcError s = .next s) ∧ counts 6 (exec .malformedTlp s) ∧ counts 0 (exec .receiverError s)) ∧
    (∀ (addr : BitVec 64) (ctx : BitVec 12) (va : W40), s.errl.ring.length < 1024 →
      let fails : Nat → Nat → Host.Outcome State Fault Refusal → Prop := fun n i out => ∃ t, out = .next t ∧ tget 0 t.port.aer i = tget 0 s.port.aer i + 1 ∧ addr.toNat ∈ t.hostBad ∧
        t.errl.ring = s.errl.ring ++ [{ code := 0x0045, kind := 7, unit := f, addr := va.toNat, detail := n, ctx := ctx.toNat, time := s.time, ue := true }] ∧ t.mem = s.mem ∧ t.host = s.host
      (timeoutOff s = false → fails 2 2 (exec (.completionTimeout f addr ctx va) s)) ∧ (timeoutOff s = true → exec (.completionTimeout f addr ctx va) s = .next s) ∧
      fails 1 7 (exec (.poisonedTlpReceived f addr ctx va) s)) ∧
    (∀ (addr : BitVec 64) (all : List Byte), let data := all.take (maxRead s); ∃ t, exec (.readCompletion f addr all) s = .next t ∧
      (∀ i b, data[i]? = some b → hostByteAt t (addr.toNat + i) = b ∧ addr.toNat + i ∉ t.hostBad) ∧
      (∀ a, (a < addr.toNat ∨ addr.toNat + data.length ≤ a) → hostByteAt t a = hostByteAt s a ∧ (a ∈ t.hostBad ↔ a ∈ s.hostBad)) ∧ t.mem = s.mem ∧ t.cores = s.cores)

/-- R17, R63, R348, R352, R361, R364, R365, R384: a PF reset, a Hot Reset and a link that goes down put every function back to its reset values, not ready, end every job and
drop every context and queue, and recode every tract strong to be zeroed; a VF's reset does so for that VF alone. A reset's end makes the function ready again. Before the
module is raised only the link itself is down and configuration space at its reset values. (That Max_Payload_Size stays over an FLR, and the reset values of the
PASID, Page Request and ASPM controls, are the family's, assumptions 10 and 76.) -/
def Obligations.Resets : Prop :=
  ∀ s : State,
    let raised := s.power.phase = .ready ∨ s.power.phase = .dormant
    let whole : State → Prop := fun t => (∀ f, f < 64 → t.fn f = { Func.reset f with cfg := (t.fn f).cfg, enabled := decide (f = 0), resetting := true }) ∧ t.port.vfEn = false ∧ t.port.numVfs = 0 ∧ t.port.pasidEn = false ∧ t.port.priEn = false ∧ t.ats.opra = 0 ∧
      (∀ j job, t.job j = some job → 64 ≤ job.func) ∧ (∀ n c, t.ctx n = some c → 64 ≤ c.func) ∧ (∀ n, t.strong n = true) ∧
      t.mem.memc.busy = true ∧ t.mem.memc.curFirst = 0 ∧ t.mem.memc.curLast = s.variant.tracts - 1 ∧ t.flash = s.flash ∧ t.variant = s.variant
    let kept : Nat → State → Prop := fun f t => ∀ off, cfgReg f off t = if off = 0x68 then (cfgReset f off &&& ~~~0xE0#32) ||| (cfgReg f off s &&& 0xE0#32) else cfgReset f off
    let unconfigured := s.setFn 0 { s.fn 0 with cfg := [] }
    (raised → twf none s.disp.jobs = true → twf none s.ctxs = true →
      (∃ t, exec .pfFlr s = .next t ∧ whole t ∧ (∀ f, f < 64 → kept f t) ∧ t.port.up = s.port.up ∧ t.port.aspm = s.port.aspm) ∧
      (∃ t, exec .hotReset s = .next t ∧ whole t ∧ (∀ off, cfgReg 0 off t = cfgReset 0 off) ∧ t.port.up = s.port.up ∧ t.port.aspm = false) ∧
      (∃ t, exec .pcieLinkDown s = .next t ∧ whole t ∧ (∀ off, cfgReg 0 off t = cfgReset 0 off) ∧ t.port.up = false ∧ t.port.aspm = false)) ∧
    (¬ raised → exec .pfFlr s = .next s ∧ exec .hotReset s = .next s ∧ exec .pcieLinkDown s = .next { unconfigured with port := { s.port with up := false, l1 := false, aspm := false, pasidEn := false, priEn := false }, ats := { s.ats with opra := 0 } }) ∧
    (∀ f : FuncIx, f ≠ 0 → raised → (s.fn f).enabled = true → twf none s.disp.jobs = true → twf none s.ctxs = true →
      ∃ t, exec (.vfFlr f) s = .next t ∧ t.fn f = { Func.reset f with cfg := (t.fn f).cfg, enabled := true, resetting := true } ∧ kept f t ∧ (∀ g, g ≠ (f : Nat) → (t.fn g).enabled = (s.fn g).enabled ∧ (t.fn g).ready = (s.fn g).ready ∧ (t.fn g).bme = (s.fn g).bme ∧ (t.fn g).win = (s.fn g).win) ∧
        (∀ j job, t.job j = some job → job.func ≠ (f : Nat)) ∧ (∀ n c, t.ctx n = some c → c.func ≠ (f : Nat)) ∧ t.mem.tcmap = s.mem.tcmap ∧ t.flash = s.flash) ∧
    (∀ f : FuncIx, (f = 0 ∨ (s.fn f).enabled = false) → exec (.vfFlr f) s = .next s) ∧
    (∀ f : FuncIx, (s.fn f).resetting = true → s.port.up = true → s.power.phase = .ready →
      (f ≠ 0 → ∃ t, exec (.resetComplete f) s = .next t ∧ (t.fn f).ready = (s.fn f).enabled ∧ (t.fn f).resetting = false ∧
        (∀ e ∈ s.mem.owner, e.2 = (f : Nat) → ∀ a, a / 2097152 = e.1 → tget 0 t.mem.words a = 0)) ∧
      (f = 0 → s.stwd.busy = false → ∃ t, exec (.resetComplete f) s = .next t ∧ (t.fn 0).ready = true ∧ (t.fn 0).resetting = false ∧ t.stwd = Stwd.reset ∧
        (s.mem.memc.flr = true → t.mem.memc.busy = false ∧ ∀ a, s.mem.memc.curFirst ≤ a / 2097152 → a / 2097152 ≤ s.mem.memc.curLast → tget 0 t.mem.words a = 0)) ∧
      (f = 0 → s.stwd.busy = true → exec (.resetComplete f) s = .next s))

/-- R122, R127 to R129, R490, R566: a Translation Response that is awaited is cached, unless an Invalidate Request stalls its page, or leads to a Page Request of a further
round, or after the fourth fails every access that waits; an access that may not use PRI fails at once; a response that is not awaited is discarded. Response Success asks
again, Invalid Request fails the accesses that wait for the page and Failure every waiting access of the function, and so does no response within 2 seconds, which is logged.
An Invalidate Request drops its entries and stalls its pages until its Completion, which waits for the buffered stores already translated. A finished claim leaves the table;
a takeover claims the entry and is logged. -/
def Obligations.HostPages : Prop :=
  ∀ (f : FuncIx) (pasid : Option (BitVec 20)) (page : BitVec 52) (s : State),
    let fails : State → Option (BitVec 20) → Nat → List Waiter → Nat → Prop := fun t pa pg ws reason => ∀ w ∈ ws,
      { func := f, pasid := pa, page := pg, who := w.who, addr := w.addr, reason := reason } ∈ t.ats.fails
    let failed : State → List Waiter → Nat → Prop := fun t ws reason => fails t pasid page.toNat ws reason ∧ ∀ r ∈ t.ats.reqs, r.on f pasid page.toNat = false
    let rest : State → Prop := fun t => t.mem = s.mem ∧ t.host = s.host ∧ t.cores = s.cores
    (s.ats.asked.find? (fun a => a.on f pasid page.toNat) = none → ∀ res, exec (.translationCompletion f pasid page res) s = .next s) ∧
    (∀ a, s.ats.asked.find? (fun a => a.on f pasid page.toNat) = some a →
      (∀ rd wr dest n, stalledPage s f pasid page.toNat = false → 1 ≤ n → n ≤ 512 → ∃ t, exec (.translationCompletion f pasid page (.present rd wr dest n)) s = .next t ∧ rest t ∧
        t.ats.atc.head? = some { func := f, pasid := pasid, page := page.toNat / n * n, read := rd, write := wr, dest := dest.toNat / n * n, span := n }) ∧
      (∀ rd wr dest n, stalledPage s f pasid page.toNat = true → ∃ t, exec (.translationCompletion f pasid page (.present rd wr dest n)) s = .next t ∧ rest t ∧ t.ats.atc = s.ats.atc) ∧
      (s.ats.reqs = [] → a.waiters ≠ [] → (∀ w ∈ a.waiters, w.prien = true) → s.port.priEn = true → 0 < s.ats.opra → s.ats.asked = [a] →
        ∃ t, exec (.translationCompletion f pasid page .notPresent) s = .next t ∧ rest t ∧
        t.ats.reqs = [{ func := f, pasid := pasid, page := page.toNat, round := 1, sent := true, waiters := a.waiters }]) ∧
      (s.ats.reqs.find? (fun r => r.on f pasid page.toNat) = none → ∃ t, exec (.translationCompletion f pasid page .notPresent) s = .next t ∧ rest t ∧
        fails t pasid page.toNat (a.waiters.filter (fun w => !w.prien || !s.port.priEn)) 15) ∧
      (∀ r, s.ats.reqs.find? (fun r => r.on f pasid page.toNat) = some r →
        (r.round < 4 → ∃ t, exec (.translationCompletion f pasid page .notPresent) s = .next t ∧ rest t ∧ ∃ q ∈ t.ats.reqs, q.on f pasid page.toNat = true ∧ q.round = r.round + 1 ∧ q.waiters = r.waiters) ∧
        (4 ≤ r.round → ∃ t, exec (.translationCompletion f pasid page .notPresent) s = .next t ∧ rest t ∧ failed t r.waiters 13))) ∧
    (∀ r, s.ats.reqs.find? (fun r => r.on f pasid page.toNat && r.sent) = some r →
      (s.power.phase ≠ .dormant →
        (∃ t, exec (.responseSuccess f pasid page) s = .next t ∧ rest t ∧ ∃ a ∈ t.ats.asked, a.on f pasid page.toNat = true) ∧
        (∃ t, exec (.responseInvalidRequest f pasid page) s = .next t ∧ rest t ∧ failed t r.waiters 11) ∧
        (∃ t, exec (.responseFailure f pasid page) s = .next t ∧ rest t ∧ (∀ q ∈ t.ats.reqs, q.func ≠ (f : Nat)) ∧
          ∀ q ∈ s.ats.reqs, q.func = (f : Nat) → fails t q.pasid q.page q.waiters 12)) ∧
      (s.errl.ring.length < 1024 → ∃ t, exec (.priTimeout f pasid page) s = .next t ∧ rest t ∧ failed t r.waiters 12 ∧
        ∀ w ws, r.waiters = w :: ws → t.errl.ring = s.errl.ring ++ [{ code := 0x0040, kind := 7, unit := f, addr := w.addr, detail := 0, ctx := w.ctx, time := s.time, ue := true }])) ∧
    (s.power.phase = .dormant → let held : Nat → State := fun n => { s with ats := { s.ats with held := s.ats.held ++ [(n, (f : Nat), pasid, page.toNat)] } }
      exec (.responseSuccess f pasid page) s = .next (held 0) ∧ exec (.responseInvalidRequest f pasid page) s = .next (held 1) ∧ exec (.responseFailure f pasid page) s = .next (held 2)) ∧
    (∀ n, ∃ t, exec (.atsInvalidateRequest f pasid page n) s = .next t ∧ rest t ∧ (∀ p, page.toNat ≤ p → p < page.toNat + n → stalledPage t f pasid p = true) ∧
      ∀ e ∈ t.ats.atc, e ∈ s.ats.atc ∧ ¬ (e.func = (f : Nat) ∧ (pasid = none ∨ e.pasid = pasid) ∧ e.page < page.toNat + n ∧ page.toNat < e.page + e.span)) ∧
    (s.ats.stalled = [] → exec .invalidateCompletion s = .next s) ∧
    (∀ e es, s.ats.stalled = e :: es →
      ((∀ c ∈ s.cores, ∀ x ∈ c.2.stores, x.func = e.func → ∀ a, .host a ∈ x.at_ → ∀ d ∈ e.dests, ¬ (d.1 ≤ a / 4096 ∧ a / 4096 < d.1 + d.2)) →
        exec .invalidateCompletion s = .next { s with ats := { s.ats with stalled := es } }) ∧
      (∀ k x a d, x ∈ (s.core k).stores → x.func = e.func → .host a ∈ x.at_ → d ∈ e.dests → d.1 ≤ a / 4096 → a / 4096 < d.1 + d.2 → exec .invalidateCompletion s = .next s)) ∧
    (∀ entry, (∃ t, exec (.firstTouchZeroingDone entry) s = .next t ∧ tget none t.mem.claims entry = none ∧ t.cores = s.cores) ∧
      (tget none s.mem.claims entry = none → exec (.firstTouchZeroingDone entry) s = .next s) ∧
      exec (.zbRewalk entry) s = .next s ∧
      ∀ kind unit ctx e s1, readEntry (entry / 2) s = (some e, s1) →
        (e.getLsbD 30 = true → e.getLsbD 31 = true → ∃ t, exec (.zbTakeover entry kind unit ctx) s = .next t ∧ tget none t.mem.claims entry = some e ∧ t.mem.words = s1.mem.words ∧ t.cores = s1.cores) ∧
        (e.getLsbD 30 = false ∨ e.getLsbD 31 = false → exec (.zbTakeover entry kind unit ctx) s = .next s1))

/-- R369, R370, R372 to R376, R514: a knock, a poll or a good commit of the doorbell page begins the reads of its groups. A read whose bitmap is 0 leaves its group inactive;
a doorbell word gives the queue its tail, where that lies in the ring, and otherwise disables it; a read that fails twice is logged and leaves the group inactive. A
commit with values staged takes them in; one of an enabled page at address 0 sets CERR; one with nothing staged commits nothing (log 75: which values the same write stages
is the model's choice). -/
def Obligations.Doorbells : Prop :=
  ∀ (f : FuncIx) (g : BitVec 10) (s : State),
    let r := s.group f g.toNat
    let d := (s.fn f).dbpg
    let rest : State → Prop := fun t => t.cores = s.cores ∧ t.mem = s.mem
    (hostOpen f s = true → d.en = true → isMember s = false →
      (∃ t, exec (.knockGroup f g) s = .next t ∧ rest t ∧ (t.group f g.toNat).reading = true ∧ (t.group f g.toNat).again = r.reading ∧
        ∀ n, n ≠ g.toNat → n < 1024 → t.group f n = s.group f n) ∧
      (∃ t, exec (.knockAll f) s = .next t ∧ rest t ∧ ∀ n, n < 1024 → (t.group f n).reading = true)) ∧
    (hostOpen f s = true → d.en = false ∨ isMember s = true → exec (.knockGroup f g) s = .next s ∧ exec (.knockAll f) s = .next s) ∧
    (s.power.poll ≠ 0 → s.power.phase = .ready → ∃ t, exec .poll s = .next t ∧ rest t ∧ ∀ n m, m < 1024 → (s.group n m).active = true → (t.group n m).reading = true) ∧
    (s.power.poll = 0 → exec .poll s = .next s) ∧
    (r.reading = true → r.failed = false → s.power.phase = .ready → d.en = true → ∀ a, hostXl .dispatcher f none true (0, 0) (d.base.toNat + 0x20000 + 4 * g.toNat) (true, false) s = .at a →
      (∀ b ∈ s.hostBad, b < a ∨ a + 4 ≤ b) →
      (hostNat s a 4 = 0 → r.again = false → exec (.groupRead f g) s = .next (s.setGroup f g.toNat { reading := false, again := false, active := false, failed := false })) ∧
      (∀ b a' sq, b < 32 → hostNat s a 4 = 2 ^ b → hostXl .dispatcher f none true (0, 0) (d.base.toNat + 128 * g.toNat) (true, false) s = .at a' → (∀ x ∈ s.hostBad, x < a' ∨ a' + 128 ≤ x) →
        s.sq (32 * g.toNat + b) = some sq → ownsSq f (32 * g.toNat + b) s = true → sq.disabled = false → s.cq (32 * g.toNat + b) = none → sq.cq ≠ 32 * g.toNat + b →
        let tail := hostNat s (a' + 4 * b) 4 % 65536
        (tail < sq.size → ∃ t, exec (.groupRead f g) s = .next t ∧ rest t ∧ t.sq (32 * g.toNat + b) = some { sq with tail := tail } ∧ (r.again = false → (t.group f g.toNat).active = true)) ∧
        (sq.size ≤ tail → ∃ t, exec (.groupRead f g) s = .next t ∧ rest t ∧ t.sq (32 * g.toNat + b) = some { sq with disabled := true }))) ∧
    (r.failed = true → s.power.phase = .ready → ∃ t, exec (.doorbellReadRetry f g false) s = .next t ∧ rest t ∧ (r.again = false → (t.group f g.toNat).active = false ∧ (t.group f g.toNat).reading = false) ∧
      (s.errl.ring.length < 1024 → t.errl.ring = s.errl.ring ++ [{ code := 0x0047, kind := 5, unit := f, addr := g.toNat, detail := 0, ctx := 0, time := s.time, ue := true }])) ∧
    (hostOpen f s = true → d.staged = false → ∀ v : W32, ∃ t, exec (.doorbellPageCommit f v) s = .next t ∧ rest t ∧ (t.fn f).dbpg.base = d.base ∧ (t.fn f).dbpg.en = d.en ∧
      (t.fn f).dbpg.staged = true ∧ (t.fn f).dbpg.stEn = v.getLsbD 1 ∧ (t.fn f).dbpg.cerr = (d.cerr && !v.getLsbD 9)) ∧
    (hostOpen f s = true → d.staged = true → ∀ v : W32,
      (v.getLsbD 1 = true → d.stBase = 0 → ∃ t, exec (.doorbellPageCommit f v) s = .next t ∧ rest t ∧ (t.fn f).dbpg.cerr = true ∧ (t.fn f).dbpg.base = d.base ∧ (t.fn f).dbpg.en = d.en) ∧
      (v.getLsbD 1 = false ∨ d.stBase ≠ 0 → ∃ t, exec (.doorbellPageCommit f v) s = .next t ∧ rest t ∧ (t.fn f).dbpg.base = d.stBase ∧ (t.fn f).dbpg.en = v.getLsbD 1 ∧
        (v.getLsbD 1 = true → ∀ n, n < 1024 → (t.group f n).reading = true)))

/-- R377 to R384, R393, R397: an admin command whose named fields are right and whose other bytes are 0 has its effect and completes with status 0; a field at fault completes
it with INVALID_FIELD and the byte of the first such field, with no effect. -/
def Obligations.AdminCommands : Prop :=
  ∀ (f : FuncIx) (d : Descriptor) (s s1 : State), fetchSlot f d s = (true, s1) →
    let cid := dNat d 2 2
    let ends : Nat → Nat → State → Host.Outcome State Fault Refusal := fun status info t => .next (adminDone f cid status info t)
    let is : Nat → List (Nat × Nat) → Prop := fun opc named =>
      dByte d 0 = opc ∧ ∀ i, i < 64 → (∀ x ∈ (0, 1) :: (2, 2) :: named, i < x.1 ∨ x.1 + x.2 ≤ i) → dByte d i = 0
    let base := dNat d 16 8
    let q := dNat d 28 2
    let v := dNat d 30 2
    let own := q < 64 ∨ ownsSq f q s1 = false
    (is 0x80 [(16, 8), (24, 4), (28, 2), (30, 2), (32, 1), (34, 2)] → base ≠ 0 → base % 4096 = 0 → 64 ≤ q → q ≤ 32767 → s1.cq q = none → v / 2048 % 16 = 0 → v % 2048 < vectorCount f → dNat d 34 2 < 4096 →
      (dByte d 32 = 0 ∨ dNat d 34 2 ≠ 0) →
      (ringSize (dNat d 24 4) = true → exec (.createCq f d) s =
        ends 0 0 (s1.setCq q (some (Cq.new f (BitVec.ofNat 64 base) (dNat d 24 4) (BitVec.ofNat 11 v) (decide (32768 ≤ v)) (dByte d 32) (dNat d 34 2))))) ∧
      (ringSize (dNat d 24 4) = false → exec (.createCq f d) s = ends 0x0030 24 s1)) ∧
    (is 0x81 [(28, 2)] →
      (64 ≤ q → ownsCq f q s1 = true → (∀ n x, (n, some x) ∈ s1.disp.sq → x.cq ≠ q) →
        ∃ t, exec (.deleteCq f d) s = ends 0 0 t ∧ t.cq q = none ∧ ∀ n, n ≠ q → t.cq n = s1.cq n) ∧
      (ownsCq f q s1 = false → exec (.deleteCq f d) s = ends 0x0030 28 s1)) ∧
    (is 0x82 [(16, 8), (24, 4), (28, 2), (30, 2), (32, 1), (33, 1)] → base ≠ 0 → base % 4096 = 0 → ringSize (dNat d 24 4) = true → 64 ≤ q → q ≤ 32767 → s1.sq q = none →
      (ownsCq f v s1 = true → dByte d 32 < 8 → 1 ≤ dByte d 33 → dByte d 33 ≤ 16 → exec (.createSq f d) s =
        ends 0 0 (s1.setSq q (some (Sq.new f (BitVec.ofNat 64 base) (dNat d 24 4) v (dByte d 32) (dByte d 33))))) ∧
      (ownsCq f v s1 = false → exec (.createSq f d) s = ends 0x0030 30 s1)) ∧
    (is 0x83 [(28, 2)] →
      (own → exec (.deleteSq f d) s = ends 0x0030 28 s1) ∧
      (∀ sq, ¬ own → s1.sq q = some sq → sq.fetched = [] → s1.disp.jobs = [] → holdsFor q sq.cq s1 = false → ∃ t, exec (.deleteSq f d) s = .next t ∧ t.sq q = none) ∧
      (∀ sq j job, ¬ own → s1.sq q = some sq → sq.fetched = [] → (j, some job) ∈ s1.disp.jobs → job.sq = q →
        ∃ t, exec (.deleteSq f d) s = .next t ∧ t.sq q = some { sq with deleting := some (BitVec.ofNat 16 cid) })) ∧
    (is 0x84 [(16, 32)] → dNat d 16 2 < 4096 → ctxInUse (dNat d 16 2) s1 = false → (∀ c, s1.ctx (dNat d 16 2) = some c → c.func = (f : Nat)) → dNat d 18 2 < 8 → dNat d 18 2 % 4 ≠ 2 → dNat d 20 4 < 2 ^ 20 →
      dNat d 24 8 < 2 ^ 40 → rootBad s1 (dNat d 24 8) = false → dNat d 32 8 % 4096 = 0 → dNat d 40 8 < 0xF000000000 → dNat d 40 8 % 65536 = 0 →
      ∃ t, exec (.setContext f d) s = ends 0 0 t ∧ t.ctx (dNat d 16 2) = some { func := f, supv := d.getLsbD 144, htrap := d.getLsbD 145, prien := d.getLsbD 146, pasid := BitVec.ofNat 20 (dNat d 20 4), ptroot := BitVec.ofNat 40 (dNat d 24 8), hostBase := BitVec.ofNat 64 (dNat d 32 8), saveVa := BitVec.ofNat 40 (dNat d 40 8) } ∧ (∀ n, n ≠ dNat d 16 2 → t.ctx n = s1.ctx n) ∧ t.mem = s1.mem) ∧
    (is 0x85 [(16, 2)] → dNat d 16 2 < 4096 → ctxInUse (dNat d 16 2) s1 = false → windowUses f (dNat d 16 2) s1 = false →
      (∀ c, s1.ctx (dNat d 16 2) = some c → c.func = (f : Nat) → ∃ t, exec (.deleteContext f d) s = ends 0 0 t ∧ t.ctx (dNat d 16 2) = none ∧ ∀ n, n ≠ dNat d 16 2 → t.ctx n = s1.ctx n) ∧
      (s1.ctx (dNat d 16 2) = none → exec (.deleteContext f d) s = ends 0x0030 16 s1)) ∧
    (is 0x86 [(28, 2), (30, 2)] →
      (ownsSq f q s1 = false → exec (.abort f d) s = ends 0x0030 28 s1) ∧
      (ownsSq f q s1 = true → (∀ j, startedJob q v s1 = some j → exec (.abort f d) s = ends 0 1 (finishJob j (JobEnd.plain 0x0020 0) s1)) ∧
        (∀ sq, startedJob q v s1 = none → s1.sq q = some sq → (∀ x ∈ sq.fetched, dNat x 2 2 ≠ v) → exec (.abort f d) s = ends 0 0 s1))) ∧
    (is 0x87 [(16, 1), (20, 4), (24, 4), (28, 1), (32, 8)] →
      (f ≠ 0 → exec (.scrub f d) s = ends 0x0030 0 s1) ∧
      (f = 0 → dByte d 28 < 2 → dByte d 16 < 8 → inCascade s1 (dByte d 16) = true → dNat d 20 4 ≤ dNat d 24 4 → dNat d 24 4 < tractsOf s1 (dByte d 16) → exec (.scrub f d) s = .next (addScrub
        { func := 0, cid := BitVec.ofNat 16 cid, module := dByte d 16, first := dNat d 20 4, last := dNat d 24 4, rewrite := decide (dByte d 28 = 1), addr := BitVec.ofNat 64 (dNat d 32 8), lanes := 0 } s1))) ∧
    (is 0x88 [(16, 1), (20, 4), (24, 4), (28, 1)] → f = 0 → dByte d 16 < 64 → dByte d 28 = s1.straps.modId.toNat → dNat d 20 4 ≤ dNat d 24 4 → dNat d 24 4 < tractsOf s1 (dByte d 28) →
      let inside : Nat → Prop := fun n => dNat d 20 4 ≤ n ∧ n ≤ dNat d 24 4
      ∃ t, exec (.assignTracts f d) s = ends 0 0 t ∧ (∀ n, inside n → tget 0 t.mem.owner n = dByte d 16) ∧ (∀ n, ¬ inside n → tget 0 t.mem.owner n = tget 0 s1.mem.owner n) ∧
        (∀ a, inside (a / 2097152) → tget 0 t.mem.words a = 0) ∧ ∀ a, ¬ inside (a / 2097152) → tget 0 t.mem.words a = tget 0 s1.mem.words a)

/-- R378, R379, R391, R392, R395, R396, R567: the rings of the admin queue and the moderation of a CQ take effect where the staged values are good. A commit with nothing staged commits nothing (log 75). The oldest
entry held for a CQ goes to the slot at its tail, unless the CQ is full or the admin queue is off; a CQ whose page fails twice is disabled and drops what it holds; a moderated message is sent when its timer
ends. Shown where no commit or deletion waits. -/
def Obligations.CompletionQueues : Prop :=
  ∀ (q : BitVec 15) (c : Cq) (s : State), s.cq q.toNat = some c →
    let quietly := (∀ f, (s.fn f).admq.due = none) ∧ (∀ n x, (n, some x) ∈ s.disp.sq → x.deleting = none)
    let next := (c.tail + 1) % c.size
    (c.timer.isSome = true → 0 < c.n → ∃ t, exec (.moderationTimer q) s = .next t ∧ t.cq q.toNat = some { c with n := 0, timer := none } ∧ t.mem = s.mem ∧
      ((s.fn c.func).msixEn = true → c.vec.toNat < vectorCount c.func → (s.fn c.func).fmask = false → (tget Vector.reset (s.fn c.func).vec c.vec.toNat).mask = false → (s.fn c.func).bme = true →
        t.sent = s.sent ++ [{ func := c.func, vec := c.vec.toNat, addr := (tget Vector.reset (s.fn c.func).vec c.vec.toNat).curAddr, data := (tget Vector.reset (s.fn c.func).vec c.vec.toNat).curData }])) ∧
    (c.timer = none ∨ c.n = 0 → exec (.moderationTimer q) s = .next s) ∧
    (quietly → s.power.phase = .ready → retryEnding q.toNat s = s → ∀ e rest, c.held = e :: rest → c.disabled = false → c.retry = false →
      (next = c.head ∨ cqLive q.toNat c s = false → exec (.completionEntryWrite q) s = .next s) ∧
      (∀ a, next ≠ c.head → cqLive q.toNat c s = true → hostXl .dispatcher c.func none true (0, 0) (c.base.toNat + 32 * c.tail) (false, true) s = .at a → ∃ t c', exec (.completionEntryWrite q) s = .next t ∧
        hostNat t a 32 = entryBytes e ((s.sq e.sqid).elim 0 Sq.head) s.straps.modId.toNat c.phase ∧ (∀ b, (b < a ∨ a + 32 ≤ b) → hostByteAt t b = hostByteAt s b) ∧
        t.cq q.toNat = some c' ∧ c'.tail = next ∧ c'.held = rest ∧ c'.head = c.head ∧ c'.phase = (if next = 0 then !c.phase else c.phase) ∧ t.mem = s.mem)) ∧
    (quietly → s.power.phase = .ready → c.retry = true → c.held ≠ [] → ∃ t, exec (.cqWriteRetry q false) s = .next t ∧ t.cq q.toNat = some { c with disabled := true, retry := false, held := [] } ∧ t.mem = s.mem) ∧
    (c.retry = false → exec (.cqWriteRetry q true) s = .next s) ∧
    (next = c.head → c.held ≠ [] → (s.fn c.func).dbpg.en = true → s.power.phase = .ready → ownsCq c.func q.toNat s = true → ∀ a,
      hostXl .dispatcher c.func none true (0, 0) ((s.fn c.func).dbpg.base.toNat + 4 * q.toNat) (true, false) s = .at a → (∀ b ∈ s.hostBad, b < a ∨ a + 4 ≤ b) → hostNat s a 4 / 65536 < c.size →
      exec (.cqHeadRecheck q) s = .next (s.setCq q.toNat (some { c with head := hostNat s a 4 / 65536 }))) ∧
    (next ≠ c.head ∨ c.held = [] → exec (.cqHeadRecheck q) s = .next s) ∧
    (∀ (f : FuncIx) (v : W32), hostOpen f s = true → (s.fn f).admq.modStaged = true → (s.fn f).admq.cqmsel.toNat = q.toNat → ownsCq f q.toNat s = true → c.n = 0 → (v.toNat / 2 ^ 24 = 0 ∨ v.toNat / 4096 % 4096 ≠ 0) →
      ∃ t, exec (.moderationCommit f v) s = .next t ∧ t.cq q.toNat = some { c with count := v.toNat / 2 ^ 24, time := v.toNat / 4096 % 4096 } ∧ t.mem = s.mem) ∧
    (∀ (f : FuncIx) (v : W32), hostOpen f s = true → (s.fn f).admq.modStaged = true → (s.fn f).admq.cqmsel.toNat = q.toNat → (ownsCq f q.toNat s = false ∨ (v.toNat / 2 ^ 24 ≠ 0 ∧ v.toNat / 4096 % 4096 = 0)) →
      ∃ t, exec (.moderationCommit f v) s = .next t ∧ t.cq q.toNat = some c ∧ (t.fn f).admq.modCerr = true ∧ t.mem = s.mem) ∧
    (∀ (f : FuncIx) (v : W32), hostOpen f s = true → (s.fn f).admq.modStaged = false → ∃ t, exec (.moderationCommit f v) s = .next t ∧ t.cq q.toNat = some c ∧ (t.fn f).admq.modStaged = true ∧
      (t.fn f).admq.stCount.toNat = v.toNat / 2 ^ 24 ∧ (t.fn f).admq.stTime.toNat = v.toNat / 4096 % 4096 ∧ t.mem = s.mem) ∧
    (∀ (f : FuncIx) (v : W32), hostOpen f s = true → (s.fn f).admq.shownStaged = false → ∃ t, exec (.adminQueueCommit f v) s = .next t ∧ (t.fn f).admq.cur = (s.fn f).admq.cur ∧
      (t.fn f).admq.due = none ∧ (t.fn f).admq.staged = true ∧ t.disp = s.disp ∧ t.mem = s.mem) ∧
    (∀ (f : FuncIx) (v : W32), hostOpen f s = true → (s.fn f).admq.shownStaged = true → v.getLsbD 1 = true → (isMember s = true ∨ (s.fn f).admq.st.asq = 0 ∨ ringSize (s.fn f).admq.st.acqSize.toNat = false) →
      ∃ t, exec (.adminQueueCommit f v) s = .next t ∧ (t.fn f).admq.cerr = true ∧ (t.fn f).admq.cur = (s.fn f).admq.cur ∧ t.mem = s.mem) ∧
    (∀ (f : FuncIx) (v : W32), hostOpen f s = true → (s.fn f).admq.shownStaged = true → v.getLsbD 1 = false → adminBusy f s = false → s.sq f = none →
      ∃ t, exec (.adminQueueCommit f v) s = .next t ∧ (t.fn f).admq.cur.en = false ∧ (t.fn f).admq.due = none ∧
        t.sq f = some (Sq.new f (s.fn f).admq.st.asq (s.fn f).admq.st.asqSize.toNat f 0 1) ∧ t.mem = s.mem)

/-- R385, R386, R388, R399 to R401: a descriptor that has been fetched waits in its queue; a field at fault, or a NOP, completes the chosen descriptor without a start. A
NATIVE job of one bent starts its core at ENTRY with the registers R388 gives it, on a free bent of its own. -/
def Obligations.JobStarts : Prop :=
  ∀ s : State,
    (∀ (q : BitVec 15) (d : Descriptor) s1 sq, 64 ≤ q.toNat → fetchSlot q.toNat d s = (true, s1) → s1.sq q.toNat = some sq →
      let waits : State := s1.setSq q.toNat (some { sq with fetched := sq.fetched ++ [d] })
      (dByte d 0 = 0 → exec (.jobNop q d) s = .next waits) ∧ (dByte d 0 = 1 → exec (.native q d) s = .next waits) ∧
      (dByte d 0 = 2 → (dByte d 8 = 1 → exec (.sort (.fetch q d)) s = .next waits) ∧ (dByte d 8 = 2 → exec (.post (.fetch q d)) s = .next waits) ∧
        (dByte d 8 = 3 → exec (.accrue (.fetch q d)) s = .next waits) ∧ (dByte d 8 = 4 → exec (.reconcile (.fetch q d)) s = .next waits) ∧
        (dByte d 8 = 5 → exec (.convert (.fetch q d)) s = .next waits) ∧ (dByte d 8 = 6 → exec (.zero (.fetch q d)) s = .next waits))) ∧
    (s.power.phase ≠ .ready ∨ s.disp.fetching = false → exec .jobStart s = .next s) ∧
    (∀ s2, s.power.phase = .ready → s.disp.fetching = true → chooseQueue s = (none, s2) → exec .jobStart s = .next s2) ∧
    (∀ q sq d s2, s.power.phase = .ready → s.disp.fetching = true → chooseQueue s = (some (q, sq, d), s2) → restoreFirst sq.prio s2 = false →
      (∀ o, jobFault sq.func d s2 = some o → exec .jobStart s = .next (refuseJob q sq d (invalid q d o) s2)) ∧
      (jobFault sq.func d s2 = none → dByte d 0 = 0 → exec .jobStart s = .next (refuseJob q sq d (unstarted (dNat d 2 2) q 0 0) s2)) ∧
      (∀ r gs s3 l s4, jobFault sq.func d s2 = none → dByte d 0 = 1 → dByte d 6 = 1 → dByte d 7 = 0 → dNat d 16 8 = 0 → dNat d 40 8 = 0 → s2.ctx (dNat d 4 2) = some r → freeBents s2 ≠ [] →
        savePages q d (jobXl sq.func d s2) r.saveVa.toNat 16 s2 = .ok gs s3 → takeBents 1 s3 = (some [l], s4) →
        let n := s4.disp.next
        ∃ t job, exec .jobStart s = .next t ∧ t.job n = some job ∧ job.shares = [.on l] ∧ job.func = sq.func ∧ (t.bent l).share = some (n, 0) ∧ (t.bent l).ctxid = BitVec.ofNat 12 (dNat d 4 2) ∧
          (t.bent l).ptroot = r.ptroot ∧ (t.core (2 * l)).run = .running ∧ (t.core (2 * l + 1)) = Core.reset ∧
          let a := t.arch (2 * l)
          a.pc = BitVec.ofNat 40 (dNat d 32 8) ∧ a.regA 15 = 0xFFFFFFFFF0 ∧ a.regD 0 = 0 ∧ a.regD 1 = 1 ∧ a.ld = 0 ∧ a.sill = 0xFFFFFF0000 ∧ a.pl = (if d.getLsbD 9 then 1 else 0)))

/-- R389, R404, R409, R424, R425, R429: a service on its bents goes record by record: with none left it completes; a record that faults ends the job there; one that waits for
a host page keeps its place; COMMIT_POINT writes the unit of the journal at the next commit point. A ZERO job of one page leaves every word of the page 0. -/
def Obligations.ServiceRuns : Prop :=
  ∀ (j : Nat) (job : Job) (s : State),
    let runs : Nat → (ServiceStep → Instr) → Prop := fun svc row => serviceRuns svc j s = some job →
      (serviceOver job = true → pJournal job.param = false → ∀ port, exec (row (.run j port)) s = .next (finishJob j (JobEnd.plain 0 0) s)) ∧
      (serviceOver job = false → let out := exec (row (.run j 0)) s
        (∀ s2, serviceTurn job s = .stall s2 → out = .next s2) ∧
        (∀ x s2, serviceTurn job s = .fail x s2 → out = .next (finishJob j x s2)) ∧
        (∀ p s2, serviceTurn job s = .go p s2 → serviceOver { job with prog := p } = true → pJournal job.param = false → 1 < serviceFuel job →
          out = .next (finishJob j (JobEnd.plain 0 0) (s2.setJob j (some { job with prog := p })))))
    runs 1 .sort ∧ runs 2 .post ∧ runs 3 .accrue ∧ runs 4 .reconcile ∧ runs 5 .convert ∧ runs 6 .zero ∧
    (serviceRuns 0 j s = some job → pJournal job.param = true → serviceOver job = false → ∀ p s2, serviceTurn job s = .go p s2 → commitDue job job.prog p = true → serviceOver { job with prog := p } = false →
      exec (.commitPoint j) s = .next (writeUnit j false 0 (s2.setJob j (some { job with prog := p }))) ∧
      (s2.power.warn = false → ∃ t, exec (.commitPoint j) s = .next t ∧ t.steward.writes = s2.steward.writes + 1 ∧ ∃ x, t.job j = some x ∧ x.prog.commits = p.commits + 1)) ∧
    (serviceRuns 0 j s = some job → pJournal job.param = false → exec (.commitPoint j) s = .next s) ∧
    (∀ l g s2, serviceRuns 6 j s = some job → job.shares = [.on l] → (s2.core (2 * l)).stores = [] → (s2.core (2 * l + 1)).stores = [] → zeroSteps job.param = [1] → job.prog.pos = 0 → pNat job.param 32 1 = 0 → pJournal job.param = false →
      xlate (.core (2 * l)) (coreXl (2 * l) 2 s) .write (zeroRange job.param 0).1 1 s = .ok [.dev g] s2 → isLocal s2 g = true →
      ∃ t, exec (.zero (.run j 0)) s = .next t ∧ ∀ a, a / 65536 = localOf g / 65536 → tget 0 t.mem.words a = 0)

/-- R364, R493, R527 to R530, R550 to R555: what brings the module up and down. PRECHARGE at 44 V charges the stores and lets a stopped module raise again; BOOT runs a slot
that verifies, or enters recovery; RAISING needs main input, the reserve and firmware, and then clears the bents. PERST#, a supply loss and a safe stop take the main
rails: device memory, jobs, queues and contexts are gone, while the flash and the journal store with its dead lanes and retired list stay. -/
def Obligations.ComingUpAndDown : Prop :=
  ∀ (straps : Straps) (mv : Nat) (s : State),
    let lost : State → Prop := fun t => t.mem.words = [] ∧ t.mem.yard = [] ∧ t.disp = Disp.reset ∧ t.ctxs = [] ∧ t.cores = [] ∧ t.tick = 0 ∧ t.mem.dead = s.mem.dead ∧
      t.pair.retiredList = s.pair.retiredList ∧ t.variant = s.variant ∧ t.host = s.host ∧ t.flash.minSvn = s.flash.minSvn
    let stopEntry : ErrEntry := { code := 0x0053, kind := 6, unit := 0, addr := 0, detail := 0, ctx := 0, time := s.time, ue := true }
    let on := s.power.phase = .raised ∨ s.power.phase = .ready ∨ s.power.phase = .dormant
    (∃ t, exec (.precharge mv) s = .next t ∧ t.power.vin = mv ∧ (44000 ≤ mv → t.power.precharged = true) ∧ (mv < 44000 → t.power.precharged = s.power.precharged ∧ t.power.phase = s.power.phase) ∧
      (s.power.phase = .stopped → 44000 ≤ mv → t.power.phase = .aux ∧ t.power.fault = false) ∧ t.mem = s.mem) ∧
    (s.power.phase ≠ .off → exec (.boot straps) s = .next s ∧ exec .reserveCharged s = .next { s with power := { s.power with reserve := true } }) ∧
    (s.power.phase = .off → exec .reserveCharged s = .next s ∧
      (verifySlot s s.flash.active = 0 → ∃ t, exec (.boot straps) s = .next t ∧ t.power.phase = .aux ∧ t.flash.running = s.flash.active ∧ t.steward.smbAddr = straps.smbAddr ∧ t.steward.recovery = false ∧ t.mem = s.mem) ∧
      (verifySlot s s.flash.active ≠ 0 → verifySlot s (!s.flash.active) = 0 → ∃ t, exec (.boot straps) s = .next t ∧ t.power.phase = .aux ∧ t.flash.running = !s.flash.active ∧ t.mem = s.mem) ∧
      (verifySlot s s.flash.active ≠ 0 → verifySlot s (!s.flash.active) ≠ 0 → ∃ t, exec (.boot straps) s = .next t ∧ t.power.phase = .recovery ∧ t.power.fault = true ∧ t.steward.recovery = true ∧ t.mem = s.mem)) ∧
    (∀ failed, s.power.phase = .aux → s.power.fault = false → s.power.precharged = true → s.power.reserve = true → 44000 ≤ s.power.vin → s.steward.recovery = false → s.flash.active = s.flash.running →
      ∃ t, exec (.raising straps failed none) s = .next t ∧ t.power.phase = .raised ∧ t.power.fault = false ∧ t.tick = 0 ∧ t.port.cfg = true ∧ t.straps.modId = straps.modId ∧
        (∀ p, p < s.variant.physBents → p ∈ failed → tget false s.pair.retiredList p = false → (t.phys p).state = 3 ∧ (t.phys p).reason = 5) ∧
        (∀ l, (tget none t.pair.lmap l).isSome = true → l < s.variant.bents → t.core (2 * l) = Core.reset ∧ t.core (2 * l + 1) = Core.reset ∧ t.bent l = { Bent.reset with service := some s.flash.running })) ∧
    (∀ failed n, s.power.phase = .ready ∨ s.power.precharged = false ∨ s.power.reserve = false ∨ s.power.vin < 44000 → exec (.raising straps failed n) s = .next s) ∧
    (s.power.phase ≠ .off → ∃ t, exec .perstAssert s = .next t ∧ lost t ∧ t.power.phase = (if s.steward.recovery then .recovery else .aux)) ∧
    (s.power.phase = .off → exec .perstAssert s = .next s) ∧
    (∃ t, exec .vauxLoss s = .next t ∧ lost t ∧ t.power.phase = .off ∧ t.power.reserve = false) ∧
    (on → ∃ t, exec .safeStop s = .next t ∧ lost t ∧ t.power.phase = .stopped ∧ t.power.fault = true ∧ t.power.stopPrev = true ∧ t.power.precharged = false ∧ t.power.vin < 40000 ∧
      t.steward.log = (s.steward.log ++ [stopEntry]).drop (s.steward.log.length - 524287)) ∧
    (¬ on → ∃ t, exec .safeStop s = .next t ∧ t.power.phase = s.power.phase ∧ t.power.precharged = false ∧ t.mem = s.mem) ∧
    (on → ∃ t, exec .overvoltageStop s = .next t ∧ lost t ∧ t.power.phase = .stopped ∧ t.power.fault = true ∧ 62000 < t.power.vin)

/-- R361, R362, R484, R486, R487, R490, R491, R507, R514, R517: the dormant state and the sequencer. With every share saved and every entry written, D3hot makes the module
dormant with its bents and memory off; otherwise the entry goes on draining. D0 wakes it with its bents cleared and fetching again. A member follows its head's requests
only. A request of the sequencer is admitted in turn: a bent comes up cleared, and goes down only without a share. -/
def Obligations.PowerStates : Prop :=
  ∀ s : State,
    let drops : State → Host.Outcome State Fault Refusal → Prop := fun z out => ∃ t, out = .next t ∧ t.disp.fetching = false ∧ (t.power.phase = .dormant ∨ t.power.phase = .ready) ∧
      (drained (drainJobs z) = true → t.power.phase = .dormant ∧ t.power.seqQueue = [] ∧ ∀ i, i < 44 → (t.island i).powered = false)
    let wakes : Host.Outcome State Fault Refusal → Prop := fun out => ∃ t, out = .next t ∧ t.power.phase = .ready ∧ t.disp.fetching = true ∧ t.power.wakes = (if s.power.wakes = 65535 then 65535 else s.power.wakes + 1) ∧
      t.power.wakeUs.toNat ≤ 250 ∧ (∀ i, i < 44 → (t.island i).powered = true) ∧ t.mem.words = s.mem.words ∧ (∀ l ∈ inService s, t.core (2 * l) = Core.reset)
    (s.power.phase = .ready → isMember s = false → drops { s with port := { s.port with d3hot := true } } (exec .powerstateD3hot s)) ∧
    (s.power.phase = .ready → isMember s = true → exec .powerstateD3hot s = .next { s with port := { s.port with d3hot := true } } ∧ drops s (exec .cascadeDormantRequest s)) ∧
    (s.power.phase ≠ .ready → exec .powerstateD3hot s = .next s ∧ exec .cascadeDormantRequest s = .next s) ∧
    (isMember s = false → exec .cascadeDormantRequest s = .next s ∧ exec .cascadeWakeRequest s = .next s) ∧
    (s.power.phase = .dormant → (isMember s = false → wakes (exec .powerstateD0 s)) ∧ (isMember s = true → wakes (exec .cascadeWakeRequest s))) ∧
    (s.power.phase = .ready → isMember s = false → ∃ t, exec .powerstateD0 s = .next t ∧ t.port.d3hot = false ∧ t.disp = { s.disp with fetching := true } ∧ t.mem = s.mem ∧ t.cores = s.cores) ∧
    (s.power.seqQueue = [] → exec .sequencerAdmission s = .next s) ∧
    (∀ i r l, logicalOf i s = some l →
      (s.power.seqQueue = (true, i) :: r → (s.bent l).share = none → ∃ t, exec .sequencerAdmission s = .next t ∧ (t.island i).powered = true ∧ t.power.seqQueue = r ∧
        t.core (2 * l) = Core.reset ∧ t.bent l = { Bent.reset with service := some s.flash.running } ∧ t.mem = s.mem) ∧
      (s.power.seqQueue = (false, i) :: r → (s.bent l).share = none → takingOver s l = false → ∃ t, exec .sequencerAdmission s = .next t ∧ (t.island i).powered = false ∧ t.power.seqQueue = r ∧ t.cores = s.cores) ∧
      (s.power.seqQueue = (false, i) :: r → (s.bent l).share ≠ none → exec .sequencerAdmission s = .next { s with power := { s.power with seqQueue := r } })) ∧
    (∀ l, 32 ≤ l → exec (.bentPowerDown l) s = .fault .noSuchUnit) ∧
    (∀ l, l < 32 → s.power.phase = .ready → s.power.idle ≠ 0 → l ∈ inService s → (s.bent l).share = none → takingOver s l = false → (s.island (s.physOf l)).powered = true → (false, s.physOf l) ∉ s.power.seqQueue →
      exec (.bentPowerDown l) s = .next { s with power := { s.power with seqQueue := s.power.seqQueue ++ [(false, s.physOf l)] } }) ∧
    (∀ l, l < 32 → s.power.idle = 0 ∨ (s.bent l).share ≠ none → exec (.bentPowerDown l) s = .next s)

/-- R481 to R484, R488, R492, R494 to R496, R500, R535: clocks, supply warning, heat and brake. An island without work stops its clock; a good switch of a staged pair takes effect where the
old clock toggles, is held otherwise, and is forced when the old clock stays silent. Supply warning, the brake and the thermal throttle are noted, logged and fire their
sources; heat at a trip level stops the module. The power loop keeps PIN as the mean of its samples; the throttle value it chooses is a free value of the model (log 81). That a
COMMIT with nothing staged only stages the pair of its own write is the model's choice (log 75). -/
def Obligations.ClocksAndSupply : Prop :=
  ∀ s : State,
    let kept : State → Prop := fun t => t.mem = s.mem ∧ t.cores = s.cores
    (∀ i : Fin 50,
      (hasIsland i s = true → (s.island i).powered = true → islandBusy i s = false → exec (.islandClockStop i) s = .next (s.setIsland i { s.island i with running := false })) ∧
      (islandBusy i s = true → exec (.islandClockStop i) s = .next s) ∧
      ((s.island i).heldPair = none → exec (.clkswForced i) s = .next s) ∧
      (∀ src div, (s.island i).heldPair = some (src, div) → (s.island i).powered = true → ∃ t, exec (.clkswForced i) s = .next t ∧ kept t ∧ (t.island i).src = src ∧ (t.island i).div = div ∧ (t.island i).forced = true ∧
        (t.island i).heldPair = none ∧ t.power.clkForced = true ∧ (t.src 8).stat = (s.src 8).stat ||| 1)) ∧
    (hostOpen 0 s = true → ∀ (v : W32) (toggles : Bool),
      let i := s.power.islsel.toNat
      let src := v.getLsbD 1
      let div := BitVec.ofNat 2 (v.toNat / 4 % 4)
      (s.power.islStaged = false → ∃ t, exec (.islandClockSwitch v toggles) s = .next t ∧ kept t ∧ t.power.islStaged = true ∧ (t.power.stSrc, t.power.stDiv) = (src, div) ∧
        t.power.islCerr = (s.power.islCerr && !v.getLsbD 9) ∧ (t.island i).src = (s.island i).src ∧ (t.island i).div = (s.island i).div ∧ (t.island i).heldPair = (s.island i).heldPair) ∧
      (s.power.islStaged = true → i = 44 ∨ i = 49 ∨ hasIsland i s = false ∨ (src = false ∧ (s.island i).locked = false) → ∃ t, exec (.islandClockSwitch v toggles) s = .next t ∧ kept t ∧ t.power.islCerr = true ∧ (t.island i).src = (s.island i).src ∧ (t.island i).div = (s.island i).div) ∧
      (s.power.islStaged = true → i ≠ 44 → i ≠ 49 → hasIsland i s = true → (src = true ∨ (s.island i).locked = true) → (s.island i).powered = true →
        (toggles = true → ∃ t, exec (.islandClockSwitch v toggles) s = .next t ∧ kept t ∧ (t.island i).src = src ∧ (t.island i).div = div ∧ (t.island i).forced = false ∧ t.power.islStaged = false) ∧
        (toggles = false → islandRuns i s = true → ∃ t, exec (.islandClockSwitch v toggles) s = .next t ∧ kept t ∧ (t.island i).heldPair = some (src, div) ∧ (t.island i).src = (s.island i).src))) ∧
    (∀ (src : Fin 3) (other : Bool), src ≠ 0 → s.power.refuse.toNat = (src : Nat) → s.power.phase = .ready → ∃ t, exec (.trimHold src other) s = .next t ∧ kept t ∧ t.power.hold = true ∧
      t.power.refuse = (if s.power.refsel = 0 ∧ other = true then BitVec.ofNat 2 (3 - (src : Nat)) else s.power.refuse)) ∧
    (∀ (src : Fin 3) (other : Bool), src ≠ 0 → s.power.refuse.toNat ≠ (src : Nat) → exec (.trimHold src other) s = .next s) ∧
    (∀ (mv : Nat) (pin : Bool), s.power.phase = .ready →
      (s.power.warn = false → mv < 42000 ∨ pin = true → ∃ t, exec (.supplyWarning mv pin) s = .next t ∧ kept t ∧ t.power.warn = true ∧ t.power.warnSeen = true ∧ t.power.vin = mv ∧ (t.src 2).stat = (s.src 2).stat ||| 1) ∧
      (s.power.warn = true ∨ (42000 ≤ mv ∧ pin = false) → exec (.supplyWarning mv pin) s = .next { s with power := { s.power with vin := mv, warnPin := pin } })) ∧
    (s.power.warn = true → ∃ t, exec .supplyWarningEnd s = .next t ∧ kept t ∧ t.power.warn = false ∧ 43000 ≤ t.power.vin ∧ t.power.vin ≤ 60000 ∧ (t.src 2).stat = (s.src 2).stat ||| 2) ∧
    (s.power.warn = false → exec .supplyWarningEnd s = .next s) ∧
    (∀ (die dram : Nat) (held : Bool), s.power.phase = .ready →
      (held = true → s.power.ttrip.toNat ≤ die ∨ 95 ≤ dram → ∃ t, exec (.thermalSample die dram held) s = .next t ∧ t.power.phase = .stopped ∧ t.power.fault = true ∧ t.mem.words = []) ∧
      (held = false → s.power.therm = false → s.power.tthr.toNat ≤ die → ∃ t, exec (.thermalSample die dram held) s = .next t ∧ kept t ∧ t.power.therm = true ∧ t.power.thermSeen = true ∧ t.power.tdie = die ∧
        t.power.throt = BitVec.ofNat 5 (max 1 (s.power.throt.toNat - 1)) ∧ t.power.hotRefresh = decide (85 < dram) ∧ (t.src 3).stat = (s.src 3).stat ||| 1) ∧
      (held = false → s.power.therm = true → die + 2 < s.power.tthr.toNat → s.power.throt.toNat < 15 → ∃ t, exec (.thermalSample die dram held) s = .next t ∧ kept t ∧ t.power.therm = true ∧ t.power.throt.toNat = s.power.throt.toNat + 1) ∧
      (held = false → s.power.therm = true → die + 2 < s.power.tthr.toNat → s.power.throt = 15 → ∃ t, exec (.thermalSample die dram held) s = .next t ∧ kept t ∧ t.power.therm = false ∧ t.power.throt = 16 ∧ (t.src 3).stat = (s.src 3).stat ||| 2)) ∧
    (s.power.brake = false → s.power.phase = .ready → ∃ t, exec .powerBrake s = .next t ∧ kept t ∧ t.power.brake = true ∧ t.power.brakeSeen = true ∧ (t.src 4).stat = (s.src 4).stat ||| 1) ∧
    (s.power.brake = true → exec .powerBrake s = .next s ∧ ∃ t, exec .powerBrakeRelease s = .next t ∧ kept t ∧ t.power.brake = false ∧ (t.src 4).stat = (s.src 4).stat ||| 2) ∧
    (s.power.brake = false → exec .powerBrakeRelease s = .next s) ∧
    (∀ mw, s.power.phase = .ready → s.power.samples = [] → ∃ t, exec (.powerLoop mw) s = .next t ∧ kept t ∧ t.power.pin = mw / 1000 ∧ (s.power.therm = false → 1 ≤ t.power.throt.toNat ∧ t.power.throt.toNat ≤ 16)) ∧
    (s.steward.writes = 0 → exec .journalWriteComplete s = .next s) ∧
    (s.steward.writes ≠ 0 → ∃ t, exec .journalWriteComplete s = .next t ∧ kept t ∧ t.steward.writes = s.steward.writes - 1 ∧ (t.src 6).stat = (s.src 6).stat ||| 1)

/-- R504 to R506, R509, R522 to R524, R557: the Scarf links. A link retrains where it loses a lane it uses, is told to, or has replayed one flit 8 times; training ends at 8
lanes, at 4, or with the link down, and a refused peer is held down; flits are taken in order; a link that is down is tried again; a commit that would cut off a module is
refused. A link number the module cannot have is no unit. -/
def Obligations.ScarfLinks : Prop :=
  ∀ (l : Nat) (s : State),
    let k := s.link l
    let up := k.state = 2 ∨ k.state = 3
    let others : State → Prop := fun t => (∀ i, i ≠ l → t.link i = s.link i) ∧ t.mem = s.mem ∧ t.cores = s.cores
    (4 ≤ l → ∀ v lanes p seq good, exec (.linkConfigCommit l v) s = .fault .noSuchUnit ∧ exec (.linkRetrain l) s = .fault .noSuchUnit ∧ exec (.laneLockLoss l lanes) s = .fault .noSuchUnit ∧
      exec (.linkTrainingComplete l lanes p) s = .fault .noSuchUnit ∧ exec (.linkRetry l) s = .fault .noSuchUnit ∧ exec (.flitReceive l seq good) s = .fault .noSuchUnit ∧ exec (.nak l seq) s = .fault .noSuchUnit) ∧
    (l < 4 → hasLink l s = true →
      (hostOpen 0 s = true → k.en = true → k.heldDown = false → ∃ t, exec (.linkRetrain l) s = .next t ∧ others t ∧ (t.link l).state = 1 ∧ (t.link l).retrain = min (2 ^ 32 - 1) (k.retrain + 1)) ∧
      (hostOpen 0 s = true → ∀ v : W32,
        (k.staged = false → v.getLsbD 1 = false → ∃ t, exec (.linkConfigCommit l v) s = .next t ∧ others t ∧ (t.link l).en = k.en ∧ (t.link l).maxw = k.maxw ∧ (t.link l).state = k.state ∧
          (t.link l).staged = true ∧ (t.link l).stEn = v.getLsbD 2 ∧ (t.link l).stMaxw = v.getLsbD 3) ∧
        (k.staged = true → v.getLsbD 2 = false → v.getLsbD 1 = false → onlyRoute l s = false → ∃ t, exec (.linkConfigCommit l v) s = .next t ∧ others t ∧ (t.link l).en = false ∧ (t.link l).state = 5 ∧ (t.link l).staged = false) ∧
        (k.staged = true → v.getLsbD 2 = false → v.getLsbD 1 = false → onlyRoute l s = true → ∃ t, exec (.linkConfigCommit l v) s = .next t ∧ others t ∧ (t.link l).cerr = true ∧ (t.link l).en = k.en ∧ (t.link l).state = k.state) ∧
        (k.staged = true → v.getLsbD 2 = true → v.getLsbD 1 = false → k.heldDown = false → ∃ t, exec (.linkConfigCommit l v) s = .next t ∧ others t ∧ (t.link l).en = true ∧ (t.link l).maxw = v.getLsbD 3 ∧ (t.link l).state = 1)) ∧
      (∀ lanes : BitVec 8, up → k.en = true → k.heldDown = false → k.width = 8 → lanes ≠ 0 →
        ∃ t, exec (.laneLockLoss l lanes) s = .next t ∧ others t ∧ (t.link l).state = 1 ∧ (t.link l).laneOk = k.laneOk &&& ~~~lanes) ∧
      (∀ lanes : BitVec 8, up → k.width = 4 → k.laneOk &&& 15 = 15 → lanes &&& 15 = 0 → ∃ t, exec (.laneLockLoss l lanes) s = .next t ∧ others t ∧ (t.link l).state = k.state) ∧
      (∀ (lanes : BitVec 8) (p : Sys2Proof.Peer), k.state = 1 →
        (p.clocksAgree = true → refusedPeer p s = false → k.maxw = false →
          (lanes = 255 → ∃ t, exec (.linkTrainingComplete l lanes p) s = .next t ∧ others t ∧ (t.link l).state = 2 ∧ (t.link l).width = 8 ∧ (t.link l).peerMod = p.mod) ∧
          (lanes ≠ 255 → lanes &&& 15 = 15 ∨ lanes &&& 240 = 240 → ∃ t, exec (.linkTrainingComplete l lanes p) s = .next t ∧ others t ∧ (t.link l).state = 3 ∧ (t.link l).width = 4 ∧ (t.link l).peerMod = p.mod)) ∧
        (p.clocksAgree = false ∨ (lanes &&& 15 ≠ 15 ∧ lanes &&& 240 ≠ 240) → ∃ t, exec (.linkTrainingComplete l lanes p) s = .next t ∧ others t ∧ (t.link l).state = 0 ∧ (t.link l).width = 0) ∧
        (p.clocksAgree = true → lanes = 255 → refusedPeer p s = true → ∃ t, exec (.linkTrainingComplete l lanes p) s = .next t ∧ others t ∧ (t.link l).state = 0 ∧ (t.link l).heldDown = true)) ∧
      (k.en = true → k.state = 0 → s.power.phase = .ready → ∃ t, exec (.linkRetry l) s = .next t ∧ others t ∧ (t.link l).state = 1 ∧ (t.link l).heldDown = false) ∧
      (k.state ≠ 0 → exec (.linkRetry l) s = .next s)) ∧
    (l < 4 → ∀ seq : BitVec 12,
      (up → seq = k.expect → ∃ c, exec (.flitReceive l seq true) s = .next (s.setLink l { k with fecCorr := c, expect := k.expect + 1, asked := false }).drawn) ∧
      (up → seq ≠ k.expect → ∃ c, exec (.flitReceive l seq true) s = .next (s.setLink l { k with fecCorr := c }).drawn) ∧
      (up → ∃ t, exec (.flitReceive l seq false) s = .next t ∧ others t ∧ (t.link l).asked = true ∧ (t.link l).expect = k.expect) ∧
      (¬ up → ∀ good, exec (.flitReceive l seq good) s = .next s ∧ exec (.nak l seq) s = .next s) ∧
      (up → (∀ n, k.replayed = some (seq, n) → n < 7) → ∃ t n, exec (.nak l seq) s = .next t ∧ others t ∧ (t.link l).retry = min (2 ^ 32 - 1) (k.retry + 1) ∧ (t.link l).replayed = some (seq, n) ∧ (t.link l).state = k.state) ∧
      (up → k.replayed = some (seq, 7) → k.en = true → k.heldDown = false → ∃ t, exec (.nak l seq) s = .next t ∧ others t ∧ (t.link l).state = 1 ∧ (t.link l).replayed = none))

/-- R74, R76, R508, R510 to R512, R518 to R521: a cascade forms where the head is reached, and the functions that are enabled become ready; its routes are the shortest paths, the
lowest link first; a remote request is served in this module's memory once, its response kept; a
locked add is one read and write, which waits while a class-1 request does (R76); a module that is lost leaves PRESENT, is noted, logged and fires its
source; one that joins enters PRESENT. -/
def Obligations.Cascades : Prop :=
  ∀ (m : BitVec 3) (edges : List Edge) (s : State),
    let me := s.straps.modId
    let bit : BitVec 8 := BitVec.ofNat 8 (2 ^ m.toNat)
    (∀ link : Fin 4, (s.scarf.formed = false → exec (.routeChange link edges) s = .next s) ∧
      (s.scarf.formed = true → ∃ t, exec (.routeChange link edges) s = .next t ∧ t.scarf.edges = topology edges s ∧ t.scarf.route = routesOf (topology edges s) me ∧ (t.src 5).stat = (s.src 5).stat ||| 2 ∧ t.mem = s.mem ∧ t.cores = s.cores)) ∧
    (s.power.phase = .raised → s.power.fault = false → (within (topology edges s) me 8).contains m = true → (s.straps.head = true ↔ m = me) →
      ∃ t, exec (.formationWindowClose m edges) s = .next t ∧ t.power.phase = .ready ∧ t.scarf.formed = true ∧ t.scarf.headMod = m ∧ t.disp.fetching = true ∧ t.scarf.route = routesOf (topology edges s) me ∧
        (∀ f, f < 64 → (s.fn f).enabled = true → (t.fn f).ready = true) ∧ t.mem = s.mem ∧ t.cores = s.cores) ∧
    (s.power.phase = .raised → (within (topology edges s) me 8).contains m = false → exec (.formationWindowClose m edges) s = .next s) ∧
    (∀ l origin tag req, (4 ≤ l → exec (.remoteRequest l origin tag req) s = .fault .noSuchUnit) ∧
      (l < 4 → (keptFor origin tag s).isSome = true ∨ s.scarf.formed = false → exec (.remoteRequest l origin tag req) s = .next s)) ∧
    (∀ l origin tag a v w s2, l < 4 → (s.link l).state = 2 → s.scarf.formed = true → s.power.phase = .ready → isLocal s a = true → keptFor origin tag s = none → isHole s (localOf a) = false →
      blkRead s (localOf a / 64) [localOf a % 64] = (some [w], s2) →
      let keeps : State → Word → Prop := fun t r => ∃ k ∈ t.scarf.kept, k.origin = origin ∧ k.tag = tag ∧ k.word = r ∧ k.poisoned = false
      (∃ t, exec (.remoteRequest l origin tag (.read a)) s = .next t ∧ keeps t w ∧ t.mem = s2.mem) ∧
      (∃ t, exec (.remoteRequest l origin tag (.write a v)) s = .next t ∧ keeps t 0 ∧ t.mem = (blkWrite (localOf a / 64) [(localOf a % 64, v)] s).mem) ∧
      (lockBarred s (localOf a / 64) = true → exec (.remoteRequest l origin tag (.lockedAdd a v)) s = .next s) ∧
      (s.mem.waits = [] → s.mem.poison = [] → s.mem.flips = [] → s.mem.dead = [] → s.mem.merge = [] → s.mem.saved = [] → s.mem.fetched = none → s.mem.ecc.armed = false →
        ∃ t, exec (.remoteRequest l origin tag (.lockedAdd a v)) s = .next t ∧ keeps t w ∧ w = tget 0 s.mem.words (localOf a) ∧ tget 0 t.mem.words (localOf a) = w + v ∧
          (∀ b, b ≠ localOf a → tget 0 t.mem.words b = tget 0 s.mem.words b) ∧ t.mem.merge = [] ∧ t.mem.waits = [] ∧ t.mem.yard = s.mem.yard)) ∧
    (s.scarf.formed = true → m ≠ me →
      (s.scarf.present.getLsbD m.toNat = true → ∃ t, exec (.moduleLost m) s = .next t ∧ t.scarf.present = s.scarf.present &&& ~~~bit ∧ t.scarf.lostSeen = s.scarf.lostSeen ||| bit ∧ t.scarf.formed = decide (m ≠ s.scarf.headMod)) ∧
      (s.scarf.present.getLsbD m.toNat = false → exec (.moduleLost m) s = .next s) ∧
      (s.power.phase = .ready → s.scarf.present.getLsbD m.toNat = false → (within (topology edges s) me 8).contains m = true →
        ∃ t, exec (.moduleJoined m edges) s = .next t ∧ t.scarf.present = s.scarf.present ||| bit ∧ t.scarf.route = routesOf (topology edges s) me ∧ (t.src 5).stat = (s.src 5).stat ||| 8 ∧ t.mem = s.mem ∧ t.cores = s.cores)) ∧
    (m = me → exec (.moduleLost m) s = .next s ∧ exec (.moduleJoined m edges) s = .next s)

/-- R526, R531 to R539: the mailbox carries out the command it runs, and no other. FW_WRITE fills the inactive slot under the update lock; FW_VERIFY reports what the slot's
checks find; FW_ACTIVATE records a slot that verifies; SVN_COMMIT raises the minimum SVN to that of the running slot; JREAD and JWRITE move bytes of the journal's host
area, JWRITE 256 at a time; the rest write their one record. MAILBOX_COMPLETE reports the status and frees the mailbox; a command that is none of R538 reads BAD_OPC. -/
def Obligations.MailboxCommands : Prop :=
  ∀ (ok : Bool) (s : State),
    let m := s.stwd
    let f := s.flash
    let slot := !f.running
    let runs : Nat → Prop := fun n => m.busy = true ∧ m.result = none ∧ m.cOpc.toNat = n ∧ (s.steward.recovery = false ∨ n ≤ 3)
    let ends : Host.Outcome State Fault Refusal → BitVec 16 → (State → Prop) → Prop := fun out st more => ∃ t, out = .next t ∧ t.stwd.result = some st ∧ t.stwd.busy = m.busy ∧ t.mem = s.mem ∧ t.cores = s.cores ∧ more t
    let buffer : Bool → Nat → Prop := fun write a => hostXl .steward 0 none true (0, 0) m.cAddr.toNat (!write, write) s = .at a
    let good : Nat → Nat → Prop := fun a n => ∀ b ∈ s.hostBad, b < a ∨ a + n ≤ b
    let free := f.lock ≠ some true
    let verdict := verifySlot s slot
    (m.busy = false → exec (.fwWrite ok) s = .next s ∧ exec .fwVerify s = .next s ∧ exec (.fwActivate ok) s = .next s ∧ exec (.svnCommit ok) s = .next s ∧ exec .jread s = .next s ∧ exec .jwrite s = .next s ∧ exec .logRead s = .next s ∧
      exec .setSleep s = .next s ∧ exec .clearRetired s = .next s ∧ exec .runDiscard s = .next s ∧ exec .sensors s = .next s ∧ exec .mailboxComplete s = .next s) ∧
    (runs 1 →
      (m.cArg0 % 4096 ≠ 0 → ends (exec (.fwWrite ok) s) 2 fun t => t.flash = f) ∧
      (∀ a, m.cArg0 % 4096 = 0 → m.cArg0 < 8388608 → 1 ≤ m.cLen → m.cLen ≤ 4096 → free → s.power.warn = false → buffer false a → good a m.cLen →
        ends (exec (.fwWrite true) s) 0 fun t => t.flash.lock = some false ∧ t.flash.begun = true ∧ (∀ i, i < m.cLen → slotByte t slot (m.cArg0 + i) = hostByteAt s (a + i)) ∧
          (∀ i, i < 8388608 → slotByte t f.running i = slotByte s f.running i) ∧ (f.begun = true → ∀ i, i < 8388608 → (i < m.cArg0 ∨ m.cArg0 + m.cLen ≤ i) → slotByte t slot i = slotByte s slot i) ∧
          (f.begun = false → ∀ i, i < 8388608 → (i < m.cArg0 ∨ m.cArg0 + m.cLen ≤ i) → slotByte t slot i = 255))) ∧
    (runs 2 → (free → ends (exec .fwVerify s) (BitVec.ofNat 16 verdict) fun t => t.flash = f) ∧ (¬ free → ends (exec .fwVerify s) 4 fun t => t.flash = f)) ∧
    (runs 3 → free → s.power.warn = false →
      (verdict = 0 → ends (exec (.fwActivate true) s) 0 fun t => t.flash.active = slot ∧ t.flash.running = f.running ∧ t.flash.lock = none) ∧
      (verdict ≠ 0 → ends (exec (.fwActivate true) s) (BitVec.ofNat 16 verdict) fun t => t.flash.active = f.active ∧ t.flash.lock = none)) ∧
    (runs 4 →
      (s.power.warn = false → ends (exec (.svnCommit true) s) 0 fun t => t.flash = { f with minSvn := max f.minSvn (slotSvn s f.running) }) ∧
      (s.power.warn = true → ends (exec (.svnCommit true) s) 8 fun t => t.flash = f)) ∧
    (runs 5 → ∀ a, 1 ≤ m.cLen → m.cLen ≤ 4096 → m.cArg0 + m.cLen ≤ 16777216 → buffer true a →
      ends (exec .jread s) 0 fun t => ∀ i, i < m.cLen → hostByteAt t (a + i) = journalAt s (m.cArg0 + i)) ∧
    (runs 6 → ∀ a, m.cArg0 % 256 = 0 → m.cLen % 256 = 0 → 256 ≤ m.cLen → m.cLen ≤ 4096 → m.cArg0 + m.cLen ≤ 16777216 → m.cPos = 0 → s.power.warn = false → buffer false a → good a 256 →
      ∃ t, exec .jwrite s = .next t ∧ (∀ i, i < 256 → journalAt t (m.cArg0 + i) = hostByteAt s (a + i)) ∧ (∀ i, (i < m.cArg0 ∨ m.cArg0 + 256 ≤ i) → journalAt t i = journalAt s i) ∧
        t.steward.writes = s.steward.writes + 1 ∧ t.stwd.cPos = 256 ∧ t.stwd.result = (if m.cLen = 256 then some 0 else none)) ∧
    (runs 7 → ∀ a, m.cLen = 16 → m.cArg0 < s.steward.log.length → buffer true a →
      ends (exec .logRead s) 0 fun t => t.stwd.res0 = BitVec.ofNat 32 s.steward.log.length ∧ ∀ e, s.steward.log[m.cArg0]? = some e → ∀ i, i < 16 → hostByteAt t (a + i) = ((copyBytes e)[i]?).getD 0) ∧
    (runs 8 → ends (exec .setSleep s) 0 fun t => t.sleep = decide (m.cArg0 % 2 = 1)) ∧
    (runs 9 → s.power.warn = false →
      (m.cArg0 = 255 → ends (exec .clearRetired s) 0 fun t => t.pair.retiredList = []) ∧
      (m.cArg0 < s.variant.physBents → ends (exec .clearRetired s) 0 fun t => tget false t.pair.retiredList m.cArg0 = false ∧ ∀ p, p ≠ m.cArg0 → tget false t.pair.retiredList p = tget false s.pair.retiredList p)) ∧
    (runs 10 → s.power.warn = false →
      (s.steward.runs.any (isRun 0 m.cArg0) = false → ends (exec .runDiscard s) 10 fun t => t.steward = s.steward) ∧
      (s.steward.runs.any (isRun 0 m.cArg0) = true → ends (exec .runDiscard s) 0 fun t => t.steward.runs = s.steward.runs.filter (fun e => !isRun 0 m.cArg0 e))) ∧
    (runs 11 → ∀ a, 256 ≤ m.cLen → m.cLen ≤ 4096 → buffer true a →
      ends (exec .sensors s) 0 fun t => ∀ n v, 1 ≤ n → n ≤ 22 → sensor n s = some v → hostNat t (a + 4 * (n - 1)) 4 = v % 2 ^ 32) ∧
    (m.busy = true →
      (∀ st, m.result = some st → ∃ t, exec .mailboxComplete s = .next t ∧ t.stwd.busy = false ∧ t.stwd.done = true ∧ t.stwd.status = st ∧ t.stwd.rtag = m.cTag ∧ t.mem = s.mem) ∧
      (m.result = none → 12 ≤ m.cOpc.toNat ∨ m.cOpc = 0 → ∃ t, exec .mailboxComplete s = .next t ∧ t.stwd.busy = false ∧ t.stwd.status = 1 ∧ t.mem = s.mem))

/-- R463, R472, R498, R531, R540 to R543: a request of the management endpoint fires event source 9 and is answered from the module's state; a request that sets a limit in
range puts it in force. Without auxiliary power there is no endpoint; an enabled source 9 asks for a wake in dormant where SLEEP is 1 (R477); in recovery monitoring and
control is not served. The completion codes are those of the named standards (log 7). -/
def Obligations.ManagementRequests : Prop :=
  ∀ (id : Byte) (n : Nat) (ack : Bool) (s : State),
    let answers : Host.Outcome State Fault Refusal → Nat → List Byte → (State → Prop) → Prop := fun out cc bs more => ∃ t, out = .next t ∧ t.steward.cc = cc ∧ t.steward.reply = bs ∧ (t.src 9).stat = (s.src 9).stat ||| 1 ∧
      t.mem = s.mem ∧ t.cores = s.cores ∧ more t
    let p := if s.sleep = true ∧ (s.src 9).prio ≠ 0 ∧ s.power.phase = .dormant then { s.power with pme := true } else s.power
    let same : State → Prop := fun t => t.flash = s.flash ∧ t.power = p ∧ t.steward.eid = s.steward.eid ∧ t.steward.tid = s.steward.tid
    let served : Nat → Prop := fun x => x = 0 ∨ x = 5 ∨ (x = 2 ∧ s.steward.recovery = false)
    (s.power.phase = .off → exec (.setEndpointId id) s = .next s ∧ exec .getEndpointId s = .next s ∧ exec .gettid s = .next s ∧ exec (.getsensorreading n) s = .next s ∧ exec .getstatus s = .next s) ∧
    (s.power.phase ≠ .off →
      (id ≠ 0 → id ≠ 255 → answers (exec (.setEndpointId id) s) 0 [0, id, 0] (fun t => t.steward.eid = id ∧ t.steward.tid = s.steward.tid) ∧ answers (exec (.settid id) s) 0 [] (fun t => t.steward.tid = id ∧ t.steward.eid = s.steward.eid)) ∧
      (id = 0 ∨ id = 255 → answers (exec (.setEndpointId id) s) 2 [] same ∧ answers (exec (.settid id) s) 2 [] same) ∧
      answers (exec .getEndpointId s) 0 [s.steward.eid, 0, 0] same ∧
      answers (exec .getEndpointUuid s) 0 ((List.range 16).map (fun i => Config.endpointUuid.extractLsb' (8 * (15 - i)) 8)) same ∧
      (id = 0 ∨ id = 1 → answers (exec (.getMctpVersionSupport id) s) 0 (Config.pldmTable 16 id.toNat) same) ∧
      (1 < id.toNat → id ≠ 255 → answers (exec (.getMctpVersionSupport id) s) 0x80 [] same) ∧
      answers (exec .getMessageTypeSupport s) 0 [2, 0, 1] same ∧
      answers (exec .gettid s) 0 [s.steward.tid] same ∧
      (served id.toNat → answers (exec (.getpldmversion id) s) 0 (Config.pldmTable id.toNat 0) same ∧ answers (exec (.getpldmcommands id) s) 0 (Config.pldmTable id.toNat 1) same) ∧
      (¬ served id.toNat → answers (exec (.getpldmversion id) s) 0x83 [] same ∧ answers (exec (.getpldmcommands id) s) 0x83 [] same) ∧
      answers (exec .getpldmtypes s) 0 [if s.steward.recovery then 33 else 37, 0, 0, 0, 0, 0, 0, 0] same ∧
      (s.steward.recovery = true → answers (exec (.getsensorreading n) s) 5 [] same ∧ answers (exec (.setCapEffecter n) s) 5 [] same ∧ answers (exec .getpdrrepositoryinfo s) 5 [] same) ∧
      (s.steward.recovery = false →
        answers (exec .getpdrrepositoryinfo s) 0 (Config.pldmTable 2 2) same ∧
        (Config.pdr n = [] → answers (exec (.getpdr n) s) 0x82 [] same) ∧ (Config.pdr n ≠ [] → answers (exec (.getpdr n) s) 0 (Config.pdr n) same) ∧
        (∀ v, 1 ≤ n → n ≤ 20 → sensor n s = some v → answers (exec (.getsensorreading n) s) 0 (0 :: leBytes 4 v) same) ∧
        (n = 0 ∨ 20 < n → answers (exec (.getsensorreading n) s) 0x80 [] same) ∧
        answers (exec (.getstatesensorreadings 21) s) 0 [BitVec.ofNat 8 (powerState s.power.phase)] same ∧
        answers (exec (.getstatesensorreadings 22) s) 0 [BitVec.ofNat 8 (supplyBits s)] same ∧
        (60 ≤ n → n ≤ 720 → answers (exec (.setCapEffecter n) s) 0 [] (fun t => t.power = { p with cap := BitVec.ofNat 10 n }) ∧
          answers (exec (.setBrakecapEffecter n) s) 0 [] (fun t => t.power = { p with brakecap := BitVec.ofNat 10 n })) ∧
        (n < 60 ∨ 720 < n → answers (exec (.setCapEffecter n) s) 2 [] same ∧ answers (exec (.setBrakecapEffecter n) s) 2 [] same) ∧
        (s.power.phase = .dormant → answers (exec (.wakeRequest 1) s) 0 [] (fun t => t.power.pme = true ∧ t.flash = s.flash)) ∧
        (n ≠ 1 → answers (exec (.wakeRequest n) s) 2 [] same ∧ answers (exec (.svnCommitEffecter n true) s) 2 [] same) ∧
        (s.power.warn = false → answers (exec (.svnCommitEffecter 1 true) s) 0 [] (fun t => t.flash = { s.flash with minSvn := max s.flash.minSvn (slotSvn s s.flash.running) })) ∧
        (s.power.warn = true → answers (exec (.svnCommitEffecter 1 true) s) 1 [] (fun t => t.flash = s.flash)) ∧
        answers (exec (.getnumericeffectervalue 1) s) 0 (leBytes 2 s.power.cap.toNat) same ∧ answers (exec (.getnumericeffectervalue 2) s) 0 (leBytes 2 s.power.brakecap.toNat) same ∧
        (let l := if ack then s.steward.polled.drop 1 else s.steward.polled
         answers (exec (.pollforplatformeventmessage ack) s) 0 ((l.head?).elim [] PollEvent.bytes) (fun t => t.steward.polled = l ∧ (t.steward.alert = true ↔ l ≠ []) ∧ t.power = p))))

/-- R525, R526, R532, R533, R540: a firmware update goes through its states in order, holding the update lock from RequestUpdate on; a request out of its state changes
nothing; data goes to the inactive slot; a slot that fails its checks, and a cancelled update, free the lock; the running slot never changes. -/
def Obligations.FirmwareUpdate : Prop :=
  ∀ (off : Nat) (data : List Byte) (s : State), s.power.phase ≠ .off →
    let f := s.flash
    let u := s.steward.update
    let slot := !f.running
    let verdict := verifySlot s slot
    let dest : Host.Outcome State Fault Refusal → Update → (State → Prop) → Prop := fun out x more => ∃ t, out = .next t ∧ t.steward.update = x ∧ t.flash.running = f.running ∧ t.flash.minSvn = f.minSvn ∧
      (∀ i, i < 8388608 → slotByte t f.running i = slotByte s f.running i) ∧ t.mem = s.mem ∧ t.cores = s.cores ∧ more t
    let sameFlash : State → Prop := fun t => t.flash = f
    dest (exec .querydeviceidentifiers s) u sameFlash ∧
    dest (exec .getfirmwareparameters s) u (fun t => t.flash = f ∧ t.steward.reply = slotBytes s f.running 4 4 ++ (if f.active = f.running then [] else slotBytes s f.active 4 4)) ∧
    dest (exec .getstatus s) u (fun t => t.flash = f ∧ t.steward.reply = [u.code]) ∧
    (u = .idle → f.lock = none → dest (exec .requestupdate s) .learn (fun t => t.flash = { f with lock := some true })) ∧
    (f.lock = some false → dest (exec .requestupdate s) u sameFlash) ∧
    (u = .learn → dest (exec .passcomponenttable s) .ready sameFlash) ∧ (u ≠ .learn → dest (exec .passcomponenttable s) u sameFlash) ∧
    (u = .ready → dest (exec .updatecomponent s) .download sameFlash) ∧ (u ≠ .ready → dest (exec .updatecomponent s) u sameFlash ∧ dest (exec (.activatefirmware true) s) u sameFlash) ∧
    (u = .download → dest (exec .transfercomplete s) .verify sameFlash) ∧
    (u ≠ .download → dest (exec .transfercomplete s) u sameFlash ∧ dest (exec (.requestfirmwaredata off data true) s) u sameFlash) ∧
    (u = .download → off + data.length ≤ 8388608 → f.lock ≠ some false → s.power.warn = false →
      dest (exec (.requestfirmwaredata off data true) s) .download (fun t => t.flash.lock = some true ∧ ∀ i b, data[i]? = some b → slotByte t slot (off + i) = b)) ∧
    (u = .download → 8388608 < off + data.length → dest (exec (.requestfirmwaredata off data true) s) .download sameFlash) ∧
    (u = .verify → (verdict = 0 → dest (exec .verifycomplete s) .apply sameFlash) ∧ (verdict ≠ 0 → dest (exec .verifycomplete s) .idle (fun t => t.flash.lock = none))) ∧
    (u = .apply → (verdict = 0 → dest (exec .applycomplete s) .ready sameFlash) ∧ (verdict ≠ 0 → dest (exec .applycomplete s) .idle (fun t => t.flash.lock = none))) ∧
    (u = .ready → f.lock ≠ some false → s.power.warn = false → (verdict = 0 → dest (exec (.activatefirmware true) s) .activate (fun t => t.flash.active = slot ∧ t.flash.lock = none)) ∧
      (verdict ≠ 0 → dest (exec (.activatefirmware true) s) .idle (fun t => t.flash.active = f.active ∧ t.flash.lock = none))) ∧
    (u = .download ∨ u = .verify ∨ u = .apply → dest (exec .cancelupdatecomponent s) .ready (fun t => t.flash.begun = false ∧ t.flash.lock = f.lock)) ∧
    (u ≠ .idle → u ≠ .activate → dest (exec .cancelupdate s) .idle (fun t => t.flash.lock = none ∧ t.flash.begun = false ∧ (f.begun = true → ∀ i, i < 8388608 → slotByte t slot i = 255)))
end

