-- ==== Sys2Proof/Laws/Table.lean ====
section
/-! SUPPORT. What a table reads after each of its operations, and that each keeps the canonical form. -/

namespace Sys2Proof.Machine

variable {α : Type}

/-! ### Reading after an operation, in any table -/

theorem tget_terase (d : α) (m : Tbl α) (k j : Nat) : tget d (terase m k) j = if j = k then d else tget d m j := by
  induction m with
  | nil => simp [terase, tget]
  | cons e m ih =>
    obtain ⟨k', v⟩ := e
    by_cases h : k' = k
    · simp only [terase, h, if_true, ih, tget]
      by_cases hj : j = k
      · simp [hj]
      · simp [hj, Ne.symm hj]
    · simp only [terase, h, if_false, tget, ih]
      by_cases hj : k' = j
      · simp [hj, hj ▸ h]
      · simp [hj]

theorem terase_ne (m : Tbl α) (k : Nat) : ∀ e ∈ terase m k, e.1 ≠ k := by
  induction m with
  | nil => simp [terase]
  | cons e m ih =>
    obtain ⟨k', v'⟩ := e
    simp only [terase]
    split
    · exact ih
    · rename_i hk
      intro e he
      rcases List.mem_cons.1 he with rfl | he
      · exact hk
      · exact ih e he

theorem tget_tinsert (d : α) (k j : Nat) (v : α) (m : Tbl α) : (∀ e ∈ m, e.1 ≠ k) → tget d (tinsert k v m) j = if j = k then v else tget d m j := by
  induction m with
  | nil => intro _; by_cases hj : j = k <;> simp [tinsert, tget, hj, Ne.symm]
  | cons e m ih =>
    intro hl
    obtain ⟨k', v'⟩ := e
    have hk : k' ≠ k := hl (k', v') (by simp)
    have ih := ih (fun e he => hl e (by simp [he]))
    simp only [tinsert]
    split
    · by_cases hj : j = k
      · simp [tget, hj]
      · simp [tget, hj, Ne.symm hj]
    · simp only [tget, ih]
      by_cases hj : k' = j
      · simp [hj, hj ▸ hk]
      · simp [hj]

theorem tget_tset [DecidableEq α] (d : α) (m : Tbl α) (k j : Nat) (v : α) :
    tget d (tset d m k v) j = if j = k then v else tget d m j := by
  unfold tset
  split
  · rename_i h; rw [tget_terase, h]
  · rw [tget_tinsert d k j v _ (terase_ne m k), tget_terase]
    by_cases hj : j = k <;> simp [hj]

@[simp] theorem tget_tset_self [DecidableEq α] (d : α) (m : Tbl α) (k : Nat) (v : α) : tget d (tset d m k v) k = v := by
  simp [tget_tset]

theorem tget_tset_other [DecidableEq α] (d : α) (m : Tbl α) {k j : Nat} (v : α) (h : j ≠ k) : tget d (tset d m k v) j = tget d m j := by
  simp [tget_tset, h]

theorem terase_terase (m : Tbl α) (k : Nat) : terase (terase m k) k = terase m k := by
  induction m with
  | nil => rfl
  | cons e m ih =>
    obtain ⟨k', v'⟩ := e
    by_cases h : k' = k <;> simp [terase, h, ih]

theorem terase_tinsert (m : Tbl α) (k : Nat) (v : α) : terase (tinsert k v m) k = terase m k := by
  induction m with
  | nil => simp [tinsert, terase]
  | cons e m ih =>
    obtain ⟨k', v'⟩ := e
    simp only [tinsert]
    split
    · simp [terase]
    · by_cases h : k' = k <;> simp [terase, h, ih]

/-- The second of two writes to one key is the one that counts. -/
@[simp] theorem tset_tset [DecidableEq α] (d : α) (m : Tbl α) (k : Nat) (v w : α) : tset d (tset d m k v) k w = tset d m k w := by
  unfold tset
  split <;> split <;> simp [terase_terase, terase_tinsert]

theorem tget_tdrop (d : α) (p : Nat → Bool) (m : Tbl α) (j : Nat) : tget d (tdrop p m) j = if p j = true then d else tget d m j := by
  induction m with
  | nil => simp [tdrop, tget]
  | cons e m ih =>
    obtain ⟨k', v'⟩ := e
    simp only [tdrop] at ih ⊢
    by_cases h : p k' = true
    · simp only [List.filter, h, Bool.not_true, ih, tget]
      by_cases hj : k' = j
      · simp [hj ▸ h]
      · simp [hj]
    · simp only [Bool.not_eq_true] at h
      simp only [List.filter, h, Bool.not_false, tget, ih]
      by_cases hj : k' = j
      · simp [hj, hj ▸ h]
      · simp [hj]

/-! ### The canonical form -/

theorem twfFrom_mono [DecidableEq α] (d : α) {b c : Option Nat} {m : Tbl α} (hbc : ∀ x, b = some x → ∃ y, c = some y ∧ x ≤ y)
    (h : twfFrom d c m = true) : twfFrom d b m = true := by
  cases m with
  | nil => cases b <;> rfl
  | cons e m =>
    obtain ⟨k, v⟩ := e
    cases b with
    | none =>
      cases c with
      | none => exact h
      | some y => simp only [twfFrom, Bool.and_eq_true] at h ⊢; exact ⟨h.1.2, h.2⟩
    | some x =>
      obtain ⟨y, rfl, hy⟩ := hbc x rfl
      simp only [twfFrom, Bool.and_eq_true, decide_eq_true_eq] at h ⊢
      exact ⟨⟨by omega, h.1.2⟩, h.2⟩

theorem twfFrom_terase [DecidableEq α] (d : α) (k : Nat) (m : Tbl α) : ∀ b, twfFrom d b m = true → twfFrom d b (terase m k) = true := by
  induction m with
  | nil => intro b h; exact h
  | cons e m ih =>
    obtain ⟨k', v'⟩ := e
    intro b h
    have hm : twfFrom d (some k') m = true := by cases b <;> simp_all [twfFrom]
    simp only [terase]
    split
    · refine ih b (twfFrom_mono d ?_ hm)
      intro x hx; subst hx
      simp only [twfFrom, Bool.and_eq_true, decide_eq_true_eq] at h
      exact ⟨k', rfl, by omega⟩
    · cases b <;> simp_all [twfFrom]

theorem twfFrom_tinsert [DecidableEq α] (d : α) (k : Nat) (v : α) (hv : v ≠ d) (m : Tbl α) :
    ∀ b, (∀ x, b = some x → x < k) → (∀ e ∈ m, e.1 ≠ k) → twfFrom d b m = true → twfFrom d b (tinsert k v m) = true := by
  induction m with
  | nil =>
    intro b hb _ _
    cases b with
    | none => simp [tinsert, twfFrom, hv]
    | some x => simp [tinsert, twfFrom, hv, hb x rfl]
  | cons e m ih =>
    obtain ⟨k', v'⟩ := e
    intro b hb hne h
    have hk : k' ≠ k := hne (k', v') (by simp)
    have hm : twfFrom d (some k') m = true := by cases b <;> simp_all [twfFrom]
    have hv' : v' ≠ d := by cases b <;> simp_all [twfFrom]
    simp only [tinsert]
    split
    · rename_i hlt
      cases b with
      | none => simp [twfFrom, hv, hv', hlt, hm]
      | some x => simp [twfFrom, hv, hv', hlt, hm, hb x rfl]
    · have := ih (some k') (by intro x hx; cases hx; omega) (fun e he => hne e (by simp [he])) hm
      cases b with
      | none => simp_all [twfFrom]
      | some x => simp_all [twfFrom]

/-- Writing one key keeps the canonical form. -/
theorem twf_tset [DecidableEq α] {d : α} {m : Tbl α} (k : Nat) (v : α) (h : twf d m = true) : twf d (tset d m k v) = true := by
  unfold tset
  split
  · exact twfFrom_terase d k m none h
  · rename_i hv
    exact twfFrom_tinsert d k v hv _ none (by simp) (terase_ne m k) (twfFrom_terase d k m none h)

theorem twf_terase [DecidableEq α] {d : α} {m : Tbl α} (k : Nat) (h : twf d m = true) : twf d (terase m k) = true :=
  twfFrom_terase d k m none h

/-- Writing consecutive keys keeps the canonical form. -/
theorem twf_tsetMany [DecidableEq α] {d : α} (vs : List α) : ∀ {m : Tbl α} (k : Nat), twf d m = true → twf d (tsetMany d m k vs) = true := by
  induction vs with
  | nil => intro m k h; exact h
  | cons v vs ih => intro m k h; exact ih (k + 1) (twf_tset k v h)

theorem twfFrom_filter [DecidableEq α] (d : α) (p : Nat × α → Bool) (m : Tbl α) : ∀ b, twfFrom d b m = true → twfFrom d b (m.filter p) = true := by
  induction m with
  | nil => intro b h; exact h
  | cons e m ih =>
    obtain ⟨k', v'⟩ := e
    intro b h
    have hm : twfFrom d (some k') m = true := by cases b <;> simp_all [twfFrom]
    have hv' : v' ≠ d := by cases b <;> simp_all [twfFrom]
    by_cases hp : p (k', v') = true
    · simp only [List.filter, hp]
      have := ih _ hm
      cases b <;> simp_all [twfFrom]
    · simp only [Bool.not_eq_true] at hp
      simp only [List.filter, hp]
      refine ih b (twfFrom_mono d ?_ hm)
      intro x hx; subst hx
      simp only [twfFrom, Bool.and_eq_true, decide_eq_true_eq] at h
      exact ⟨k', rfl, by omega⟩

/-- Dropping keys keeps the canonical form. -/
theorem twf_tdrop [DecidableEq α] {d : α} {m : Tbl α} (p : Nat → Bool) (h : twf d m = true) : twf d (tdrop p m) = true :=
  twfFrom_filter d _ m none h

/-- Writes folded over a list keep the canonical form. -/
theorem twf_foldl [DecidableEq α] {β : Type} {d : α} (f : Tbl α → β → Tbl α) (hf : ∀ m x, twf d m = true → twf d (f m x) = true) (l : List β) :
    ∀ {m : Tbl α}, twf d m = true → twf d (l.foldl f m) = true := by
  induction l with
  | nil => intro m h; exact h
  | cons x l ih => intro m h; exact ih (hf m x h)

end Sys2Proof.Machine
end

