-- ==== Sys2Proof/Laws/Carries.lean ====
section
/-! SUPPORT. What an outcome of any kind carries: a property of every state in it, and how that is shown of a function
from its parts. -/

namespace Sys2Proof.Machine

/-- Keeps of the state an outcome carries. -/
def Res.all {α : Type} (P : State → Prop) : Res α → Prop
  | .ok _ s => P s
  | .trap _ s => P s
  | .stall s => P s
def Ready.all {α : Type} (P : State → Prop) : Ready α → Prop
  | .ok _ s => P s
  | .wait s => P s
  | .fail _ s => P s
def HostXl.all (P : State → Prop) : HostXl → Prop
  | .at _ => True
  | .fail _ s => P s
  | .wait s => P s
def PageRead.all (P : State → Prop) : PageRead → Prop
  | .done s => P s
  | .wait s => P s
  | .bad s => P s
def Turn.all (P : State → Prop) : Turn → Prop
  | .go _ s => P s
  | .stall s => P s
  | .fail _ s => P s
def ElemRes.all {α : Type} (P : State → Prop) : ElemRes α → Prop
  | .ok _ s => P s
  | .trap _ _ s => P s
  | .stall s => P s
def Pair.all {α : Type} (P : State → Prop) (p : α × State) : Prop := P p.2
def Pair2.all {α β : Type} (P : State → Prop) (p : α × β × State) : Prop := P p.2.2
def PairR.all {α β : Type} (P : State → Prop) (p : β × Res α) : Prop := p.2.all P
def GroupRun.all (P : State → Prop) (p : GroupRun) : Prop := P p.s
def VecRun.all (P : State → Prop) (p : VecRun) : Prop := P p.s
def exceptAll {ε : Type} (P : State → Prop) : Except ε State → Prop
  | .ok s => P s
  | .error _ => True
def exceptPair {ε α : Type} (P : State → Prop) : Except ε (α × State) → Prop
  | .ok p => P p.2
  | .error _ => True
def outcomeAll (P : State → Prop) : Host.Outcome State Fault Refusal → Prop
  | .next s => P s
  | .fault _ => True
  | .refused _ => True
theorem Res.bindK {α β : Type} {P : State → Prop} {r : Res α} {f : α → State → Res β} (h : r.all P)
    (hf : ∀ v s, P s → (f v s).all P) : (r.bind f).all P := by
  cases r with
  | ok v s => exact hf v s h
  | trap t s => exact h
  | stall s => exact h
theorem Ready.bindK {α β : Type} {P : State → Prop} {r : Ready α} {f : α → State → Ready β} (h : r.all P)
    (hf : ∀ v s, P s → (f v s).all P) : (r.bind f).all P := by
  cases r with
  | ok v s => exact hf v s h
  | wait s => exact h
  | fail e s => exact h
theorem Res.okK {α : Type} {P : State → Prop} {s : State} {v : α} {r : Res α} (e : r = .ok v s) (h : r.all P) : P s := by rw [e] at h; exact h
theorem Res.trapK {α : Type} {P : State → Prop} {s : State} {v : Trap} {r : Res α} (e : r = .trap v s) (h : r.all P) : P s := by rw [e] at h; exact h
theorem Res.stallK {α : Type} {P : State → Prop} {s : State} {r : Res α} (e : r = .stall s) (h : r.all P) : P s := by rw [e] at h; exact h
theorem Ready.okK {α : Type} {P : State → Prop} {s : State} {v : α} {r : Ready α} (e : r = .ok v s) (h : r.all P) : P s := by rw [e] at h; exact h
theorem Ready.waitK {α : Type} {P : State → Prop} {s : State} {r : Ready α} (e : r = .wait s) (h : r.all P) : P s := by rw [e] at h; exact h
theorem Ready.failK {α : Type} {P : State → Prop} {s : State} {v : Entry} {r : Ready α} (e : r = .fail v s) (h : r.all P) : P s := by rw [e] at h; exact h
theorem HostXl.failK {P : State → Prop} {s : State} {n : Nat} {r : HostXl} (e : r = .fail n s) (h : r.all P) : P s := by rw [e] at h; exact h
theorem HostXl.waitK {P : State → Prop} {s : State} {r : HostXl} (e : r = .wait s) (h : r.all P) : P s := by rw [e] at h; exact h
theorem PageRead.doneK {P : State → Prop} {s : State} {r : PageRead} (e : r = .done s) (h : r.all P) : P s := by rw [e] at h; exact h
theorem PageRead.waitK {P : State → Prop} {s : State} {r : PageRead} (e : r = .wait s) (h : r.all P) : P s := by rw [e] at h; exact h
theorem PageRead.badK {P : State → Prop} {s : State} {r : PageRead} (e : r = .bad s) (h : r.all P) : P s := by rw [e] at h; exact h
theorem Turn.goK {P : State → Prop} {s : State} {n : Progress} {r : Turn} (e : r = .go n s) (h : r.all P) : P s := by rw [e] at h; exact h
theorem Turn.stallK {P : State → Prop} {s : State} {r : Turn} (e : r = .stall s) (h : r.all P) : P s := by rw [e] at h; exact h
theorem Turn.failK {P : State → Prop} {s : State} {n : JobEnd} {r : Turn} (e : r = .fail n s) (h : r.all P) : P s := by rw [e] at h; exact h
theorem ElemRes.okK {α : Type} {P : State → Prop} {s : State} {n : List α} {r : ElemRes α} (e : r = .ok n s) (h : r.all P) : P s := by rw [e] at h; exact h
theorem ElemRes.trapK {α : Type} {P : State → Prop} {s : State} {n : Nat} {t : Trap} {r : ElemRes α} (e : r = .trap n t s) (h : r.all P) : P s := by rw [e] at h; exact h
theorem ElemRes.stallK {α : Type} {P : State → Prop} {s : State} {r : ElemRes α} (e : r = .stall s) (h : r.all P) : P s := by rw [e] at h; exact h
theorem exceptAll_ok {ε : Type} {P : State → Prop} {s : State} {r : Except ε State} (e : r = .ok s) (h : exceptAll P r) : P s := by rw [e] at h; exact h
theorem Res.okI {α : Type} {P : State → Prop} {s : State} {v : α} (h : P s) : Res.all P (.ok v s) := h
theorem Res.trapI {α : Type} {P : State → Prop} {s : State} {v : Trap} (h : P s) : Res.all (α := α) P (.trap v s) := h
theorem Res.stallI {α : Type} {P : State → Prop} {s : State} (h : P s) : Res.all (α := α) P (.stall s) := h
theorem Ready.okI {α : Type} {P : State → Prop} {s : State} {v : α} (h : P s) : Ready.all P (.ok v s) := h
theorem Ready.failI {α : Type} {P : State → Prop} {s : State} {v : Entry} (h : P s) : Ready.all (α := α) P (.fail v s) := h
theorem Ready.waitI {α : Type} {P : State → Prop} {s : State} (h : P s) : Ready.all (α := α) P (.wait s) := h
theorem HostXl.failI {P : State → Prop} {s : State} {n : Nat} (h : P s) : HostXl.all P (.fail n s) := h
theorem HostXl.waitI {P : State → Prop} {s : State} (h : P s) : HostXl.all P (.wait s) := h
theorem PageRead.doneI {P : State → Prop} {s : State} (h : P s) : PageRead.all P (.done s) := h
theorem PageRead.waitI {P : State → Prop} {s : State} (h : P s) : PageRead.all P (.wait s) := h
theorem PageRead.badI {P : State → Prop} {s : State} (h : P s) : PageRead.all P (.bad s) := h
theorem Turn.goI {P : State → Prop} {s : State} {n : Progress} (h : P s) : Turn.all P (.go n s) := h
theorem Turn.stallI {P : State → Prop} {s : State} (h : P s) : Turn.all P (.stall s) := h
theorem Turn.failI {P : State → Prop} {s : State} {n : JobEnd} (h : P s) : Turn.all P (.fail n s) := h
theorem ElemRes.okI {α : Type} {P : State → Prop} {s : State} {n : List α} (h : P s) : ElemRes.all P (.ok n s) := h
theorem ElemRes.trapI {α : Type} {P : State → Prop} {s : State} {n : Nat} {t : Trap} (h : P s) : ElemRes.all (α := α) P (.trap n t s) := h
theorem ElemRes.stallI {α : Type} {P : State → Prop} {s : State} (h : P s) : ElemRes.all (α := α) P (.stall s) := h
theorem outcomeAll_next {P : State → Prop} {s : State} (h : P s) : outcomeAll P (.next s) := h
theorem exceptPair_ok {ε α : Type} {P : State → Prop} {a : α} {s : State} {r : Except ε (α × State)} (e : r = .ok (a, s)) (h : exceptPair P r) : P s := by
  rw [e] at h; exact h
theorem exceptPair_okI {ε α : Type} {P : State → Prop} {p : α × State} (h : Pair.all P p) : exceptPair (ε := ε) P (.ok p) := h
theorem Res.elimK {α β : Type} {P : State → Prop} {o : Option α} {r : Res β} {f : α → Res β} (h : r.all P) (hf : ∀ x, (f x).all P) :
    Res.all P (o.elim r f) := by
  cases o with
  | none => exact h
  | some x => exact hf x
theorem exceptAll_okI {ε : Type} {P : State → Prop} {s : State} (h : P s) : exceptAll (ε := ε) P (.ok s) := h
theorem Res.okE {α : Type} {P : State → Prop} {s : State} {v : α} (h : Res.all P (.ok v s)) : P s := h
theorem Res.trapE {α : Type} {P : State → Prop} {s : State} {v : Trap} (h : Res.all (α := α) P (.trap v s)) : P s := h
theorem Res.stallE {α : Type} {P : State → Prop} {s : State} (h : Res.all (α := α) P (.stall s)) : P s := h
theorem Ready.okE {α : Type} {P : State → Prop} {s : State} {v : α} (h : Ready.all P (.ok v s)) : P s := h
theorem Ready.failE {α : Type} {P : State → Prop} {s : State} {v : Entry} (h : Ready.all (α := α) P (.fail v s)) : P s := h
theorem Ready.waitE {α : Type} {P : State → Prop} {s : State} (h : Ready.all (α := α) P (.wait s)) : P s := h
theorem HostXl.failE {P : State → Prop} {s : State} {n : Nat} (h : HostXl.all P (.fail n s)) : P s := h
theorem HostXl.waitE {P : State → Prop} {s : State} (h : HostXl.all P (.wait s)) : P s := h
theorem PageRead.doneE {P : State → Prop} {s : State} (h : PageRead.all P (.done s)) : P s := h
theorem PageRead.waitE {P : State → Prop} {s : State} (h : PageRead.all P (.wait s)) : P s := h
theorem PageRead.badE {P : State → Prop} {s : State} (h : PageRead.all P (.bad s)) : P s := h
theorem Turn.goE {P : State → Prop} {s : State} {n : Progress} (h : Turn.all P (.go n s)) : P s := h
theorem Turn.stallE {P : State → Prop} {s : State} (h : Turn.all P (.stall s)) : P s := h
theorem Turn.failE {P : State → Prop} {s : State} {n : JobEnd} (h : Turn.all P (.fail n s)) : P s := h
theorem ElemRes.okE {α : Type} {P : State → Prop} {s : State} {n : List α} (h : ElemRes.all P (.ok n s)) : P s := h
theorem ElemRes.trapE {α : Type} {P : State → Prop} {s : State} {n : Nat} {t : Trap} (h : ElemRes.all (α := α) P (.trap n t s)) : P s := h
theorem ElemRes.stallE {α : Type} {P : State → Prop} {s : State} (h : ElemRes.all (α := α) P (.stall s)) : P s := h
theorem Res.iteK {α : Type} {P : State → Prop} {c : Prop} {inst : Decidable c} {a b : Res α} (ha : a.all P) (hb : b.all P) : (if c then a else b).all P := by
  split <;> assumption
theorem Ready.iteK {α : Type} {P : State → Prop} {c : Prop} {inst : Decidable c} {a b : Ready α} (ha : a.all P) (hb : b.all P) : (if c then a else b).all P := by
  split <;> assumption
theorem HostXl.iteK {P : State → Prop} {c : Prop} {inst : Decidable c} {a b : HostXl} (ha : a.all P) (hb : b.all P) : (if c then a else b).all P := by
  split <;> assumption
theorem PageRead.iteK {P : State → Prop} {c : Prop} {inst : Decidable c} {a b : PageRead} (ha : a.all P) (hb : b.all P) : (if c then a else b).all P := by
  split <;> assumption
theorem Turn.iteK {P : State → Prop} {c : Prop} {inst : Decidable c} {a b : Turn} (ha : a.all P) (hb : b.all P) : (if c then a else b).all P := by
  split <;> assumption
theorem ElemRes.iteK {α : Type} {P : State → Prop} {c : Prop} {inst : Decidable c} {a b : ElemRes α} (ha : a.all P) (hb : b.all P) : (if c then a else b).all P := by
  split <;> assumption
theorem outcomeAll_ite {P : State → Prop} {c : Prop} {inst : Decidable c} {a b : Host.Outcome State Fault Refusal} (ha : outcomeAll P a) (hb : outcomeAll P b) :
    outcomeAll P (if c then a else b) := by
  split <;> assumption
theorem exceptAll_ite {ε : Type} {P : State → Prop} {c : Prop} {inst : Decidable c} {a b : Except ε State} (ha : exceptAll P a) (hb : exceptAll P b) :
    exceptAll P (if c then a else b) := by
  split <;> assumption
theorem Pair.sndK {α : Type} {P : State → Prop} {s : State} {a : α} {p : α × State} (e : p = (a, s)) (h : Pair.all P p) : P s := by rw [e] at h; exact h
theorem Pair2.sndK {α β : Type} {P : State → Prop} {s : State} {a : α} {b : β} {p : α × β × State} (e : p = (a, b, s)) (h : Pair2.all P p) : P s := by
  rw [e] at h; exact h
theorem PairR.sndK {α β : Type} {P : State → Prop} {a : β} {r : Res α} {p : β × Res α} (e : p = (a, r)) (h : PairR.all P p) : r.all P := by
  rw [e] at h; exact h
theorem Pair.mkI {α : Type} {P : State → Prop} {s : State} {a : α} (h : P s) : Pair.all P (a, s) := h
theorem Pair2.mkI {α β : Type} {P : State → Prop} {s : State} {a : α} {b : β} (h : P s) : Pair2.all P (a, b, s) := h
theorem PairR.mkI {α β : Type} {P : State → Prop} {a : β} {r : Res α} (h : r.all P) : PairR.all P (a, r) := h
theorem GroupRun.mkI {P : State → Prop} {s : State} {sts ks d f t b w} (h : P s) :
    GroupRun.all P { s := s, sts := sts, ks := ks, done := d, fault := f, stall := t, bad := b, badWrite := w } := h
theorem VecRun.mkI {P : State → Prop} {s : State} {d f t} (h : P s) : VecRun.all P { s := s, done := d, fault := f, stall := t } := h
theorem Pair.sndI {α : Type} {P : State → Prop} {p : α × State} (h : Pair.all P p) : P p.2 := h
theorem Pair2.sndI {α β : Type} {P : State → Prop} {p : α × β × State} (h : Pair2.all P p) : P p.2.2 := h
theorem PairR.sndI {α β : Type} {P : State → Prop} {p : β × Res α} (h : PairR.all P p) : p.2.all P := h
theorem Pair.sndE {α : Type} {P : State → Prop} {s : State} {a : α} (h : Pair.all P (a, s)) : P s := h
theorem Pair2.sndE {α β : Type} {P : State → Prop} {s : State} {a : α} {b : β} (h : Pair2.all P (a, b, s)) : P s := h
theorem PairR.sndE {α β : Type} {P : State → Prop} {a : β} {r : Res α} (h : PairR.all P (a, r)) : r.all P := h
theorem GroupRun.sI {P : State → Prop} {p : GroupRun} (h : GroupRun.all P p) : P p.s := h
theorem VecRun.sI {P : State → Prop} {p : VecRun} (h : VecRun.all P p) : P p.s := h
theorem Pair.iteK {α : Type} {P : State → Prop} {c : Prop} {inst : Decidable c} {a b : α × State} (ha : Pair.all P a) (hb : Pair.all P b) :
    Pair.all P (if c then a else b) := by
  split <;> assumption
theorem Pair2.iteK {α β : Type} {P : State → Prop} {c : Prop} {inst : Decidable c} {a b : α × β × State} (ha : Pair2.all P a) (hb : Pair2.all P b) :
    Pair2.all P (if c then a else b) := by
  split <;> assumption
theorem PairR.iteK {α β : Type} {P : State → Prop} {c : Prop} {inst : Decidable c} {a b : β × Res α} (ha : PairR.all P a) (hb : PairR.all P b) :
    PairR.all P (if c then a else b) := by
  split <;> assumption
theorem GroupRun.iteK {P : State → Prop} {c : Prop} {inst : Decidable c} {a b : GroupRun} (ha : GroupRun.all P a) (hb : GroupRun.all P b) :
    GroupRun.all P (if c then a else b) := by
  split <;> assumption
theorem VecRun.iteK {P : State → Prop} {c : Prop} {inst : Decidable c} {a b : VecRun} (ha : VecRun.all P a) (hb : VecRun.all P b) :
    VecRun.all P (if c then a else b) := by
  split <;> assumption
theorem Pair.foldl {α β : Type} {P : State → Prop} {f : β × State → α → β × State} (hf : ∀ p x, Pair.all P p → Pair.all P (f p x)) (l : List α) :
    ∀ {p : β × State}, Pair.all P p → Pair.all P (l.foldl f p) := by
  induction l with
  | nil => intro s h; exact h
  | cons x l ih => intro s h; exact ih (hf s x h)
theorem GroupRun.foldl {α : Type} {P : State → Prop} {f : GroupRun → α → GroupRun} (hf : ∀ p x, GroupRun.all P p → GroupRun.all P (f p x)) (l : List α) :
    ∀ {p : GroupRun}, GroupRun.all P p → GroupRun.all P (l.foldl f p) := by
  induction l with
  | nil => intro s h; exact h
  | cons x l ih => intro s h; exact ih (hf s x h)
theorem VecRun.foldl {α : Type} {P : State → Prop} {f : VecRun → α → VecRun} (hf : ∀ p x, VecRun.all P p → VecRun.all P (f p x)) (l : List α) :
    ∀ {p : VecRun}, VecRun.all P p → VecRun.all P (l.foldl f p) := by
  induction l with
  | nil => intro s h; exact h
  | cons x l ih => intro s h; exact ih (hf s x h)

end Sys2Proof.Machine
end

