-- ==== Sys2Proof/Laws/Exec.lean ====
section
/-! SUPPORT. What exec is of each command, so that no proof unfolds the dispatch. -/

namespace Sys2Proof.Machine

@[simp] theorem exec_add {k x y} (s : State) : exec (.add k x y) s = execAdd k x y s := rfl
@[simp] theorem exec_sub {k x y} (s : State) : exec (.sub k x y) s = execSub k x y s := rfl
@[simp] theorem exec_and {k x y} (s : State) : exec (.and k x y) s = execAnd k x y s := rfl
@[simp] theorem exec_or {k x y} (s : State) : exec (.or k x y) s = execOr k x y s := rfl
@[simp] theorem exec_xor {k x y} (s : State) : exec (.xor k x y) s = execXor k x y s := rfl
@[simp] theorem exec_andn {k x y} (s : State) : exec (.andn k x y) s = execAndn k x y s := rfl
@[simp] theorem exec_shl {k x y} (s : State) : exec (.shl k x y) s = execShl k x y s := rfl
@[simp] theorem exec_shr {k x y} (s : State) : exec (.shr k x y) s = execShr k x y s := rfl
@[simp] theorem exec_sar {k x y} (s : State) : exec (.sar k x y) s = execSar k x y s := rfl
@[simp] theorem exec_mov {k x y} (s : State) : exec (.mov k x y) s = execMov k x y s := rfl
@[simp] theorem exec_neg {k x y} (s : State) : exec (.neg k x y) s = execNeg k x y s := rfl
@[simp] theorem exec_not {k x y} (s : State) : exec (.not k x y) s = execNot k x y s := rfl
@[simp] theorem exec_cc {k x y cond} (s : State) : exec (.cc k x y cond) s = execCc k x y cond s := rfl
@[simp] theorem exec_addi {k x imm} (s : State) : exec (.addi k x imm) s = execAddi k x imm s := rfl
@[simp] theorem exec_ldi {k x imm} (s : State) : exec (.ldi k x imm) s = execLdi k x imm s := rfl
@[simp] theorem exec_lui {k x imm} (s : State) : exec (.lui k x imm) s = execLui k x imm s := rfl
@[simp] theorem exec_andi {k x imm} (s : State) : exec (.andi k x imm) s = execAndi k x imm s := rfl
@[simp] theorem exec_ori {k x imm} (s : State) : exec (.ori k x imm) s = execOri k x imm s := rfl
@[simp] theorem exec_xori {k x imm} (s : State) : exec (.xori k x imm) s = execXori k x imm s := rfl
@[simp] theorem exec_shli {k x imm} (s : State) : exec (.shli k x imm) s = execShli k x imm s := rfl
@[simp] theorem exec_shri {k x imm} (s : State) : exec (.shri k x imm) s = execShri k x imm s := rfl
@[simp] theorem exec_sari {k x imm} (s : State) : exec (.sari k x imm) s = execSari k x imm s := rfl
@[simp] theorem exec_ldi20 {k xa xb xc imm} (s : State) : exec (.ldi20 k xa xb xc imm) s = execLdi20 k xa xb xc imm s := rfl
@[simp] theorem exec_cmpi {k xa xb xc imm} (s : State) : exec (.cmpi k xa xb xc imm) s = execCmpi k xa xb xc imm s := rfl
@[simp] theorem exec_cmp {k xa xb xc imm} (s : State) : exec (.cmp k xa xb xc imm) s = execCmp k xa xb xc imm s := rfl
@[simp] theorem exec_mul {k x y} (s : State) : exec (.mul k x y) s = execMul k x y s := rfl
@[simp] theorem exec_mulwu {k x y} (s : State) : exec (.mulwu k x y) s = execMulwu k x y s := rfl
@[simp] theorem exec_mulws {k x y} (s : State) : exec (.mulws k x y) s = execMulws k x y s := rfl
@[simp] theorem exec_macu {k x y n} (s : State) : exec (.macu k x y n) s = execMacu k x y n s := rfl
@[simp] theorem exec_macs {k x y n} (s : State) : exec (.macs k x y n) s = execMacs k x y n s := rfl
@[simp] theorem exec_ac5 {k x y n} (s : State) : exec (.ac5 k x y n) s = execAc5 k x y n s := rfl
@[simp] theorem exec_ladc {k x y} (s : State) : exec (.ladc k x y) s = execLadc k x y s := rfl
@[simp] theorem exec_lsbb {k x y} (s : State) : exec (.lsbb k x y) s = execLsbb k x y s := rfl
@[simp] theorem exec_ladz {k x y} (s : State) : exec (.ladz k x y) s = execLadz k x y s := rfl
@[simp] theorem exec_ladzs {k x y} (s : State) : exec (.ladzs k x y) s = execLadzs k x y s := rfl
@[simp] theorem exec_ltop {k x y} (s : State) : exec (.ltop k x y) s = execLtop k x y s := rfl
@[simp] theorem exec_ltopb {k x y} (s : State) : exec (.ltopb k x y) s = execLtopb k x y s := rfl
@[simp] theorem exec_lnrm {k x y} (s : State) : exec (.lnrm k x y) s = execLnrm k x y s := rfl
@[simp] theorem exec_pdadd {k x y} (s : State) : exec (.pdadd k x y) s = execPdadd k x y s := rfl
@[simp] theorem exec_pdsub {k x y} (s : State) : exec (.pdsub k x y) s = execPdsub k x y s := rfl
@[simp] theorem exec_acz {k xa xb xc imm} (s : State) : exec (.acz k xa xb xc imm) s = execAcz k xa xb xc imm s := rfl
@[simp] theorem exec_acmov {k xa xb xc imm} (s : State) : exec (.acmov k xa xb xc imm) s = execAcmov k xa xb xc imm s := rfl
@[simp] theorem exec_acneg {k xa xb xc imm} (s : State) : exec (.acneg k xa xb xc imm) s = execAcneg k xa xb xc imm s := rfl
@[simp] theorem exec_aclq {k xa xb xc imm} (s : State) : exec (.aclq k xa xb xc imm) s = execAclq k xa xb xc imm s := rfl
@[simp] theorem exec_acsq {k xa xb xc imm} (s : State) : exec (.acsq k xa xb xc imm) s = execAcsq k xa xb xc imm s := rfl
@[simp] theorem exec_acscl {k xa xb xc imm} (s : State) : exec (.acscl k xa xb xc imm) s = execAcscl k xa xb xc imm s := rfl
@[simp] theorem exec_adiv {k xa xb xc imm} (s : State) : exec (.adiv k xa xb xc imm) s = execAdiv k xa xb xc imm s := rfl
@[simp] theorem exec_accmp {k xa xb xc imm} (s : State) : exec (.accmp k xa xb xc imm) s = execAccmp k xa xb xc imm s := rfl
@[simp] theorem exec_aadd {k x y} (s : State) : exec (.aadd k x y) s = execAadd k x y s := rfl
@[simp] theorem exec_asub {k x y} (s : State) : exec (.asub k x y) s = execAsub k x y s := rfl
@[simp] theorem exec_aadds {k x y} (s : State) : exec (.aadds k x y) s = execAadds k x y s := rfl
@[simp] theorem exec_amov {k x y} (s : State) : exec (.amov k x y) s = execAmov k x y s := rfl
@[simp] theorem exec_adw {k x y} (s : State) : exec (.adw k x y) s = execAdw k x y s := rfl
@[simp] theorem exec_dwa {k x y} (s : State) : exec (.dwa k x y) s = execDwa k x y s := rfl
@[simp] theorem exec_smov {k x y} (s : State) : exec (.smov k x y) s = execSmov k x y s := rfl
@[simp] theorem exec_sdw {k x y} (s : State) : exec (.sdw k x y) s = execSdw k x y s := rfl
@[simp] theorem exec_dws {k x y} (s : State) : exec (.dws k x y) s = execDws k x y s := rfl
@[simp] theorem exec_aaddd {k x y} (s : State) : exec (.aaddd k x y) s = execAaddd k x y s := rfl
@[simp] theorem exec_sneg {k x y} (s : State) : exec (.sneg k x y) s = execSneg k x y s := rfl
@[simp] theorem exec_aaddi {k x imm} (s : State) : exec (.aaddi k x imm) s = execAaddi k x imm s := rfl
@[simp] theorem exec_lai {k xa xb xc imm} (s : State) : exec (.lai k xa xb xc imm) s = execLai k xa xb xc imm s := rfl
@[simp] theorem exec_lahi {k xa xb xc imm} (s : State) : exec (.lahi k xa xb xc imm) s = execLahi k xa xb xc imm s := rfl
@[simp] theorem exec_sai {k xa xb xc imm} (s : State) : exec (.sai k xa xb xc imm) s = execSai k xa xb xc imm s := rfl
@[simp] theorem exec_aaddl {k xa xb xc imm} (s : State) : exec (.aaddl k xa xb xc imm) s = execAaddl k xa xb xc imm s := rfl
@[simp] theorem exec_cmpa {k xa xb xc imm} (s : State) : exec (.cmpa k xa xb xc imm) s = execCmpa k xa xb xc imm s := rfl
@[simp] theorem exec_ld {k x y off} (s : State) : exec (.ld k x y off) s = execLd k x y off s := rfl
@[simp] theorem exec_st {k x y off} (s : State) : exec (.st k x y off) s = execSt k x y off s := rfl
@[simp] theorem exec_ld2 {k x y off} (s : State) : exec (.ld2 k x y off) s = execLd2 k x y off s := rfl
@[simp] theorem exec_st2 {k x y off} (s : State) : exec (.st2 k x y off) s = execSt2 k x y off s := rfl
@[simp] theorem exec_lda {k x y off} (s : State) : exec (.lda k x y off) s = execLda k x y off s := rfl
@[simp] theorem exec_sta {k x y off} (s : State) : exec (.sta k x y off) s = execSta k x y off s := rfl
@[simp] theorem exec_ldl {k xa xb xc imm} (s : State) : exec (.ldl k xa xb xc imm) s = execLdl k xa xb xc imm s := rfl
@[simp] theorem exec_stl {k xa xb xc imm} (s : State) : exec (.stl k xa xb xc imm) s = execStl k xa xb xc imm s := rfl
@[simp] theorem exec_ld2l {k xa xb xc imm} (s : State) : exec (.ld2l k xa xb xc imm) s = execLd2l k xa xb xc imm s := rfl
@[simp] theorem exec_st2l {k xa xb xc imm} (s : State) : exec (.st2l k xa xb xc imm) s = execSt2l k xa xb xc imm s := rfl
@[simp] theorem exec_ldal {k xa xb xc imm} (s : State) : exec (.ldal k xa xb xc imm) s = execLdal k xa xb xc imm s := rfl
@[simp] theorem exec_stal {k xa xb xc imm} (s : State) : exec (.stal k xa xb xc imm) s = execStal k xa xb xc imm s := rfl
@[simp] theorem exec_ldx {k xa xb xc imm} (s : State) : exec (.ldx k xa xb xc imm) s = execLdx k xa xb xc imm s := rfl
@[simp] theorem exec_stx {k xa xb xc imm} (s : State) : exec (.stx k xa xb xc imm) s = execStx k xa xb xc imm s := rfl
@[simp] theorem exec_push {k x y} (s : State) : exec (.push k x y) s = execPush k x y s := rfl
@[simp] theorem exec_pop {k x y} (s : State) : exec (.pop k x y) s = execPop k x y s := rfl
@[simp] theorem exec_pusha {k x y} (s : State) : exec (.pusha k x y) s = execPusha k x y s := rfl
@[simp] theorem exec_popa {k x y} (s : State) : exec (.popa k x y) s = execPopa k x y s := rfl
@[simp] theorem exec_push2 {k x y} (s : State) : exec (.push2 k x y) s = execPush2 k x y s := rfl
@[simp] theorem exec_pop2 {k x y} (s : State) : exec (.pop2 k x y) s = execPop2 k x y s := rfl
@[simp] theorem exec_lxadd {k xa xb xc imm} (s : State) : exec (.lxadd k xa xb xc imm) s = execLxadd k xa xb xc imm s := rfl
@[simp] theorem exec_lxchg {k xa xb xc imm} (s : State) : exec (.lxchg k xa xb xc imm) s = execLxchg k xa xb xc imm s := rfl
@[simp] theorem exec_lcas {k xa xb xc imm} (s : State) : exec (.lcas k xa xb xc imm) s = execLcas k xa xb xc imm s := rfl
@[simp] theorem exec_lqadd {k xa xb xc imm} (s : State) : exec (.lqadd k xa xb xc imm) s = execLqadd k xa xb xc imm s := rfl
@[simp] theorem exec_bz {k x imm} (s : State) : exec (.bz k x imm) s = execBz k x imm s := rfl
@[simp] theorem exec_bnz {k x imm} (s : State) : exec (.bnz k x imm) s = execBnz k x imm s := rfl
@[simp] theorem exec_br {k disp} (s : State) : exec (.br k disp) s = execBr k disp s := rfl
@[simp] theorem exec_call {k disp} (s : State) : exec (.call k disp) s = execCall k disp s := rfl
@[simp] theorem exec_bzl {k xa xb xc imm} (s : State) : exec (.bzl k xa xb xc imm) s = execBzl k xa xb xc imm s := rfl
@[simp] theorem exec_bnzl {k xa xb xc imm} (s : State) : exec (.bnzl k xa xb xc imm) s = execBnzl k xa xb xc imm s := rfl
@[simp] theorem exec_brl {k xa xb xc imm} (s : State) : exec (.brl k xa xb xc imm) s = execBrl k xa xb xc imm s := rfl
@[simp] theorem exec_calll {k xa xb xc imm} (s : State) : exec (.calll k xa xb xc imm) s = execCalll k xa xb xc imm s := rfl
@[simp] theorem exec_ret {k imm} (s : State) : exec (.ret k imm) s = execRet k imm s := rfl
@[simp] theorem exec_jr {k imm} (s : State) : exec (.jr k imm) s = execJr k imm s := rfl
@[simp] theorem exec_callr {k imm} (s : State) : exec (.callr k imm) s = execCallr k imm s := rfl
@[simp] theorem exec_loop {k x imm} (s : State) : exec (.loop k x imm) s = execLoop k x imm s := rfl
@[simp] theorem exec_loopl {k xa xb xc imm} (s : State) : exec (.loopl k xa xb xc imm) s = execLoopl k xa xb xc imm s := rfl
@[simp] theorem exec_lexit {k imm} (s : State) : exec (.lexit k imm) s = execLexit k imm s := rfl
@[simp] theorem exec_bchk {k x y off} (s : State) : exec (.bchk k x y off) s = execBchk k x y off s := rfl
@[simp] theorem exec_movc {k xa xb xc imm} (s : State) : exec (.movc k xa xb xc imm) s = execMovc k xa xb xc imm s := rfl
@[simp] theorem exec_xlcommit {k xa} (s : State) : exec (.xlcommit k xa) s = execXlcommit k xa s := rfl
@[simp] theorem exec_dinv {k xa} (s : State) : exec (.dinv k xa) s = execDinv k xa s := rfl
@[simp] theorem exec_iinv {k xa} (s : State) : exec (.iinv k xa) s = execIinv k xa s := rfl
@[simp] theorem exec_tickcmpWrite {k xa cls} (s : State) : exec (.tickcmpWrite k xa cls) s = execTickcmpWrite k xa cls s := rfl
@[simp] theorem exec_nop {k imm} (s : State) : exec (.nop k imm) s = execNop k imm s := rfl
@[simp] theorem exec_trap {k imm} (s : State) : exec (.trap k imm) s = execTrap k imm s := rfl
@[simp] theorem exec_brk {k imm} (s : State) : exec (.brk k imm) s = execBrk k imm s := rfl
@[simp] theorem exec_rete {k imm} (s : State) : exec (.rete k imm) s = execRete k imm s := rfl
@[simp] theorem exec_wait {k imm} (s : State) : exec (.wait k imm) s = execWait k imm s := rfl
@[simp] theorem exec_waitEnd {k} (s : State) : exec (.waitEnd k) s = execWaitEnd k s := rfl
@[simp] theorem exec_fence {k imm} (s : State) : exec (.fence k imm) s = execFence k imm s := rfl
@[simp] theorem exec_fenceComplete {k} (s : State) : exec (.fenceComplete k) s = execFenceComplete k s := rfl
@[simp] theorem exec_split {k imm} (s : State) : exec (.split k imm) s = execSplit k imm s := rfl
@[simp] theorem exec_join {k imm} (s : State) : exec (.join k imm) s = execJoin k imm s := rfl
@[simp] theorem exec_xinvPage {k imm} (s : State) : exec (.xinvPage k imm) s = execXinvPage k imm s := rfl
@[simp] theorem exec_xinvContext {k imm} (s : State) : exec (.xinvContext k imm) s = execXinvContext k imm s := rfl
@[simp] theorem exec_xinvFunction {k imm} (s : State) : exec (.xinvFunction k imm) s = execXinvFunction k imm s := rfl
@[simp] theorem exec_sealchk {k imm} (s : State) : exec (.sealchk k imm) s = execSealchk k imm s := rfl
@[simp] theorem exec_sealchkMerged {k imm} (s : State) : exec (.sealchkMerged k imm) s = execSealchkMerged k imm s := rfl
@[simp] theorem exec_sealBarrierRelease {job} (s : State) : exec (.sealBarrierRelease job) s = execSealBarrierRelease job s := rfl
@[simp] theorem exec_sealclr {k imm} (s : State) : exec (.sealclr k imm) s = execSealclr k imm s := rfl
@[simp] theorem exec_vsetc {k imm} (s : State) : exec (.vsetc k imm) s = execVsetc k imm s := rfl
@[simp] theorem exec_jend {k imm} (s : State) : exec (.jend k imm) s = execJend k imm s := rfl
@[simp] theorem exec_evclm {k imm} (s : State) : exec (.evclm k imm) s = execEvclm k imm s := rfl
@[simp] theorem exec_evcmp {k imm} (s : State) : exec (.evcmp k imm) s = execEvcmp k imm s := rfl
@[simp] theorem exec_evrd {k imm} (s : State) : exec (.evrd k imm) s = execEvrd k imm s := rfl
@[simp] theorem exec_evwr {k imm} (s : State) : exec (.evwr k imm) s = execEvwr k imm s := rfl
@[simp] theorem exec_evset {k imm} (s : State) : exec (.evset k imm) s = execEvset k imm s := rfl
@[simp] theorem exec_sadd {k xa xb xc w1} (s : State) : exec (.sadd k xa xb xc w1) s = execSadd k xa xb xc w1 s := rfl
@[simp] theorem exec_ssub {k xa xb xc w1} (s : State) : exec (.ssub k xa xb xc w1) s = execSsub k xa xb xc w1 s := rfl
@[simp] theorem exec_sladd {k xa xb xc w1} (s : State) : exec (.sladd k xa xb xc w1) s = execSladd k xa xb xc w1 s := rfl
@[simp] theorem exec_snorm {k xa xb xc w1} (s : State) : exec (.snorm k xa xb xc w1) s = execSnorm k xa xb xc w1 s := rfl
@[simp] theorem exec_scmp {k xa xb xc w1} (s : State) : exec (.scmp k xa xb xc w1) s = execScmp k xa xb xc w1 s := rfl
@[simp] theorem exec_slogAnd {k xa xb xc w1} (s : State) : exec (.slogAnd k xa xb xc w1) s = execSlogAnd k xa xb xc w1 s := rfl
@[simp] theorem exec_slogOr {k xa xb xc w1} (s : State) : exec (.slogOr k xa xb xc w1) s = execSlogOr k xa xb xc w1 s := rfl
@[simp] theorem exec_slogXor {k xa xb xc w1} (s : State) : exec (.slogXor k xa xb xc w1) s = execSlogXor k xa xb xc w1 s := rfl
@[simp] theorem exec_slogAndn {k xa xb xc w1} (s : State) : exec (.slogAndn k xa xb xc w1) s = execSlogAndn k xa xb xc w1 s := rfl
@[simp] theorem exec_slogNot {k xa xb xc w1} (s : State) : exec (.slogNot k xa xb xc w1) s = execSlogNot k xa xb xc w1 s := rfl
@[simp] theorem exec_scvtPepixoIn {k xa xb xc w1} (s : State) : exec (.scvtPepixoIn k xa xb xc w1) s = execScvtPepixoIn k xa xb xc w1 s := rfl
@[simp] theorem exec_scvtPepixoOut {k xa xb xc w1} (s : State) : exec (.scvtPepixoOut k xa xb xc w1) s = execScvtPepixoOut k xa xb xc w1 s := rfl
@[simp] theorem exec_scvtWordToAmount {k xa xb xc w1} (s : State) : exec (.scvtWordToAmount k xa xb xc w1) s = execScvtWordToAmount k xa xb xc w1 s := rfl
@[simp] theorem exec_scvtAmountToWord {k xa xb xc w1} (s : State) : exec (.scvtAmountToWord k xa xb xc w1) s = execScvtAmountToWord k xa xb xc w1 s := rfl
@[simp] theorem exec_smove {k xa xb xc w1} (s : State) : exec (.smove k xa xb xc w1) s = execSmove k xa xb xc w1 s := rfl
@[simp] theorem exec_smul {k xa xb xc w1} (s : State) : exec (.smul k xa xb xc w1) s = execSmul k xa xb xc w1 s := rfl
@[simp] theorem exec_smac {k xa xb xc w1} (s : State) : exec (.smac k xa xb xc w1) s = execSmac k xa xb xc w1 s := rfl
@[simp] theorem exec_sscale {k xa xb xc w1} (s : State) : exec (.sscale k xa xb xc w1) s = execSscale k xa xb xc w1 s := rfl
@[simp] theorem exec_sdiv {k xa xb xc w1} (s : State) : exec (.sdiv k xa xb xc w1) s = execSdiv k xa xb xc w1 s := rfl
@[simp] theorem exec_smitreLeft {k xa xb xc w1} (s : State) : exec (.smitreLeft k xa xb xc w1) s = execSmitreLeft k xa xb xc w1 s := rfl
@[simp] theorem exec_smitreInner {k xa xb xc w1} (s : State) : exec (.smitreInner k xa xb xc w1) s = execSmitreInner k xa xb xc w1 s := rfl
@[simp] theorem exec_smitreAnti {k xa xb xc w1} (s : State) : exec (.smitreAnti k xa xb xc w1) s = execSmitreAnti k xa xb xc w1 s := rfl
@[simp] theorem exec_ssegCompact {k xa xb xc w1} (s : State) : exec (.ssegCompact k xa xb xc w1) s = execSsegCompact k xa xb xc w1 s := rfl
@[simp] theorem exec_ssegRunning {k xa xb xc w1} (s : State) : exec (.ssegRunning k xa xb xc w1) s = execSsegRunning k xa xb xc w1 s := rfl
@[simp] theorem exec_ssegMark {k xa xb xc w1} (s : State) : exec (.ssegMark k xa xb xc w1) s = execSsegMark k xa xb xc w1 s := rfl
@[simp] theorem exec_ssortForm {k xa xb xc w1} (s : State) : exec (.ssortForm k xa xb xc w1) s = execSsortForm k xa xb xc w1 s := rfl
@[simp] theorem exec_ssortMerge {k xa xb xc w1} (s : State) : exec (.ssortMerge k xa xb xc w1) s = execSsortMerge k xa xb xc w1 s := rfl
@[simp] theorem exec_skcmp {k xa xb xc w1} (s : State) : exec (.skcmp k xa xb xc w1) s = execSkcmp k xa xb xc w1 s := rfl
@[simp] theorem exec_skcmpOrder {k xa xb xc w1} (s : State) : exec (.skcmpOrder k xa xb xc w1) s = execSkcmpOrder k xa xb xc w1 s := rfl
@[simp] theorem exec_streamStart {k} (s : State) : exec (.streamStart k) s = execStreamStart k s := rfl
@[simp] theorem exec_elementGroup {k ev} (s : State) : exec (.elementGroup k ev) s = execElementGroup k ev s := rfl
@[simp] theorem exec_streamFinish {k} (s : State) : exec (.streamFinish k) s = execStreamFinish k s := rfl
@[simp] theorem exec_streamStop {k} (s : State) : exec (.streamStop k) s = execStreamStop k s := rfl
@[simp] theorem exec_vld {k xa xb xc w1} (s : State) : exec (.vld k xa xb xc w1) s = execVld k xa xb xc w1 s := rfl
@[simp] theorem exec_vst {k xa xb xc w1} (s : State) : exec (.vst k xa xb xc w1) s = execVst k xa xb xc w1 s := rfl
@[simp] theorem exec_vgath {k xa xb xc w1} (s : State) : exec (.vgath k xa xb xc w1) s = execVgath k xa xb xc w1 s := rfl
@[simp] theorem exec_vscat {k xa xb xc w1} (s : State) : exec (.vscat k xa xb xc w1) s = execVscat k xa xb xc w1 s := rfl
@[simp] theorem exec_vadd {k xa xb xc w1} (s : State) : exec (.vadd k xa xb xc w1) s = execVadd k xa xb xc w1 s := rfl
@[simp] theorem exec_vsub {k xa xb xc w1} (s : State) : exec (.vsub k xa xb xc w1) s = execVsub k xa xb xc w1 s := rfl
@[simp] theorem exec_vcmp {k xa xb xc w1} (s : State) : exec (.vcmp k xa xb xc w1) s = execVcmp k xa xb xc w1 s := rfl
@[simp] theorem exec_vlog {k xa xb xc w1} (s : State) : exec (.vlog k xa xb xc w1) s = execVlog k xa xb xc w1 s := rfl
@[simp] theorem exec_vnorm {k xa xb xc w1} (s : State) : exec (.vnorm k xa xb xc w1) s = execVnorm k xa xb xc w1 s := rfl
@[simp] theorem exec_vnormAdd {k xa xb xc w1} (s : State) : exec (.vnormAdd k xa xb xc w1) s = execVnormAdd k xa xb xc w1 s := rfl
@[simp] theorem exec_vmul {k xa xb xc w1} (s : State) : exec (.vmul k xa xb xc w1) s = execVmul k xa xb xc w1 s := rfl
@[simp] theorem exec_vmac {k xa xb xc w1} (s : State) : exec (.vmac k xa xb xc w1) s = execVmac k xa xb xc w1 s := rfl
@[simp] theorem exec_vkcmp {k xa xb xc w1} (s : State) : exec (.vkcmp k xa xb xc w1) s = execVkcmp k xa xb xc w1 s := rfl
@[simp] theorem exec_psetn {k xa xb xc w1} (s : State) : exec (.psetn k xa xb xc w1) s = execPsetn k xa xb xc w1 s := rfl
@[simp] theorem exec_pand {k xa xb xc w1} (s : State) : exec (.pand k xa xb xc w1) s = execPand k xa xb xc w1 s := rfl
@[simp] theorem exec_por {k xa xb xc w1} (s : State) : exec (.por k xa xb xc w1) s = execPor k xa xb xc w1 s := rfl
@[simp] theorem exec_pandn {k xa xb xc w1} (s : State) : exec (.pandn k xa xb xc w1) s = execPandn k xa xb xc w1 s := rfl
@[simp] theorem exec_pnot {k xa xb xc w1} (s : State) : exec (.pnot k xa xb xc w1) s = execPnot k xa xb xc w1 s := rfl
@[simp] theorem exec_pld {k xa xb xc w1} (s : State) : exec (.pld k xa xb xc w1) s = execPld k xa xb xc w1 s := rfl
@[simp] theorem exec_pst {k xa xb xc w1} (s : State) : exec (.pst k xa xb xc w1) s = execPst k xa xb xc w1 s := rfl
@[simp] theorem exec_pcnt {k xa xb xc w1} (s : State) : exec (.pcnt k xa xb xc w1) s = execPcnt k xa xb xc w1 s := rfl
@[simp] theorem exec_vredSum {k xa xb xc w1} (s : State) : exec (.vredSum k xa xb xc w1) s = execVredSum k xa xb xc w1 s := rfl
@[simp] theorem exec_vredMin {k xa xb xc w1} (s : State) : exec (.vredMin k xa xb xc w1) s = execVredMin k xa xb xc w1 s := rfl
@[simp] theorem exec_vredMax {k xa xb xc w1} (s : State) : exec (.vredMax k xa xb xc w1) s = execVredMax k xa xb xc w1 s := rfl
@[simp] theorem exec_vredSealAdd {k xa xb xc w1} (s : State) : exec (.vredSealAdd k xa xb xc w1) s = execVredSealAdd k xa xb xc w1 s := rfl
@[simp] theorem exec_vredSealSubtract {k xa xb xc w1} (s : State) : exec (.vredSealSubtract k xa xb xc w1) s = execVredSealSubtract k xa xb xc w1 s := rfl
@[simp] theorem exec_vtbl {k xa xb xc w1} (s : State) : exec (.vtbl k xa xb xc w1) s = execVtbl k xa xb xc w1 s := rfl
@[simp] theorem exec_vectorStart {k} (s : State) : exec (.vectorStart k) s = execVectorStart k s := rfl
@[simp] theorem exec_vectorFinish {v} (s : State) : exec (.vectorFinish v) s = execVectorFinish v s := rfl
@[simp] theorem exec_vectorStop {k} (s : State) : exec (.vectorStop k) s = execVectorStop k s := rfl
@[simp] theorem exec_trapEntry {k word} (s : State) : exec (.trapEntry k word) s = execTrapEntry k word s := rfl
@[simp] theorem exec_timer {k} (s : State) : exec (.timer k) s = execTimer k s := rfl
@[simp] theorem exec_storeDrain {k} (s : State) : exec (.storeDrain k) s = execStoreDrain k s := rfl
@[simp] theorem exec_checkpoint {k} (s : State) : exec (.checkpoint k) s = execCheckpoint k s := rfl
@[simp] theorem exec_rollback {k why} (s : State) : exec (.rollback k why) s = execRollback k why s := rfl
@[simp] theorem exec_spareCheckComplete {p pass} (s : State) : exec (.spareCheckComplete p pass) s = execSpareCheckComplete p pass s := rfl
@[simp] theorem exec_eventPresentation {k} (s : State) : exec (.eventPresentation k) s = execEventPresentation k s := rfl
@[simp] theorem exec_setp {src} (s : State) : exec (.setp src) s = execSetp src s := rfl
@[simp] theorem exec_targetCommit {src v} (s : State) : exec (.targetCommit src v) s = execTargetCommit src v s := rfl
@[simp] theorem exec_preemption (s : State) : exec .preemption s = execPreemption s := rfl
@[simp] theorem exec_preemptNoticeTimeout {k} (s : State) : exec (.preemptNoticeTimeout k) s = execPreemptNoticeTimeout k s := rfl
@[simp] theorem exec_pageWaitPreempt {l} (s : State) : exec (.pageWaitPreempt l) s = execPageWaitPreempt l s := rfl
@[simp] theorem exec_shareRestore {job} (s : State) : exec (.shareRestore job) s = execShareRestore job s := rfl
@[simp] theorem exec_registerWrite {f sp off v} (s : State) : exec (.registerWrite f sp off v) s = execRegisterWrite f sp off v s := rfl
@[simp] theorem exec_unsupportedAccess {f off bytes} (s : State) : exec (.unsupportedAccess f off bytes) s = execUnsupportedAccess f off bytes s := rfl
@[simp] theorem exec_tractRecode {v} (s : State) : exec (.tractRecode v) s = execTractRecode v s := rfl
@[simp] theorem exec_tractZero {v} (s : State) : exec (.tractZero v) s = execTractZero v s := rfl
@[simp] theorem exec_tractOperationDone (s : State) : exec .tractOperationDone s = execTractOperationDone s := rfl
@[simp] theorem exec_yardRegionCommit {m r v} (s : State) : exec (.yardRegionCommit m r v) s = execYardRegionCommit m r v s := rfl
@[simp] theorem exec_eccflipArm {v} (s : State) : exec (.eccflipArm v) s = execEccflipArm v s := rfl
@[simp] theorem exec_eccflipDisarm (s : State) : exec .eccflipDisarm s = execEccflipDisarm s := rfl
@[simp] theorem exec_errlPop (s : State) : exec .errlPop s = execErrlPop s := rfl
@[simp] theorem exec_errlClrcnt (s : State) : exec .errlClrcnt s = execErrlClrcnt s := rfl
@[simp] theorem exec_windowCommit {f v} (s : State) : exec (.windowCommit f v) s = execWindowCommit f v s := rfl
@[simp] theorem exec_doorbellPageCommit {f v} (s : State) : exec (.doorbellPageCommit f v) s = execDoorbellPageCommit f v s := rfl
@[simp] theorem exec_knockGroup {f g} (s : State) : exec (.knockGroup f g) s = execKnockGroup f g s := rfl
@[simp] theorem exec_knockAll {f} (s : State) : exec (.knockAll f) s = execKnockAll f s := rfl
@[simp] theorem exec_groupRead {f g} (s : State) : exec (.groupRead f g) s = execGroupRead f g s := rfl
@[simp] theorem exec_doorbellReadRetry {f g ok} (s : State) : exec (.doorbellReadRetry f g ok) s = execDoorbellReadRetry f g ok s := rfl
@[simp] theorem exec_poll (s : State) : exec .poll s = execPoll s := rfl
@[simp] theorem exec_adminQueueCommit {f v} (s : State) : exec (.adminQueueCommit f v) s = execAdminQueueCommit f v s := rfl
@[simp] theorem exec_moderationCommit {f v} (s : State) : exec (.moderationCommit f v) s = execModerationCommit f v s := rfl
@[simp] theorem exec_createCq {f desc} (s : State) : exec (.createCq f desc) s = execCreateCq f desc s := rfl
@[simp] theorem exec_deleteCq {f desc} (s : State) : exec (.deleteCq f desc) s = execDeleteCq f desc s := rfl
@[simp] theorem exec_createSq {f desc} (s : State) : exec (.createSq f desc) s = execCreateSq f desc s := rfl
@[simp] theorem exec_deleteSq {f desc} (s : State) : exec (.deleteSq f desc) s = execDeleteSq f desc s := rfl
@[simp] theorem exec_setContext {f desc} (s : State) : exec (.setContext f desc) s = execSetContext f desc s := rfl
@[simp] theorem exec_deleteContext {f desc} (s : State) : exec (.deleteContext f desc) s = execDeleteContext f desc s := rfl
@[simp] theorem exec_abort {f desc} (s : State) : exec (.abort f desc) s = execAbort f desc s := rfl
@[simp] theorem exec_scrub {f desc} (s : State) : exec (.scrub f desc) s = execScrub f desc s := rfl
@[simp] theorem exec_scrubDone (s : State) : exec .scrubDone s = execScrubDone s := rfl
@[simp] theorem exec_assignTracts {f desc} (s : State) : exec (.assignTracts f desc) s = execAssignTracts f desc s := rfl
@[simp] theorem exec_jobNop {q desc} (s : State) : exec (.jobNop q desc) s = execJobNop q desc s := rfl
@[simp] theorem exec_native {q desc} (s : State) : exec (.native q desc) s = execNative q desc s := rfl
@[simp] theorem exec_sort {svc} (s : State) : exec (.sort svc) s = execSort svc s := rfl
@[simp] theorem exec_post {svc} (s : State) : exec (.post svc) s = execPost svc s := rfl
@[simp] theorem exec_accrue {svc} (s : State) : exec (.accrue svc) s = execAccrue svc s := rfl
@[simp] theorem exec_reconcile {svc} (s : State) : exec (.reconcile svc) s = execReconcile svc s := rfl
@[simp] theorem exec_convert {svc} (s : State) : exec (.convert svc) s = execConvert svc s := rfl
@[simp] theorem exec_zero {svc} (s : State) : exec (.zero svc) s = execZero svc s := rfl
@[simp] theorem exec_jobStart (s : State) : exec .jobStart s = execJobStart s := rfl
@[simp] theorem exec_commitPoint {job} (s : State) : exec (.commitPoint job) s = execCommitPoint job s := rfl
@[simp] theorem exec_completionEntryWrite {q} (s : State) : exec (.completionEntryWrite q) s = execCompletionEntryWrite q s := rfl
@[simp] theorem exec_cqHeadRecheck {q} (s : State) : exec (.cqHeadRecheck q) s = execCqHeadRecheck q s := rfl
@[simp] theorem exec_cqWriteRetry {q ok} (s : State) : exec (.cqWriteRetry q ok) s = execCqWriteRetry q ok s := rfl
@[simp] theorem exec_moderationTimer {q} (s : State) : exec (.moderationTimer q) s = execModerationTimer q s := rfl
@[simp] theorem exec_controllerRead {blk r} (s : State) : exec (.controllerRead blk r) s = execControllerRead blk r s := rfl
@[simp] theorem exec_controllerWrite {blk words r} (s : State) : exec (.controllerWrite blk words r) s = execControllerWrite blk words r s := rfl
@[simp] theorem exec_mergeRetire {blk} (s : State) : exec (.mergeRetire blk) s = execMergeRetire blk s := rfl
@[simp] theorem exec_requestAging {ch} (s : State) : exec (.requestAging ch) s = execRequestAging ch s := rfl
@[simp] theorem exec_yardAccess {bank turn} (s : State) : exec (.yardAccess bank turn) s = execYardAccess bank turn s := rfl
@[simp] theorem exec_firstTouchZeroingDone {entry} (s : State) : exec (.firstTouchZeroingDone entry) s = execFirstTouchZeroingDone entry s := rfl
@[simp] theorem exec_zbRewalk {entry} (s : State) : exec (.zbRewalk entry) s = execZbRewalk entry s := rfl
@[simp] theorem exec_zbTakeover {entry kind unit ctx} (s : State) : exec (.zbTakeover entry kind unit ctx) s = execZbTakeover entry kind unit ctx s := rfl
@[simp] theorem exec_translationCompletion {f pasid page res} (s : State) : exec (.translationCompletion f pasid page res) s = execTranslationCompletion f pasid page res s := rfl
@[simp] theorem exec_responseSuccess {f pasid page} (s : State) : exec (.responseSuccess f pasid page) s = execResponseSuccess f pasid page s := rfl
@[simp] theorem exec_responseInvalidRequest {f pasid page} (s : State) : exec (.responseInvalidRequest f pasid page) s = execResponseInvalidRequest f pasid page s := rfl
@[simp] theorem exec_responseFailure {f pasid page} (s : State) : exec (.responseFailure f pasid page) s = execResponseFailure f pasid page s := rfl
@[simp] theorem exec_priTimeout {f pasid page} (s : State) : exec (.priTimeout f pasid page) s = execPriTimeout f pasid page s := rfl
@[simp] theorem exec_atsInvalidateRequest {f pasid page pages} (s : State) : exec (.atsInvalidateRequest f pasid page pages) s = execAtsInvalidateRequest f pasid page pages s := rfl
@[simp] theorem exec_invalidateCompletion (s : State) : exec .invalidateCompletion s = execInvalidateCompletion s := rfl
@[simp] theorem exec_bar2Read {f off} (s : State) : exec (.bar2Read f off) s = execBar2Read f off s := rfl
@[simp] theorem exec_bar2Write {f off v be ep} (s : State) : exec (.bar2Write f off v be ep) s = execBar2Write f off v be ep s := rfl
@[simp] theorem exec_powerstateD3hot (s : State) : exec .powerstateD3hot s = execPowerstateD3hot s := rfl
@[simp] theorem exec_powerstateD0 (s : State) : exec .powerstateD0 s = execPowerstateD0 s := rfl
@[simp] theorem exec_cascadeDormantRequest (s : State) : exec .cascadeDormantRequest s = execCascadeDormantRequest s := rfl
@[simp] theorem exec_cascadeWakeRequest (s : State) : exec .cascadeWakeRequest s = execCascadeWakeRequest s := rfl
@[simp] theorem exec_aspmL1Entry (s : State) : exec .aspmL1Entry s = execAspmL1Entry s := rfl
@[simp] theorem exec_busMasterEnable {f} (s : State) : exec (.busMasterEnable f) s = execBusMasterEnable f s := rfl
@[simp] theorem exec_vectorUnmask {f vec} (s : State) : exec (.vectorUnmask f vec) s = execVectorUnmask f vec s := rfl
@[simp] theorem exec_pfFlr (s : State) : exec .pfFlr s = execPfFlr s := rfl
@[simp] theorem exec_vfFlr {f} (s : State) : exec (.vfFlr f) s = execVfFlr f s := rfl
@[simp] theorem exec_hotReset (s : State) : exec .hotReset s = execHotReset s := rfl
@[simp] theorem exec_pcieLinkDown (s : State) : exec .pcieLinkDown s = execPcieLinkDown s := rfl
@[simp] theorem exec_completionTimeout {f addr ctx va} (s : State) : exec (.completionTimeout f addr ctx va) s = execCompletionTimeout f addr ctx va s := rfl
@[simp] theorem exec_poisonedTlpReceived {f addr ctx va} (s : State) : exec (.poisonedTlpReceived f addr ctx va) s = execPoisonedTlpReceived f addr ctx va s := rfl
@[simp] theorem exec_unexpectedCompletion (s : State) : exec .unexpectedCompletion s = execUnexpectedCompletion s := rfl
@[simp] theorem exec_ecrcError (s : State) : exec .ecrcError s = execEcrcError s := rfl
@[simp] theorem exec_malformedTlp (s : State) : exec .malformedTlp s = execMalformedTlp s := rfl
@[simp] theorem exec_receiverError (s : State) : exec .receiverError s = execReceiverError s := rfl
@[simp] theorem exec_precharge {mv} (s : State) : exec (.precharge mv) s = execPrecharge mv s := rfl
@[simp] theorem exec_boot {straps} (s : State) : exec (.boot straps) s = execBoot straps s := rfl
@[simp] theorem exec_raising {straps failed stuck} (s : State) : exec (.raising straps failed stuck) s = execRaising straps failed stuck s := rfl
@[simp] theorem exec_perstAssert (s : State) : exec .perstAssert s = execPerstAssert s := rfl
@[simp] theorem exec_vauxLoss (s : State) : exec .vauxLoss s = execVauxLoss s := rfl
@[simp] theorem exec_supplyWarning {mv pin} (s : State) : exec (.supplyWarning mv pin) s = execSupplyWarning mv pin s := rfl
@[simp] theorem exec_supplyWarningEnd (s : State) : exec .supplyWarningEnd s = execSupplyWarningEnd s := rfl
@[simp] theorem exec_safeStop (s : State) : exec .safeStop s = execSafeStop s := rfl
@[simp] theorem exec_overvoltageStop (s : State) : exec .overvoltageStop s = execOvervoltageStop s := rfl
@[simp] theorem exec_thermalSample {die dram held} (s : State) : exec (.thermalSample die dram held) s = execThermalSample die dram held s := rfl
@[simp] theorem exec_powerBrake (s : State) : exec .powerBrake s = execPowerBrake s := rfl
@[simp] theorem exec_powerBrakeRelease (s : State) : exec .powerBrakeRelease s = execPowerBrakeRelease s := rfl
@[simp] theorem exec_sequencerAdmission (s : State) : exec .sequencerAdmission s = execSequencerAdmission s := rfl
@[simp] theorem exec_bentPowerDown {l} (s : State) : exec (.bentPowerDown l) s = execBentPowerDown l s := rfl
@[simp] theorem exec_islandClockStop {island} (s : State) : exec (.islandClockStop island) s = execIslandClockStop island s := rfl
@[simp] theorem exec_islandClockSwitch {v toggles} (s : State) : exec (.islandClockSwitch v toggles) s = execIslandClockSwitch v toggles s := rfl
@[simp] theorem exec_clkswForced {island} (s : State) : exec (.clkswForced island) s = execClkswForced island s := rfl
@[simp] theorem exec_trimHold {src other} (s : State) : exec (.trimHold src other) s = execTrimHold src other s := rfl
@[simp] theorem exec_journalWriteComplete (s : State) : exec .journalWriteComplete s = execJournalWriteComplete s := rfl
@[simp] theorem exec_pairClrcnt (s : State) : exec .pairClrcnt s = execPairClrcnt s := rfl
@[simp] theorem exec_cmptestArm {v} (s : State) : exec (.cmptestArm v) s = execCmptestArm v s := rfl
@[simp] theorem exec_cmptestDisarm (s : State) : exec .cmptestDisarm s = execCmptestDisarm s := rfl
@[simp] theorem exec_linkConfigCommit {l v} (s : State) : exec (.linkConfigCommit l v) s = execLinkConfigCommit l v s := rfl
@[simp] theorem exec_linkRetrain {l} (s : State) : exec (.linkRetrain l) s = execLinkRetrain l s := rfl
@[simp] theorem exec_laneLockLoss {l lanes} (s : State) : exec (.laneLockLoss l lanes) s = execLaneLockLoss l lanes s := rfl
@[simp] theorem exec_linkTrainingComplete {l lanes peer} (s : State) : exec (.linkTrainingComplete l lanes peer) s = execLinkTrainingComplete l lanes peer s := rfl
@[simp] theorem exec_linkRetry {l} (s : State) : exec (.linkRetry l) s = execLinkRetry l s := rfl
@[simp] theorem exec_flitReceive {l seq good} (s : State) : exec (.flitReceive l seq good) s = execFlitReceive l seq good s := rfl
@[simp] theorem exec_nak {l seq} (s : State) : exec (.nak l seq) s = execNak l seq s := rfl
@[simp] theorem exec_routeChange {link edges} (s : State) : exec (.routeChange link edges) s = execRouteChange link edges s := rfl
@[simp] theorem exec_remoteRequest {l origin tag req} (s : State) : exec (.remoteRequest l origin tag req) s = execRemoteRequest l origin tag req s := rfl
@[simp] theorem exec_formationWindowClose {headMod edges} (s : State) : exec (.formationWindowClose headMod edges) s = execFormationWindowClose headMod edges s := rfl
@[simp] theorem exec_moduleLost {m} (s : State) : exec (.moduleLost m) s = execModuleLost m s := rfl
@[simp] theorem exec_moduleJoined {m edges} (s : State) : exec (.moduleJoined m edges) s = execModuleJoined m edges s := rfl
@[simp] theorem exec_fwWrite {ok} (s : State) : exec (.fwWrite ok) s = execFwWrite ok s := rfl
@[simp] theorem exec_fwVerify (s : State) : exec .fwVerify s = execFwVerify s := rfl
@[simp] theorem exec_fwActivate {ok} (s : State) : exec (.fwActivate ok) s = execFwActivate ok s := rfl
@[simp] theorem exec_svnCommit {ok} (s : State) : exec (.svnCommit ok) s = execSvnCommit ok s := rfl
@[simp] theorem exec_jread (s : State) : exec .jread s = execJread s := rfl
@[simp] theorem exec_jwrite (s : State) : exec .jwrite s = execJwrite s := rfl
@[simp] theorem exec_logRead (s : State) : exec .logRead s = execLogRead s := rfl
@[simp] theorem exec_setSleep (s : State) : exec .setSleep s = execSetSleep s := rfl
@[simp] theorem exec_clearRetired (s : State) : exec .clearRetired s = execClearRetired s := rfl
@[simp] theorem exec_runDiscard (s : State) : exec .runDiscard s = execRunDiscard s := rfl
@[simp] theorem exec_sensors (s : State) : exec .sensors s = execSensors s := rfl
@[simp] theorem exec_mailboxComplete (s : State) : exec .mailboxComplete s = execMailboxComplete s := rfl
@[simp] theorem exec_setEndpointId {eid} (s : State) : exec (.setEndpointId eid) s = execSetEndpointId eid s := rfl
@[simp] theorem exec_getEndpointId (s : State) : exec .getEndpointId s = execGetEndpointId s := rfl
@[simp] theorem exec_getEndpointUuid (s : State) : exec .getEndpointUuid s = execGetEndpointUuid s := rfl
@[simp] theorem exec_getMctpVersionSupport {typ} (s : State) : exec (.getMctpVersionSupport typ) s = execGetMctpVersionSupport typ s := rfl
@[simp] theorem exec_getMessageTypeSupport (s : State) : exec .getMessageTypeSupport s = execGetMessageTypeSupport s := rfl
@[simp] theorem exec_gettid (s : State) : exec .gettid s = execGettid s := rfl
@[simp] theorem exec_settid {tid} (s : State) : exec (.settid tid) s = execSettid tid s := rfl
@[simp] theorem exec_getpldmversion {typ} (s : State) : exec (.getpldmversion typ) s = execGetpldmversion typ s := rfl
@[simp] theorem exec_getpldmtypes (s : State) : exec .getpldmtypes s = execGetpldmtypes s := rfl
@[simp] theorem exec_getpldmcommands {typ} (s : State) : exec (.getpldmcommands typ) s = execGetpldmcommands typ s := rfl
@[simp] theorem exec_getpdrrepositoryinfo (s : State) : exec .getpdrrepositoryinfo s = execGetpdrrepositoryinfo s := rfl
@[simp] theorem exec_getpdr {rec} (s : State) : exec (.getpdr rec) s = execGetpdr rec s := rfl
@[simp] theorem exec_getsensorreading {id} (s : State) : exec (.getsensorreading id) s = execGetsensorreading id s := rfl
@[simp] theorem exec_getstatesensorreadings {id} (s : State) : exec (.getstatesensorreadings id) s = execGetstatesensorreadings id s := rfl
@[simp] theorem exec_setCapEffecter {watts} (s : State) : exec (.setCapEffecter watts) s = execSetCapEffecter watts s := rfl
@[simp] theorem exec_setBrakecapEffecter {watts} (s : State) : exec (.setBrakecapEffecter watts) s = execSetBrakecapEffecter watts s := rfl
@[simp] theorem exec_wakeRequest {value} (s : State) : exec (.wakeRequest value) s = execWakeRequest value s := rfl
@[simp] theorem exec_svnCommitEffecter {value ok} (s : State) : exec (.svnCommitEffecter value ok) s = execSvnCommitEffecter value ok s := rfl
@[simp] theorem exec_getnumericeffectervalue {id} (s : State) : exec (.getnumericeffectervalue id) s = execGetnumericeffectervalue id s := rfl
@[simp] theorem exec_pollforplatformeventmessage {ack} (s : State) : exec (.pollforplatformeventmessage ack) s = execPollforplatformeventmessage ack s := rfl
@[simp] theorem exec_querydeviceidentifiers (s : State) : exec .querydeviceidentifiers s = execQuerydeviceidentifiers s := rfl
@[simp] theorem exec_getfirmwareparameters (s : State) : exec .getfirmwareparameters s = execGetfirmwareparameters s := rfl
@[simp] theorem exec_requestupdate (s : State) : exec .requestupdate s = execRequestupdate s := rfl
@[simp] theorem exec_passcomponenttable (s : State) : exec .passcomponenttable s = execPasscomponenttable s := rfl
@[simp] theorem exec_updatecomponent (s : State) : exec .updatecomponent s = execUpdatecomponent s := rfl
@[simp] theorem exec_requestfirmwaredata {offset data ok} (s : State) : exec (.requestfirmwaredata offset data ok) s = execRequestfirmwaredata offset data ok s := rfl
@[simp] theorem exec_transfercomplete (s : State) : exec .transfercomplete s = execTransfercomplete s := rfl
@[simp] theorem exec_verifycomplete (s : State) : exec .verifycomplete s = execVerifycomplete s := rfl
@[simp] theorem exec_applycomplete (s : State) : exec .applycomplete s = execApplycomplete s := rfl
@[simp] theorem exec_activatefirmware {ok} (s : State) : exec (.activatefirmware ok) s = execActivatefirmware ok s := rfl
@[simp] theorem exec_getstatus (s : State) : exec .getstatus s = execGetstatus s := rfl
@[simp] theorem exec_cancelupdatecomponent (s : State) : exec .cancelupdatecomponent s = execCancelupdatecomponent s := rfl
@[simp] theorem exec_cancelupdate (s : State) : exec .cancelupdate s = execCancelupdate s := rfl
@[simp] theorem exec_dramRefresh {ch} (s : State) : exec (.dramRefresh ch) s = execDramRefresh ch s := rfl
@[simp] theorem exec_powerLoop {milliwatts} (s : State) : exec (.powerLoop milliwatts) s = execPowerLoop milliwatts s := rfl
@[simp] theorem exec_readCompletion {f addr data} (s : State) : exec (.readCompletion f addr data) s = execReadCompletion f addr data s := rfl
@[simp] theorem exec_reserveCharged (s : State) : exec .reserveCharged s = execReserveCharged s := rfl
@[simp] theorem exec_pcieLinkUp (s : State) : exec .pcieLinkUp s = execPcieLinkUp s := rfl
@[simp] theorem exec_resetComplete {f} (s : State) : exec (.resetComplete f) s = execResetComplete f s := rfl

end Sys2Proof.Machine
end

