-- ==== Sys2Proof/Laws/Keeps.lean ====
section
/-! SUPPORT. The rules by which Keeps is shown of a function from its parts. -/

namespace Sys2Proof.Machine

theorem Keeps.refl (z : State) : Keeps z z := ⟨rfl, rfl, Nat.le_refl _, id⟩

theorem Keeps.trans {x y z : State} (h : Keeps x y) (g : Keeps y z) : Keeps x z :=
  ⟨g.variant.trans h.variant, g.pending.trans h.pending, Nat.le_trans h.minSvn g.minSvn, fun w => g.wf (h.wf w)⟩

/-- A state that differs in none of the fields Keeps speaks of. -/
theorem Keeps.of {z s t : State} (v : t.variant = s.variant) (p : t.pending = s.pending) (m : t.flash.minSvn = s.flash.minSvn)
    (w : t.mem.words = s.mem.words) (y : t.mem.yard = s.mem.yard) (o : t.host = s.host) (j : t.steward.journal = s.steward.journal)
    (h : Keeps z s) : Keeps z t :=
  ⟨v.trans h.variant, p.trans h.pending, by rw [m]; exact h.minSvn, fun k => by
    have := h.wf k
    simpa [Memory.wf, w, y, o, j] using this⟩

/-- An update of other fields. -/
theorem Keeps.upd {z s : State} {st ti co be mem er cx at_ fu po hb se di sr sl pa pw sc fl sd sw dr}
    (h : Keeps z s) (w : mem.words = s.mem.words) (y : mem.yard = s.mem.yard) (m : fl.minSvn = s.flash.minSvn) (j : sw.journal = s.steward.journal) :
    Keeps z (State.mk s.variant st ti co be mem er cx at_ fu po s.host hb se di sr sl pa pw sc fl sd sw dr s.pending) :=
  Keeps.of (s := s) rfl rfl m w y rfl j h

/-- An update of the memories, the fuses or the journal store. -/
theorem Keeps.updM {z s : State} {st ti co be mem er cx at_ fu po ho hb se di sr sl pa pw sc fl sd sw dr}
    (h : Keeps z s) (w : twf 0 s.mem.words = true → twf 0 mem.words = true) (y : twf 0 s.mem.yard = true → twf 0 mem.yard = true)
    (o : twf none s.host = true → twf none ho = true) (j : twf none s.steward.journal = true → twf none sw.journal = true)
    (m : s.flash.minSvn ≤ fl.minSvn) :
    Keeps z (State.mk s.variant st ti co be mem er cx at_ fu po ho hb se di sr sl pa pw sc fl sd sw dr s.pending) :=
  ⟨h.variant, h.pending, Nat.le_trans h.minSvn m, fun k => by
    have := h.wf k
    simp only [Memory.wf, Bool.and_eq_true] at this ⊢
    exact ⟨⟨⟨w this.1.1.1, y this.1.1.2⟩, o this.1.2⟩, j this.2⟩⟩

/-- Words written into one block keep the canonical form. -/
theorem twf_putWords (blk : Nat) (ws : List (Nat × Word)) : ∀ {m : Tbl Word}, twf 0 m = true → twf 0 (putWords blk ws m) = true := by
  induction ws with
  | nil => intro m h; exact h
  | cons e ws ih => intro m h; exact ih (twf_tset _ _ h)

theorem Keeps.iteK {z : State} {c : Prop} {inst : Decidable c} {a b : State} (ha : Keeps z a) (hb : Keeps z b) : Keeps z (if c then a else b) := by
  split <;> assumption

theorem Keeps.foldl {α : Type} {z : State} {f : State → α → State} (hf : ∀ s x, Keeps z s → Keeps z (f s x)) (l : List α) :
    ∀ {s}, Keeps z s → Keeps z (l.foldl f s) := by
  induction l with
  | nil => intro s h; exact h
  | cons x l ih => intro s h; exact ih (hf s x h)

theorem Keeps.elim {α : Type} {z : State} {o : Option α} {s : State} {f : α → State} (h : Keeps z s) (hf : ∀ x, Keeps z (f x)) :
    Keeps z (o.elim s f) := by
  cases o with
  | none => exact h
  | some x => exact hf x

end Sys2Proof.Machine
end

