-- ==== Sys2Proof/Laws/Quiet.lean ====
section
/-! SUPPORT. The rules by which Quiet is shown of a function from its parts. -/

namespace Sys2Proof.Machine

theorem Quiet.refl (z : State) : Quiet z z := ⟨rfl, rfl, rfl, rfl, fun _ => rfl, rfl, rfl, rfl, rfl, rfl, rfl, rfl⟩

theorem Quiet.trans {x y z : State} (h : Quiet x y) (g : Quiet y z) : Quiet x z :=
  ⟨g.variant.trans h.variant, g.straps.trans h.straps, g.tick.trans h.tick, g.cores.trans h.cores,
   fun l => (g.bents l).trans (h.bents l), g.ctxs.trans h.ctxs, g.host.trans h.host, g.disp.trans h.disp, g.pair.trans h.pair,
   g.scarf.trans h.scarf, g.flash.trans h.flash, g.pending.trans h.pending⟩

/-- An update of other fields. -/
theorem Quiet.upd {z s : State} {mem er at_ fu po hb se sr sl pw sd sw dr} (h : Quiet z s) :
    Quiet z (State.mk s.variant s.straps s.tick s.cores s.bents mem er s.ctxs at_ fu po s.host hb se s.disp sr sl s.pair pw s.scarf s.flash sd sw dr s.pending) :=
  ⟨h.variant, h.straps, h.tick, h.cores, h.bents, h.ctxs, h.host, h.disp, h.pair, h.scarf, h.flash, h.pending⟩

/-- An update of the dispatcher's translation caches and of other fields. -/
theorem Quiet.updT {z s : State} {mem er at_ fu po hb se sr sl pw sd sw dr ts} (h : Quiet z s) :
    Quiet z (State.mk s.variant s.straps s.tick s.cores s.bents mem er s.ctxs at_ fu po s.host hb se { s.disp with tlbs := ts } sr sl s.pair pw
      s.scarf s.flash sd sw dr s.pending) :=
  ⟨h.variant, h.straps, h.tick, h.cores, h.bents, h.ctxs, h.host, h.disp, h.pair, h.scarf, h.flash, h.pending⟩

/-- The caches of a bent, and the errors in its memories. -/
theorem Quiet.cache {z s : State} {l d e i j t b} (h : Quiet z s) :
    Quiet z (s.setBent l { s.bent l with dcache := d, dBad := e, icache := i, iBad := j, tlb := t, bad := b }) := by
  refine ⟨h.variant, h.straps, h.tick, h.cores, fun n => ?_, h.ctxs, h.host, h.disp, h.pair, h.scarf, h.flash, h.pending⟩
  by_cases e : n = l
  · subst e
    simp only [State.bent, State.setBent, tget_tset_self]
    exact h.bents n
  · simp only [State.bent, State.setBent, tget_tset_other _ _ _ e]
    exact h.bents n

theorem Quiet.iteK {z : State} {c : Prop} {inst : Decidable c} {a b : State} (ha : Quiet z a) (hb : Quiet z b) : Quiet z (if c then a else b) := by
  split <;> assumption

theorem Quiet.foldl {α : Type} {z : State} {f : State → α → State} (hf : ∀ s x, Quiet z s → Quiet z (f s x)) (l : List α) :
    ∀ {s}, Quiet z s → Quiet z (l.foldl f s) := by
  induction l with
  | nil => intro s h; exact h
  | cons x l ih => intro s h; exact ih (hf s x h)

end Sys2Proof.Machine
end

