-- ==== Sys2Proof/Laws/QuietUnits.lean ====
section
/-! SUPPORT. Quiet of the error log, memory integrity, translation and the fetch: one lemma a function. -/

namespace Sys2Proof.Machine

/-! ### Log -/

theorem State_setFn_quiet {z : State} {s x2 x3} (h1 : Quiet z (s)) : Quiet z (State.setFn s x2 x3) := by
  unfold State.setFn
  with_reducible exact Quiet.upd (by assumption)

theorem State_drawn_quiet {z : State} {s} (h1 : Quiet z (s)) : Quiet z (State.drawn s) := by
  unfold State.drawn
  with_reducible exact Quiet.upd (by assumption)

theorem copyEntry_quiet {z : State} {x1 s} (h2 : Quiet z (s)) : Quiet z (copyEntry x1 s) := by
  unfold copyEntry
  with_reducible exact Quiet.upd (by assumption)

theorem countErr_quiet {z : State} {x1 s} (h2 : Quiet z (s)) : Quiet z (countErr x1 s) := by
  unfold countErr
  with_reducible exact Quiet.upd (by assumption)

theorem queueEvent_quiet {z : State} {x1 s} (h2 : Quiet z (s)) : Quiet z (queueEvent x1 s) := by
  unfold queueEvent
  with_reducible exact Quiet.upd (by assumption)

theorem State_setSrc_quiet {z : State} {s x2 x3} (h1 : Quiet z (s)) : Quiet z (State.setSrc s x2 x3) := by
  unfold State.setSrc
  with_reducible exact Quiet.upd (by assumption)

theorem requestWake_quiet {z : State} {s} (h1 : Quiet z (s)) : Quiet z (requestWake s) := by
  unfold requestWake
  with_reducible refine Quiet.iteK ?_ ?_
  · with_reducible exact Quiet.upd (by assumption)
  · with_reducible refine Quiet.iteK ?_ ?_
    · with_reducible exact Quiet.upd (by assumption)
    · with_reducible assumption

theorem fireSrc_quiet {z : State} {x1 x2 s} (h3 : Quiet z (s)) : Quiet z (fireSrc x1 x2 s) := by
  unfold fireSrc
  extract_lets +onlyGivenNames v1
  have k1 : Quiet z (v1) := by
    dsimp only [v1]
    with_reducible apply State_setSrc_quiet
    with_reducible assumption
  clear_value v1
  with_reducible refine Quiet.iteK ?_ ?_
  · with_reducible apply requestWake_quiet
    with_reducible assumption
  · with_reducible assumption

theorem fireModule_quiet {z : State} {x1 s} (h2 : Quiet z (s)) : Quiet z (fireModule x1 s) := by
  unfold fireModule
  with_reducible refine Quiet.iteK ?_ ?_
  · with_reducible apply fireSrc_quiet
    with_reducible assumption
  · with_reducible assumption

theorem sendVec_quiet {z : State} {x1 x2 s} (h3 : Quiet z (s)) : Quiet z (sendVec x1 x2 s) := by
  unfold sendVec
  extract_lets +onlyGivenNames v1
  clear_value v1
  with_reducible refine Quiet.iteK ?_ ?_
  · with_reducible assumption
  · extract_lets +onlyGivenNames v2
    clear_value v2
    with_reducible refine Quiet.iteK ?_ ?_
    · with_reducible apply State_setFn_quiet
      with_reducible assumption
    · with_reducible refine Quiet.iteK ?_ ?_
      · with_reducible exact Quiet.upd (by assumption)
      · with_reducible exact Quiet.upd (by assumption)

theorem errInterrupt_quiet {z : State} {x1 s} (h2 : Quiet z (s)) : Quiet z (errInterrupt x1 s) := by
  unfold errInterrupt
  extract_lets +onlyGivenNames v1
  have k1 : Quiet z (v1) := by
    dsimp only [v1]
    with_reducible apply fireModule_quiet
    with_reducible assumption
  clear_value v1
  with_reducible refine Quiet.iteK ?_ ?_
  · with_reducible apply sendVec_quiet
    with_reducible assumption
  · with_reducible assumption

theorem logEntry_quiet {z : State} {x1 s} (h2 : Quiet z (s)) : Quiet z (logEntry x1 s) := by
  unfold logEntry
  with_reducible refine Quiet.iteK ?_ ?_
  · extract_lets +onlyGivenNames v1
    have k1 : Quiet z (v1) := by
      dsimp only [v1]
      with_reducible apply queueEvent_quiet
      with_reducible apply copyEntry_quiet
      with_reducible assumption
    clear_value v1
    with_reducible refine Quiet.iteK ?_ ?_
    · with_reducible apply errInterrupt_quiet
      with_reducible exact Quiet.upd (by assumption)
    · split
      · with_reducible apply errInterrupt_quiet
        with_reducible exact Quiet.upd (by assumption)
      · with_reducible exact Quiet.upd (by assumption)
  · extract_lets +onlyGivenNames v2
    clear_value v2
    extract_lets +onlyGivenNames v3
    clear_value v3
    extract_lets +onlyGivenNames v4
    clear_value v4
    with_reducible refine Quiet.iteK ?_ ?_
    · with_reducible exact Quiet.upd (by assumption)
    · extract_lets +onlyGivenNames v5
      extract_lets +onlyGivenNames v6
      have k6 : Quiet z (v6) := by
        dsimp only [v6]
        with_reducible exact Quiet.upd (by assumption)
      with_reducible refine Quiet.iteK ?_ ?_
      · with_reducible apply errInterrupt_quiet
        with_reducible exact Quiet.upd (by assumption)
      · with_reducible exact Quiet.upd (by assumption)

theorem logErr_quiet {z : State} {x1 x2 x3 x4 x5 x6 x7 s} (h8 : Quiet z (s)) : Quiet z (logErr x1 x2 x3 x4 x5 x6 x7 s) := by
  unfold logErr
  with_reducible apply logEntry_quiet
  with_reducible assumption

theorem countAer_quiet {z : State} {x1 s} (h2 : Quiet z (s)) : Quiet z (countAer x1 s) := by
  unfold countAer
  with_reducible exact Quiet.upd (by assumption)

/-! ### Integrity -/

theorem dropMerge_quiet {z : State} {x1 s} (h2 : Quiet z (s)) : Quiet z (dropMerge x1 s) := by
  unfold dropMerge
  with_reducible exact Quiet.upd (by assumption)

theorem keepFetch_quiet {z : State} {x1 x2 s} (h3 : Quiet z (s)) : Quiet z (keepFetch x1 x2 s) := by
  unfold keepFetch
  with_reducible exact Quiet.upd (by assumption)

theorem setPoison_quiet {z : State} {x1 x2 s} (h3 : Quiet z (s)) : Quiet z (setPoison x1 x2 s) := by
  unfold setPoison
  with_reducible exact Quiet.upd (by assumption)

theorem afterBlockWrite_quiet {z : State} {x1 s} (h2 : Quiet z (s)) : Quiet z (afterBlockWrite x1 s) := by
  unfold afterBlockWrite
  extract_lets +onlyGivenNames v1
  extract_lets +onlyGivenNames v2
  have k2 : Quiet z (v2) := by
    dsimp only [v2]
    with_reducible apply setPoison_quiet
    with_reducible exact Quiet.upd (by assumption)
  clear_value v2
  extract_lets +onlyGivenNames v3
  clear_value v3
  with_reducible refine Quiet.iteK ?_ ?_
  · with_reducible apply logErr_quiet
    with_reducible exact Quiet.upd (by assumption)
  · with_reducible exact Quiet.upd (by assumption)

theorem storeBlock_quiet {z : State} {x1 x2 s} (h3 : Quiet z (s)) : Quiet z (storeBlock x1 x2 s) := by
  unfold storeBlock
  split
  · extract_lets +onlyGivenNames v1
    clear_value v1
    with_reducible exact Quiet.upd (by assumption)
  · with_reducible exact Quiet.upd (by assumption)

theorem fullBlockWrite_quiet {z : State} {x1 x2 s} (h3 : Quiet z (s)) : Quiet z (fullBlockWrite x1 x2 s) := by
  unfold fullBlockWrite
  extract_lets +onlyGivenNames v1
  have k1 : Quiet z (v1) := by
    dsimp only [v1]
    with_reducible apply setPoison_quiet
    with_reducible apply dropMerge_quiet
    with_reducible assumption
  clear_value v1
  with_reducible apply afterBlockWrite_quiet
  with_reducible apply storeBlock_quiet
  with_reducible assumption

theorem decodeBlock_quiet {z : State} {x1 s x3} (h2 : Quiet z (s)) : Pair.all (Quiet z) (decodeBlock x1 s x3) := by
  unfold decodeBlock
  split
  · with_reducible exact Pair.mkI (by assumption)
  · with_reducible exact Pair.mkI (by assumption)
  · with_reducible exact Pair.mkI (by assumption)
  · with_reducible refine Pair.iteK ?_ ?_
    · with_reducible refine Pair.mkI ?_
      with_reducible apply State_drawn_quiet
      with_reducible assumption
    · with_reducible refine Pair.iteK ?_ ?_
      · with_reducible refine Pair.mkI ?_
        with_reducible apply State_drawn_quiet
        with_reducible assumption
      · with_reducible refine Pair.mkI ?_
        with_reducible apply State_drawn_quiet
        with_reducible assumption
  · with_reducible refine Pair.iteK ?_ ?_
    · with_reducible refine Pair.mkI ?_
      with_reducible apply State_drawn_quiet
      with_reducible assumption
    · with_reducible refine Pair.mkI ?_
      with_reducible apply State_drawn_quiet
      with_reducible assumption

theorem noteCe_quiet {z : State} {x1 x2 x3 s} (h4 : Quiet z (s)) : Quiet z (noteCe x1 x2 x3 s) := by
  unfold noteCe
  with_reducible apply logErr_quiet
  with_reducible apply countErr_quiet
  with_reducible assumption

theorem noteUe_quiet {z : State} {x1 x2 s} (h3 : Quiet z (s)) : Quiet z (noteUe x1 x2 s) := by
  unfold noteUe
  with_reducible apply logErr_quiet
  with_reducible apply countErr_quiet
  with_reducible apply setPoison_quiet
  with_reducible assumption

theorem noteFound_quiet {z : State} {x1 x2 x3 s} (h4 : Quiet z (s)) : Quiet z (noteFound x1 x2 x3 s) := by
  unfold noteFound
  split
  · with_reducible assumption
  · with_reducible apply noteCe_quiet
    with_reducible assumption
  · with_reducible apply noteUe_quiet
    with_reducible assumption
  · with_reducible refine Quiet.iteK ?_ ?_
    · with_reducible assumption
    · with_reducible apply noteCe_quiet
      with_reducible assumption

theorem fetchBlock_quiet {z : State} {x1 x2 x3 s} (h4 : Quiet z (s)) : Pair.all (Quiet z) (fetchBlock x1 x2 x3 s) := by
  unfold fetchBlock
  split
  · with_reducible exact Pair.mkI (by assumption)
  · split
    with_reducible refine Pair.mkI ?_
    with_reducible apply keepFetch_quiet
    with_reducible apply noteFound_quiet
    with_reducible refine Pair.sndK (by assumption) ?_
    with_reducible apply decodeBlock_quiet
    with_reducible assumption

theorem rmwStore_quiet {z : State} {x1 x2 x3 s} (h4 : Quiet z (s)) : Quiet z (rmwStore x1 x2 x3 s) := by
  unfold rmwStore
  extract_lets +onlyGivenNames v1
  have k1 : Quiet z (v1) := by
    dsimp only [v1]
    split
    · with_reducible apply storeBlock_quiet
      with_reducible assumption
    · with_reducible assumption
  clear_value v1
  with_reducible apply afterBlockWrite_quiet
  with_reducible apply storeBlock_quiet
  with_reducible assumption

theorem mergeRetire_quiet {z : State} {x1 s} (h2 : Quiet z (s)) : Quiet z (mergeRetire x1 s) := by
  unfold mergeRetire
  split
  · with_reducible assumption
  · extract_lets +onlyGivenNames v1
    clear_value v1
    with_reducible refine Quiet.iteK ?_ ?_
    · with_reducible apply fullBlockWrite_quiet
      with_reducible assumption
    · extract_lets +onlyGivenNames v2
      have k2 : Quiet z (v2) := by
        dsimp only [v2]
        with_reducible apply dropMerge_quiet
        with_reducible assumption
      clear_value v2
      extract_lets +onlyGivenNames v3
      have k3 : Pair.all (Quiet z) (v3) := by
        dsimp only [v3]
        with_reducible refine Pair.iteK ?_ ?_
        · with_reducible exact Pair.mkI (by assumption)
        · with_reducible apply fetchBlock_quiet
          with_reducible assumption
      clear_value v3
      extract_lets +onlyGivenNames v4
      have k4 : Quiet z (v4) := by
        dsimp only [v4]
        with_reducible refine Quiet.iteK ?_ ?_
        · with_reducible apply logErr_quiet
          with_reducible exact Pair.sndI (by assumption)
        · with_reducible exact Pair.sndI (by assumption)
      clear_value v4
      with_reducible apply rmwStore_quiet
      with_reducible assumption

theorem lockedEnd_quiet {z : State} {x1 x2 s} (h3 : Quiet z (s)) : Quiet z (lockedEnd x1 x2 s) := by
  unfold lockedEnd
  with_reducible refine Quiet.iteK ?_ ?_
  · with_reducible apply mergeRetire_quiet
    with_reducible assumption
  · extract_lets +onlyGivenNames v1
    clear_value v1
    with_reducible refine Quiet.iteK ?_ ?_
    · with_reducible assumption
    · extract_lets +onlyGivenNames v2
      have k2 : Pair.all (Quiet z) (v2) := by
        dsimp only [v2]
        with_reducible apply fetchBlock_quiet
        with_reducible assumption
      clear_value v2
      with_reducible apply rmwStore_quiet
      with_reducible apply dropMerge_quiet
      with_reducible exact Pair.sndI (by assumption)

theorem storedRead_quiet {z : State} {s x2 x3} (h1 : Quiet z (s)) : Pair.all (Quiet z) (storedRead s x2 x3) := by
  unfold storedRead
  with_reducible refine Pair.iteK ?_ ?_
  · with_reducible exact Pair.mkI (by assumption)
  · extract_lets +onlyGivenNames v1
    have k1 : Pair.all (Quiet z) (v1) := by
      dsimp only [v1]
      with_reducible apply fetchBlock_quiet
      with_reducible assumption
    clear_value v1
    with_reducible exact Pair.mkI (Pair.sndI (by assumption))

theorem openFetch_quiet {z : State} {s} (h1 : Quiet z (s)) : Quiet z (openFetch s) := by
  unfold openFetch
  with_reducible exact Quiet.upd (by assumption)

theorem blkRead_quiet {z : State} {s x2 x3} (h1 : Quiet z (s)) : Pair.all (Quiet z) (blkRead s x2 x3) := by
  unfold blkRead
  split
  · with_reducible refine Pair.mkI ?_
    with_reducible refine Pair.sndK (by assumption) ?_
    with_reducible apply storedRead_quiet
    with_reducible assumption
  · with_reducible refine Pair.mkI ?_
    with_reducible refine Pair.sndK (by assumption) ?_
    with_reducible apply storedRead_quiet
    with_reducible assumption

theorem poisonWrite_quiet {z : State} {x1 s} (h2 : Quiet z (s)) : Quiet z (poisonWrite x1 s) := by
  unfold poisonWrite
  with_reducible apply logErr_quiet
  with_reducible apply setPoison_quiet
  with_reducible assumption

theorem checkPage_quiet {z : State} {x1 s} (h2 : Quiet z (s)) : Pair.all (Quiet z) (checkPage x1 s) := by
  unfold checkPage
  extract_lets +onlyGivenNames v1
  clear_value v1
  extract_lets +onlyGivenNames v2
  clear_value v2
  extract_lets +onlyGivenNames v3
  have k3 : Quiet z (v3) := by
    dsimp only [v3]
    with_reducible refine Quiet.foldl ?_ _ ?_
    · intro _ _
      intro _
      with_reducible refine Pair.sndI ?_
      with_reducible apply storedRead_quiet
      with_reducible assumption
    · with_reducible assumption
  clear_value v3
  with_reducible exact Pair.mkI (by assumption)

theorem zeroBlocks_quiet {z : State} {x1 x2 s} (h3 : Quiet z (s)) : Quiet z (zeroBlocks x1 x2 s) := by
  unfold zeroBlocks
  extract_lets +onlyGivenNames v1
  clear_value v1
  with_reducible exact Quiet.upd (by assumption)

theorem zeroPage_quiet {z : State} {x1 s} (h2 : Quiet z (s)) : Quiet z (zeroPage x1 s) := by
  unfold zeroPage
  with_reducible apply zeroBlocks_quiet
  with_reducible assumption

theorem closeFetch_quiet {z : State} {s} (h1 : Quiet z (s)) : Quiet z (closeFetch s) := by
  unfold closeFetch
  with_reducible exact Quiet.upd (by assumption)

theorem blkWrite_quiet {z : State} {x1 x2 s} (h3 : Quiet z (s)) : Quiet z (blkWrite x1 x2 s) := by
  unfold blkWrite
  split
  · extract_lets +onlyGivenNames v1
    clear_value v1
    with_reducible refine Quiet.iteK ?_ ?_
    · with_reducible apply fullBlockWrite_quiet
      with_reducible assumption
    · extract_lets +onlyGivenNames v2
      extract_lets +onlyGivenNames v3
      have k3 : Quiet z (v3) := by
        dsimp only [v3]
        with_reducible exact Quiet.upd (by assumption)
      clear_value v3
      with_reducible refine Quiet.iteK ?_ ?_
      · with_reducible apply mergeRetire_quiet
        with_reducible assumption
      · with_reducible assumption
  · extract_lets +onlyGivenNames v4
    clear_value v4
    with_reducible refine Quiet.iteK ?_ ?_
    · with_reducible apply fullBlockWrite_quiet
      with_reducible assumption
    · with_reducible refine Quiet.iteK ?_ ?_
      · with_reducible assumption
      · extract_lets +onlyGivenNames v5
        clear_value v5
        extract_lets +onlyGivenNames v6
        clear_value v6
        extract_lets +onlyGivenNames v7
        have k7 : Quiet z (v7) := by
          dsimp only [v7]
          with_reducible refine Quiet.iteK ?_ ?_
          · split
            · with_reducible apply mergeRetire_quiet
              with_reducible assumption
            · with_reducible assumption
          · with_reducible assumption
        clear_value v7
        with_reducible exact Quiet.upd (by assumption)

theorem flushMerge_quiet {z : State} {s} (h1 : Quiet z (s)) : Quiet z (flushMerge s) := by
  unfold flushMerge
  with_reducible refine Quiet.foldl ?_ _ ?_
  · intro _ _
    intro _
    with_reducible apply mergeRetire_quiet
    with_reducible assumption
  · with_reducible assumption

/-! ### Translate -/

theorem readEntry_quiet {z : State} {x1 s} (h2 : Quiet z (s)) : Pair.all (Quiet z) (readEntry x1 s) := by
  unfold readEntry
  with_reducible refine Pair.iteK ?_ ?_
  · split
    · with_reducible refine Pair.mkI ?_
      with_reducible refine Pair.sndK (by assumption) ?_
      with_reducible apply blkRead_quiet
      with_reducible assumption
    · with_reducible refine Pair.mkI ?_
      with_reducible refine Pair.sndK (by assumption) ?_
      with_reducible apply blkRead_quiet
      with_reducible assumption
  · with_reducible refine Pair.iteK ?_ ?_
    · with_reducible refine Pair.mkI ?_
      with_reducible apply State_drawn_quiet
      with_reducible assumption
    · with_reducible refine Pair.mkI ?_
      with_reducible apply State_drawn_quiet
      with_reducible assumption

theorem writeEntry_quiet {z : State} {x1 x2 s} (h3 : Quiet z (s)) : Quiet z (writeEntry x1 x2 s) := by
  unfold writeEntry
  with_reducible refine Quiet.iteK ?_ ?_
  · with_reducible apply lockedEnd_quiet
    with_reducible assumption
  · with_reducible assumption

theorem clearClaim_quiet {z : State} {x1 x2 s} (h3 : Quiet z (s)) : Quiet z (clearClaim x1 x2 s) := by
  unfold clearClaim
  with_reducible apply closeFetch_quiet
  split
  · with_reducible refine Quiet.iteK ?_ ?_
    · with_reducible apply writeEntry_quiet
      with_reducible refine Pair.sndK (by assumption) ?_
      with_reducible apply readEntry_quiet
      with_reducible apply openFetch_quiet
      with_reducible assumption
    · with_reducible refine Pair.sndK (by assumption) ?_
      with_reducible apply readEntry_quiet
      with_reducible apply openFetch_quiet
      with_reducible assumption
  · with_reducible refine Pair.sndK (by assumption) ?_
    with_reducible apply readEntry_quiet
    with_reducible apply openFetch_quiet
    with_reducible assumption

theorem dropClaim_quiet {z : State} {x1 s} (h2 : Quiet z (s)) : Quiet z (dropClaim x1 s) := by
  unfold dropClaim
  with_reducible exact Quiet.upd (by assumption)

theorem zeroLeaf_quiet {z : State} {x1 x2 s} (h3 : Quiet z (s)) : Quiet z (zeroLeaf x1 x2 s) := by
  unfold zeroLeaf
  with_reducible refine Quiet.iteK ?_ ?_
  · with_reducible assumption
  · with_reducible refine Quiet.iteK ?_ ?_
    · with_reducible refine Quiet.foldl ?_ _ ?_
      · intro _ _
        intro _
        with_reducible apply zeroPage_quiet
        with_reducible assumption
      · with_reducible assumption
    · with_reducible apply zeroPage_quiet
      with_reducible assumption

theorem finishClaim_quiet {z : State} {x1 x2 s} (h3 : Quiet z (s)) : Quiet z (finishClaim x1 x2 s) := by
  unfold finishClaim
  split
  · with_reducible assumption
  · with_reducible apply clearClaim_quiet
    with_reducible apply dropClaim_quiet
    with_reducible apply zeroLeaf_quiet
    with_reducible assumption

theorem answered_quiet {z : State} {x1 s} (h2 : Quiet z (s)) : Quiet z (answered x1 s) := by
  unfold answered
  with_reducible refine Quiet.iteK ?_ ?_
  · with_reducible assumption
  · with_reducible apply State_drawn_quiet
    with_reducible assumption

theorem walkTable_quiet {z : State} {x1 x2 x3 x4 s} (h5 : Quiet z (s)) : Pair.all (Quiet z) (walkTable x1 x2 x3 x4 s) := by
  unfold walkTable
  with_reducible refine Pair.iteK ?_ ?_
  · with_reducible refine Pair.mkI ?_
    with_reducible apply answered_quiet
    with_reducible assumption
  · with_reducible refine Pair.iteK ?_ ?_
    · with_reducible exact Pair.mkI (by assumption)
    · extract_lets +onlyGivenNames v1
      clear_value v1
      split
      · with_reducible refine Pair.mkI ?_
        with_reducible refine Pair.sndK (by assumption) ?_
        with_reducible apply readEntry_quiet
        with_reducible apply answered_quiet
        with_reducible assumption
      · with_reducible refine Pair.iteK ?_ ?_
        · with_reducible refine Pair.mkI ?_
          with_reducible refine Pair.sndK (by assumption) ?_
          with_reducible apply readEntry_quiet
          with_reducible apply answered_quiet
          with_reducible assumption
        · with_reducible refine Pair.iteK ?_ ?_
          · with_reducible refine Pair.mkI ?_
            with_reducible refine Pair.sndK (by assumption) ?_
            with_reducible apply readEntry_quiet
            with_reducible apply answered_quiet
            with_reducible assumption
          · with_reducible refine Pair.mkI ?_
            with_reducible refine Pair.sndK (by assumption) ?_
            with_reducible apply readEntry_quiet
            with_reducible apply answered_quiet
            with_reducible assumption

theorem walk_quiet {z : State} {x1 x2 s} (h3 : Quiet z (s)) : Pair.all (Quiet z) (walk x1 x2 s) := by
  unfold walk
  extract_lets +onlyGivenNames v1
  clear_value v1
  with_reducible refine Pair.iteK ?_ ?_
  · with_reducible refine Pair.mkI ?_
    with_reducible apply answered_quiet
    with_reducible assumption
  · with_reducible refine Pair.iteK ?_ ?_
    · with_reducible exact Pair.mkI (by assumption)
    · split
      · with_reducible refine Pair.mkI ?_
        with_reducible refine Pair.sndK (by assumption) ?_
        with_reducible apply readEntry_quiet
        with_reducible apply answered_quiet
        with_reducible assumption
      · with_reducible refine Pair.iteK ?_ ?_
        · with_reducible refine Pair.mkI ?_
          with_reducible refine Pair.sndK (by assumption) ?_
          with_reducible apply readEntry_quiet
          with_reducible apply answered_quiet
          with_reducible assumption
        · with_reducible refine Pair.iteK ?_ ?_
          · with_reducible refine Pair.iteK ?_ ?_
            · with_reducible refine Pair.mkI ?_
              with_reducible refine Pair.sndK (by assumption) ?_
              with_reducible apply readEntry_quiet
              with_reducible apply answered_quiet
              with_reducible assumption
            · with_reducible refine Pair.iteK ?_ ?_
              · with_reducible refine Pair.mkI ?_
                with_reducible refine Pair.sndK (by assumption) ?_
                with_reducible apply readEntry_quiet
                with_reducible apply answered_quiet
                with_reducible assumption
              · with_reducible refine Pair.mkI ?_
                with_reducible refine Pair.sndK (by assumption) ?_
                with_reducible apply readEntry_quiet
                with_reducible apply answered_quiet
                with_reducible assumption
          · with_reducible refine Pair.iteK ?_ ?_
            · with_reducible refine Pair.mkI ?_
              with_reducible refine Pair.sndK (by assumption) ?_
              with_reducible apply readEntry_quiet
              with_reducible apply answered_quiet
              with_reducible assumption
            · with_reducible apply walkTable_quiet
              with_reducible refine Pair.sndK (by assumption) ?_
              with_reducible apply readEntry_quiet
              with_reducible apply answered_quiet
              with_reducible assumption

theorem sramRead_quiet {z : State} {x1 x2 s} (hf2 : ∀ y1, Quiet z (y1) → Quiet z (x2 y1)) (h3 : Quiet z (s)) : Pair.all (Quiet z) (sramRead x1 x2 s) := by
  unfold sramRead
  split
  · with_reducible exact Pair.mkI (by assumption)
  · with_reducible refine Pair.mkI ?_
    with_reducible apply logErr_quiet
    with_reducible apply countErr_quiet
    with_reducible apply hf2
    with_reducible assumption
  · with_reducible refine Pair.mkI ?_
    with_reducible apply logErr_quiet
    with_reducible apply countErr_quiet
    with_reducible assumption

theorem healYard_quiet {z : State} {x1 s} (h2 : Quiet z (s)) : Quiet z (healYard x1 s) := by
  unfold healYard
  with_reducible exact Quiet.upd (by assumption)

theorem healBench_quiet {z : State} {x1 x2 s} (h3 : Quiet z (s)) : Quiet z (healBench x1 x2 s) := by
  unfold healBench
  with_reducible exact Quiet.cache (by assumption)

theorem readSmallQ_quiet {z : State} {x1 x2 x3 x4 s} (h5 : Quiet z (s)) : Res.all (Quiet z) (readSmallQ x1 x2 x3 x4 s) := by
  unfold readSmallQ
  split
  · with_reducible exact Res.okI (by assumption)
  · split
    · with_reducible refine Res.okI ?_
      with_reducible refine Pair.sndK (by assumption) ?_
      with_reducible apply sramRead_quiet
      · intro _ _
        with_reducible apply healYard_quiet
        with_reducible assumption
      · with_reducible assumption
    · with_reducible refine Res.trapI ?_
      with_reducible refine Pair.sndK (by assumption) ?_
      with_reducible apply sramRead_quiet
      · intro _ _
        with_reducible apply healYard_quiet
        with_reducible assumption
      · with_reducible assumption
  · split
    · with_reducible refine Res.okI ?_
      with_reducible refine Pair.sndK (by assumption) ?_
      with_reducible apply sramRead_quiet
      · intro _ _
        with_reducible apply healBench_quiet
        with_reducible assumption
      · with_reducible assumption
    · with_reducible refine Res.trapI ?_
      with_reducible refine Pair.sndK (by assumption) ?_
      with_reducible apply sramRead_quiet
      · intro _ _
        with_reducible apply healBench_quiet
        with_reducible assumption
      · with_reducible assumption
  · with_reducible refine Res.iteK ?_ ?_
    · with_reducible exact Res.trapI (Quiet.upd (by assumption))
    · extract_lets +onlyGivenNames v1
      clear_value v1
      with_reducible exact Res.okI (by assumption)

theorem readFromQ_quiet {z : State} {x1 x2 x3 x4 x5 s} (h6 : Quiet z (s)) : Res.all (Quiet z) (readFromQ x1 x2 x3 x4 x5 s) := by
  induction x3 generalizing x1 x2 x4 x5 s
  · unfold readFromQ
    split
    · with_reducible exact Res.okI (by assumption)
    · injections
    · injections
  · rename_i n ih
    unfold readFromQ
    split
    · with_reducible exact Res.okI (by assumption)
    · injections
    · injections
      subst_vars
      split
      · with_reducible refine Res.iteK ?_ ?_
        · extract_lets +onlyGivenNames v1
          clear_value v1
          split
          · with_reducible refine Res.trapI ?_
            with_reducible refine Pair.sndK (by assumption) ?_
            with_reducible apply blkRead_quiet
            with_reducible assumption
          · with_reducible refine Res.bindK ?_ ?_
            · with_reducible apply ih
              with_reducible refine Pair.sndK (by assumption) ?_
              with_reducible apply blkRead_quiet
              with_reducible assumption
            · intro _ _
              intro _
              with_reducible exact Res.okI (by assumption)
        · with_reducible refine Res.iteK ?_ ?_
          · with_reducible exact Res.stallI (by assumption)
          · with_reducible refine Res.iteK ?_ ?_
            · with_reducible refine Res.trapI ?_
              with_reducible apply State_drawn_quiet
              with_reducible assumption
            · extract_lets +onlyGivenNames v2
              clear_value v2
              with_reducible refine Res.bindK ?_ ?_
              · with_reducible apply ih
                with_reducible apply State_drawn_quiet
                with_reducible assumption
              · intro _ _
                intro _
                with_reducible exact Res.okI (by assumption)
      · with_reducible refine Res.bindK ?_ ?_
        · with_reducible apply readSmallQ_quiet
          with_reducible assumption
        · intro _ _
          intro _
          with_reducible refine Res.bindK ?_ ?_
          · with_reducible apply ih
            with_reducible assumption
          · intro _ _
            intro _
            with_reducible exact Res.okI (by assumption)

theorem claimEntry_quiet {z : State} {x1 x2 x3 s} (h4 : Quiet z (s)) : Quiet z (claimEntry x1 x2 x3 s) := by
  unfold claimEntry
  extract_lets +onlyGivenNames v1
  clear_value v1
  extract_lets +onlyGivenNames v2
  have k2 : Quiet z (v2) := by
    dsimp only [v2]
    with_reducible apply writeEntry_quiet
    with_reducible assumption
  clear_value v2
  with_reducible exact Quiet.upd (by assumption)

theorem setTlb_quiet {z : State} {x1 x2 s} (h3 : Quiet z (s)) : Quiet z (setTlb x1 x2 s) := by
  unfold setTlb
  split
  · with_reducible exact Quiet.cache (by assumption)
  · with_reducible exact Quiet.updT (by assumption)
  · with_reducible exact Quiet.updT (by assumption)
  · with_reducible assumption
  · with_reducible assumption

theorem tlbFill_quiet {z : State} {x1 x2 x3 x4 x5 s} (h6 : Quiet z (s)) : Quiet z (tlbFill x1 x2 x3 x4 x5 s) := by
  unfold tlbFill
  extract_lets +onlyGivenNames v1
  clear_value v1
  with_reducible refine Quiet.iteK ?_ ?_
  · with_reducible apply setTlb_quiet
    with_reducible assumption
  · with_reducible apply setTlb_quiet
    with_reducible apply State_drawn_quiet
    with_reducible assumption

theorem useWalk_quiet {z : State} {x1 x2 x3 x4 x5 s} (h6 : Quiet z (s)) : Res.all (Quiet z) (useWalk x1 x2 x3 x4 x5 s) := by
  unfold useWalk
  split
  · with_reducible exact Res.trapI (by assumption)
  · with_reducible exact Res.trapI (by assumption)
  · with_reducible exact Res.stallI (by assumption)
  · split
    · with_reducible refine Res.trapI ?_
      with_reducible apply answered_quiet
      with_reducible assumption
    · extract_lets +onlyGivenNames v1
      have k1 : Quiet z (v1) := by
        dsimp only [v1]
        with_reducible apply answered_quiet
        with_reducible assumption
      clear_value v1
      with_reducible refine Res.iteK ?_ ?_
      · with_reducible refine Res.iteK ?_ ?_
        · with_reducible exact Res.stallI (by assumption)
        · with_reducible refine Res.stallI ?_
          with_reducible apply claimEntry_quiet
          with_reducible assumption
      · with_reducible refine Res.okI ?_
        with_reducible apply tlbFill_quiet
        with_reducible assumption

theorem xlatePaged_quiet {z : State} {x1 x2 x3 x4 s} (h5 : Quiet z (s)) : Res.all (Quiet z) (xlatePaged x1 x2 x3 x4 s) := by
  unfold xlatePaged
  extract_lets +onlyGivenNames v1
  have k1 : Pair.all (Quiet z) (v1) := by
    dsimp only [v1]
    with_reducible apply walk_quiet
    with_reducible assumption
  clear_value v1
  split
  · with_reducible apply useWalk_quiet
    with_reducible exact Pair.sndI (by assumption)
  · extract_lets +onlyGivenNames v2
    have k2 : ∀ y1, Res.all (Quiet z) (y1) → Res.all (Quiet z) (v2 y1) := by
      intro _ _
      dsimp only [v2]
      split
      · with_reducible refine Res.trapI ?_
        with_reducible apply answered_quiet
        with_reducible assumption
      · split
        · with_reducible refine Res.iteK ?_ ?_
          · with_reducible exact Res.okI (by assumption)
          · with_reducible refine Res.iteK ?_ ?_
            · with_reducible refine Res.okI ?_
              with_reducible apply State_drawn_quiet
              with_reducible assumption
            · with_reducible refine Res.okI ?_
              with_reducible apply State_drawn_quiet
              with_reducible refine Res.okE (by assumption)
        · with_reducible refine Res.iteK ?_ ?_
          · with_reducible refine Res.okI ?_
            with_reducible apply State_drawn_quiet
            with_reducible assumption
          · with_reducible assumption
    clear_value v2
    extract_lets +onlyGivenNames v3
    have k3 : Res.all (Quiet z) (v3) := by
      dsimp only [v3]
      with_reducible apply useWalk_quiet
      with_reducible exact Pair.sndI (by assumption)
    clear_value v3
    split
    · with_reducible refine Res.iteK ?_ ?_
      · with_reducible apply k2
        with_reducible assumption
      · with_reducible refine Res.iteK ?_ ?_
        · with_reducible apply k2
          with_reducible assumption
        · with_reducible assumption
    · with_reducible refine Res.iteK ?_ ?_
      · with_reducible apply k2
        with_reducible assumption
      · with_reducible assumption

theorem askPage_quiet {z : State} {x1 x2 x3 x4 s} (h5 : Quiet z (s)) : Quiet z (askPage x1 x2 x3 x4 s) := by
  unfold askPage
  extract_lets +onlyGivenNames v1
  clear_value v1
  with_reducible refine Quiet.iteK ?_ ?_
  · with_reducible exact Quiet.upd (by assumption)
  · with_reducible refine Quiet.iteK ?_ ?_
    · with_reducible assumption
    · with_reducible exact Quiet.upd (by assumption)

theorem hostXl_quiet {z : State} {x1 x2 x3 x4 x5 x6 x7 s} (h8 : Quiet z (s)) : HostXl.all (Quiet z) (hostXl x1 x2 x3 x4 x5 x6 x7 s) := by
  unfold hostXl
  extract_lets +onlyGivenNames v1
  clear_value v1
  extract_lets +onlyGivenNames v2
  clear_value v2
  with_reducible refine HostXl.iteK ?_ ?_
  · with_reducible exact HostXl.waitI (by assumption)
  · split
    · with_reducible refine HostXl.iteK ?_ ?_
      · exact trivial
      · with_reducible exact HostXl.failI (by assumption)
    · split
      · with_reducible exact HostXl.failI (Quiet.upd (by assumption))
      · with_reducible refine HostXl.iteK ?_ ?_
        · with_reducible refine HostXl.iteK ?_ ?_
          · with_reducible exact HostXl.waitI (Quiet.upd (by assumption))
          · with_reducible exact HostXl.failI (by assumption)
        · with_reducible refine HostXl.waitI ?_
          with_reducible apply askPage_quiet
          with_reducible assumption

theorem xlateWord_quiet {z : State} {x1 x2 x3 x4 x5 s} (h6 : Quiet z (s)) : Res.all (Quiet z) (xlateWord x1 x2 x3 x4 x5 s) := by
  unfold xlateWord
  with_reducible refine Res.iteK ?_ ?_
  · with_reducible apply xlatePaged_quiet
    with_reducible assumption
  · with_reducible refine Res.iteK ?_ ?_
    · with_reducible refine Res.iteK ?_ ?_
      · with_reducible exact Res.trapI (by assumption)
      · split
        · with_reducible exact Res.okI (by assumption)
        · with_reducible refine Res.trapI ?_
          with_reducible refine HostXl.failK (by assumption) ?_
          with_reducible apply hostXl_quiet
          with_reducible assumption
        · with_reducible refine Res.stallI ?_
          with_reducible refine HostXl.waitK (by assumption) ?_
          with_reducible apply hostXl_quiet
          with_reducible assumption
    · with_reducible refine Res.iteK ?_ ?_
      · extract_lets +onlyGivenNames v1
        clear_value v1
        with_reducible refine Res.iteK ?_ ?_
        · with_reducible exact Res.okI (by assumption)
        · with_reducible exact Res.trapI (by assumption)
      · with_reducible refine Res.iteK ?_ ?_
        · split
          · extract_lets +onlyGivenNames v2
            clear_value v2
            with_reducible refine Res.iteK ?_ ?_
            · with_reducible refine Res.iteK ?_ ?_
              · with_reducible exact Res.okI (by assumption)
              · with_reducible exact Res.trapI (by assumption)
            · with_reducible exact Res.okI (by assumption)
          · with_reducible exact Res.trapI (by assumption)
        · with_reducible exact Res.trapI (by assumption)

theorem xlateFrom_quiet {z : State} {x1 x2 x3 x4 x5 x6 s} (h7 : Quiet z (s)) : Res.all (Quiet z) (xlateFrom x1 x2 x3 x4 x5 x6 s) := by
  induction x4 generalizing x1 x2 x3 x5 x6 s
  · unfold xlateFrom
    with_reducible exact Res.okI (by assumption)
  · rename_i n ih
    unfold xlateFrom
    extract_lets +onlyGivenNames v1
    clear_value v1
    extract_lets +onlyGivenNames v2
    have k2 : Res.all (Quiet z) (v2) := by
      dsimp only [v2]
      split
      · with_reducible refine Res.iteK ?_ ?_
        · with_reducible exact Res.okI (by assumption)
        · with_reducible apply xlateWord_quiet
          with_reducible assumption
      · with_reducible apply xlateWord_quiet
        with_reducible assumption
    clear_value v2
    with_reducible refine Res.bindK ?_ ?_
    · with_reducible assumption
    · intro _ _
      intro _
      with_reducible refine Res.bindK ?_ ?_
      · with_reducible apply ih
        with_reducible assumption
      · intro _ _
        intro _
        with_reducible exact Res.okI (by assumption)

theorem xlate_quiet {z : State} {x1 x2 x3 x4 x5 s} (h6 : Quiet z (s)) : Res.all (Quiet z) (xlate x1 x2 x3 x4 x5 s) := by
  unfold xlate
  with_reducible apply xlateFrom_quiet
  with_reducible assumption

theorem readPlacesQ_quiet {z : State} {x1 x2 x3 x4 s} (h5 : Quiet z (s)) : Res.all (Quiet z) (readPlacesQ x1 x2 x3 x4 s) := by
  unfold readPlacesQ
  with_reducible apply readFromQ_quiet
  with_reducible assumption

theorem readMemQ_quiet {z : State} {x1 x2 x3 x4 s} (h5 : Quiet z (s)) : Res.all (Quiet z) (readMemQ x1 x2 x3 x4 s) := by
  unfold readMemQ
  with_reducible refine Res.bindK ?_ ?_
  · with_reducible apply xlate_quiet
    with_reducible assumption
  · intro _ _
    intro _
    with_reducible apply readPlacesQ_quiet
    with_reducible assumption

theorem Res_raise_quiet {z : State} {α : Type} {p1 : Res (Held α)} (h1 : Res.all (Quiet z) (p1)) : Res.all (Quiet z) (@Res.raise α p1) := by
  unfold Res.raise
  with_reducible refine Res.bindK ?_ ?_
  · with_reducible assumption
  · intro _ _
    intro _
    split
    · with_reducible exact Res.trapI (by assumption)
    · with_reducible exact Res.okI (by assumption)

theorem readSmall_quiet {z : State} {x1 x2 x3 x4 s} (h5 : Quiet z (s)) : Res.all (Quiet z) (readSmall x1 x2 x3 x4 s) := by
  unfold readSmall
  with_reducible apply Res_raise_quiet
  with_reducible apply readSmallQ_quiet
  with_reducible assumption

theorem readMem_quiet {z : State} {x1 x2 x3 x4 s} (h5 : Quiet z (s)) : Res.all (Quiet z) (readMem x1 x2 x3 x4 s) := by
  unfold readMem
  with_reducible apply Res_raise_quiet
  with_reducible apply readMemQ_quiet
  with_reducible assumption

theorem readPlaces_quiet {z : State} {x1 x2 x3 x4 s} (h5 : Quiet z (s)) : Res.all (Quiet z) (readPlaces x1 x2 x3 x4 s) := by
  unfold readPlaces
  with_reducible apply Res_raise_quiet
  with_reducible apply readPlacesQ_quiet
  with_reducible assumption

/-! ### Ops -/

theorem dcacheFill_quiet {z : State} {x1 x2 x3 s} (h4 : Quiet z (s)) : Quiet z (dcacheFill x1 x2 x3 s) := by
  unfold dcacheFill
  extract_lets +onlyGivenNames v1
  with_reducible exact Quiet.cache (by assumption)

theorem dcacheDrop_quiet {z : State} {x1 x2 s} (h3 : Quiet z (s)) : Quiet z (dcacheDrop x1 x2 s) := by
  unfold dcacheDrop
  extract_lets +onlyGivenNames v1
  with_reducible exact Quiet.cache (by assumption)

theorem cacheRead_quiet {z : State} {x1 x2 x3 x4 s} (h5 : Quiet z (s)) : Res.all (Quiet z) (cacheRead x1 x2 x3 x4 s) := by
  unfold cacheRead
  extract_lets +onlyGivenNames v1
  clear_value v1
  extract_lets +onlyGivenNames v2
  have k2 : ∀ y1, Quiet z (y1) → Res.all (Quiet z) (v2 y1) := by
    intro _ _
    dsimp only [v2]
    split
    · with_reducible refine Res.trapI ?_
      with_reducible refine Pair.sndK (by assumption) ?_
      with_reducible apply blkRead_quiet
      with_reducible assumption
    · with_reducible refine Res.okI ?_
      with_reducible refine Quiet.iteK ?_ ?_
      · with_reducible refine Pair.sndK (by assumption) ?_
        with_reducible apply blkRead_quiet
        with_reducible assumption
      · with_reducible apply dcacheFill_quiet
        with_reducible refine Pair.sndK (by assumption) ?_
        with_reducible apply blkRead_quiet
        with_reducible assumption
  clear_value v2
  split
  · with_reducible apply k2
    with_reducible assumption
  · with_reducible refine Res.iteK ?_ ?_
    · with_reducible apply k2
      with_reducible assumption
    · extract_lets +onlyGivenNames v3
      clear_value v3
      split
      · with_reducible refine Res.iteK ?_ ?_
        · with_reducible refine Res.trapI ?_
          with_reducible apply dcacheDrop_quiet
          with_reducible refine Pair.sndK (by assumption) ?_
          with_reducible apply sramRead_quiet
          · intro _ _
            with_reducible exact Quiet.cache (by assumption)
          · with_reducible assumption
        · with_reducible apply k2
          with_reducible apply dcacheDrop_quiet
          with_reducible refine Pair.sndK (by assumption) ?_
          with_reducible apply sramRead_quiet
          · intro _ _
            with_reducible exact Quiet.cache (by assumption)
          · with_reducible assumption
      · with_reducible refine Res.iteK ?_ ?_
        · with_reducible refine Res.okI ?_
          with_reducible refine Pair.sndK (by assumption) ?_
          with_reducible apply sramRead_quiet
          · intro _ _
            with_reducible exact Quiet.cache (by assumption)
          · with_reducible assumption
        · with_reducible refine Res.iteK ?_ ?_
          · with_reducible refine Res.okI ?_
            with_reducible apply State_drawn_quiet
            with_reducible refine Pair.sndK (by assumption) ?_
            with_reducible apply sramRead_quiet
            · intro _ _
              with_reducible exact Quiet.cache (by assumption)
            · with_reducible assumption
          · with_reducible apply k2
            with_reducible apply State_drawn_quiet
            with_reducible refine Pair.sndK (by assumption) ?_
            with_reducible apply sramRead_quiet
            · intro _ _
              with_reducible exact Quiet.cache (by assumption)
            · with_reducible assumption

theorem lineGone_quiet {z : State} {x1 x2 s} (h3 : Quiet z (s)) : Quiet z (lineGone x1 x2 s) := by
  unfold lineGone
  extract_lets +onlyGivenNames v1
  with_reducible exact Quiet.cache (by assumption)

theorem fetchCached_quiet {z : State} {x1 x2 x3 x4 s} (hf4 : ∀ y1, Quiet z (y1) → Res.all (Quiet z) (x4 y1)) (h5 : Quiet z (s)) : Res.all (Quiet z) (fetchCached x1 x2 x3 x4 s) := by
  unfold fetchCached
  extract_lets +onlyGivenNames v1
  clear_value v1
  extract_lets +onlyGivenNames v2
  have k2 : ∀ y1, Quiet z (y1) → Res.all (Quiet z) (v2 y1) := by
    intro _ _
    dsimp only [v2]
    with_reducible refine Res.bindK ?_ ?_
    · with_reducible apply hf4
      with_reducible assumption
    · intro _ _
      intro _
      with_reducible exact Res.okI (Quiet.cache (by assumption))
  clear_value v2
  with_reducible refine Res.iteK ?_ ?_
  · with_reducible apply k2
    with_reducible assumption
  · split
    · with_reducible apply k2
      with_reducible apply lineGone_quiet
      with_reducible refine Pair.sndK (by assumption) ?_
      with_reducible apply sramRead_quiet
      · intro _ _
        with_reducible exact Quiet.cache (by assumption)
      · with_reducible assumption
    · split
      · with_reducible refine Res.okI ?_
        with_reducible refine Res.okK (by assumption) ?_
        with_reducible apply hf4
        with_reducible refine Pair.sndK (by assumption) ?_
        with_reducible apply sramRead_quiet
        · intro _ _
          with_reducible exact Quiet.cache (by assumption)
        · with_reducible assumption
      · with_reducible refine Res.iteK ?_ ?_
        · with_reducible refine Res.okI ?_
          with_reducible apply State_drawn_quiet
          with_reducible refine Pair.sndK (by assumption) ?_
          with_reducible apply sramRead_quiet
          · intro _ _
            with_reducible exact Quiet.cache (by assumption)
          · with_reducible assumption
        · with_reducible apply hf4
          with_reducible refine Pair.sndK (by assumption) ?_
          with_reducible apply sramRead_quiet
          · intro _ _
            with_reducible exact Quiet.cache (by assumption)
          · with_reducible assumption

theorem fetchWord_quiet {z : State} {x1 x2 x3 s} (h4 : Quiet z (s)) : Res.all (Quiet z) (fetchWord x1 x2 x3 s) := by
  unfold fetchWord
  with_reducible refine Res.iteK ?_ ?_
  · with_reducible refine Res.iteK ?_ ?_
    · with_reducible exact Res.okI (by assumption)
    · with_reducible exact Res.stallI (by assumption)
  · with_reducible refine Res.bindK ?_ ?_
    · with_reducible apply xlate_quiet
      with_reducible assumption
    · intro _ _
      intro _
      extract_lets +onlyGivenNames v1
      have k1 : ∀ y1, Quiet z (y1) → Res.all (Quiet z) (v1 y1) := by
        intro _ _
        dsimp only [v1]
        with_reducible refine Res.bindK ?_ ?_
        · with_reducible apply readPlaces_quiet
          with_reducible assumption
        · intro _ _
          intro _
          with_reducible exact Res.okI (by assumption)
      clear_value v1
      split
      · with_reducible refine Res.iteK ?_ ?_
        · with_reducible apply k1
          with_reducible assumption
        · with_reducible apply fetchCached_quiet
          · with_reducible assumption
          · with_reducible assumption
      · with_reducible apply k1
        with_reducible assumption

theorem fetchInstr_quiet {z : State} {x1 x2 s} (h3 : Quiet z (s)) : Res.all (Quiet z) (fetchInstr x1 x2 s) := by
  unfold fetchInstr
  extract_lets +onlyGivenNames v1
  clear_value v1
  with_reducible refine Res.bindK ?_ ?_
  · with_reducible apply fetchWord_quiet
    with_reducible assumption
  · intro _ _
    intro _
    with_reducible refine Res.iteK ?_ ?_
    · with_reducible apply fetchWord_quiet
      with_reducible assumption
    · with_reducible exact Res.okI (by assumption)

theorem loadFrom_quiet {z : State} {x1 x2 x3 x4 s} (h5 : Quiet z (s)) : Res.all (Quiet z) (loadFrom x1 x2 x3 x4 s) := by
  induction x2 generalizing x1 x3 x4 s
  · unfold loadFrom
    split
    · with_reducible exact Res.okI (by assumption)
    · injections
    · injections
  · rename_i n ih
    unfold loadFrom
    split
    · with_reducible exact Res.okI (by assumption)
    · injections
    · injections
      subst_vars
      split
      · with_reducible refine Res.iteK ?_ ?_
        · extract_lets +onlyGivenNames v1
          clear_value v1
          with_reducible refine Res.bindK ?_ ?_
          · with_reducible apply cacheRead_quiet
            with_reducible assumption
          · intro _ _
            intro _
            with_reducible refine Res.bindK ?_ ?_
            · with_reducible apply ih
              with_reducible assumption
            · intro _ _
              intro _
              with_reducible exact Res.okI (by assumption)
        · with_reducible refine Res.iteK ?_ ?_
          · with_reducible exact Res.stallI (by assumption)
          · with_reducible refine Res.iteK ?_ ?_
            · with_reducible refine Res.trapI ?_
              with_reducible apply State_drawn_quiet
              with_reducible assumption
            · extract_lets +onlyGivenNames v2
              clear_value v2
              with_reducible refine Res.bindK ?_ ?_
              · with_reducible apply ih
                with_reducible apply State_drawn_quiet
                with_reducible assumption
              · intro _ _
                intro _
                with_reducible exact Res.okI (by assumption)
      · with_reducible refine Res.bindK ?_ ?_
        · with_reducible apply readSmall_quiet
          with_reducible assumption
        · intro _ _
          intro _
          with_reducible refine Res.bindK ?_ ?_
          · with_reducible apply ih
            with_reducible assumption
          · intro _ _
            intro _
            with_reducible exact Res.okI (by assumption)

end Sys2Proof.Machine
end

