-- ==== Sys2Proof/Laws/State.lean ====
section
/-! SUPPORT. One lemma a field and a write of one unit of the state: what the write leaves, and what is read back. -/

namespace Sys2Proof.Machine

/-! ### setCore -/

@[simp] theorem State.setCore_variant (s : State) (k : Nat) (c : Core) : (s.setCore k c).variant = s.variant := rfl
@[simp] theorem State.setCore_straps (s : State) (k : Nat) (c : Core) : (s.setCore k c).straps = s.straps := rfl
@[simp] theorem State.setCore_tick (s : State) (k : Nat) (c : Core) : (s.setCore k c).tick = s.tick := rfl
@[simp] theorem State.setCore_bents (s : State) (k : Nat) (c : Core) : (s.setCore k c).bents = s.bents := rfl
@[simp] theorem State.setCore_mem (s : State) (k : Nat) (c : Core) : (s.setCore k c).mem = s.mem := rfl
@[simp] theorem State.setCore_errl (s : State) (k : Nat) (c : Core) : (s.setCore k c).errl = s.errl := rfl
@[simp] theorem State.setCore_ctxs (s : State) (k : Nat) (c : Core) : (s.setCore k c).ctxs = s.ctxs := rfl
@[simp] theorem State.setCore_ats (s : State) (k : Nat) (c : Core) : (s.setCore k c).ats = s.ats := rfl
@[simp] theorem State.setCore_funcs (s : State) (k : Nat) (c : Core) : (s.setCore k c).funcs = s.funcs := rfl
@[simp] theorem State.setCore_port (s : State) (k : Nat) (c : Core) : (s.setCore k c).port = s.port := rfl
@[simp] theorem State.setCore_host (s : State) (k : Nat) (c : Core) : (s.setCore k c).host = s.host := rfl
@[simp] theorem State.setCore_hostBad (s : State) (k : Nat) (c : Core) : (s.setCore k c).hostBad = s.hostBad := rfl
@[simp] theorem State.setCore_sent (s : State) (k : Nat) (c : Core) : (s.setCore k c).sent = s.sent := rfl
@[simp] theorem State.setCore_disp (s : State) (k : Nat) (c : Core) : (s.setCore k c).disp = s.disp := rfl
@[simp] theorem State.setCore_srcs (s : State) (k : Nat) (c : Core) : (s.setCore k c).srcs = s.srcs := rfl
@[simp] theorem State.setCore_sleep (s : State) (k : Nat) (c : Core) : (s.setCore k c).sleep = s.sleep := rfl
@[simp] theorem State.setCore_pair (s : State) (k : Nat) (c : Core) : (s.setCore k c).pair = s.pair := rfl
@[simp] theorem State.setCore_power (s : State) (k : Nat) (c : Core) : (s.setCore k c).power = s.power := rfl
@[simp] theorem State.setCore_scarf (s : State) (k : Nat) (c : Core) : (s.setCore k c).scarf = s.scarf := rfl
@[simp] theorem State.setCore_flash (s : State) (k : Nat) (c : Core) : (s.setCore k c).flash = s.flash := rfl
@[simp] theorem State.setCore_stwd (s : State) (k : Nat) (c : Core) : (s.setCore k c).stwd = s.stwd := rfl
@[simp] theorem State.setCore_steward (s : State) (k : Nat) (c : Core) : (s.setCore k c).steward = s.steward := rfl
@[simp] theorem State.setCore_draw (s : State) (k : Nat) (c : Core) : (s.setCore k c).draw = s.draw := rfl
@[simp] theorem State.setCore_pending (s : State) (k : Nat) (c : Core) : (s.setCore k c).pending = s.pending := rfl
@[simp] theorem State.setCore_read_bent (s : State) (k : Nat) (c : Core) (n : Nat) : (s.setCore k c).bent n = s.bent n := rfl
@[simp] theorem State.setCore_read_split (s : State) (k : Nat) (c : Core) (n : Nat) : (s.setCore k c).split n = s.split n := rfl
@[simp] theorem State.setCore_read_fn (s : State) (k : Nat) (c : Core) (n : Nat) : (s.setCore k c).fn n = s.fn n := rfl
@[simp] theorem State.setCore_read_src (s : State) (k : Nat) (c : Core) (n : Nat) : (s.setCore k c).src n = s.src n := rfl
@[simp] theorem State.setCore_read_ctx (s : State) (k : Nat) (c : Core) (n : Nat) : (s.setCore k c).ctx n = s.ctx n := rfl
@[simp] theorem State.setCore_read_phys (s : State) (k : Nat) (c : Core) (n : Nat) : (s.setCore k c).phys n = s.phys n := rfl
@[simp] theorem State.setCore_read_physOf (s : State) (k : Nat) (c : Core) (n : Nat) : (s.setCore k c).physOf n = s.physOf n := rfl
@[simp] theorem State.setCore_read_region (s : State) (k : Nat) (c : Core) (n o : Nat) : (s.setCore k c).region n o = s.region n o := rfl
@[simp] theorem State.setCore_read_sq (s : State) (k : Nat) (c : Core) (n : Nat) : (s.setCore k c).sq n = s.sq n := rfl
@[simp] theorem State.setCore_read_cq (s : State) (k : Nat) (c : Core) (n : Nat) : (s.setCore k c).cq n = s.cq n := rfl
@[simp] theorem State.setCore_read_job (s : State) (k : Nat) (c : Core) (n : Nat) : (s.setCore k c).job n = s.job n := rfl
@[simp] theorem State.setCore_read_link (s : State) (k : Nat) (c : Core) (n : Nat) : (s.setCore k c).link n = s.link n := rfl
@[simp] theorem State.setCore_read_island (s : State) (k : Nat) (c : Core) (n : Nat) : (s.setCore k c).island n = s.island n := rfl

/-! ### setArch -/

@[simp] theorem State.setArch_variant (s : State) (k : Nat) (a : Arch) : (s.setArch k a).variant = s.variant := rfl
@[simp] theorem State.setArch_straps (s : State) (k : Nat) (a : Arch) : (s.setArch k a).straps = s.straps := rfl
@[simp] theorem State.setArch_tick (s : State) (k : Nat) (a : Arch) : (s.setArch k a).tick = s.tick := rfl
@[simp] theorem State.setArch_bents (s : State) (k : Nat) (a : Arch) : (s.setArch k a).bents = s.bents := rfl
@[simp] theorem State.setArch_mem (s : State) (k : Nat) (a : Arch) : (s.setArch k a).mem = s.mem := rfl
@[simp] theorem State.setArch_errl (s : State) (k : Nat) (a : Arch) : (s.setArch k a).errl = s.errl := rfl
@[simp] theorem State.setArch_ctxs (s : State) (k : Nat) (a : Arch) : (s.setArch k a).ctxs = s.ctxs := rfl
@[simp] theorem State.setArch_ats (s : State) (k : Nat) (a : Arch) : (s.setArch k a).ats = s.ats := rfl
@[simp] theorem State.setArch_funcs (s : State) (k : Nat) (a : Arch) : (s.setArch k a).funcs = s.funcs := rfl
@[simp] theorem State.setArch_port (s : State) (k : Nat) (a : Arch) : (s.setArch k a).port = s.port := rfl
@[simp] theorem State.setArch_host (s : State) (k : Nat) (a : Arch) : (s.setArch k a).host = s.host := rfl
@[simp] theorem State.setArch_hostBad (s : State) (k : Nat) (a : Arch) : (s.setArch k a).hostBad = s.hostBad := rfl
@[simp] theorem State.setArch_sent (s : State) (k : Nat) (a : Arch) : (s.setArch k a).sent = s.sent := rfl
@[simp] theorem State.setArch_disp (s : State) (k : Nat) (a : Arch) : (s.setArch k a).disp = s.disp := rfl
@[simp] theorem State.setArch_srcs (s : State) (k : Nat) (a : Arch) : (s.setArch k a).srcs = s.srcs := rfl
@[simp] theorem State.setArch_sleep (s : State) (k : Nat) (a : Arch) : (s.setArch k a).sleep = s.sleep := rfl
@[simp] theorem State.setArch_pair (s : State) (k : Nat) (a : Arch) : (s.setArch k a).pair = s.pair := rfl
@[simp] theorem State.setArch_power (s : State) (k : Nat) (a : Arch) : (s.setArch k a).power = s.power := rfl
@[simp] theorem State.setArch_scarf (s : State) (k : Nat) (a : Arch) : (s.setArch k a).scarf = s.scarf := rfl
@[simp] theorem State.setArch_flash (s : State) (k : Nat) (a : Arch) : (s.setArch k a).flash = s.flash := rfl
@[simp] theorem State.setArch_stwd (s : State) (k : Nat) (a : Arch) : (s.setArch k a).stwd = s.stwd := rfl
@[simp] theorem State.setArch_steward (s : State) (k : Nat) (a : Arch) : (s.setArch k a).steward = s.steward := rfl
@[simp] theorem State.setArch_draw (s : State) (k : Nat) (a : Arch) : (s.setArch k a).draw = s.draw := rfl
@[simp] theorem State.setArch_pending (s : State) (k : Nat) (a : Arch) : (s.setArch k a).pending = s.pending := rfl
@[simp] theorem State.setArch_read_bent (s : State) (k : Nat) (a : Arch) (n : Nat) : (s.setArch k a).bent n = s.bent n := rfl
@[simp] theorem State.setArch_read_split (s : State) (k : Nat) (a : Arch) (n : Nat) : (s.setArch k a).split n = s.split n := rfl
@[simp] theorem State.setArch_read_fn (s : State) (k : Nat) (a : Arch) (n : Nat) : (s.setArch k a).fn n = s.fn n := rfl
@[simp] theorem State.setArch_read_src (s : State) (k : Nat) (a : Arch) (n : Nat) : (s.setArch k a).src n = s.src n := rfl
@[simp] theorem State.setArch_read_ctx (s : State) (k : Nat) (a : Arch) (n : Nat) : (s.setArch k a).ctx n = s.ctx n := rfl
@[simp] theorem State.setArch_read_phys (s : State) (k : Nat) (a : Arch) (n : Nat) : (s.setArch k a).phys n = s.phys n := rfl
@[simp] theorem State.setArch_read_physOf (s : State) (k : Nat) (a : Arch) (n : Nat) : (s.setArch k a).physOf n = s.physOf n := rfl
@[simp] theorem State.setArch_read_region (s : State) (k : Nat) (a : Arch) (n o : Nat) : (s.setArch k a).region n o = s.region n o := rfl
@[simp] theorem State.setArch_read_sq (s : State) (k : Nat) (a : Arch) (n : Nat) : (s.setArch k a).sq n = s.sq n := rfl
@[simp] theorem State.setArch_read_cq (s : State) (k : Nat) (a : Arch) (n : Nat) : (s.setArch k a).cq n = s.cq n := rfl
@[simp] theorem State.setArch_read_job (s : State) (k : Nat) (a : Arch) (n : Nat) : (s.setArch k a).job n = s.job n := rfl
@[simp] theorem State.setArch_read_link (s : State) (k : Nat) (a : Arch) (n : Nat) : (s.setArch k a).link n = s.link n := rfl
@[simp] theorem State.setArch_read_island (s : State) (k : Nat) (a : Arch) (n : Nat) : (s.setArch k a).island n = s.island n := rfl

/-! ### setBent -/

@[simp] theorem State.setBent_variant (s : State) (l : Nat) (b : Bent) : (s.setBent l b).variant = s.variant := rfl
@[simp] theorem State.setBent_straps (s : State) (l : Nat) (b : Bent) : (s.setBent l b).straps = s.straps := rfl
@[simp] theorem State.setBent_tick (s : State) (l : Nat) (b : Bent) : (s.setBent l b).tick = s.tick := rfl
@[simp] theorem State.setBent_cores (s : State) (l : Nat) (b : Bent) : (s.setBent l b).cores = s.cores := rfl
@[simp] theorem State.setBent_mem (s : State) (l : Nat) (b : Bent) : (s.setBent l b).mem = s.mem := rfl
@[simp] theorem State.setBent_errl (s : State) (l : Nat) (b : Bent) : (s.setBent l b).errl = s.errl := rfl
@[simp] theorem State.setBent_ctxs (s : State) (l : Nat) (b : Bent) : (s.setBent l b).ctxs = s.ctxs := rfl
@[simp] theorem State.setBent_ats (s : State) (l : Nat) (b : Bent) : (s.setBent l b).ats = s.ats := rfl
@[simp] theorem State.setBent_funcs (s : State) (l : Nat) (b : Bent) : (s.setBent l b).funcs = s.funcs := rfl
@[simp] theorem State.setBent_port (s : State) (l : Nat) (b : Bent) : (s.setBent l b).port = s.port := rfl
@[simp] theorem State.setBent_host (s : State) (l : Nat) (b : Bent) : (s.setBent l b).host = s.host := rfl
@[simp] theorem State.setBent_hostBad (s : State) (l : Nat) (b : Bent) : (s.setBent l b).hostBad = s.hostBad := rfl
@[simp] theorem State.setBent_sent (s : State) (l : Nat) (b : Bent) : (s.setBent l b).sent = s.sent := rfl
@[simp] theorem State.setBent_disp (s : State) (l : Nat) (b : Bent) : (s.setBent l b).disp = s.disp := rfl
@[simp] theorem State.setBent_srcs (s : State) (l : Nat) (b : Bent) : (s.setBent l b).srcs = s.srcs := rfl
@[simp] theorem State.setBent_sleep (s : State) (l : Nat) (b : Bent) : (s.setBent l b).sleep = s.sleep := rfl
@[simp] theorem State.setBent_pair (s : State) (l : Nat) (b : Bent) : (s.setBent l b).pair = s.pair := rfl
@[simp] theorem State.setBent_power (s : State) (l : Nat) (b : Bent) : (s.setBent l b).power = s.power := rfl
@[simp] theorem State.setBent_scarf (s : State) (l : Nat) (b : Bent) : (s.setBent l b).scarf = s.scarf := rfl
@[simp] theorem State.setBent_flash (s : State) (l : Nat) (b : Bent) : (s.setBent l b).flash = s.flash := rfl
@[simp] theorem State.setBent_stwd (s : State) (l : Nat) (b : Bent) : (s.setBent l b).stwd = s.stwd := rfl
@[simp] theorem State.setBent_steward (s : State) (l : Nat) (b : Bent) : (s.setBent l b).steward = s.steward := rfl
@[simp] theorem State.setBent_draw (s : State) (l : Nat) (b : Bent) : (s.setBent l b).draw = s.draw := rfl
@[simp] theorem State.setBent_pending (s : State) (l : Nat) (b : Bent) : (s.setBent l b).pending = s.pending := rfl
@[simp] theorem State.setBent_read_core (s : State) (l : Nat) (b : Bent) (n : Nat) : (s.setBent l b).core n = s.core n := rfl
@[simp] theorem State.setBent_read_arch (s : State) (l : Nat) (b : Bent) (n : Nat) : (s.setBent l b).arch n = s.arch n := rfl
@[simp] theorem State.setBent_read_fn (s : State) (l : Nat) (b : Bent) (n : Nat) : (s.setBent l b).fn n = s.fn n := rfl
@[simp] theorem State.setBent_read_src (s : State) (l : Nat) (b : Bent) (n : Nat) : (s.setBent l b).src n = s.src n := rfl
@[simp] theorem State.setBent_read_ctx (s : State) (l : Nat) (b : Bent) (n : Nat) : (s.setBent l b).ctx n = s.ctx n := rfl
@[simp] theorem State.setBent_read_phys (s : State) (l : Nat) (b : Bent) (n : Nat) : (s.setBent l b).phys n = s.phys n := rfl
@[simp] theorem State.setBent_read_physOf (s : State) (l : Nat) (b : Bent) (n : Nat) : (s.setBent l b).physOf n = s.physOf n := rfl
@[simp] theorem State.setBent_read_region (s : State) (l : Nat) (b : Bent) (n o : Nat) : (s.setBent l b).region n o = s.region n o := rfl
@[simp] theorem State.setBent_read_sq (s : State) (l : Nat) (b : Bent) (n : Nat) : (s.setBent l b).sq n = s.sq n := rfl
@[simp] theorem State.setBent_read_cq (s : State) (l : Nat) (b : Bent) (n : Nat) : (s.setBent l b).cq n = s.cq n := rfl
@[simp] theorem State.setBent_read_job (s : State) (l : Nat) (b : Bent) (n : Nat) : (s.setBent l b).job n = s.job n := rfl
@[simp] theorem State.setBent_read_link (s : State) (l : Nat) (b : Bent) (n : Nat) : (s.setBent l b).link n = s.link n := rfl
@[simp] theorem State.setBent_read_island (s : State) (l : Nat) (b : Bent) (n : Nat) : (s.setBent l b).island n = s.island n := rfl

/-! ### setFn -/

@[simp] theorem State.setFn_variant (s : State) (f : Nat) (v : Func) : (s.setFn f v).variant = s.variant := rfl
@[simp] theorem State.setFn_straps (s : State) (f : Nat) (v : Func) : (s.setFn f v).straps = s.straps := rfl
@[simp] theorem State.setFn_tick (s : State) (f : Nat) (v : Func) : (s.setFn f v).tick = s.tick := rfl
@[simp] theorem State.setFn_cores (s : State) (f : Nat) (v : Func) : (s.setFn f v).cores = s.cores := rfl
@[simp] theorem State.setFn_bents (s : State) (f : Nat) (v : Func) : (s.setFn f v).bents = s.bents := rfl
@[simp] theorem State.setFn_mem (s : State) (f : Nat) (v : Func) : (s.setFn f v).mem = s.mem := rfl
@[simp] theorem State.setFn_errl (s : State) (f : Nat) (v : Func) : (s.setFn f v).errl = s.errl := rfl
@[simp] theorem State.setFn_ctxs (s : State) (f : Nat) (v : Func) : (s.setFn f v).ctxs = s.ctxs := rfl
@[simp] theorem State.setFn_ats (s : State) (f : Nat) (v : Func) : (s.setFn f v).ats = s.ats := rfl
@[simp] theorem State.setFn_port (s : State) (f : Nat) (v : Func) : (s.setFn f v).port = s.port := rfl
@[simp] theorem State.setFn_host (s : State) (f : Nat) (v : Func) : (s.setFn f v).host = s.host := rfl
@[simp] theorem State.setFn_hostBad (s : State) (f : Nat) (v : Func) : (s.setFn f v).hostBad = s.hostBad := rfl
@[simp] theorem State.setFn_sent (s : State) (f : Nat) (v : Func) : (s.setFn f v).sent = s.sent := rfl
@[simp] theorem State.setFn_disp (s : State) (f : Nat) (v : Func) : (s.setFn f v).disp = s.disp := rfl
@[simp] theorem State.setFn_srcs (s : State) (f : Nat) (v : Func) : (s.setFn f v).srcs = s.srcs := rfl
@[simp] theorem State.setFn_sleep (s : State) (f : Nat) (v : Func) : (s.setFn f v).sleep = s.sleep := rfl
@[simp] theorem State.setFn_pair (s : State) (f : Nat) (v : Func) : (s.setFn f v).pair = s.pair := rfl
@[simp] theorem State.setFn_power (s : State) (f : Nat) (v : Func) : (s.setFn f v).power = s.power := rfl
@[simp] theorem State.setFn_scarf (s : State) (f : Nat) (v : Func) : (s.setFn f v).scarf = s.scarf := rfl
@[simp] theorem State.setFn_flash (s : State) (f : Nat) (v : Func) : (s.setFn f v).flash = s.flash := rfl
@[simp] theorem State.setFn_stwd (s : State) (f : Nat) (v : Func) : (s.setFn f v).stwd = s.stwd := rfl
@[simp] theorem State.setFn_steward (s : State) (f : Nat) (v : Func) : (s.setFn f v).steward = s.steward := rfl
@[simp] theorem State.setFn_draw (s : State) (f : Nat) (v : Func) : (s.setFn f v).draw = s.draw := rfl
@[simp] theorem State.setFn_pending (s : State) (f : Nat) (v : Func) : (s.setFn f v).pending = s.pending := rfl
@[simp] theorem State.setFn_read_core (s : State) (f : Nat) (v : Func) (n : Nat) : (s.setFn f v).core n = s.core n := rfl
@[simp] theorem State.setFn_read_bent (s : State) (f : Nat) (v : Func) (n : Nat) : (s.setFn f v).bent n = s.bent n := rfl
@[simp] theorem State.setFn_read_arch (s : State) (f : Nat) (v : Func) (n : Nat) : (s.setFn f v).arch n = s.arch n := rfl
@[simp] theorem State.setFn_read_split (s : State) (f : Nat) (v : Func) (n : Nat) : (s.setFn f v).split n = s.split n := rfl
@[simp] theorem State.setFn_read_src (s : State) (f : Nat) (v : Func) (n : Nat) : (s.setFn f v).src n = s.src n := rfl
@[simp] theorem State.setFn_read_ctx (s : State) (f : Nat) (v : Func) (n : Nat) : (s.setFn f v).ctx n = s.ctx n := rfl
@[simp] theorem State.setFn_read_phys (s : State) (f : Nat) (v : Func) (n : Nat) : (s.setFn f v).phys n = s.phys n := rfl
@[simp] theorem State.setFn_read_physOf (s : State) (f : Nat) (v : Func) (n : Nat) : (s.setFn f v).physOf n = s.physOf n := rfl
@[simp] theorem State.setFn_read_region (s : State) (f : Nat) (v : Func) (n o : Nat) : (s.setFn f v).region n o = s.region n o := rfl
@[simp] theorem State.setFn_read_sq (s : State) (f : Nat) (v : Func) (n : Nat) : (s.setFn f v).sq n = s.sq n := rfl
@[simp] theorem State.setFn_read_cq (s : State) (f : Nat) (v : Func) (n : Nat) : (s.setFn f v).cq n = s.cq n := rfl
@[simp] theorem State.setFn_read_job (s : State) (f : Nat) (v : Func) (n : Nat) : (s.setFn f v).job n = s.job n := rfl
@[simp] theorem State.setFn_read_link (s : State) (f : Nat) (v : Func) (n : Nat) : (s.setFn f v).link n = s.link n := rfl
@[simp] theorem State.setFn_read_island (s : State) (f : Nat) (v : Func) (n : Nat) : (s.setFn f v).island n = s.island n := rfl

/-! ### setSrc -/

@[simp] theorem State.setSrc_variant (s : State) (n : Nat) (v : Src) : (s.setSrc n v).variant = s.variant := rfl
@[simp] theorem State.setSrc_straps (s : State) (n : Nat) (v : Src) : (s.setSrc n v).straps = s.straps := rfl
@[simp] theorem State.setSrc_tick (s : State) (n : Nat) (v : Src) : (s.setSrc n v).tick = s.tick := rfl
@[simp] theorem State.setSrc_cores (s : State) (n : Nat) (v : Src) : (s.setSrc n v).cores = s.cores := rfl
@[simp] theorem State.setSrc_bents (s : State) (n : Nat) (v : Src) : (s.setSrc n v).bents = s.bents := rfl
@[simp] theorem State.setSrc_mem (s : State) (n : Nat) (v : Src) : (s.setSrc n v).mem = s.mem := rfl
@[simp] theorem State.setSrc_errl (s : State) (n : Nat) (v : Src) : (s.setSrc n v).errl = s.errl := rfl
@[simp] theorem State.setSrc_ctxs (s : State) (n : Nat) (v : Src) : (s.setSrc n v).ctxs = s.ctxs := rfl
@[simp] theorem State.setSrc_ats (s : State) (n : Nat) (v : Src) : (s.setSrc n v).ats = s.ats := rfl
@[simp] theorem State.setSrc_funcs (s : State) (n : Nat) (v : Src) : (s.setSrc n v).funcs = s.funcs := rfl
@[simp] theorem State.setSrc_port (s : State) (n : Nat) (v : Src) : (s.setSrc n v).port = s.port := rfl
@[simp] theorem State.setSrc_host (s : State) (n : Nat) (v : Src) : (s.setSrc n v).host = s.host := rfl
@[simp] theorem State.setSrc_hostBad (s : State) (n : Nat) (v : Src) : (s.setSrc n v).hostBad = s.hostBad := rfl
@[simp] theorem State.setSrc_sent (s : State) (n : Nat) (v : Src) : (s.setSrc n v).sent = s.sent := rfl
@[simp] theorem State.setSrc_disp (s : State) (n : Nat) (v : Src) : (s.setSrc n v).disp = s.disp := rfl
@[simp] theorem State.setSrc_sleep (s : State) (n : Nat) (v : Src) : (s.setSrc n v).sleep = s.sleep := rfl
@[simp] theorem State.setSrc_pair (s : State) (n : Nat) (v : Src) : (s.setSrc n v).pair = s.pair := rfl
@[simp] theorem State.setSrc_power (s : State) (n : Nat) (v : Src) : (s.setSrc n v).power = s.power := rfl
@[simp] theorem State.setSrc_scarf (s : State) (n : Nat) (v : Src) : (s.setSrc n v).scarf = s.scarf := rfl
@[simp] theorem State.setSrc_flash (s : State) (n : Nat) (v : Src) : (s.setSrc n v).flash = s.flash := rfl
@[simp] theorem State.setSrc_stwd (s : State) (n : Nat) (v : Src) : (s.setSrc n v).stwd = s.stwd := rfl
@[simp] theorem State.setSrc_steward (s : State) (n : Nat) (v : Src) : (s.setSrc n v).steward = s.steward := rfl
@[simp] theorem State.setSrc_draw (s : State) (n : Nat) (v : Src) : (s.setSrc n v).draw = s.draw := rfl
@[simp] theorem State.setSrc_pending (s : State) (n : Nat) (v : Src) : (s.setSrc n v).pending = s.pending := rfl
@[simp] theorem State.setSrc_read_core (s : State) (n : Nat) (v : Src) (n : Nat) : (s.setSrc n v).core n = s.core n := rfl
@[simp] theorem State.setSrc_read_bent (s : State) (n : Nat) (v : Src) (n : Nat) : (s.setSrc n v).bent n = s.bent n := rfl
@[simp] theorem State.setSrc_read_arch (s : State) (n : Nat) (v : Src) (n : Nat) : (s.setSrc n v).arch n = s.arch n := rfl
@[simp] theorem State.setSrc_read_split (s : State) (n : Nat) (v : Src) (n : Nat) : (s.setSrc n v).split n = s.split n := rfl
@[simp] theorem State.setSrc_read_fn (s : State) (n : Nat) (v : Src) (n : Nat) : (s.setSrc n v).fn n = s.fn n := rfl
@[simp] theorem State.setSrc_read_ctx (s : State) (n : Nat) (v : Src) (n : Nat) : (s.setSrc n v).ctx n = s.ctx n := rfl
@[simp] theorem State.setSrc_read_phys (s : State) (n : Nat) (v : Src) (n : Nat) : (s.setSrc n v).phys n = s.phys n := rfl
@[simp] theorem State.setSrc_read_physOf (s : State) (n : Nat) (v : Src) (n : Nat) : (s.setSrc n v).physOf n = s.physOf n := rfl
@[simp] theorem State.setSrc_read_region (s : State) (n : Nat) (v : Src) (n o : Nat) : (s.setSrc n v).region n o = s.region n o := rfl
@[simp] theorem State.setSrc_read_sq (s : State) (n : Nat) (v : Src) (n : Nat) : (s.setSrc n v).sq n = s.sq n := rfl
@[simp] theorem State.setSrc_read_cq (s : State) (n : Nat) (v : Src) (n : Nat) : (s.setSrc n v).cq n = s.cq n := rfl
@[simp] theorem State.setSrc_read_job (s : State) (n : Nat) (v : Src) (n : Nat) : (s.setSrc n v).job n = s.job n := rfl
@[simp] theorem State.setSrc_read_link (s : State) (n : Nat) (v : Src) (n : Nat) : (s.setSrc n v).link n = s.link n := rfl
@[simp] theorem State.setSrc_read_island (s : State) (n : Nat) (v : Src) (n : Nat) : (s.setSrc n v).island n = s.island n := rfl

/-! ### setPhys -/

@[simp] theorem State.setPhys_variant (s : State) (p : Nat) (v : Phys) : (s.setPhys p v).variant = s.variant := rfl
@[simp] theorem State.setPhys_straps (s : State) (p : Nat) (v : Phys) : (s.setPhys p v).straps = s.straps := rfl
@[simp] theorem State.setPhys_tick (s : State) (p : Nat) (v : Phys) : (s.setPhys p v).tick = s.tick := rfl
@[simp] theorem State.setPhys_cores (s : State) (p : Nat) (v : Phys) : (s.setPhys p v).cores = s.cores := rfl
@[simp] theorem State.setPhys_bents (s : State) (p : Nat) (v : Phys) : (s.setPhys p v).bents = s.bents := rfl
@[simp] theorem State.setPhys_mem (s : State) (p : Nat) (v : Phys) : (s.setPhys p v).mem = s.mem := rfl
@[simp] theorem State.setPhys_errl (s : State) (p : Nat) (v : Phys) : (s.setPhys p v).errl = s.errl := rfl
@[simp] theorem State.setPhys_ctxs (s : State) (p : Nat) (v : Phys) : (s.setPhys p v).ctxs = s.ctxs := rfl
@[simp] theorem State.setPhys_ats (s : State) (p : Nat) (v : Phys) : (s.setPhys p v).ats = s.ats := rfl
@[simp] theorem State.setPhys_funcs (s : State) (p : Nat) (v : Phys) : (s.setPhys p v).funcs = s.funcs := rfl
@[simp] theorem State.setPhys_port (s : State) (p : Nat) (v : Phys) : (s.setPhys p v).port = s.port := rfl
@[simp] theorem State.setPhys_host (s : State) (p : Nat) (v : Phys) : (s.setPhys p v).host = s.host := rfl
@[simp] theorem State.setPhys_hostBad (s : State) (p : Nat) (v : Phys) : (s.setPhys p v).hostBad = s.hostBad := rfl
@[simp] theorem State.setPhys_sent (s : State) (p : Nat) (v : Phys) : (s.setPhys p v).sent = s.sent := rfl
@[simp] theorem State.setPhys_disp (s : State) (p : Nat) (v : Phys) : (s.setPhys p v).disp = s.disp := rfl
@[simp] theorem State.setPhys_srcs (s : State) (p : Nat) (v : Phys) : (s.setPhys p v).srcs = s.srcs := rfl
@[simp] theorem State.setPhys_sleep (s : State) (p : Nat) (v : Phys) : (s.setPhys p v).sleep = s.sleep := rfl
@[simp] theorem State.setPhys_power (s : State) (p : Nat) (v : Phys) : (s.setPhys p v).power = s.power := rfl
@[simp] theorem State.setPhys_scarf (s : State) (p : Nat) (v : Phys) : (s.setPhys p v).scarf = s.scarf := rfl
@[simp] theorem State.setPhys_flash (s : State) (p : Nat) (v : Phys) : (s.setPhys p v).flash = s.flash := rfl
@[simp] theorem State.setPhys_stwd (s : State) (p : Nat) (v : Phys) : (s.setPhys p v).stwd = s.stwd := rfl
@[simp] theorem State.setPhys_steward (s : State) (p : Nat) (v : Phys) : (s.setPhys p v).steward = s.steward := rfl
@[simp] theorem State.setPhys_draw (s : State) (p : Nat) (v : Phys) : (s.setPhys p v).draw = s.draw := rfl
@[simp] theorem State.setPhys_pending (s : State) (p : Nat) (v : Phys) : (s.setPhys p v).pending = s.pending := rfl
@[simp] theorem State.setPhys_read_core (s : State) (p : Nat) (v : Phys) (n : Nat) : (s.setPhys p v).core n = s.core n := rfl
@[simp] theorem State.setPhys_read_bent (s : State) (p : Nat) (v : Phys) (n : Nat) : (s.setPhys p v).bent n = s.bent n := rfl
@[simp] theorem State.setPhys_read_arch (s : State) (p : Nat) (v : Phys) (n : Nat) : (s.setPhys p v).arch n = s.arch n := rfl
@[simp] theorem State.setPhys_read_split (s : State) (p : Nat) (v : Phys) (n : Nat) : (s.setPhys p v).split n = s.split n := rfl
@[simp] theorem State.setPhys_read_fn (s : State) (p : Nat) (v : Phys) (n : Nat) : (s.setPhys p v).fn n = s.fn n := rfl
@[simp] theorem State.setPhys_read_src (s : State) (p : Nat) (v : Phys) (n : Nat) : (s.setPhys p v).src n = s.src n := rfl
@[simp] theorem State.setPhys_read_ctx (s : State) (p : Nat) (v : Phys) (n : Nat) : (s.setPhys p v).ctx n = s.ctx n := rfl
@[simp] theorem State.setPhys_read_region (s : State) (p : Nat) (v : Phys) (n o : Nat) : (s.setPhys p v).region n o = s.region n o := rfl
@[simp] theorem State.setPhys_read_sq (s : State) (p : Nat) (v : Phys) (n : Nat) : (s.setPhys p v).sq n = s.sq n := rfl
@[simp] theorem State.setPhys_read_cq (s : State) (p : Nat) (v : Phys) (n : Nat) : (s.setPhys p v).cq n = s.cq n := rfl
@[simp] theorem State.setPhys_read_job (s : State) (p : Nat) (v : Phys) (n : Nat) : (s.setPhys p v).job n = s.job n := rfl
@[simp] theorem State.setPhys_read_link (s : State) (p : Nat) (v : Phys) (n : Nat) : (s.setPhys p v).link n = s.link n := rfl
@[simp] theorem State.setPhys_read_island (s : State) (p : Nat) (v : Phys) (n : Nat) : (s.setPhys p v).island n = s.island n := rfl

/-! ### setRegion -/

@[simp] theorem State.setRegion_variant (s : State) (m r : Nat) (v : Region) : (s.setRegion m r v).variant = s.variant := by
  unfold State.setRegion
  split <;> rfl
@[simp] theorem State.setRegion_straps (s : State) (m r : Nat) (v : Region) : (s.setRegion m r v).straps = s.straps := by
  unfold State.setRegion
  split <;> rfl
@[simp] theorem State.setRegion_tick (s : State) (m r : Nat) (v : Region) : (s.setRegion m r v).tick = s.tick := by
  unfold State.setRegion
  split <;> rfl
@[simp] theorem State.setRegion_cores (s : State) (m r : Nat) (v : Region) : (s.setRegion m r v).cores = s.cores := by
  unfold State.setRegion
  split <;> rfl
@[simp] theorem State.setRegion_bents (s : State) (m r : Nat) (v : Region) : (s.setRegion m r v).bents = s.bents := by
  unfold State.setRegion
  split <;> rfl
@[simp] theorem State.setRegion_errl (s : State) (m r : Nat) (v : Region) : (s.setRegion m r v).errl = s.errl := by
  unfold State.setRegion
  split <;> rfl
@[simp] theorem State.setRegion_ctxs (s : State) (m r : Nat) (v : Region) : (s.setRegion m r v).ctxs = s.ctxs := by
  unfold State.setRegion
  split <;> rfl
@[simp] theorem State.setRegion_ats (s : State) (m r : Nat) (v : Region) : (s.setRegion m r v).ats = s.ats := by
  unfold State.setRegion
  split <;> rfl
@[simp] theorem State.setRegion_funcs (s : State) (m r : Nat) (v : Region) : (s.setRegion m r v).funcs = s.funcs := by
  unfold State.setRegion
  split <;> rfl
@[simp] theorem State.setRegion_port (s : State) (m r : Nat) (v : Region) : (s.setRegion m r v).port = s.port := by
  unfold State.setRegion
  split <;> rfl
@[simp] theorem State.setRegion_host (s : State) (m r : Nat) (v : Region) : (s.setRegion m r v).host = s.host := by
  unfold State.setRegion
  split <;> rfl
@[simp] theorem State.setRegion_hostBad (s : State) (m r : Nat) (v : Region) : (s.setRegion m r v).hostBad = s.hostBad := by
  unfold State.setRegion
  split <;> rfl
@[simp] theorem State.setRegion_sent (s : State) (m r : Nat) (v : Region) : (s.setRegion m r v).sent = s.sent := by
  unfold State.setRegion
  split <;> rfl
@[simp] theorem State.setRegion_disp (s : State) (m r : Nat) (v : Region) : (s.setRegion m r v).disp = s.disp := by
  unfold State.setRegion
  split <;> rfl
@[simp] theorem State.setRegion_srcs (s : State) (m r : Nat) (v : Region) : (s.setRegion m r v).srcs = s.srcs := by
  unfold State.setRegion
  split <;> rfl
@[simp] theorem State.setRegion_sleep (s : State) (m r : Nat) (v : Region) : (s.setRegion m r v).sleep = s.sleep := by
  unfold State.setRegion
  split <;> rfl
@[simp] theorem State.setRegion_pair (s : State) (m r : Nat) (v : Region) : (s.setRegion m r v).pair = s.pair := by
  unfold State.setRegion
  split <;> rfl
@[simp] theorem State.setRegion_power (s : State) (m r : Nat) (v : Region) : (s.setRegion m r v).power = s.power := by
  unfold State.setRegion
  split <;> rfl
@[simp] theorem State.setRegion_scarf (s : State) (m r : Nat) (v : Region) : (s.setRegion m r v).scarf = s.scarf := by
  unfold State.setRegion
  split <;> rfl
@[simp] theorem State.setRegion_flash (s : State) (m r : Nat) (v : Region) : (s.setRegion m r v).flash = s.flash := by
  unfold State.setRegion
  split <;> rfl
@[simp] theorem State.setRegion_stwd (s : State) (m r : Nat) (v : Region) : (s.setRegion m r v).stwd = s.stwd := by
  unfold State.setRegion
  split <;> rfl
@[simp] theorem State.setRegion_steward (s : State) (m r : Nat) (v : Region) : (s.setRegion m r v).steward = s.steward := by
  unfold State.setRegion
  split <;> rfl
@[simp] theorem State.setRegion_draw (s : State) (m r : Nat) (v : Region) : (s.setRegion m r v).draw = s.draw := by
  unfold State.setRegion
  split <;> rfl
@[simp] theorem State.setRegion_pending (s : State) (m r : Nat) (v : Region) : (s.setRegion m r v).pending = s.pending := by
  unfold State.setRegion
  split <;> rfl
@[simp] theorem State.setRegion_read_core (s : State) (m r : Nat) (v : Region) (n : Nat) : (s.setRegion m r v).core n = s.core n := by
  unfold State.setRegion
  split <;> rfl
@[simp] theorem State.setRegion_read_bent (s : State) (m r : Nat) (v : Region) (n : Nat) : (s.setRegion m r v).bent n = s.bent n := by
  unfold State.setRegion
  split <;> rfl
@[simp] theorem State.setRegion_read_arch (s : State) (m r : Nat) (v : Region) (n : Nat) : (s.setRegion m r v).arch n = s.arch n := by
  unfold State.setRegion
  split <;> rfl
@[simp] theorem State.setRegion_read_split (s : State) (m r : Nat) (v : Region) (n : Nat) : (s.setRegion m r v).split n = s.split n := by
  unfold State.setRegion
  split <;> rfl
@[simp] theorem State.setRegion_read_fn (s : State) (m r : Nat) (v : Region) (n : Nat) : (s.setRegion m r v).fn n = s.fn n := by
  unfold State.setRegion
  split <;> rfl
@[simp] theorem State.setRegion_read_src (s : State) (m r : Nat) (v : Region) (n : Nat) : (s.setRegion m r v).src n = s.src n := by
  unfold State.setRegion
  split <;> rfl
@[simp] theorem State.setRegion_read_ctx (s : State) (m r : Nat) (v : Region) (n : Nat) : (s.setRegion m r v).ctx n = s.ctx n := by
  unfold State.setRegion
  split <;> rfl
@[simp] theorem State.setRegion_read_phys (s : State) (m r : Nat) (v : Region) (n : Nat) : (s.setRegion m r v).phys n = s.phys n := by
  unfold State.setRegion
  split <;> rfl
@[simp] theorem State.setRegion_read_physOf (s : State) (m r : Nat) (v : Region) (n : Nat) : (s.setRegion m r v).physOf n = s.physOf n := by
  unfold State.setRegion
  split <;> rfl
@[simp] theorem State.setRegion_read_sq (s : State) (m r : Nat) (v : Region) (n : Nat) : (s.setRegion m r v).sq n = s.sq n := by
  unfold State.setRegion
  split <;> rfl
@[simp] theorem State.setRegion_read_cq (s : State) (m r : Nat) (v : Region) (n : Nat) : (s.setRegion m r v).cq n = s.cq n := by
  unfold State.setRegion
  split <;> rfl
@[simp] theorem State.setRegion_read_job (s : State) (m r : Nat) (v : Region) (n : Nat) : (s.setRegion m r v).job n = s.job n := by
  unfold State.setRegion
  split <;> rfl
@[simp] theorem State.setRegion_read_link (s : State) (m r : Nat) (v : Region) (n : Nat) : (s.setRegion m r v).link n = s.link n := by
  unfold State.setRegion
  split <;> rfl
@[simp] theorem State.setRegion_read_island (s : State) (m r : Nat) (v : Region) (n : Nat) : (s.setRegion m r v).island n = s.island n := by
  unfold State.setRegion
  split <;> rfl

/-! ### setSq -/

@[simp] theorem State.setSq_variant (s : State) (q : Nat) (v : Option Sq) : (s.setSq q v).variant = s.variant := rfl
@[simp] theorem State.setSq_straps (s : State) (q : Nat) (v : Option Sq) : (s.setSq q v).straps = s.straps := rfl
@[simp] theorem State.setSq_tick (s : State) (q : Nat) (v : Option Sq) : (s.setSq q v).tick = s.tick := rfl
@[simp] theorem State.setSq_cores (s : State) (q : Nat) (v : Option Sq) : (s.setSq q v).cores = s.cores := rfl
@[simp] theorem State.setSq_bents (s : State) (q : Nat) (v : Option Sq) : (s.setSq q v).bents = s.bents := rfl
@[simp] theorem State.setSq_mem (s : State) (q : Nat) (v : Option Sq) : (s.setSq q v).mem = s.mem := rfl
@[simp] theorem State.setSq_errl (s : State) (q : Nat) (v : Option Sq) : (s.setSq q v).errl = s.errl := rfl
@[simp] theorem State.setSq_ctxs (s : State) (q : Nat) (v : Option Sq) : (s.setSq q v).ctxs = s.ctxs := rfl
@[simp] theorem State.setSq_ats (s : State) (q : Nat) (v : Option Sq) : (s.setSq q v).ats = s.ats := rfl
@[simp] theorem State.setSq_funcs (s : State) (q : Nat) (v : Option Sq) : (s.setSq q v).funcs = s.funcs := rfl
@[simp] theorem State.setSq_port (s : State) (q : Nat) (v : Option Sq) : (s.setSq q v).port = s.port := rfl
@[simp] theorem State.setSq_host (s : State) (q : Nat) (v : Option Sq) : (s.setSq q v).host = s.host := rfl
@[simp] theorem State.setSq_hostBad (s : State) (q : Nat) (v : Option Sq) : (s.setSq q v).hostBad = s.hostBad := rfl
@[simp] theorem State.setSq_sent (s : State) (q : Nat) (v : Option Sq) : (s.setSq q v).sent = s.sent := rfl
@[simp] theorem State.setSq_srcs (s : State) (q : Nat) (v : Option Sq) : (s.setSq q v).srcs = s.srcs := rfl
@[simp] theorem State.setSq_sleep (s : State) (q : Nat) (v : Option Sq) : (s.setSq q v).sleep = s.sleep := rfl
@[simp] theorem State.setSq_pair (s : State) (q : Nat) (v : Option Sq) : (s.setSq q v).pair = s.pair := rfl
@[simp] theorem State.setSq_power (s : State) (q : Nat) (v : Option Sq) : (s.setSq q v).power = s.power := rfl
@[simp] theorem State.setSq_scarf (s : State) (q : Nat) (v : Option Sq) : (s.setSq q v).scarf = s.scarf := rfl
@[simp] theorem State.setSq_flash (s : State) (q : Nat) (v : Option Sq) : (s.setSq q v).flash = s.flash := rfl
@[simp] theorem State.setSq_stwd (s : State) (q : Nat) (v : Option Sq) : (s.setSq q v).stwd = s.stwd := rfl
@[simp] theorem State.setSq_steward (s : State) (q : Nat) (v : Option Sq) : (s.setSq q v).steward = s.steward := rfl
@[simp] theorem State.setSq_draw (s : State) (q : Nat) (v : Option Sq) : (s.setSq q v).draw = s.draw := rfl
@[simp] theorem State.setSq_pending (s : State) (q : Nat) (v : Option Sq) : (s.setSq q v).pending = s.pending := rfl
@[simp] theorem State.setSq_read_core (s : State) (q : Nat) (v : Option Sq) (n : Nat) : (s.setSq q v).core n = s.core n := rfl
@[simp] theorem State.setSq_read_bent (s : State) (q : Nat) (v : Option Sq) (n : Nat) : (s.setSq q v).bent n = s.bent n := rfl
@[simp] theorem State.setSq_read_arch (s : State) (q : Nat) (v : Option Sq) (n : Nat) : (s.setSq q v).arch n = s.arch n := rfl
@[simp] theorem State.setSq_read_split (s : State) (q : Nat) (v : Option Sq) (n : Nat) : (s.setSq q v).split n = s.split n := rfl
@[simp] theorem State.setSq_read_fn (s : State) (q : Nat) (v : Option Sq) (n : Nat) : (s.setSq q v).fn n = s.fn n := rfl
@[simp] theorem State.setSq_read_src (s : State) (q : Nat) (v : Option Sq) (n : Nat) : (s.setSq q v).src n = s.src n := rfl
@[simp] theorem State.setSq_read_ctx (s : State) (q : Nat) (v : Option Sq) (n : Nat) : (s.setSq q v).ctx n = s.ctx n := rfl
@[simp] theorem State.setSq_read_phys (s : State) (q : Nat) (v : Option Sq) (n : Nat) : (s.setSq q v).phys n = s.phys n := rfl
@[simp] theorem State.setSq_read_physOf (s : State) (q : Nat) (v : Option Sq) (n : Nat) : (s.setSq q v).physOf n = s.physOf n := rfl
@[simp] theorem State.setSq_read_region (s : State) (q : Nat) (v : Option Sq) (n o : Nat) : (s.setSq q v).region n o = s.region n o := rfl
@[simp] theorem State.setSq_read_link (s : State) (q : Nat) (v : Option Sq) (n : Nat) : (s.setSq q v).link n = s.link n := rfl
@[simp] theorem State.setSq_read_island (s : State) (q : Nat) (v : Option Sq) (n : Nat) : (s.setSq q v).island n = s.island n := rfl

/-! ### setCq -/

@[simp] theorem State.setCq_variant (s : State) (q : Nat) (v : Option Cq) : (s.setCq q v).variant = s.variant := rfl
@[simp] theorem State.setCq_straps (s : State) (q : Nat) (v : Option Cq) : (s.setCq q v).straps = s.straps := rfl
@[simp] theorem State.setCq_tick (s : State) (q : Nat) (v : Option Cq) : (s.setCq q v).tick = s.tick := rfl
@[simp] theorem State.setCq_cores (s : State) (q : Nat) (v : Option Cq) : (s.setCq q v).cores = s.cores := rfl
@[simp] theorem State.setCq_bents (s : State) (q : Nat) (v : Option Cq) : (s.setCq q v).bents = s.bents := rfl
@[simp] theorem State.setCq_mem (s : State) (q : Nat) (v : Option Cq) : (s.setCq q v).mem = s.mem := rfl
@[simp] theorem State.setCq_errl (s : State) (q : Nat) (v : Option Cq) : (s.setCq q v).errl = s.errl := rfl
@[simp] theorem State.setCq_ctxs (s : State) (q : Nat) (v : Option Cq) : (s.setCq q v).ctxs = s.ctxs := rfl
@[simp] theorem State.setCq_ats (s : State) (q : Nat) (v : Option Cq) : (s.setCq q v).ats = s.ats := rfl
@[simp] theorem State.setCq_funcs (s : State) (q : Nat) (v : Option Cq) : (s.setCq q v).funcs = s.funcs := rfl
@[simp] theorem State.setCq_port (s : State) (q : Nat) (v : Option Cq) : (s.setCq q v).port = s.port := rfl
@[simp] theorem State.setCq_host (s : State) (q : Nat) (v : Option Cq) : (s.setCq q v).host = s.host := rfl
@[simp] theorem State.setCq_hostBad (s : State) (q : Nat) (v : Option Cq) : (s.setCq q v).hostBad = s.hostBad := rfl
@[simp] theorem State.setCq_sent (s : State) (q : Nat) (v : Option Cq) : (s.setCq q v).sent = s.sent := rfl
@[simp] theorem State.setCq_srcs (s : State) (q : Nat) (v : Option Cq) : (s.setCq q v).srcs = s.srcs := rfl
@[simp] theorem State.setCq_sleep (s : State) (q : Nat) (v : Option Cq) : (s.setCq q v).sleep = s.sleep := rfl
@[simp] theorem State.setCq_pair (s : State) (q : Nat) (v : Option Cq) : (s.setCq q v).pair = s.pair := rfl
@[simp] theorem State.setCq_power (s : State) (q : Nat) (v : Option Cq) : (s.setCq q v).power = s.power := rfl
@[simp] theorem State.setCq_scarf (s : State) (q : Nat) (v : Option Cq) : (s.setCq q v).scarf = s.scarf := rfl
@[simp] theorem State.setCq_flash (s : State) (q : Nat) (v : Option Cq) : (s.setCq q v).flash = s.flash := rfl
@[simp] theorem State.setCq_stwd (s : State) (q : Nat) (v : Option Cq) : (s.setCq q v).stwd = s.stwd := rfl
@[simp] theorem State.setCq_steward (s : State) (q : Nat) (v : Option Cq) : (s.setCq q v).steward = s.steward := rfl
@[simp] theorem State.setCq_draw (s : State) (q : Nat) (v : Option Cq) : (s.setCq q v).draw = s.draw := rfl
@[simp] theorem State.setCq_pending (s : State) (q : Nat) (v : Option Cq) : (s.setCq q v).pending = s.pending := rfl
@[simp] theorem State.setCq_read_core (s : State) (q : Nat) (v : Option Cq) (n : Nat) : (s.setCq q v).core n = s.core n := rfl
@[simp] theorem State.setCq_read_bent (s : State) (q : Nat) (v : Option Cq) (n : Nat) : (s.setCq q v).bent n = s.bent n := rfl
@[simp] theorem State.setCq_read_arch (s : State) (q : Nat) (v : Option Cq) (n : Nat) : (s.setCq q v).arch n = s.arch n := rfl
@[simp] theorem State.setCq_read_split (s : State) (q : Nat) (v : Option Cq) (n : Nat) : (s.setCq q v).split n = s.split n := rfl
@[simp] theorem State.setCq_read_fn (s : State) (q : Nat) (v : Option Cq) (n : Nat) : (s.setCq q v).fn n = s.fn n := rfl
@[simp] theorem State.setCq_read_src (s : State) (q : Nat) (v : Option Cq) (n : Nat) : (s.setCq q v).src n = s.src n := rfl
@[simp] theorem State.setCq_read_ctx (s : State) (q : Nat) (v : Option Cq) (n : Nat) : (s.setCq q v).ctx n = s.ctx n := rfl
@[simp] theorem State.setCq_read_phys (s : State) (q : Nat) (v : Option Cq) (n : Nat) : (s.setCq q v).phys n = s.phys n := rfl
@[simp] theorem State.setCq_read_physOf (s : State) (q : Nat) (v : Option Cq) (n : Nat) : (s.setCq q v).physOf n = s.physOf n := rfl
@[simp] theorem State.setCq_read_region (s : State) (q : Nat) (v : Option Cq) (n o : Nat) : (s.setCq q v).region n o = s.region n o := rfl
@[simp] theorem State.setCq_read_link (s : State) (q : Nat) (v : Option Cq) (n : Nat) : (s.setCq q v).link n = s.link n := rfl
@[simp] theorem State.setCq_read_island (s : State) (q : Nat) (v : Option Cq) (n : Nat) : (s.setCq q v).island n = s.island n := rfl

/-! ### setJob -/

@[simp] theorem State.setJob_variant (s : State) (j : Nat) (v : Option Job) : (s.setJob j v).variant = s.variant := rfl
@[simp] theorem State.setJob_straps (s : State) (j : Nat) (v : Option Job) : (s.setJob j v).straps = s.straps := rfl
@[simp] theorem State.setJob_tick (s : State) (j : Nat) (v : Option Job) : (s.setJob j v).tick = s.tick := rfl
@[simp] theorem State.setJob_cores (s : State) (j : Nat) (v : Option Job) : (s.setJob j v).cores = s.cores := rfl
@[simp] theorem State.setJob_bents (s : State) (j : Nat) (v : Option Job) : (s.setJob j v).bents = s.bents := rfl
@[simp] theorem State.setJob_mem (s : State) (j : Nat) (v : Option Job) : (s.setJob j v).mem = s.mem := rfl
@[simp] theorem State.setJob_errl (s : State) (j : Nat) (v : Option Job) : (s.setJob j v).errl = s.errl := rfl
@[simp] theorem State.setJob_ctxs (s : State) (j : Nat) (v : Option Job) : (s.setJob j v).ctxs = s.ctxs := rfl
@[simp] theorem State.setJob_ats (s : State) (j : Nat) (v : Option Job) : (s.setJob j v).ats = s.ats := rfl
@[simp] theorem State.setJob_funcs (s : State) (j : Nat) (v : Option Job) : (s.setJob j v).funcs = s.funcs := rfl
@[simp] theorem State.setJob_port (s : State) (j : Nat) (v : Option Job) : (s.setJob j v).port = s.port := rfl
@[simp] theorem State.setJob_host (s : State) (j : Nat) (v : Option Job) : (s.setJob j v).host = s.host := rfl
@[simp] theorem State.setJob_hostBad (s : State) (j : Nat) (v : Option Job) : (s.setJob j v).hostBad = s.hostBad := rfl
@[simp] theorem State.setJob_sent (s : State) (j : Nat) (v : Option Job) : (s.setJob j v).sent = s.sent := rfl
@[simp] theorem State.setJob_srcs (s : State) (j : Nat) (v : Option Job) : (s.setJob j v).srcs = s.srcs := rfl
@[simp] theorem State.setJob_sleep (s : State) (j : Nat) (v : Option Job) : (s.setJob j v).sleep = s.sleep := rfl
@[simp] theorem State.setJob_pair (s : State) (j : Nat) (v : Option Job) : (s.setJob j v).pair = s.pair := rfl
@[simp] theorem State.setJob_power (s : State) (j : Nat) (v : Option Job) : (s.setJob j v).power = s.power := rfl
@[simp] theorem State.setJob_scarf (s : State) (j : Nat) (v : Option Job) : (s.setJob j v).scarf = s.scarf := rfl
@[simp] theorem State.setJob_flash (s : State) (j : Nat) (v : Option Job) : (s.setJob j v).flash = s.flash := rfl
@[simp] theorem State.setJob_stwd (s : State) (j : Nat) (v : Option Job) : (s.setJob j v).stwd = s.stwd := rfl
@[simp] theorem State.setJob_steward (s : State) (j : Nat) (v : Option Job) : (s.setJob j v).steward = s.steward := rfl
@[simp] theorem State.setJob_draw (s : State) (j : Nat) (v : Option Job) : (s.setJob j v).draw = s.draw := rfl
@[simp] theorem State.setJob_pending (s : State) (j : Nat) (v : Option Job) : (s.setJob j v).pending = s.pending := rfl
@[simp] theorem State.setJob_read_core (s : State) (j : Nat) (v : Option Job) (n : Nat) : (s.setJob j v).core n = s.core n := rfl
@[simp] theorem State.setJob_read_bent (s : State) (j : Nat) (v : Option Job) (n : Nat) : (s.setJob j v).bent n = s.bent n := rfl
@[simp] theorem State.setJob_read_arch (s : State) (j : Nat) (v : Option Job) (n : Nat) : (s.setJob j v).arch n = s.arch n := rfl
@[simp] theorem State.setJob_read_split (s : State) (j : Nat) (v : Option Job) (n : Nat) : (s.setJob j v).split n = s.split n := rfl
@[simp] theorem State.setJob_read_fn (s : State) (j : Nat) (v : Option Job) (n : Nat) : (s.setJob j v).fn n = s.fn n := rfl
@[simp] theorem State.setJob_read_src (s : State) (j : Nat) (v : Option Job) (n : Nat) : (s.setJob j v).src n = s.src n := rfl
@[simp] theorem State.setJob_read_ctx (s : State) (j : Nat) (v : Option Job) (n : Nat) : (s.setJob j v).ctx n = s.ctx n := rfl
@[simp] theorem State.setJob_read_phys (s : State) (j : Nat) (v : Option Job) (n : Nat) : (s.setJob j v).phys n = s.phys n := rfl
@[simp] theorem State.setJob_read_physOf (s : State) (j : Nat) (v : Option Job) (n : Nat) : (s.setJob j v).physOf n = s.physOf n := rfl
@[simp] theorem State.setJob_read_region (s : State) (j : Nat) (v : Option Job) (n o : Nat) : (s.setJob j v).region n o = s.region n o := rfl
@[simp] theorem State.setJob_read_link (s : State) (j : Nat) (v : Option Job) (n : Nat) : (s.setJob j v).link n = s.link n := rfl
@[simp] theorem State.setJob_read_island (s : State) (j : Nat) (v : Option Job) (n : Nat) : (s.setJob j v).island n = s.island n := rfl

/-! ### setLink -/

@[simp] theorem State.setLink_variant (s : State) (l : Nat) (v : Link) : (s.setLink l v).variant = s.variant := rfl
@[simp] theorem State.setLink_straps (s : State) (l : Nat) (v : Link) : (s.setLink l v).straps = s.straps := rfl
@[simp] theorem State.setLink_tick (s : State) (l : Nat) (v : Link) : (s.setLink l v).tick = s.tick := rfl
@[simp] theorem State.setLink_cores (s : State) (l : Nat) (v : Link) : (s.setLink l v).cores = s.cores := rfl
@[simp] theorem State.setLink_bents (s : State) (l : Nat) (v : Link) : (s.setLink l v).bents = s.bents := rfl
@[simp] theorem State.setLink_mem (s : State) (l : Nat) (v : Link) : (s.setLink l v).mem = s.mem := rfl
@[simp] theorem State.setLink_errl (s : State) (l : Nat) (v : Link) : (s.setLink l v).errl = s.errl := rfl
@[simp] theorem State.setLink_ctxs (s : State) (l : Nat) (v : Link) : (s.setLink l v).ctxs = s.ctxs := rfl
@[simp] theorem State.setLink_ats (s : State) (l : Nat) (v : Link) : (s.setLink l v).ats = s.ats := rfl
@[simp] theorem State.setLink_funcs (s : State) (l : Nat) (v : Link) : (s.setLink l v).funcs = s.funcs := rfl
@[simp] theorem State.setLink_port (s : State) (l : Nat) (v : Link) : (s.setLink l v).port = s.port := rfl
@[simp] theorem State.setLink_host (s : State) (l : Nat) (v : Link) : (s.setLink l v).host = s.host := rfl
@[simp] theorem State.setLink_hostBad (s : State) (l : Nat) (v : Link) : (s.setLink l v).hostBad = s.hostBad := rfl
@[simp] theorem State.setLink_sent (s : State) (l : Nat) (v : Link) : (s.setLink l v).sent = s.sent := rfl
@[simp] theorem State.setLink_disp (s : State) (l : Nat) (v : Link) : (s.setLink l v).disp = s.disp := rfl
@[simp] theorem State.setLink_srcs (s : State) (l : Nat) (v : Link) : (s.setLink l v).srcs = s.srcs := rfl
@[simp] theorem State.setLink_sleep (s : State) (l : Nat) (v : Link) : (s.setLink l v).sleep = s.sleep := rfl
@[simp] theorem State.setLink_pair (s : State) (l : Nat) (v : Link) : (s.setLink l v).pair = s.pair := rfl
@[simp] theorem State.setLink_power (s : State) (l : Nat) (v : Link) : (s.setLink l v).power = s.power := rfl
@[simp] theorem State.setLink_flash (s : State) (l : Nat) (v : Link) : (s.setLink l v).flash = s.flash := rfl
@[simp] theorem State.setLink_stwd (s : State) (l : Nat) (v : Link) : (s.setLink l v).stwd = s.stwd := rfl
@[simp] theorem State.setLink_steward (s : State) (l : Nat) (v : Link) : (s.setLink l v).steward = s.steward := rfl
@[simp] theorem State.setLink_draw (s : State) (l : Nat) (v : Link) : (s.setLink l v).draw = s.draw := rfl
@[simp] theorem State.setLink_pending (s : State) (l : Nat) (v : Link) : (s.setLink l v).pending = s.pending := rfl
@[simp] theorem State.setLink_read_core (s : State) (l : Nat) (v : Link) (n : Nat) : (s.setLink l v).core n = s.core n := rfl
@[simp] theorem State.setLink_read_bent (s : State) (l : Nat) (v : Link) (n : Nat) : (s.setLink l v).bent n = s.bent n := rfl
@[simp] theorem State.setLink_read_arch (s : State) (l : Nat) (v : Link) (n : Nat) : (s.setLink l v).arch n = s.arch n := rfl
@[simp] theorem State.setLink_read_split (s : State) (l : Nat) (v : Link) (n : Nat) : (s.setLink l v).split n = s.split n := rfl
@[simp] theorem State.setLink_read_fn (s : State) (l : Nat) (v : Link) (n : Nat) : (s.setLink l v).fn n = s.fn n := rfl
@[simp] theorem State.setLink_read_src (s : State) (l : Nat) (v : Link) (n : Nat) : (s.setLink l v).src n = s.src n := rfl
@[simp] theorem State.setLink_read_ctx (s : State) (l : Nat) (v : Link) (n : Nat) : (s.setLink l v).ctx n = s.ctx n := rfl
@[simp] theorem State.setLink_read_phys (s : State) (l : Nat) (v : Link) (n : Nat) : (s.setLink l v).phys n = s.phys n := rfl
@[simp] theorem State.setLink_read_physOf (s : State) (l : Nat) (v : Link) (n : Nat) : (s.setLink l v).physOf n = s.physOf n := rfl
@[simp] theorem State.setLink_read_region (s : State) (l : Nat) (v : Link) (n o : Nat) : (s.setLink l v).region n o = s.region n o := rfl
@[simp] theorem State.setLink_read_sq (s : State) (l : Nat) (v : Link) (n : Nat) : (s.setLink l v).sq n = s.sq n := rfl
@[simp] theorem State.setLink_read_cq (s : State) (l : Nat) (v : Link) (n : Nat) : (s.setLink l v).cq n = s.cq n := rfl
@[simp] theorem State.setLink_read_job (s : State) (l : Nat) (v : Link) (n : Nat) : (s.setLink l v).job n = s.job n := rfl
@[simp] theorem State.setLink_read_island (s : State) (l : Nat) (v : Link) (n : Nat) : (s.setLink l v).island n = s.island n := rfl

/-! ### setIsland -/

@[simp] theorem State.setIsland_variant (s : State) (i : Nat) (v : Island) : (s.setIsland i v).variant = s.variant := rfl
@[simp] theorem State.setIsland_straps (s : State) (i : Nat) (v : Island) : (s.setIsland i v).straps = s.straps := rfl
@[simp] theorem State.setIsland_tick (s : State) (i : Nat) (v : Island) : (s.setIsland i v).tick = s.tick := rfl
@[simp] theorem State.setIsland_cores (s : State) (i : Nat) (v : Island) : (s.setIsland i v).cores = s.cores := rfl
@[simp] theorem State.setIsland_bents (s : State) (i : Nat) (v : Island) : (s.setIsland i v).bents = s.bents := rfl
@[simp] theorem State.setIsland_mem (s : State) (i : Nat) (v : Island) : (s.setIsland i v).mem = s.mem := rfl
@[simp] theorem State.setIsland_errl (s : State) (i : Nat) (v : Island) : (s.setIsland i v).errl = s.errl := rfl
@[simp] theorem State.setIsland_ctxs (s : State) (i : Nat) (v : Island) : (s.setIsland i v).ctxs = s.ctxs := rfl
@[simp] theorem State.setIsland_ats (s : State) (i : Nat) (v : Island) : (s.setIsland i v).ats = s.ats := rfl
@[simp] theorem State.setIsland_funcs (s : State) (i : Nat) (v : Island) : (s.setIsland i v).funcs = s.funcs := rfl
@[simp] theorem State.setIsland_port (s : State) (i : Nat) (v : Island) : (s.setIsland i v).port = s.port := rfl
@[simp] theorem State.setIsland_host (s : State) (i : Nat) (v : Island) : (s.setIsland i v).host = s.host := rfl
@[simp] theorem State.setIsland_hostBad (s : State) (i : Nat) (v : Island) : (s.setIsland i v).hostBad = s.hostBad := rfl
@[simp] theorem State.setIsland_sent (s : State) (i : Nat) (v : Island) : (s.setIsland i v).sent = s.sent := rfl
@[simp] theorem State.setIsland_disp (s : State) (i : Nat) (v : Island) : (s.setIsland i v).disp = s.disp := rfl
@[simp] theorem State.setIsland_srcs (s : State) (i : Nat) (v : Island) : (s.setIsland i v).srcs = s.srcs := rfl
@[simp] theorem State.setIsland_sleep (s : State) (i : Nat) (v : Island) : (s.setIsland i v).sleep = s.sleep := rfl
@[simp] theorem State.setIsland_pair (s : State) (i : Nat) (v : Island) : (s.setIsland i v).pair = s.pair := rfl
@[simp] theorem State.setIsland_scarf (s : State) (i : Nat) (v : Island) : (s.setIsland i v).scarf = s.scarf := rfl
@[simp] theorem State.setIsland_flash (s : State) (i : Nat) (v : Island) : (s.setIsland i v).flash = s.flash := rfl
@[simp] theorem State.setIsland_stwd (s : State) (i : Nat) (v : Island) : (s.setIsland i v).stwd = s.stwd := rfl
@[simp] theorem State.setIsland_steward (s : State) (i : Nat) (v : Island) : (s.setIsland i v).steward = s.steward := rfl
@[simp] theorem State.setIsland_draw (s : State) (i : Nat) (v : Island) : (s.setIsland i v).draw = s.draw := rfl
@[simp] theorem State.setIsland_pending (s : State) (i : Nat) (v : Island) : (s.setIsland i v).pending = s.pending := rfl
@[simp] theorem State.setIsland_read_core (s : State) (i : Nat) (v : Island) (n : Nat) : (s.setIsland i v).core n = s.core n := rfl
@[simp] theorem State.setIsland_read_bent (s : State) (i : Nat) (v : Island) (n : Nat) : (s.setIsland i v).bent n = s.bent n := rfl
@[simp] theorem State.setIsland_read_arch (s : State) (i : Nat) (v : Island) (n : Nat) : (s.setIsland i v).arch n = s.arch n := rfl
@[simp] theorem State.setIsland_read_split (s : State) (i : Nat) (v : Island) (n : Nat) : (s.setIsland i v).split n = s.split n := rfl
@[simp] theorem State.setIsland_read_fn (s : State) (i : Nat) (v : Island) (n : Nat) : (s.setIsland i v).fn n = s.fn n := rfl
@[simp] theorem State.setIsland_read_src (s : State) (i : Nat) (v : Island) (n : Nat) : (s.setIsland i v).src n = s.src n := rfl
@[simp] theorem State.setIsland_read_ctx (s : State) (i : Nat) (v : Island) (n : Nat) : (s.setIsland i v).ctx n = s.ctx n := rfl
@[simp] theorem State.setIsland_read_phys (s : State) (i : Nat) (v : Island) (n : Nat) : (s.setIsland i v).phys n = s.phys n := rfl
@[simp] theorem State.setIsland_read_physOf (s : State) (i : Nat) (v : Island) (n : Nat) : (s.setIsland i v).physOf n = s.physOf n := rfl
@[simp] theorem State.setIsland_read_region (s : State) (i : Nat) (v : Island) (n o : Nat) : (s.setIsland i v).region n o = s.region n o := rfl
@[simp] theorem State.setIsland_read_sq (s : State) (i : Nat) (v : Island) (n : Nat) : (s.setIsland i v).sq n = s.sq n := rfl
@[simp] theorem State.setIsland_read_cq (s : State) (i : Nat) (v : Island) (n : Nat) : (s.setIsland i v).cq n = s.cq n := rfl
@[simp] theorem State.setIsland_read_job (s : State) (i : Nat) (v : Island) (n : Nat) : (s.setIsland i v).job n = s.job n := rfl
@[simp] theorem State.setIsland_read_link (s : State) (i : Nat) (v : Island) (n : Nat) : (s.setIsland i v).link n = s.link n := rfl

/-! ### drawn -/

@[simp] theorem State.drawn_variant (s : State) : (s.drawn).variant = s.variant := rfl
@[simp] theorem State.drawn_straps (s : State) : (s.drawn).straps = s.straps := rfl
@[simp] theorem State.drawn_tick (s : State) : (s.drawn).tick = s.tick := rfl
@[simp] theorem State.drawn_cores (s : State) : (s.drawn).cores = s.cores := rfl
@[simp] theorem State.drawn_bents (s : State) : (s.drawn).bents = s.bents := rfl
@[simp] theorem State.drawn_mem (s : State) : (s.drawn).mem = s.mem := rfl
@[simp] theorem State.drawn_errl (s : State) : (s.drawn).errl = s.errl := rfl
@[simp] theorem State.drawn_ctxs (s : State) : (s.drawn).ctxs = s.ctxs := rfl
@[simp] theorem State.drawn_ats (s : State) : (s.drawn).ats = s.ats := rfl
@[simp] theorem State.drawn_funcs (s : State) : (s.drawn).funcs = s.funcs := rfl
@[simp] theorem State.drawn_port (s : State) : (s.drawn).port = s.port := rfl
@[simp] theorem State.drawn_host (s : State) : (s.drawn).host = s.host := rfl
@[simp] theorem State.drawn_hostBad (s : State) : (s.drawn).hostBad = s.hostBad := rfl
@[simp] theorem State.drawn_sent (s : State) : (s.drawn).sent = s.sent := rfl
@[simp] theorem State.drawn_disp (s : State) : (s.drawn).disp = s.disp := rfl
@[simp] theorem State.drawn_srcs (s : State) : (s.drawn).srcs = s.srcs := rfl
@[simp] theorem State.drawn_sleep (s : State) : (s.drawn).sleep = s.sleep := rfl
@[simp] theorem State.drawn_pair (s : State) : (s.drawn).pair = s.pair := rfl
@[simp] theorem State.drawn_power (s : State) : (s.drawn).power = s.power := rfl
@[simp] theorem State.drawn_scarf (s : State) : (s.drawn).scarf = s.scarf := rfl
@[simp] theorem State.drawn_flash (s : State) : (s.drawn).flash = s.flash := rfl
@[simp] theorem State.drawn_stwd (s : State) : (s.drawn).stwd = s.stwd := rfl
@[simp] theorem State.drawn_steward (s : State) : (s.drawn).steward = s.steward := rfl
@[simp] theorem State.drawn_pending (s : State) : (s.drawn).pending = s.pending := rfl
@[simp] theorem State.drawn_read_core (s : State) (n : Nat) : (s.drawn).core n = s.core n := rfl
@[simp] theorem State.drawn_read_bent (s : State) (n : Nat) : (s.drawn).bent n = s.bent n := rfl
@[simp] theorem State.drawn_read_arch (s : State) (n : Nat) : (s.drawn).arch n = s.arch n := rfl
@[simp] theorem State.drawn_read_split (s : State) (n : Nat) : (s.drawn).split n = s.split n := rfl
@[simp] theorem State.drawn_read_fn (s : State) (n : Nat) : (s.drawn).fn n = s.fn n := rfl
@[simp] theorem State.drawn_read_src (s : State) (n : Nat) : (s.drawn).src n = s.src n := rfl
@[simp] theorem State.drawn_read_ctx (s : State) (n : Nat) : (s.drawn).ctx n = s.ctx n := rfl
@[simp] theorem State.drawn_read_phys (s : State) (n : Nat) : (s.drawn).phys n = s.phys n := rfl
@[simp] theorem State.drawn_read_physOf (s : State) (n : Nat) : (s.drawn).physOf n = s.physOf n := rfl
@[simp] theorem State.drawn_read_region (s : State) (n o : Nat) : (s.drawn).region n o = s.region n o := rfl
@[simp] theorem State.drawn_read_sq (s : State) (n : Nat) : (s.drawn).sq n = s.sq n := rfl
@[simp] theorem State.drawn_read_cq (s : State) (n : Nat) : (s.drawn).cq n = s.cq n := rfl
@[simp] theorem State.drawn_read_job (s : State) (n : Nat) : (s.drawn).job n = s.job n := rfl
@[simp] theorem State.drawn_read_link (s : State) (n : Nat) : (s.drawn).link n = s.link n := rfl
@[simp] theorem State.drawn_read_island (s : State) (n : Nat) : (s.drawn).island n = s.island n := rfl

/-! ### What is read back -/

@[simp] theorem State.setCore_core (s : State) (k : Nat) (c : Core) : (s.setCore k c).core k = c := by simp [State.setCore, State.core]
theorem State.setCore_core_other (s : State) {k j : Nat} (c : Core) (h : j ≠ k) : (s.setCore k c).core j = s.core j := by
  simp [State.setCore, State.core, tget_tset, h]
@[simp] theorem State.setCore_arch (s : State) (k : Nat) (c : Core) : (s.setCore k c).arch k = c.arch := by simp [State.arch]
@[simp] theorem State.setArch_arch (s : State) (k : Nat) (a : Arch) : (s.setArch k a).arch k = a := by simp [State.setArch]
@[simp] theorem State.setArch_core (s : State) (k : Nat) (a : Arch) : (s.setArch k a).core k = { s.core k with arch := a } := by simp [State.setArch]
theorem State.setArch_core_other (s : State) {k j : Nat} (a : Arch) (h : j ≠ k) : (s.setArch k a).core j = s.core j := by
  simp [State.setArch, State.setCore_core_other _ _ h]
@[simp] theorem State.setBent_bent (s : State) (l : Nat) (b : Bent) : (s.setBent l b).bent l = b := by simp [State.setBent, State.bent]
theorem State.setBent_bent_other (s : State) {l j : Nat} (b : Bent) (h : j ≠ l) : (s.setBent l b).bent j = s.bent j := by
  simp [State.setBent, State.bent, tget_tset, h]
@[simp] theorem State.setFn_fn (s : State) (f : Nat) (v : Func) : (s.setFn f v).fn f = v := by simp [State.setFn, State.fn]
@[simp] theorem State.setSrc_src (s : State) (n : Nat) (v : Src) : (s.setSrc n v).src n = v := by simp [State.setSrc, State.src]
theorem State.setSrc_src_other (s : State) {n j : Nat} (v : Src) (h : j ≠ n) : (s.setSrc n v).src j = s.src j := by
  simp [State.setSrc, State.src, tget_tset, h]
@[simp] theorem State.setPhys_phys (s : State) (p : Nat) (v : Phys) : (s.setPhys p v).phys p = v := by simp [State.setPhys, State.phys]
@[simp] theorem State.setPhys_physOf (s : State) (p l : Nat) (v : Phys) : (s.setPhys p v).physOf l = s.physOf l := rfl
theorem State.setRegion_region (s : State) {m : Nat} (r : Nat) (v : Region) (h : m ≠ 48) : (s.setRegion m r v).region m r = v := by
  simp [State.setRegion, State.region, h]
@[simp] theorem State.setSq_sq (s : State) (q : Nat) (v : Option Sq) : (s.setSq q v).sq q = v := by simp [State.setSq, State.sq]
theorem State.setSq_sq_other (s : State) {q j : Nat} (v : Option Sq) (h : j ≠ q) : (s.setSq q v).sq j = s.sq j := by
  simp [State.setSq, State.sq, tget_tset, h]
@[simp] theorem State.setSq_cq (s : State) (q n : Nat) (v : Option Sq) : (s.setSq q v).cq n = s.cq n := rfl
@[simp] theorem State.setSq_job (s : State) (q n : Nat) (v : Option Sq) : (s.setSq q v).job n = s.job n := rfl
@[simp] theorem State.setCq_cq (s : State) (q : Nat) (v : Option Cq) : (s.setCq q v).cq q = v := by simp [State.setCq, State.cq]
theorem State.setCq_cq_other (s : State) {q j : Nat} (v : Option Cq) (h : j ≠ q) : (s.setCq q v).cq j = s.cq j := by
  simp [State.setCq, State.cq, tget_tset, h]
@[simp] theorem State.setCq_sq (s : State) (q n : Nat) (v : Option Cq) : (s.setCq q v).sq n = s.sq n := rfl
@[simp] theorem State.setCq_job (s : State) (q n : Nat) (v : Option Cq) : (s.setCq q v).job n = s.job n := rfl
@[simp] theorem State.setJob_job (s : State) (j : Nat) (v : Option Job) : (s.setJob j v).job j = v := by simp [State.setJob, State.job]
@[simp] theorem State.setJob_sq (s : State) (j n : Nat) (v : Option Job) : (s.setJob j v).sq n = s.sq n := rfl
@[simp] theorem State.setJob_cq (s : State) (j n : Nat) (v : Option Job) : (s.setJob j v).cq n = s.cq n := rfl
@[simp] theorem State.setLink_link (s : State) (l : Nat) (v : Link) : (s.setLink l v).link l = v := by simp [State.setLink, State.link]
@[simp] theorem State.setIsland_island (s : State) (i : Nat) (v : Island) : (s.setIsland i v).island i = v := by simp [State.setIsland, State.island]
@[simp] theorem State.drawn_draw (s : State) : s.drawn.draw = s.draw + 1 := rfl

/-! ### Two writes of one unit -/

@[simp] theorem State.setCore_setCore (s : State) (k : Nat) (c d : Core) : (s.setCore k c).setCore k d = s.setCore k d := by simp [State.setCore]
@[simp] theorem State.setArch_setArch (s : State) (k : Nat) (a b : Arch) : (s.setArch k a).setArch k b = s.setArch k b := by simp [State.setArch]
@[simp] theorem State.setArch_setCore (s : State) (k : Nat) (a : Arch) (c : Core) : (s.setArch k a).setCore k c = s.setCore k c := by simp [State.setArch]
@[simp] theorem State.setCore_setArch (s : State) (k : Nat) (c : Core) (a : Arch) :
    (s.setCore k c).setArch k a = s.setCore k { c with arch := a } := by simp [State.setArch]
@[simp] theorem State.setBent_setBent (s : State) (l : Nat) (b c : Bent) : (s.setBent l b).setBent l c = s.setBent l c := by simp [State.setBent]
@[simp] theorem State.setSrc_setSrc (s : State) (n : Nat) (v w : Src) : (s.setSrc n v).setSrc n w = s.setSrc n w := by simp [State.setSrc]
@[simp] theorem State.setFn_setFn (s : State) (f : Nat) (v w : Func) : (s.setFn f v).setFn f w = s.setFn f w := by simp [State.setFn]

end Sys2Proof.Machine
end

