-- ==== Sys2Proof/Laws/Issue.lean ====
section
/-! SUPPORT. The course of one instruction: the fetch leaves every core as it was, registers read what they hold, and the
instruction ends with its own effect. -/

namespace Sys2Proof.Machine

variable {k len : Nat} {s s1 s2 : State}

theorem notePlumb_core (h : (s.arch k).inflight = []) (j : Nat) : (notePlumb k s).core j = s.core j := by
  unfold notePlumb
  dsimp only
  split
  · rfl
  · by_cases e : j = k
    · subst e
      simp only [h, List.map_nil, State.setArch_core]
      show { s.core j with arch := { (s.core j).arch with inflight := [] } } = s.core j
      have h' : (s.core j).arch.inflight = [] := h
      rw [← h']
    · exact State.setArch_core_other s _ e

theorem Quiet.core_eq (q : Quiet s s1) (j : Nat) : s1.core j = s.core j := by
  unfold State.core
  rw [q.cores]

theorem Quiet.split_eq (q : Quiet s s1) (j : Nat) : s1.split j = s.split j := by
  have := congrArg Bent.split (q.bents (j / 2))
  exact this

theorem notePlumb_split (j : Nat) : (notePlumb k s).split j = s.split j := by
  unfold notePlumb
  dsimp only
  split <;> rfl

/-- What the fetch leaves of the cores. -/
theorem Issues.core (I : Issues k len s s1) (h : (s.arch k).inflight = []) (j : Nat) : s1.core j = s.core j :=
  ((fetchInstr_quiet (Quiet.refl (notePlumb k s)) |> fun q => Res.okK I.fetched q).core_eq j).trans (notePlumb_core h j)

theorem Issues.arch (I : Issues k len s s1) (h : (s.arch k).inflight = []) (j : Nat) : s1.arch j = s.arch j := by
  unfold State.arch
  rw [I.core h j]

theorem Issues.split (I : Issues k len s s1) (j : Nat) : s1.split j = s.split j :=
  ((fetchInstr_quiet (Quiet.refl (notePlumb k s)) |> fun q => Res.okK I.fetched q).split_eq j).trans (notePlumb_split j)

/-- The fetch keeps the core calm. -/
theorem Issues.calm (I : Issues k len s s1) (C : Calm k s) : Calm k s1 := by
  have ha := I.arch C.flight k
  have hc := I.core C.flight k
  exact ⟨by rw [ha]; exact C.flight, by rw [ha]; exact C.shadow, by rw [ha]; exact C.loop,
    by rw [I.split k, hc]; exact C.ckpt, by rw [hc]; exact C.stop, by rw [hc]; exact C.replay⟩

/-- With nothing on its way a register reads what it holds. -/
theorem regRead_calm (h : (s.arch k).inflight = []) (file n slot : Nat) (now : W80) (words : Nat) :
    regRead s k file n slot now words = now := by
  simp [regRead, earlyOlds, h]

theorem rdD_calm (h : (s.arch k).inflight = []) (x : Reg) (slot : Nat) : rdD k x slot s = (s.arch k).regD x.toNat := by
  simp [rdD, regRead_calm h]
theorem rdA_calm (h : (s.arch k).inflight = []) (x : Reg) (slot : Nat) : rdA k x slot s = (s.arch k).regA x.toNat := by
  simp [rdA, regRead_calm h]
theorem rdAC_calm (h : (s.arch k).inflight = []) (n slot : Nat) : rdAC k n slot s = (s.arch k).regAC n := by
  simp [rdAC, regRead_calm h]

theorem notePlumb_pair : (notePlumb k s).pair = s.pair := by
  unfold notePlumb
  dsimp only
  split <;> rfl

/-- The fetch leaves the PAIR block as it was. -/
theorem Issues.pair (I : Issues k len s s1) : s1.pair = s.pair :=
  (Res.okK I.fetched (fetchInstr_quiet (Quiet.refl (notePlumb k s)))).pair.trans notePlumb_pair

/-- With nothing on its way no result is one that plumb mode fixes. -/
theorem exactHeld_calm {a : Arch} (h : a.inflight = []) : a.exactHeld = false := by
  simp [Arch.exactHeld, h]

theorem runBody_calm {body : State → Res (Option W40)} (h : (s.arch k).inflight = []) : runBody k body s = body s := by
  simp [runBody, exactHeld_calm h]

/-- A core that may issue with nothing due runs the instruction. -/
theorem issueAny_run {body : State → Res (Option W40)} {out : Out} (I : Issues k len s s1) :
    issueAny false out k len body s = issueRun out k len body s := by
  simp [issueAny, I.ready, I.due, I.untested, I.closed]

/-- What an instruction whose body has run leaves. -/
def leaves (k : Nat) (here next : W40) : Res (Option W40) → State
  | .ok flow s' => dueStop k (retire k here next flow s')
  | .trap t s' => dueStop k (takeTrap k (placeTrap t (if t.cause = 19 then chainPc (s'.core k) here else here) next) false false s')
  | .stall s' => s'

/-- The body of an instruction that sends nothing out runs on the fetched state. -/
theorem issueAny_ran {body : State → Res (Option W40)} (I : Issues k len s s1) (hf : (s.arch k).inflight = []) :
    issueAny false .no k len body s =
      if testFired s (body s1) then forcedEvent k s else leaves k (s.arch k).pc (nextPc (s.arch k) len) (body s1) := by
  have h1 : (s1.arch k).inflight = [] := by rw [I.arch hf k]; exact hf
  have e : ((fetchInstr k len (notePlumb k s)).bind fun _ s => runBody k body (if Out.no = .no then s else checkpoint k s)) = body s1 := by
    rw [I.fetched]
    show runBody k body s1 = body s1
    exact runBody_calm h1
  rw [issueAny_run I]
  unfold issueRun
  split
  · contradiction
  · dsimp only
    rw [e]
    cases body s1 <;> rfl

theorem testFired_same {r : Res (Option W40)} (hp : r.all (fun t => t.pair = s.pair)) : testFired s r = false := by
  cases r <;> simp_all [testFired, Res.all]

/-- What the body leaves retires. -/
theorem issueAny_ok {body : State → Res (Option W40)} {flow : Option W40} (I : Issues k len s s1) (hf : (s.arch k).inflight = [])
    (hp : s2.pair = s1.pair) (hb : body s1 = .ok flow s2) :
    issueAny false .no k len body s = dueStop k (retire k (s.arch k).pc (nextPc (s.arch k) len) flow s2) := by
  rw [issueAny_ran I hf, hb, testFired_same (r := .ok flow s2) (hp.trans I.pair)]
  rfl

theorem issueAny_trap {body : State → Res (Option W40)} {t : Trap} (I : Issues k len s s1) (hf : (s.arch k).inflight = [])
    (hp : s2.pair = s1.pair) (hb : body s1 = .trap t s2) :
    issueAny false .no k len body s =
      dueStop k (takeTrap k (placeTrap t (if t.cause = 19 then chainPc (s2.core k) (s.arch k).pc else (s.arch k).pc) (nextPc (s.arch k) len)) false false s2) := by
  rw [issueAny_ran I hf, hb, testFired_same (r := .trap t s2) (hp.trans I.pair)]
  rfl

theorem issueAny_stall {body : State → Res (Option W40)} (I : Issues k len s s1) (hf : (s.arch k).inflight = [])
    (hp : s2.pair = s1.pair) (hb : body s1 = .stall s2) : issueAny false .no k len body s = s2 := by
  rw [issueAny_ran I hf, hb, testFired_same (r := .stall s2) (hp.trans I.pair)]
  rfl

/-- The end of an instruction that falls through, with nothing else due. -/
theorem retire_next {here next : W40} (hs : (s2.arch k).shadow = []) (hl : (s2.arch k).ld = 0 ∨ tget 0 (s2.arch k).le ((s2.arch k).ld.toNat - 1) ≠ here)
    (hc : s2.split k = true ∨ (s2.core k).since < 255 ∧ (s2.core k).stores.length < 24) :
    retire k here next none s2 = ended k { s2.arch k with pc := next, inflight := tickInflight (s2.arch k).inflight } s2 := by
  have e : loopBack k here next s2 = s2.setArch k { s2.arch k with pc := next } := by
    unfold loopBack
    dsimp only
    rw [if_pos hl]
  have d : (s2.split k = false → (s2.core k).since < 255 ∧ (s2.core k).stores.length < 24) := by
    intro h; rcases hc with h' | h'
    · rw [h] at h'; exact absurd h' (by decide)
    · exact h'
  have hs' : (s2.core k).arch.shadow = [] := hs
  unfold retire
  dsimp only
  rw [e]
  simp only [State.setArch_setArch, tickShadow, hs', State.arch, State.setArch_core, List.filter_nil, List.map_nil, List.foldl_nil,
    State.setArch_setCore]
  unfold dueCheckpoint
  have hsplit : ∀ c, (s2.setCore k c).drawn.split k = s2.split k := fun _ => rfl
  have hcore : ∀ c, (s2.setCore k c).drawn.core k = c := fun c => by
    show (s2.setCore k c).core k = c
    simp
  dsimp only
  rw [if_neg ?_]
  · simp [ended]
  · simp only [hsplit, hcore, Bool.and_eq_true, Bool.or_eq_true, Bool.not_eq_true', decide_eq_true_eq, not_and]
    intro h
    have := d h.1
    omega

/-- No stop is asked for. -/
theorem dueStop_none (h : (s.core k).stop = 0) : dueStop k s = s := by
  simp [dueStop, h]

/-- An instruction that only writes registers of its core and falls through. -/
theorem issue_sets {body : State → Res (Option W40)} {a : Arch} (I : Issues k len s s1) (C : Calm k s) (hb : body s1 = .ok none (s1.setArch k a))
    (hs : a.shadow = []) (hl : a.ld = (s.arch k).ld) (hle : a.le = (s.arch k).le) :
    issueAny false .no k len body s =
      ended k { a with pc := nextPc (s.arch k) len, inflight := tickInflight a.inflight } s1 := by
  have C1 := I.calm C
  rw [issueAny_ok I C.flight (State.setArch_pair s1 k a) hb, retire_next (here := (s.arch k).pc) (next := nextPc (s.arch k) len)]
  · rw [dueStop_none]
    · simp [ended]
    · show ((State.setCore _ _ _).core k).stop = 0
      simpa using C1.stop
  · simpa using hs
  · simpa [hl, hle] using C.loop
  · rcases C1.ckpt with h | h
    · exact .inl h
    · refine .inr ?_
      simp only [State.setArch_core]
      omega

/-! ### Results and their distance (R148) -/

/-- A result on its way, as the instruction that writes it leaves it. -/
theorem slow_calm {a : Arch} (h : a.inflight = []) (file n : Nat) (old : W80) (d : Nat) :
    a.slow file n old d =
      { a with inflight := if a.compat || decide (d ≤ 1) then [] else [{ file := file, n := n, old := old, left := d, exact := a.benchFetch }] } := by
  unfold Arch.slow
  split <;> simp [Arch.drop, h]

/-- One instruction later it is one nearer. -/
theorem tick_flying (a : Arch) (file n : Nat) (old : W80) (d : Nat) :
    tickInflight (if a.compat || decide (d ≤ 1) then [] else [{ file := file, n := n, old := old, left := d, exact := a.benchFetch }]) =
      a.flying file n old d := by
  unfold Arch.flying
  split
  · rfl
  · rename_i h
    have : ¬ d ≤ 1 := by
      simp only [Bool.or_eq_true, decide_eq_true_eq, not_or] at h
      exact h.2
    simp [tickInflight, this]

theorem tick_flying_pair (a : Arch) (m n : Nat) (o p : W80) (d : Nat) :
    tickInflight ((if a.compat || decide (d ≤ 1) then [] else [{ file := 1, n := n, old := o, left := d, exact := a.benchFetch }])
      ++ (if a.compat || decide (d ≤ 1) then [] else [{ file := 1, n := m, old := p, left := d, exact := a.benchFetch }])) =
      a.flying 1 n o d ++ a.flying 1 m p d := by
  unfold Arch.flying
  split
  · rfl
  · rename_i h
    have : ¬ d ≤ 1 := by
      simp only [Bool.or_eq_true, decide_eq_true_eq, not_or] at h
      exact h.2
    simp [tickInflight, this]

theorem wrDd_calm (h : (s.arch k).inflight = []) (x : Reg) (d : Nat) (v : Word) :
    wrDd k x d v s = s.setArch k { s.arch k with
      d := tset 0 (s.arch k).d x.toNat v
      inflight := if (s.arch k).compat || decide (d ≤ 1) then [] else
        [{ file := 1, n := x.toNat, old := ((s.arch k).regD x.toNat).setWidth 80, left := d, exact := (s.arch k).benchFetch }] } := by
  simp [wrDd, slow_calm h]

theorem wrAd_calm (h : (s.arch k).inflight = []) (x : Reg) (d : Nat) (v : W40) :
    wrAd k x d v s = s.setArch k { s.arch k with
      a := tset 0 (s.arch k).a x.toNat ((s.arch k).wrapA v)
      inflight := if (s.arch k).compat || decide (d ≤ 1) then [] else
        [{ file := 0, n := x.toNat, old := ((s.arch k).regA x.toNat).setWidth 80, left := d, exact := (s.arch k).benchFetch }] } := by
  simp [wrAd, slow_calm h]

theorem wrACd_calm (h : (s.arch k).inflight = []) (n d : Nat) (v : W80) :
    wrACd k n d v s = s.setArch k { s.arch k with
      ac := tset 0 (s.arch k).ac n v
      inflight := if (s.arch k).compat || decide (d ≤ 1) then [] else
        [{ file := 2, n := n, old := (s.arch k).regAC n, left := d, exact := (s.arch k).benchFetch }] } := by
  simp [wrACd, slow_calm h]

/-- The second register of a pair is another one. -/
theorem pairHi_ne (x : Reg) : (pairHi x).toNat ≠ x.toNat := by
  intro e
  have h : x + 1 = x := BitVec.eq_of_toNat_eq e
  revert h
  revert x
  decide

theorem regD_tset_other (a : Arch) {x y : Nat} (v : Word) (h : y ≠ x) : tget 0 (tset 0 a.d x v) y = a.regD y := by
  simp [tget_tset, h, Arch.regD]

theorem wrPairD_calm (h : (s.arch k).inflight = []) (x : Reg) (d : Nat) (v : W40) :
    wrPairD k x d v s = s.setArch k { s.arch k with
      d := tset 0 (tset 0 (s.arch k).d x.toNat (v.extractLsb' 0 20)) (pairHi x).toNat (v.extractLsb' 20 20)
      inflight := (if (s.arch k).compat || decide (d ≤ 1) then [] else
        [{ file := 1, n := x.toNat, old := ((s.arch k).regD x.toNat).setWidth 80, left := d, exact := (s.arch k).benchFetch }])
        ++ (if (s.arch k).compat || decide (d ≤ 1) then [] else
        [{ file := 1, n := (pairHi x).toNat, old := ((s.arch k).regD (pairHi x).toNat).setWidth 80, left := d, exact := (s.arch k).benchFetch }]) } := by
  have e := pairHi_ne x
  have g : ∀ (a b : Arch), a.corecfg = b.corecfg → a.pl = b.pl → a.pc = b.pc → a.pxbase = b.pxbase → a.compat = b.compat ∧ a.benchFetch = b.benchFetch := by
    intro a b h1 h2 h3 h4
    simp [Arch.compat, Arch.benchFetch, Arch.plumb, Arch.map, h1, h2, h3, h4]
  unfold wrPairD
  rw [wrDd_calm h]
  unfold wrDd
  simp only [State.setArch_arch, State.setArch_setArch, Arch.slow, Arch.drop]
  have gg := g { s.arch k with
      d := tset 0 (s.arch k).d x.toNat (v.extractLsb' 0 20)
      inflight := if (s.arch k).compat || decide (d ≤ 1) then [] else
        [{ file := 1, n := x.toNat, old := ((s.arch k).regD x.toNat).setWidth 80, left := d, exact := (s.arch k).benchFetch }] } (s.arch k) rfl rfl rfl rfl
  rw [gg.1, gg.2]
  by_cases c : (s.arch k).compat = true ∨ d ≤ 1
  · have c' : ((s.arch k).compat || decide (d ≤ 1)) = true := by simpa using c
    simp [c']
  · have c' : ((s.arch k).compat || decide (d ≤ 1)) = false := by simpa using c
    simp [c', Arch.regD, tget_tset, e]

variable {body : State → Res (Option W40)}

/-- An instruction that only writes DX with distance d. -/
theorem issue_putD {x : Reg} {d : Nat} {v : Word} (I : Issues k len s s1) (C : Calm k s) (hb : body s1 = .ok none (wrDd k x d v s1)) :
    issueAny false .no k len body s = ended k (((s1.arch k).putD x v d).after len) s1 := by
  have C1 := I.calm C
  have ha := I.arch C.flight k
  rw [wrDd_calm C1.flight] at hb
  rw [issue_sets I C hb (by simpa using C1.shadow) (by simp [ha]) (by simp [ha])]
  simp only [Arch.after, Arch.putD, nextPc, Arch.map, Arch.compat, ha]
  congr 2
  exact tick_flying (s.arch k) 1 x.toNat _ d

theorem issue_putA {x : Reg} {d : Nat} {v : W40} (I : Issues k len s s1) (C : Calm k s) (hb : body s1 = .ok none (wrAd k x d v s1)) :
    issueAny false .no k len body s = ended k (((s1.arch k).putA x v d).after len) s1 := by
  have C1 := I.calm C
  have ha := I.arch C.flight k
  rw [wrAd_calm C1.flight] at hb
  rw [issue_sets I C hb (by simpa using C1.shadow) (by simp [ha]) (by simp [ha])]
  simp only [Arch.after, Arch.putA, nextPc, Arch.map, Arch.compat, ha]
  congr 2
  exact tick_flying (s.arch k) 0 x.toNat _ d

theorem issue_putAC {n d : Nat} {v : W80} (I : Issues k len s s1) (C : Calm k s) (hb : body s1 = .ok none (wrACd k n d v s1)) :
    issueAny false .no k len body s = ended k (((s1.arch k).putAC n v d).after len) s1 := by
  have C1 := I.calm C
  have ha := I.arch C.flight k
  rw [wrACd_calm C1.flight] at hb
  rw [issue_sets I C hb (by simpa using C1.shadow) (by simp [ha]) (by simp [ha])]
  simp only [Arch.after, Arch.putAC, nextPc, Arch.map, Arch.compat, ha]
  congr 2
  exact tick_flying (s.arch k) 2 n _ d

theorem issue_putPair {x : Reg} {d : Nat} {v : W40} (I : Issues k len s s1) (C : Calm k s) (hb : body s1 = .ok none (wrPairD k x d v s1)) :
    issueAny false .no k len body s = ended k (((s1.arch k).putPair x v d).after len) s1 := by
  have C1 := I.calm C
  have ha := I.arch C.flight k
  rw [wrPairD_calm C1.flight] at hb
  rw [issue_sets I C hb (by simpa using C1.shadow) (by simp [ha]) (by simp [ha])]
  simp only [Arch.after, Arch.putPair, nextPc, Arch.map, Arch.compat, ha]
  congr 2
  exact tick_flying_pair (s.arch k) _ _ _ _ d

theorem issue_putS {x : Reg} {v : W40} (I : Issues k len s s1) (C : Calm k s) (hb : body s1 = .ok none (wrS k x v s1)) :
    issueAny false .no k len body s = ended k (((s1.arch k).putS x v).after len) s1 := by
  have C1 := I.calm C
  have ha := I.arch C.flight k
  rw [issue_sets I C hb (by simpa using C1.shadow) (by simp [ha]) (by simp [ha])]
  simp only [Arch.after, Arch.putS, nextPc, Arch.map, Arch.compat, ha]
  have hf : (s.arch k).inflight = [] := C.flight
  simp [hf, tickInflight]

/-- An instruction that writes nothing. -/
theorem issue_falls (I : Issues k len s s1) (C : Calm k s) (hb : body s1 = .ok none s1) :
    issueAny false .no k len body s = ended k ((s1.arch k).after len) s1 := by
  have C1 := I.calm C
  have ha := I.arch C.flight k
  rw [issueAny_ok I C.flight rfl hb, retire_next C1.shadow (by rw [ha]; exact C.loop) (C1.ckpt.imp id (fun h => ⟨h.1, by omega⟩))]
  rw [dueStop_none]
  · have hf : (s1.arch k).inflight = [] := C1.flight
    simp only [Arch.after, ha]
    rw [ha] at hf
    simp [hf, tickInflight]
  · show ((State.setCore _ _ _).core k).stop = 0
    simpa using C1.stop

end Sys2Proof.Machine
end

