-- ==== Sys2Proof/Laws/KeepsUnits.lean ====
section
/-! SUPPORT. Keeps of the error log, memory integrity and translation: one lemma a function. -/

namespace Sys2Proof.Machine

/-! ### Log -/

theorem State_setRegion_keeps {z : State} {s x2 x3 x4} (h1 : Keeps z (s)) : Keeps z (State.setRegion s x2 x3 x4) := by
  unfold State.setRegion
  with_reducible refine Keeps.iteK ?_ ?_
  · with_reducible assumption
  · with_reducible exact Keeps.upd (by assumption) rfl rfl rfl rfl

theorem State_setFn_keeps {z : State} {s x2 x3} (h1 : Keeps z (s)) : Keeps z (State.setFn s x2 x3) := by
  unfold State.setFn
  with_reducible exact Keeps.upd (by assumption) rfl rfl rfl rfl

theorem State_setCore_keeps {z : State} {s x2 x3} (h1 : Keeps z (s)) : Keeps z (State.setCore s x2 x3) := by
  unfold State.setCore
  with_reducible exact Keeps.upd (by assumption) rfl rfl rfl rfl

theorem State_setSq_keeps {z : State} {s x2 x3} (h1 : Keeps z (s)) : Keeps z (State.setSq s x2 x3) := by
  unfold State.setSq
  with_reducible exact Keeps.upd (by assumption) rfl rfl rfl rfl

theorem State_setPhys_keeps {z : State} {s x2 x3} (h1 : Keeps z (s)) : Keeps z (State.setPhys s x2 x3) := by
  unfold State.setPhys
  with_reducible exact Keeps.upd (by assumption) rfl rfl rfl rfl

theorem countPair_keeps {z : State} {x1 x2 s} (h3 : Keeps z (s)) : Keeps z (countPair x1 x2 s) := by
  unfold countPair
  extract_lets +onlyGivenNames v1
  clear_value v1
  with_reducible exact State_setPhys_keeps (by assumption)

theorem State_setIsland_keeps {z : State} {s x2 x3} (h1 : Keeps z (s)) : Keeps z (State.setIsland s x2 x3) := by
  unfold State.setIsland
  with_reducible exact Keeps.upd (by assumption) rfl rfl rfl rfl

theorem State_setJob_keeps {z : State} {s x2 x3} (h1 : Keeps z (s)) : Keeps z (State.setJob s x2 x3) := by
  unfold State.setJob
  with_reducible exact Keeps.upd (by assumption) rfl rfl rfl rfl

theorem queueEvent_keeps {z : State} {x1 s} (h2 : Keeps z (s)) : Keeps z (queueEvent x1 s) := by
  unfold queueEvent
  with_reducible exact Keeps.upd (by assumption) rfl rfl rfl rfl

theorem copyEntry_keeps {z : State} {x1 s} (h2 : Keeps z (s)) : Keeps z (copyEntry x1 s) := by
  unfold copyEntry
  with_reducible exact Keeps.upd (by assumption) rfl rfl rfl rfl

theorem State_setSrc_keeps {z : State} {s x2 x3} (h1 : Keeps z (s)) : Keeps z (State.setSrc s x2 x3) := by
  unfold State.setSrc
  with_reducible exact Keeps.upd (by assumption) rfl rfl rfl rfl

theorem requestWake_keeps {z : State} {s} (h1 : Keeps z (s)) : Keeps z (requestWake s) := by
  unfold requestWake
  with_reducible refine Keeps.iteK ?_ ?_
  · with_reducible exact Keeps.upd (by assumption) rfl rfl rfl rfl
  · with_reducible refine Keeps.iteK ?_ ?_
    · with_reducible exact Keeps.upd (by assumption) rfl rfl rfl rfl
    · with_reducible assumption

theorem fireSrc_keeps {z : State} {x1 x2 s} (h3 : Keeps z (s)) : Keeps z (fireSrc x1 x2 s) := by
  unfold fireSrc
  extract_lets +onlyGivenNames v1
  have k1 : Keeps z (v1) := by
    dsimp only [v1]
    with_reducible exact State_setSrc_keeps (by assumption)
  clear_value v1
  with_reducible refine Keeps.iteK ?_ ?_
  · with_reducible exact requestWake_keeps (by assumption)
  · with_reducible assumption

theorem fireModule_keeps {z : State} {x1 s} (h2 : Keeps z (s)) : Keeps z (fireModule x1 s) := by
  unfold fireModule
  with_reducible refine Keeps.iteK ?_ ?_
  · with_reducible exact fireSrc_keeps (by assumption)
  · with_reducible assumption

theorem sendVec_keeps {z : State} {x1 x2 s} (h3 : Keeps z (s)) : Keeps z (sendVec x1 x2 s) := by
  unfold sendVec
  extract_lets +onlyGivenNames v1
  clear_value v1
  with_reducible refine Keeps.iteK ?_ ?_
  · with_reducible assumption
  · extract_lets +onlyGivenNames v2
    clear_value v2
    with_reducible refine Keeps.iteK ?_ ?_
    · with_reducible exact State_setFn_keeps (by assumption)
    · with_reducible refine Keeps.iteK ?_ ?_
      · with_reducible exact Keeps.upd (by assumption) rfl rfl rfl rfl
      · with_reducible exact Keeps.upd (by assumption) rfl rfl rfl rfl

theorem errInterrupt_keeps {z : State} {x1 s} (h2 : Keeps z (s)) : Keeps z (errInterrupt x1 s) := by
  unfold errInterrupt
  extract_lets +onlyGivenNames v1
  have k1 : Keeps z (v1) := by
    dsimp only [v1]
    with_reducible exact fireModule_keeps (by assumption)
  clear_value v1
  with_reducible refine Keeps.iteK ?_ ?_
  · with_reducible exact sendVec_keeps (by assumption)
  · with_reducible assumption

theorem logEntry_keeps {z : State} {x1 s} (h2 : Keeps z (s)) : Keeps z (logEntry x1 s) := by
  unfold logEntry
  with_reducible refine Keeps.iteK ?_ ?_
  · extract_lets +onlyGivenNames v1
    have k1 : Keeps z (v1) := by
      dsimp only [v1]
      with_reducible exact queueEvent_keeps (copyEntry_keeps (by assumption))
    clear_value v1
    with_reducible refine Keeps.iteK ?_ ?_
    · with_reducible exact errInterrupt_keeps (Keeps.upd (by assumption) rfl rfl rfl rfl)
    · split
      · with_reducible exact errInterrupt_keeps (Keeps.upd (by assumption) rfl rfl rfl rfl)
      · with_reducible exact Keeps.upd (by assumption) rfl rfl rfl rfl
  · extract_lets +onlyGivenNames v2
    clear_value v2
    extract_lets +onlyGivenNames v3
    clear_value v3
    extract_lets +onlyGivenNames v4
    clear_value v4
    with_reducible refine Keeps.iteK ?_ ?_
    · with_reducible exact Keeps.upd (by assumption) rfl rfl rfl rfl
    · extract_lets +onlyGivenNames v5
      extract_lets +onlyGivenNames v6
      have k6 : Keeps z (v6) := by
        dsimp only [v6]
        with_reducible exact Keeps.upd (by assumption) rfl rfl rfl rfl
      with_reducible refine Keeps.iteK ?_ ?_
      · with_reducible exact errInterrupt_keeps (Keeps.upd (by assumption) rfl rfl rfl rfl)
      · with_reducible exact Keeps.upd (by assumption) rfl rfl rfl rfl

theorem logErr_keeps {z : State} {x1 x2 x3 x4 x5 x6 x7 s} (h8 : Keeps z (s)) : Keeps z (logErr x1 x2 x3 x4 x5 x6 x7 s) := by
  unfold logErr
  with_reducible exact logEntry_keeps (by assumption)

theorem State_drawn_keeps {z : State} {s} (h1 : Keeps z (s)) : Keeps z (State.drawn s) := by
  unfold State.drawn
  with_reducible exact Keeps.upd (by assumption) rfl rfl rfl rfl

theorem countErr_keeps {z : State} {x1 s} (h2 : Keeps z (s)) : Keeps z (countErr x1 s) := by
  unfold countErr
  with_reducible exact Keeps.upd (by assumption) rfl rfl rfl rfl

theorem countAer_keeps {z : State} {x1 s} (h2 : Keeps z (s)) : Keeps z (countAer x1 s) := by
  unfold countAer
  with_reducible exact Keeps.upd (by assumption) rfl rfl rfl rfl

theorem State_setCq_keeps {z : State} {s x2 x3} (h1 : Keeps z (s)) : Keeps z (State.setCq s x2 x3) := by
  unfold State.setCq
  with_reducible exact Keeps.upd (by assumption) rfl rfl rfl rfl

theorem unsupported_keeps {z : State} {s} (h1 : Keeps z (s)) : Keeps z (unsupported s) := by
  unfold unsupported
  extract_lets +onlyGivenNames v1
  have k1 : Keeps z (v1) := by
    dsimp only [v1]
    with_reducible exact countAer_keeps (by assumption)
  clear_value v1
  with_reducible exact Keeps.upd (by assumption) rfl rfl rfl rfl

theorem hostWrite_keeps {z : State} {x1 x2 s} (hf2 : ∀ y1, Keeps z (y1) → Keeps z (x2 y1)) (h3 : Keeps z (s)) : Keeps z (hostWrite x1 x2 s) := by
  unfold hostWrite
  with_reducible refine Keeps.iteK ?_ ?_
  · with_reducible apply hf2
    with_reducible assumption
  · with_reducible refine Keeps.iteK ?_ ?_
    · with_reducible exact unsupported_keeps (by assumption)
    · with_reducible assumption

theorem State_setArch_keeps {z : State} {s x2 x3} (h1 : Keeps z (s)) : Keeps z (State.setArch s x2 x3) := by
  unfold State.setArch
  with_reducible exact State_setCore_keeps (by assumption)

theorem State_setBent_keeps {z : State} {s x2 x3} (h1 : Keeps z (s)) : Keeps z (State.setBent s x2 x3) := by
  unfold State.setBent
  with_reducible exact Keeps.upd (by assumption) rfl rfl rfl rfl

theorem State_setLink_keeps {z : State} {s x2 x3} (h1 : Keeps z (s)) : Keeps z (State.setLink s x2 x3) := by
  unfold State.setLink
  with_reducible exact Keeps.upd (by assumption) rfl rfl rfl rfl

/-! ### ConfigSpace -/

theorem ordered_keeps {z : State} {s} (h1 : Keeps z (s)) : Keeps z (ordered s) := by
  unfold ordered
  with_reducible exact Keeps.upd (by assumption) rfl rfl rfl rfl

theorem relaxed_keeps {z : State} {s} (h1 : Keeps z (s)) : Keeps z (relaxed s) := by
  unfold relaxed
  with_reducible exact Keeps.upd (by assumption) rfl rfl rfl rfl

theorem putCfg_keeps {z : State} {x1 x2 x3 s} (h4 : Keeps z (s)) : Keeps z (putCfg x1 x2 x3 s) := by
  unfold putCfg
  extract_lets +onlyGivenNames v1
  clear_value v1
  with_reducible exact State_setFn_keeps (by assumption)

theorem clearAer_keeps {z : State} {x1 x2 s} (h3 : Keeps z (s)) : Keeps z (clearAer x1 x2 s) := by
  unfold clearAer
  with_reducible exact Keeps.upd (by assumption) rfl rfl rfl rfl

/-! ### Integrity -/

theorem noteCe_keeps {z : State} {x1 x2 x3 s} (h4 : Keeps z (s)) : Keeps z (noteCe x1 x2 x3 s) := by
  unfold noteCe
  with_reducible exact logErr_keeps (countErr_keeps (by assumption))

theorem fetchFor_keeps {z : State} {x1 s} (h2 : Keeps z (s)) : Keeps z (fetchFor x1 s) := by
  unfold fetchFor
  with_reducible exact Keeps.upd (by assumption) rfl rfl rfl rfl

theorem setPoison_keeps {z : State} {x1 x2 s} (h3 : Keeps z (s)) : Keeps z (setPoison x1 x2 s) := by
  unfold setPoison
  with_reducible exact Keeps.upd (by assumption) rfl rfl rfl rfl

theorem dropMerge_keeps {z : State} {x1 s} (h2 : Keeps z (s)) : Keeps z (dropMerge x1 s) := by
  unfold dropMerge
  with_reducible exact Keeps.upd (by assumption) rfl rfl rfl rfl

theorem afterBlockWrite_keeps {z : State} {x1 s} (h2 : Keeps z (s)) : Keeps z (afterBlockWrite x1 s) := by
  unfold afterBlockWrite
  extract_lets +onlyGivenNames v1
  extract_lets +onlyGivenNames v2
  have k2 : Keeps z (v2) := by
    dsimp only [v2]
    with_reducible exact setPoison_keeps (Keeps.upd (by assumption) rfl rfl rfl rfl)
  clear_value v2
  extract_lets +onlyGivenNames v3
  clear_value v3
  with_reducible refine Keeps.iteK ?_ ?_
  · with_reducible exact logErr_keeps (Keeps.upd (by assumption) rfl rfl rfl rfl)
  · with_reducible exact Keeps.upd (by assumption) rfl rfl rfl rfl

theorem storeBlock_keeps {z : State} {x1 x2 s} (h3 : Keeps z (s)) : Keeps z (storeBlock x1 x2 s) := by
  unfold storeBlock
  split
  · extract_lets +onlyGivenNames v1
    clear_value v1
    refine Keeps.updM ?_ ?_ ?_ ?_ ?_ ?_
    · with_reducible assumption
    · with_reducible exact fun h => twf_putWords _ _ (twf_putWords _ _ h)
    · with_reducible exact id
    · with_reducible exact id
    · with_reducible exact id
    · with_reducible exact Nat.le_refl _
  · refine Keeps.updM ?_ ?_ ?_ ?_ ?_ ?_
    · with_reducible assumption
    · with_reducible exact fun h => twf_putWords _ _ h
    · with_reducible exact id
    · with_reducible exact id
    · with_reducible exact id
    · with_reducible exact Nat.le_refl _

theorem fullBlockWrite_keeps {z : State} {x1 x2 s} (h3 : Keeps z (s)) : Keeps z (fullBlockWrite x1 x2 s) := by
  unfold fullBlockWrite
  extract_lets +onlyGivenNames v1
  have k1 : Keeps z (v1) := by
    dsimp only [v1]
    with_reducible exact setPoison_keeps (dropMerge_keeps (by assumption))
  clear_value v1
  with_reducible exact afterBlockWrite_keeps (storeBlock_keeps (by assumption))

theorem decodeBlock_keeps {z : State} {x1 s x3} (h2 : Keeps z (s)) : Pair.all (Keeps z) (decodeBlock x1 s x3) := by
  unfold decodeBlock
  split
  · with_reducible exact Pair.mkI (by assumption)
  · with_reducible exact Pair.mkI (by assumption)
  · with_reducible exact Pair.mkI (by assumption)
  · with_reducible refine Pair.iteK ?_ ?_
    · with_reducible exact Pair.mkI (State_drawn_keeps (by assumption))
    · with_reducible refine Pair.iteK ?_ ?_
      · with_reducible exact Pair.mkI (State_drawn_keeps (by assumption))
      · with_reducible exact Pair.mkI (State_drawn_keeps (by assumption))
  · with_reducible refine Pair.iteK ?_ ?_
    · with_reducible exact Pair.mkI (State_drawn_keeps (by assumption))
    · with_reducible exact Pair.mkI (State_drawn_keeps (by assumption))

theorem keepFetch_keeps {z : State} {x1 x2 s} (h3 : Keeps z (s)) : Keeps z (keepFetch x1 x2 s) := by
  unfold keepFetch
  with_reducible exact Keeps.upd (by assumption) rfl rfl rfl rfl

theorem noteUe_keeps {z : State} {x1 x2 s} (h3 : Keeps z (s)) : Keeps z (noteUe x1 x2 s) := by
  unfold noteUe
  with_reducible exact logErr_keeps (countErr_keeps (setPoison_keeps (by assumption)))

theorem noteFound_keeps {z : State} {x1 x2 x3 s} (h4 : Keeps z (s)) : Keeps z (noteFound x1 x2 x3 s) := by
  unfold noteFound
  split
  · with_reducible assumption
  · with_reducible exact noteCe_keeps (by assumption)
  · with_reducible exact noteUe_keeps (by assumption)
  · with_reducible refine Keeps.iteK ?_ ?_
    · with_reducible assumption
    · with_reducible exact noteCe_keeps (by assumption)

theorem fetchBlock_keeps {z : State} {x1 x2 x3 s} (h4 : Keeps z (s)) : Pair.all (Keeps z) (fetchBlock x1 x2 x3 s) := by
  unfold fetchBlock
  split
  · with_reducible exact Pair.mkI (by assumption)
  · split
    with_reducible refine Pair.mkI ?_
    with_reducible apply keepFetch_keeps
    with_reducible apply noteFound_keeps
    with_reducible refine Pair.sndK (by assumption) ?_
    with_reducible exact decodeBlock_keeps (by assumption)

theorem rmwStore_keeps {z : State} {x1 x2 x3 s} (h4 : Keeps z (s)) : Keeps z (rmwStore x1 x2 x3 s) := by
  unfold rmwStore
  extract_lets +onlyGivenNames v1
  have k1 : Keeps z (v1) := by
    dsimp only [v1]
    split
    · with_reducible exact storeBlock_keeps (by assumption)
    · with_reducible assumption
  clear_value v1
  with_reducible exact afterBlockWrite_keeps (storeBlock_keeps (by assumption))

theorem mergeRetire_keeps {z : State} {x1 s} (h2 : Keeps z (s)) : Keeps z (mergeRetire x1 s) := by
  unfold mergeRetire
  split
  · with_reducible assumption
  · extract_lets +onlyGivenNames v1
    clear_value v1
    with_reducible refine Keeps.iteK ?_ ?_
    · with_reducible exact fullBlockWrite_keeps (by assumption)
    · extract_lets +onlyGivenNames v2
      have k2 : Keeps z (v2) := by
        dsimp only [v2]
        with_reducible exact dropMerge_keeps (by assumption)
      clear_value v2
      extract_lets +onlyGivenNames v3
      have k3 : Pair.all (Keeps z) (v3) := by
        dsimp only [v3]
        with_reducible refine Pair.iteK ?_ ?_
        · with_reducible exact Pair.mkI (by assumption)
        · with_reducible exact fetchBlock_keeps (by assumption)
      clear_value v3
      extract_lets +onlyGivenNames v4
      have k4 : Keeps z (v4) := by
        dsimp only [v4]
        with_reducible refine Keeps.iteK ?_ ?_
        · with_reducible exact logErr_keeps (Pair.sndI (by assumption))
        · with_reducible exact Pair.sndI (by assumption)
      clear_value v4
      with_reducible exact rmwStore_keeps (by assumption)

theorem lockedEnd_keeps {z : State} {x1 x2 s} (h3 : Keeps z (s)) : Keeps z (lockedEnd x1 x2 s) := by
  unfold lockedEnd
  with_reducible refine Keeps.iteK ?_ ?_
  · with_reducible exact mergeRetire_keeps (by assumption)
  · extract_lets +onlyGivenNames v1
    clear_value v1
    with_reducible refine Keeps.iteK ?_ ?_
    · with_reducible assumption
    · extract_lets +onlyGivenNames v2
      have k2 : Pair.all (Keeps z) (v2) := by
        dsimp only [v2]
        with_reducible exact fetchBlock_keeps (by assumption)
      clear_value v2
      with_reducible exact rmwStore_keeps (dropMerge_keeps (Pair.sndI (by assumption)))

theorem zeroBlocks_keeps {z : State} {x1 x2 s} (h3 : Keeps z (s)) : Keeps z (zeroBlocks x1 x2 s) := by
  unfold zeroBlocks
  extract_lets +onlyGivenNames v1
  clear_value v1
  refine Keeps.updM ?_ ?_ ?_ ?_ ?_ ?_
  · with_reducible assumption
  · exact fun h => by dsimp only; exact twf_tdrop _ h
  · with_reducible exact id
  · with_reducible exact id
  · with_reducible exact id
  · with_reducible exact Nat.le_refl _

theorem zeroPage_keeps {z : State} {x1 s} (h2 : Keeps z (s)) : Keeps z (zeroPage x1 s) := by
  unfold zeroPage
  with_reducible exact zeroBlocks_keeps (by assumption)

theorem openFetch_keeps {z : State} {s} (h1 : Keeps z (s)) : Keeps z (openFetch s) := by
  unfold openFetch
  with_reducible exact Keeps.upd (by assumption) rfl rfl rfl rfl

theorem savePage_keeps {z : State} {x1 s} (h2 : Keeps z (s)) : Keeps z (savePage x1 s) := by
  unfold savePage
  extract_lets +onlyGivenNames v1
  have k1 : Keeps z (v1) := by
    dsimp only [v1]
    with_reducible exact zeroPage_keeps (by assumption)
  extract_lets +onlyGivenNames v2
  extract_lets +onlyGivenNames v3
  have k3 : Keeps z (v3) := by
    dsimp only [v3]
    with_reducible exact State_drawn_keeps (Keeps.upd (by assumption) rfl rfl rfl rfl)
  with_reducible refine Keeps.iteK ?_ ?_
  · with_reducible exact afterBlockWrite_keeps (by assumption)
  · with_reducible assumption

theorem storedRead_keeps {z : State} {s x2 x3} (h1 : Keeps z (s)) : Pair.all (Keeps z) (storedRead s x2 x3) := by
  unfold storedRead
  with_reducible refine Pair.iteK ?_ ?_
  · with_reducible exact Pair.mkI (by assumption)
  · extract_lets +onlyGivenNames v1
    have k1 : Pair.all (Keeps z) (v1) := by
      dsimp only [v1]
      with_reducible exact fetchBlock_keeps (by assumption)
    clear_value v1
    with_reducible exact Pair.mkI (Pair.sndI (by assumption))

theorem poisonWrite_keeps {z : State} {x1 s} (h2 : Keeps z (s)) : Keeps z (poisonWrite x1 s) := by
  unfold poisonWrite
  with_reducible exact logErr_keeps (setPoison_keeps (by assumption))

theorem blkWrite_keeps {z : State} {x1 x2 s} (h3 : Keeps z (s)) : Keeps z (blkWrite x1 x2 s) := by
  unfold blkWrite
  split
  · extract_lets +onlyGivenNames v1
    clear_value v1
    with_reducible refine Keeps.iteK ?_ ?_
    · with_reducible exact fullBlockWrite_keeps (by assumption)
    · extract_lets +onlyGivenNames v2
      extract_lets +onlyGivenNames v3
      have k3 : Keeps z (v3) := by
        dsimp only [v3]
        with_reducible exact Keeps.upd (by assumption) rfl rfl rfl rfl
      clear_value v3
      with_reducible refine Keeps.iteK ?_ ?_
      · with_reducible exact mergeRetire_keeps (by assumption)
      · with_reducible assumption
  · extract_lets +onlyGivenNames v4
    clear_value v4
    with_reducible refine Keeps.iteK ?_ ?_
    · with_reducible exact fullBlockWrite_keeps (by assumption)
    · with_reducible refine Keeps.iteK ?_ ?_
      · with_reducible assumption
      · extract_lets +onlyGivenNames v5
        clear_value v5
        extract_lets +onlyGivenNames v6
        clear_value v6
        extract_lets +onlyGivenNames v7
        have k7 : Keeps z (v7) := by
          dsimp only [v7]
          with_reducible refine Keeps.iteK ?_ ?_
          · split
            · with_reducible exact mergeRetire_keeps (by assumption)
            · with_reducible assumption
          · with_reducible assumption
        clear_value v7
        with_reducible exact Keeps.upd (by assumption) rfl rfl rfl rfl

theorem blkRead_keeps {z : State} {s x2 x3} (h1 : Keeps z (s)) : Pair.all (Keeps z) (blkRead s x2 x3) := by
  unfold blkRead
  split
  · with_reducible refine Pair.mkI ?_
    with_reducible refine Pair.sndK (by assumption) ?_
    with_reducible exact storedRead_keeps (by assumption)
  · with_reducible refine Pair.mkI ?_
    with_reducible refine Pair.sndK (by assumption) ?_
    with_reducible exact storedRead_keeps (by assumption)

theorem flushMerge_keeps {z : State} {s} (h1 : Keeps z (s)) : Keeps z (flushMerge s) := by
  unfold flushMerge
  with_reducible refine Keeps.foldl ?_ _ ?_
  · intro _ _
    intro _
    with_reducible exact mergeRetire_keeps (by assumption)
  · with_reducible assumption

theorem closeFetch_keeps {z : State} {s} (h1 : Keeps z (s)) : Keeps z (closeFetch s) := by
  unfold closeFetch
  with_reducible exact Keeps.upd (by assumption) rfl rfl rfl rfl

theorem checkPage_keeps {z : State} {x1 s} (h2 : Keeps z (s)) : Pair.all (Keeps z) (checkPage x1 s) := by
  unfold checkPage
  extract_lets +onlyGivenNames v1
  clear_value v1
  extract_lets +onlyGivenNames v2
  clear_value v2
  extract_lets +onlyGivenNames v3
  have k3 : Keeps z (v3) := by
    dsimp only [v3]
    with_reducible refine Keeps.foldl ?_ _ ?_
    · intro _ _
      intro _
      with_reducible exact Pair.sndI (storedRead_keeps (by assumption))
    · with_reducible assumption
  clear_value v3
  with_reducible exact Pair.mkI (by assumption)

theorem zeroTracts_keeps {z : State} {x1 x2 s} (h3 : Keeps z (s)) : Keeps z (zeroTracts x1 x2 s) := by
  unfold zeroTracts
  with_reducible exact zeroBlocks_keeps (by assumption)

/-! ### Translate -/

theorem answered_keeps {z : State} {x1 s} (h2 : Keeps z (s)) : Keeps z (answered x1 s) := by
  unfold answered
  with_reducible refine Keeps.iteK ?_ ?_
  · with_reducible assumption
  · with_reducible exact State_drawn_keeps (by assumption)

theorem readEntry_keeps {z : State} {x1 s} (h2 : Keeps z (s)) : Pair.all (Keeps z) (readEntry x1 s) := by
  unfold readEntry
  with_reducible refine Pair.iteK ?_ ?_
  · split
    · with_reducible refine Pair.mkI ?_
      with_reducible refine Pair.sndK (by assumption) ?_
      with_reducible exact blkRead_keeps (by assumption)
    · with_reducible refine Pair.mkI ?_
      with_reducible refine Pair.sndK (by assumption) ?_
      with_reducible exact blkRead_keeps (by assumption)
  · with_reducible refine Pair.iteK ?_ ?_
    · with_reducible exact Pair.mkI (State_drawn_keeps (by assumption))
    · with_reducible exact Pair.mkI (State_drawn_keeps (by assumption))

theorem walkTable_keeps {z : State} {x1 x2 x3 x4 s} (h5 : Keeps z (s)) : Pair.all (Keeps z) (walkTable x1 x2 x3 x4 s) := by
  unfold walkTable
  with_reducible refine Pair.iteK ?_ ?_
  · with_reducible exact Pair.mkI (answered_keeps (by assumption))
  · with_reducible refine Pair.iteK ?_ ?_
    · with_reducible exact Pair.mkI (by assumption)
    · extract_lets +onlyGivenNames v1
      clear_value v1
      split
      · with_reducible refine Pair.mkI ?_
        with_reducible refine Pair.sndK (by assumption) ?_
        with_reducible exact readEntry_keeps (answered_keeps (by assumption))
      · with_reducible refine Pair.iteK ?_ ?_
        · with_reducible refine Pair.mkI ?_
          with_reducible refine Pair.sndK (by assumption) ?_
          with_reducible exact readEntry_keeps (answered_keeps (by assumption))
        · with_reducible refine Pair.iteK ?_ ?_
          · with_reducible refine Pair.mkI ?_
            with_reducible refine Pair.sndK (by assumption) ?_
            with_reducible exact readEntry_keeps (answered_keeps (by assumption))
          · with_reducible refine Pair.mkI ?_
            with_reducible refine Pair.sndK (by assumption) ?_
            with_reducible exact readEntry_keeps (answered_keeps (by assumption))

theorem walk_keeps {z : State} {x1 x2 s} (h3 : Keeps z (s)) : Pair.all (Keeps z) (walk x1 x2 s) := by
  unfold walk
  extract_lets +onlyGivenNames v1
  clear_value v1
  with_reducible refine Pair.iteK ?_ ?_
  · with_reducible exact Pair.mkI (answered_keeps (by assumption))
  · with_reducible refine Pair.iteK ?_ ?_
    · with_reducible exact Pair.mkI (by assumption)
    · split
      · with_reducible refine Pair.mkI ?_
        with_reducible refine Pair.sndK (by assumption) ?_
        with_reducible exact readEntry_keeps (answered_keeps (by assumption))
      · with_reducible refine Pair.iteK ?_ ?_
        · with_reducible refine Pair.mkI ?_
          with_reducible refine Pair.sndK (by assumption) ?_
          with_reducible exact readEntry_keeps (answered_keeps (by assumption))
        · with_reducible refine Pair.iteK ?_ ?_
          · with_reducible refine Pair.iteK ?_ ?_
            · with_reducible refine Pair.mkI ?_
              with_reducible refine Pair.sndK (by assumption) ?_
              with_reducible exact readEntry_keeps (answered_keeps (by assumption))
            · with_reducible refine Pair.iteK ?_ ?_
              · with_reducible refine Pair.mkI ?_
                with_reducible refine Pair.sndK (by assumption) ?_
                with_reducible exact readEntry_keeps (answered_keeps (by assumption))
              · with_reducible refine Pair.mkI ?_
                with_reducible refine Pair.sndK (by assumption) ?_
                with_reducible exact readEntry_keeps (answered_keeps (by assumption))
          · with_reducible refine Pair.iteK ?_ ?_
            · with_reducible refine Pair.mkI ?_
              with_reducible refine Pair.sndK (by assumption) ?_
              with_reducible exact readEntry_keeps (answered_keeps (by assumption))
            · with_reducible apply walkTable_keeps
              with_reducible refine Pair.sndK (by assumption) ?_
              with_reducible exact readEntry_keeps (answered_keeps (by assumption))

theorem writeEntry_keeps {z : State} {x1 x2 s} (h3 : Keeps z (s)) : Keeps z (writeEntry x1 x2 s) := by
  unfold writeEntry
  with_reducible refine Keeps.iteK ?_ ?_
  · with_reducible exact lockedEnd_keeps (by assumption)
  · with_reducible assumption

theorem claimEntry_keeps {z : State} {x1 x2 x3 s} (h4 : Keeps z (s)) : Keeps z (claimEntry x1 x2 x3 s) := by
  unfold claimEntry
  extract_lets +onlyGivenNames v1
  clear_value v1
  extract_lets +onlyGivenNames v2
  have k2 : Keeps z (v2) := by
    dsimp only [v2]
    with_reducible exact writeEntry_keeps (by assumption)
  clear_value v2
  with_reducible exact Keeps.upd (by assumption) rfl rfl rfl rfl

theorem setTlb_keeps {z : State} {x1 x2 s} (h3 : Keeps z (s)) : Keeps z (setTlb x1 x2 s) := by
  unfold setTlb
  split
  · with_reducible exact State_setBent_keeps (by assumption)
  · with_reducible exact Keeps.upd (by assumption) rfl rfl rfl rfl
  · with_reducible exact Keeps.upd (by assumption) rfl rfl rfl rfl
  · with_reducible assumption
  · with_reducible assumption

theorem tlbFill_keeps {z : State} {x1 x2 x3 x4 x5 s} (h6 : Keeps z (s)) : Keeps z (tlbFill x1 x2 x3 x4 x5 s) := by
  unfold tlbFill
  extract_lets +onlyGivenNames v1
  clear_value v1
  with_reducible refine Keeps.iteK ?_ ?_
  · with_reducible exact setTlb_keeps (by assumption)
  · with_reducible exact setTlb_keeps (State_drawn_keeps (by assumption))

theorem useWalk_keeps {z : State} {x1 x2 x3 x4 x5 s} (h6 : Keeps z (s)) : Res.all (Keeps z) (useWalk x1 x2 x3 x4 x5 s) := by
  unfold useWalk
  split
  · with_reducible exact Res.trapI (by assumption)
  · with_reducible exact Res.trapI (by assumption)
  · with_reducible exact Res.stallI (by assumption)
  · split
    · with_reducible exact Res.trapI (answered_keeps (by assumption))
    · extract_lets +onlyGivenNames v1
      have k1 : Keeps z (v1) := by
        dsimp only [v1]
        with_reducible exact answered_keeps (by assumption)
      clear_value v1
      with_reducible refine Res.iteK ?_ ?_
      · with_reducible refine Res.iteK ?_ ?_
        · with_reducible exact Res.stallI (by assumption)
        · with_reducible exact Res.stallI (claimEntry_keeps (by assumption))
      · with_reducible exact Res.okI (tlbFill_keeps (by assumption))

theorem xlatePaged_keeps {z : State} {x1 x2 x3 x4 s} (h5 : Keeps z (s)) : Res.all (Keeps z) (xlatePaged x1 x2 x3 x4 s) := by
  unfold xlatePaged
  extract_lets +onlyGivenNames v1
  have k1 : Pair.all (Keeps z) (v1) := by
    dsimp only [v1]
    with_reducible exact walk_keeps (by assumption)
  clear_value v1
  split
  · with_reducible exact useWalk_keeps (Pair.sndI (by assumption))
  · extract_lets +onlyGivenNames v2
    have k2 : ∀ y1, Res.all (Keeps z) (y1) → Res.all (Keeps z) (v2 y1) := by
      intro _ _
      dsimp only [v2]
      split
      · with_reducible exact Res.trapI (answered_keeps (by assumption))
      · split
        · with_reducible refine Res.iteK ?_ ?_
          · with_reducible exact Res.okI (by assumption)
          · with_reducible refine Res.iteK ?_ ?_
            · with_reducible exact Res.okI (State_drawn_keeps (by assumption))
            · with_reducible exact Res.okI (State_drawn_keeps (Res.okE (by assumption)))
        · with_reducible refine Res.iteK ?_ ?_
          · with_reducible exact Res.okI (State_drawn_keeps (by assumption))
          · with_reducible assumption
    clear_value v2
    extract_lets +onlyGivenNames v3
    have k3 : Res.all (Keeps z) (v3) := by
      dsimp only [v3]
      with_reducible exact useWalk_keeps (Pair.sndI (by assumption))
    clear_value v3
    split
    · with_reducible refine Res.iteK ?_ ?_
      · with_reducible apply k2
        with_reducible assumption
      · with_reducible refine Res.iteK ?_ ?_
        · with_reducible apply k2
          with_reducible assumption
        · with_reducible assumption
    · with_reducible refine Res.iteK ?_ ?_
      · with_reducible apply k2
        with_reducible assumption
      · with_reducible assumption

theorem sramRead_keeps {z : State} {x1 x2 s} (hf2 : ∀ y1, Keeps z (y1) → Keeps z (x2 y1)) (h3 : Keeps z (s)) : Pair.all (Keeps z) (sramRead x1 x2 s) := by
  unfold sramRead
  split
  · with_reducible exact Pair.mkI (by assumption)
  · with_reducible refine Pair.mkI ?_
    with_reducible apply logErr_keeps
    with_reducible apply countErr_keeps
    with_reducible apply hf2
    with_reducible assumption
  · with_reducible exact Pair.mkI (logErr_keeps (countErr_keeps (by assumption)))

theorem Res_raise_keeps {z : State} {α : Type} {p1 : Res (Held α)} (h1 : Res.all (Keeps z) (p1)) : Res.all (Keeps z) (@Res.raise α p1) := by
  unfold Res.raise
  with_reducible refine Res.bindK ?_ ?_
  · with_reducible assumption
  · intro _ _
    intro _
    split
    · with_reducible exact Res.trapI (by assumption)
    · with_reducible exact Res.okI (by assumption)

theorem healYard_keeps {z : State} {x1 s} (h2 : Keeps z (s)) : Keeps z (healYard x1 s) := by
  unfold healYard
  with_reducible exact Keeps.upd (by assumption) rfl rfl rfl rfl

theorem healBench_keeps {z : State} {x1 x2 s} (h3 : Keeps z (s)) : Keeps z (healBench x1 x2 s) := by
  unfold healBench
  with_reducible exact State_setBent_keeps (by assumption)

theorem readSmallQ_keeps {z : State} {x1 x2 x3 x4 s} (h5 : Keeps z (s)) : Res.all (Keeps z) (readSmallQ x1 x2 x3 x4 s) := by
  unfold readSmallQ
  split
  · with_reducible exact Res.okI (by assumption)
  · split
    · with_reducible refine Res.okI ?_
      with_reducible refine Pair.sndK (by assumption) ?_
      with_reducible apply sramRead_keeps
      · intro _ _
        with_reducible exact healYard_keeps (by assumption)
      · with_reducible assumption
    · with_reducible refine Res.trapI ?_
      with_reducible refine Pair.sndK (by assumption) ?_
      with_reducible apply sramRead_keeps
      · intro _ _
        with_reducible exact healYard_keeps (by assumption)
      · with_reducible assumption
  · split
    · with_reducible refine Res.okI ?_
      with_reducible refine Pair.sndK (by assumption) ?_
      with_reducible apply sramRead_keeps
      · intro _ _
        with_reducible exact healBench_keeps (by assumption)
      · with_reducible assumption
    · with_reducible refine Res.trapI ?_
      with_reducible refine Pair.sndK (by assumption) ?_
      with_reducible apply sramRead_keeps
      · intro _ _
        with_reducible exact healBench_keeps (by assumption)
      · with_reducible assumption
  · with_reducible refine Res.iteK ?_ ?_
    · with_reducible exact Res.trapI (Keeps.upd (by assumption) rfl rfl rfl rfl)
    · extract_lets +onlyGivenNames v1
      clear_value v1
      with_reducible exact Res.okI (by assumption)

theorem readSmall_keeps {z : State} {x1 x2 x3 x4 s} (h5 : Keeps z (s)) : Res.all (Keeps z) (readSmall x1 x2 x3 x4 s) := by
  unfold readSmall
  with_reducible exact Res_raise_keeps (readSmallQ_keeps (by assumption))

theorem zeroLeaf_keeps {z : State} {x1 x2 s} (h3 : Keeps z (s)) : Keeps z (zeroLeaf x1 x2 s) := by
  unfold zeroLeaf
  with_reducible refine Keeps.iteK ?_ ?_
  · with_reducible assumption
  · with_reducible refine Keeps.iteK ?_ ?_
    · with_reducible refine Keeps.foldl ?_ _ ?_
      · intro _ _
        intro _
        with_reducible exact zeroPage_keeps (by assumption)
      · with_reducible assumption
    · with_reducible exact zeroPage_keeps (by assumption)

theorem putHost_keeps {z : State} {x1 x2 x3 s} (h4 : Keeps z (s)) : Keeps z (putHost x1 x2 x3 s) := by
  induction x3 generalizing x1 x2 s
  · unfold putHost
    with_reducible assumption
  · rename_i n ih
    unfold putHost
    with_reducible apply ih
    refine Keeps.updM ?_ ?_ ?_ ?_ ?_ ?_
    · with_reducible assumption
    · with_reducible exact id
    · with_reducible exact id
    · with_reducible exact fun h => twf_tset _ _ h
    · with_reducible exact id
    · with_reducible exact Nat.le_refl _

theorem writeSmall_keeps {z : State} {x1 x2 x3 s} (h4 : Keeps z (s)) : Keeps z (writeSmall x1 x2 x3 s) := by
  unfold writeSmall
  split
  · with_reducible assumption
  · refine Keeps.updM ?_ ?_ ?_ ?_ ?_ ?_
    · with_reducible assumption
    · with_reducible exact id
    · with_reducible exact fun h => twf_tset _ _ h
    · with_reducible exact id
    · with_reducible exact id
    · with_reducible exact Nat.le_refl _
  · extract_lets +onlyGivenNames v1
    with_reducible exact State_setBent_keeps (by assumption)
  · with_reducible exact ordered_keeps (putHost_keeps (by assumption))

theorem writePlaces_keeps {z : State} {x1 x2 s} (h3 : Keeps z (s)) : Keeps z (writePlaces x1 x2 s) := by
  unfold writePlaces
  extract_lets +onlyGivenNames v1
  have k1 : Keeps z (v1) := by
    dsimp only [v1]
    with_reducible refine Keeps.foldl ?_ _ ?_
    · intro _ _
      intro _
      with_reducible refine Keeps.iteK ?_ ?_
      · with_reducible exact blkWrite_keeps (by assumption)
      · with_reducible assumption
    · with_reducible assumption
  clear_value v1
  with_reducible refine Keeps.foldl ?_ _ ?_
  · intro _ _
    intro _
    with_reducible exact writeSmall_keeps (by assumption)
  · with_reducible assumption

theorem readFromQ_keeps {z : State} {x1 x2 x3 x4 x5 s} (h6 : Keeps z (s)) : Res.all (Keeps z) (readFromQ x1 x2 x3 x4 x5 s) := by
  induction x3 generalizing x1 x2 x4 x5 s
  · unfold readFromQ
    split
    · with_reducible exact Res.okI (by assumption)
    · injections
    · injections
  · rename_i n ih
    unfold readFromQ
    split
    · with_reducible exact Res.okI (by assumption)
    · injections
    · injections
      subst_vars
      split
      · with_reducible refine Res.iteK ?_ ?_
        · extract_lets +onlyGivenNames v1
          clear_value v1
          split
          · with_reducible refine Res.trapI ?_
            with_reducible refine Pair.sndK (by assumption) ?_
            with_reducible exact blkRead_keeps (by assumption)
          · with_reducible refine Res.bindK ?_ ?_
            · with_reducible apply ih
              with_reducible refine Pair.sndK (by assumption) ?_
              with_reducible exact blkRead_keeps (by assumption)
            · intro _ _
              intro _
              with_reducible exact Res.okI (by assumption)
        · with_reducible refine Res.iteK ?_ ?_
          · with_reducible exact Res.stallI (by assumption)
          · with_reducible refine Res.iteK ?_ ?_
            · with_reducible exact Res.trapI (State_drawn_keeps (by assumption))
            · extract_lets +onlyGivenNames v2
              clear_value v2
              with_reducible refine Res.bindK ?_ ?_
              · with_reducible apply ih
                with_reducible exact State_drawn_keeps (by assumption)
              · intro _ _
                intro _
                with_reducible exact Res.okI (by assumption)
      · with_reducible refine Res.bindK ?_ ?_
        · with_reducible exact readSmallQ_keeps (by assumption)
        · intro _ _
          intro _
          with_reducible refine Res.bindK ?_ ?_
          · with_reducible apply ih
            with_reducible assumption
          · intro _ _
            intro _
            with_reducible exact Res.okI (by assumption)

theorem readPlacesQ_keeps {z : State} {x1 x2 x3 x4 s} (h5 : Keeps z (s)) : Res.all (Keeps z) (readPlacesQ x1 x2 x3 x4 s) := by
  unfold readPlacesQ
  with_reducible exact readFromQ_keeps (by assumption)

theorem readPlaces_keeps {z : State} {x1 x2 x3 x4 s} (h5 : Keeps z (s)) : Res.all (Keeps z) (readPlaces x1 x2 x3 x4 s) := by
  unfold readPlaces
  with_reducible exact Res_raise_keeps (readPlacesQ_keeps (by assumption))

theorem askPage_keeps {z : State} {x1 x2 x3 x4 s} (h5 : Keeps z (s)) : Keeps z (askPage x1 x2 x3 x4 s) := by
  unfold askPage
  extract_lets +onlyGivenNames v1
  clear_value v1
  with_reducible refine Keeps.iteK ?_ ?_
  · with_reducible exact Keeps.upd (by assumption) rfl rfl rfl rfl
  · with_reducible refine Keeps.iteK ?_ ?_
    · with_reducible assumption
    · with_reducible exact Keeps.upd (by assumption) rfl rfl rfl rfl

theorem hostXl_keeps {z : State} {x1 x2 x3 x4 x5 x6 x7 s} (h8 : Keeps z (s)) : HostXl.all (Keeps z) (hostXl x1 x2 x3 x4 x5 x6 x7 s) := by
  unfold hostXl
  extract_lets +onlyGivenNames v1
  clear_value v1
  extract_lets +onlyGivenNames v2
  clear_value v2
  with_reducible refine HostXl.iteK ?_ ?_
  · with_reducible exact HostXl.waitI (by assumption)
  · split
    · with_reducible refine HostXl.iteK ?_ ?_
      · exact trivial
      · with_reducible exact HostXl.failI (by assumption)
    · split
      · with_reducible exact HostXl.failI (Keeps.upd (by assumption) rfl rfl rfl rfl)
      · with_reducible refine HostXl.iteK ?_ ?_
        · with_reducible refine HostXl.iteK ?_ ?_
          · with_reducible exact HostXl.waitI (Keeps.upd (by assumption) rfl rfl rfl rfl)
          · with_reducible exact HostXl.failI (by assumption)
        · with_reducible exact HostXl.waitI (askPage_keeps (by assumption))

theorem xlateWord_keeps {z : State} {x1 x2 x3 x4 x5 s} (h6 : Keeps z (s)) : Res.all (Keeps z) (xlateWord x1 x2 x3 x4 x5 s) := by
  unfold xlateWord
  with_reducible refine Res.iteK ?_ ?_
  · with_reducible exact xlatePaged_keeps (by assumption)
  · with_reducible refine Res.iteK ?_ ?_
    · with_reducible refine Res.iteK ?_ ?_
      · with_reducible exact Res.trapI (by assumption)
      · split
        · with_reducible exact Res.okI (by assumption)
        · with_reducible refine Res.trapI ?_
          with_reducible refine HostXl.failK (by assumption) ?_
          with_reducible exact hostXl_keeps (by assumption)
        · with_reducible refine Res.stallI ?_
          with_reducible refine HostXl.waitK (by assumption) ?_
          with_reducible exact hostXl_keeps (by assumption)
    · with_reducible refine Res.iteK ?_ ?_
      · extract_lets +onlyGivenNames v1
        clear_value v1
        with_reducible refine Res.iteK ?_ ?_
        · with_reducible exact Res.okI (by assumption)
        · with_reducible exact Res.trapI (by assumption)
      · with_reducible refine Res.iteK ?_ ?_
        · split
          · extract_lets +onlyGivenNames v2
            clear_value v2
            with_reducible refine Res.iteK ?_ ?_
            · with_reducible refine Res.iteK ?_ ?_
              · with_reducible exact Res.okI (by assumption)
              · with_reducible exact Res.trapI (by assumption)
            · with_reducible exact Res.okI (by assumption)
          · with_reducible exact Res.trapI (by assumption)
        · with_reducible exact Res.trapI (by assumption)

theorem xlateFrom_keeps {z : State} {x1 x2 x3 x4 x5 x6 s} (h7 : Keeps z (s)) : Res.all (Keeps z) (xlateFrom x1 x2 x3 x4 x5 x6 s) := by
  induction x4 generalizing x1 x2 x3 x5 x6 s
  · unfold xlateFrom
    with_reducible exact Res.okI (by assumption)
  · rename_i n ih
    unfold xlateFrom
    extract_lets +onlyGivenNames v1
    clear_value v1
    extract_lets +onlyGivenNames v2
    have k2 : Res.all (Keeps z) (v2) := by
      dsimp only [v2]
      split
      · with_reducible refine Res.iteK ?_ ?_
        · with_reducible exact Res.okI (by assumption)
        · with_reducible exact xlateWord_keeps (by assumption)
      · with_reducible exact xlateWord_keeps (by assumption)
    clear_value v2
    with_reducible refine Res.bindK ?_ ?_
    · with_reducible assumption
    · intro _ _
      intro _
      with_reducible refine Res.bindK ?_ ?_
      · with_reducible apply ih
        with_reducible assumption
      · intro _ _
        intro _
        with_reducible exact Res.okI (by assumption)

theorem xlate_keeps {z : State} {x1 x2 x3 x4 x5 s} (h6 : Keeps z (s)) : Res.all (Keeps z) (xlate x1 x2 x3 x4 x5 s) := by
  unfold xlate
  with_reducible exact xlateFrom_keeps (by assumption)

theorem clearClaim_keeps {z : State} {x1 x2 s} (h3 : Keeps z (s)) : Keeps z (clearClaim x1 x2 s) := by
  unfold clearClaim
  with_reducible apply closeFetch_keeps
  split
  · with_reducible refine Keeps.iteK ?_ ?_
    · with_reducible apply writeEntry_keeps
      with_reducible refine Pair.sndK (by assumption) ?_
      with_reducible exact readEntry_keeps (openFetch_keeps (by assumption))
    · with_reducible refine Pair.sndK (by assumption) ?_
      with_reducible exact readEntry_keeps (openFetch_keeps (by assumption))
  · with_reducible refine Pair.sndK (by assumption) ?_
    with_reducible exact readEntry_keeps (openFetch_keeps (by assumption))

theorem dropClaim_keeps {z : State} {x1 s} (h2 : Keeps z (s)) : Keeps z (dropClaim x1 s) := by
  unfold dropClaim
  with_reducible exact Keeps.upd (by assumption) rfl rfl rfl rfl

theorem finishClaim_keeps {z : State} {x1 x2 s} (h3 : Keeps z (s)) : Keeps z (finishClaim x1 x2 s) := by
  unfold finishClaim
  split
  · with_reducible assumption
  · with_reducible exact clearClaim_keeps (dropClaim_keeps (zeroLeaf_keeps (by assumption)))

theorem readMemQ_keeps {z : State} {x1 x2 x3 x4 s} (h5 : Keeps z (s)) : Res.all (Keeps z) (readMemQ x1 x2 x3 x4 s) := by
  unfold readMemQ
  with_reducible refine Res.bindK ?_ ?_
  · with_reducible exact xlate_keeps (by assumption)
  · intro _ _
    intro _
    with_reducible exact readPlacesQ_keeps (by assumption)

theorem readMem_keeps {z : State} {x1 x2 x3 x4 s} (h5 : Keeps z (s)) : Res.all (Keeps z) (readMem x1 x2 x3 x4 s) := by
  unfold readMem
  with_reducible exact Res_raise_keeps (readMemQ_keeps (by assumption))

end Sys2Proof.Machine
end

