-- ==== Sys2Proof/Laws/KeepsCore.lean ====
section
/-! SUPPORT. Keeps of jobs, the shared operations of a core and its scalar instructions: one lemma a function. -/

namespace Sys2Proof.Machine

/-! ### Jobs -/

theorem holdEntry_keeps {z : State} {x1 x2 s} (h3 : Keeps z (s)) : Keeps z (holdEntry x1 x2 s) := by
  unfold holdEntry
  split
  · with_reducible assumption
  · with_reducible refine Keeps.iteK ?_ ?_
    · with_reducible assumption
    · with_reducible exact State_setCq_keeps (by assumption)

theorem releaseEntry_keeps {z : State} {x1 x2 x3 s} (h4 : Keeps z (s)) : Keeps z (releaseEntry x1 x2 x3 s) := by
  unfold releaseEntry
  with_reducible exact holdEntry_keeps (State_setJob_keeps (by assumption))

theorem resetSignals_keeps {z : State} {x1 s} (h2 : Keeps z (s)) : Keeps z (resetSignals x1 s) := by
  unfold resetSignals
  with_reducible exact Keeps.upd (by assumption) rfl rfl rfl rfl

theorem saveShare_keeps {z : State} {x1 x2 x3 s} (h4 : Keeps z (s)) : Keeps z (saveShare x1 x2 x3 s) := by
  unfold saveShare
  split
  · with_reducible assumption
  · extract_lets +onlyGivenNames v1
    clear_value v1
    extract_lets +onlyGivenNames v2
    have k2 : Keeps z (v2) := by
      dsimp only [v2]
      with_reducible exact State_setJob_keeps (by assumption)
    clear_value v2
    extract_lets +onlyGivenNames v3
    have k3 : Keeps z (v3) := by
      dsimp only [v3]
      with_reducible refine Keeps.foldl ?_ _ ?_
      · intro _ _
        intro _
        with_reducible refine Keeps.iteK ?_ ?_
        · with_reducible exact savePage_keeps (by assumption)
        · with_reducible assumption
      · with_reducible assumption
    clear_value v3
    extract_lets +onlyGivenNames v4
    have k4 : Keeps z (v4) := by
      dsimp only [v4]
      with_reducible exact State_setCore_keeps (State_setCore_keeps (by assumption))
    clear_value v4
    with_reducible exact resetSignals_keeps (State_setBent_keeps (by assumption))

theorem trySave_keeps {z : State} {x1 s} (h2 : Keeps z (s)) : Keeps z (trySave x1 s) := by
  unfold trySave
  split
  · with_reducible assumption
  · split
    · with_reducible assumption
    · with_reducible refine Keeps.iteK ?_ ?_
      · with_reducible exact saveShare_keeps (by assumption)
      · with_reducible assumption

theorem savePoison_keeps {z : State} {x1 s} (h2 : Keeps z (s)) : Pair.all (Keeps z) (savePoison x1 s) := by
  induction x1 generalizing s
  · unfold savePoison
    with_reducible exact Pair.mkI (by assumption)
  · rename_i e l ih
    unfold savePoison
    with_reducible refine Pair.iteK ?_ ?_
    · split
      · with_reducible refine Pair.mkI ?_
        with_reducible refine Pair.sndK (by assumption) ?_
        with_reducible exact checkPage_keeps (by assumption)
      · with_reducible apply ih
        with_reducible refine Pair.sndK (by assumption) ?_
        with_reducible exact checkPage_keeps (by assumption)
    · with_reducible apply ih
      with_reducible assumption

theorem clearBent_keeps {z : State} {x1 s} (h2 : Keeps z (s)) : Keeps z (clearBent x1 s) := by
  unfold clearBent
  extract_lets +onlyGivenNames v1
  extract_lets +onlyGivenNames v2
  have k2 : Keeps z (v2) := by
    dsimp only [v2]
    with_reducible exact State_setCore_keeps (State_setCore_keeps (by assumption))
  clear_value v2
  with_reducible exact resetSignals_keeps (State_setBent_keeps (by assumption))

theorem drainStores_keeps {z : State} {x1 s} (h2 : Keeps z (s)) : Keeps z (drainStores x1 s) := by
  unfold drainStores
  with_reducible refine Keeps.foldl ?_ _ ?_
  · intro _ _
    intro _
    with_reducible exact writePlaces_keeps (by assumption)
  · with_reducible exact State_setCore_keeps (by assumption)

theorem endShare_keeps {z : State} {x1 x2 s} (h3 : Keeps z (s)) : Keeps z (endShare x1 x2 s) := by
  unfold endShare
  split
  · with_reducible assumption
  · split
    · with_reducible assumption
    · extract_lets +onlyGivenNames v1
      clear_value v1
      extract_lets +onlyGivenNames v2
      have k2 : Keeps z (v2) := by
        dsimp only [v2]
        with_reducible exact State_setJob_keeps (by assumption)
      clear_value v2
      split
      · with_reducible exact clearBent_keeps (drainStores_keeps (drainStores_keeps (by assumption)))
      · with_reducible assumption

theorem endShares_keeps {z : State} {x1 s} (h2 : Keeps z (s)) : Keeps z (endShares x1 s) := by
  unfold endShares
  split
  · with_reducible assumption
  · with_reducible refine Keeps.foldl ?_ _ ?_
    · intro _ _
      intro _
      with_reducible exact endShare_keeps (by assumption)
    · with_reducible assumption

theorem tryFinish_keeps {z : State} {x1 s} (h2 : Keeps z (s)) : Keeps z (tryFinish x1 s) := by
  unfold tryFinish
  split
  · with_reducible assumption
  · split
    · with_reducible assumption
    · extract_lets +onlyGivenNames v1
      clear_value v1
      with_reducible refine Keeps.iteK ?_ ?_
      · with_reducible exact releaseEntry_keeps (by assumption)
      · split
        split
        · with_reducible refine HostXl.waitK (by assumption) ?_
          with_reducible exact hostXl_keeps (by assumption)
        · with_reducible apply releaseEntry_keeps
          with_reducible refine HostXl.failK (by assumption) ?_
          with_reducible exact hostXl_keeps (by assumption)
        · split
          · with_reducible refine HostXl.waitK (by assumption) ?_
            with_reducible exact hostXl_keeps (by assumption)
          · with_reducible apply releaseEntry_keeps
            with_reducible refine HostXl.failK (by assumption) ?_
            with_reducible exact hostXl_keeps (by assumption)
          · extract_lets +onlyGivenNames v2
            clear_value v2
            with_reducible apply releaseEntry_keeps
            with_reducible apply ordered_keeps
            with_reducible refine Keeps.foldl ?_ _ ?_
            · intro _ _
              intro _
              with_reducible exact putHost_keeps (by assumption)
            · with_reducible assumption

theorem recordEnd_keeps {z : State} {x1 x2 x3 s} (h4 : Keeps z (s)) : Keeps z (recordEnd x1 x2 x3 s) := by
  unfold recordEnd
  split
  · with_reducible assumption
  · extract_lets +onlyGivenNames v1
    clear_value v1
    with_reducible exact tryFinish_keeps (State_setJob_keeps (by assumption))

theorem sealsFormed_keeps {z : State} {x1 s} (h2 : Keeps z (s)) : Keeps z (sealsFormed x1 s) := by
  unfold sealsFormed
  with_reducible refine Keeps.iteK ?_ ?_
  · with_reducible assumption
  · with_reducible exact State_drawn_keeps (by assumption)

theorem finishJob_keeps {z : State} {x1 x2 s} (h3 : Keeps z (s)) : Keeps z (finishJob x1 x2 s) := by
  unfold finishJob
  extract_lets +onlyGivenNames v1
  have k1 : Keeps z (v1) := by
    dsimp only [v1]
    with_reducible exact endShares_keeps (by assumption)
  clear_value v1
  split
  · with_reducible assumption
  · with_reducible exact recordEnd_keeps (sealsFormed_keeps (by assumption))

theorem restoreShare_keeps {z : State} {x1 x2 x3 s} (h4 : Keeps z (s)) : Keeps z (restoreShare x1 x2 x3 s) := by
  unfold restoreShare
  split
  · with_reducible assumption
  · split
    · split
      · with_reducible apply finishJob_keeps
        with_reducible refine Pair.sndK (by assumption) ?_
        with_reducible exact savePoison_keeps (by assumption)
      · extract_lets +onlyGivenNames v1
        extract_lets +onlyGivenNames v2
        have k2 : Keeps z (v2) := by
          dsimp only [v2]
          with_reducible apply State_setBent_keeps
          with_reducible refine Pair.sndK (by assumption) ?_
          with_reducible exact savePoison_keeps (by assumption)
        clear_value v2
        extract_lets +onlyGivenNames v3
        have k3 : Keeps z (v3) := by
          dsimp only [v3]
          with_reducible exact State_setCore_keeps (State_setCore_keeps (by assumption))
        clear_value v3
        extract_lets +onlyGivenNames v4
        have k4 : Keeps z (v4) := by
          dsimp only [v4]
          with_reducible refine Keeps.foldl ?_ _ ?_
          · intro _ _
            intro _
            with_reducible exact State_setRegion_keeps (by assumption)
          · with_reducible assumption
        clear_value v4
        extract_lets +onlyGivenNames v5
        have k5 : Keeps z (v5) := by
          dsimp only [v5]
          with_reducible refine Keeps.foldl ?_ _ ?_
          · intro _ _
            intro _
            with_reducible exact State_setSrc_keeps (by assumption)
          · with_reducible assumption
        clear_value v5
        with_reducible exact State_setJob_keeps (by assumption)
    · with_reducible assumption

/-! ### Ops -/

theorem dcacheFill_keeps {z : State} {x1 x2 x3 s} (h4 : Keeps z (s)) : Keeps z (dcacheFill x1 x2 x3 s) := by
  unfold dcacheFill
  extract_lets +onlyGivenNames v1
  with_reducible exact State_setBent_keeps (by assumption)

theorem wrS_keeps {z : State} {x1 x2 x3 s} (h4 : Keeps z (s)) : Keeps z (wrS x1 x2 x3 s) := by
  unfold wrS
  extract_lets +onlyGivenNames v1
  clear_value v1
  with_reducible exact State_setArch_keeps (by assumption)

theorem invalidate_keeps {z : State} {x1 x2 x3 s} (h4 : Keeps z (s)) : Keeps z (invalidate x1 x2 x3 s) := by
  unfold invalidate
  extract_lets +onlyGivenNames v1
  with_reducible exact State_setBent_keeps (by assumption)

theorem applyCtl_keeps {z : State} {x1 x2 x3 s} (h4 : Keeps z (s)) : Keeps z (applyCtl x1 x2 x3 s) := by
  unfold applyCtl
  extract_lets +onlyGivenNames v1
  clear_value v1
  extract_lets +onlyGivenNames v2
  clear_value v2
  extract_lets +onlyGivenNames v3
  clear_value v3
  extract_lets +onlyGivenNames v4
  clear_value v4
  with_reducible refine Keeps.iteK ?_ ?_
  · extract_lets +onlyGivenNames v5
    have k5 : Keeps z (v5) := by
      dsimp only [v5]
      with_reducible exact State_setArch_keeps (by assumption)
    clear_value v5
    with_reducible refine Keeps.iteK ?_ ?_
    · with_reducible exact invalidate_keeps (by assumption)
    · with_reducible assumption
  · with_reducible refine Keeps.iteK ?_ ?_
    · with_reducible exact State_setArch_keeps (by assumption)
    · with_reducible refine Keeps.iteK ?_ ?_
      · with_reducible exact invalidate_keeps (by assumption)
      · with_reducible refine Keeps.iteK ?_ ?_
        · with_reducible exact State_setArch_keeps (by assumption)
        · with_reducible refine Keeps.iteK ?_ ?_
          · with_reducible exact State_setArch_keeps (by assumption)
          · with_reducible refine Keeps.iteK ?_ ?_
            · with_reducible exact State_setArch_keeps (by assumption)
            · with_reducible refine Keeps.iteK ?_ ?_
              · with_reducible exact State_setCore_keeps (by assumption)
              · with_reducible refine Keeps.iteK ?_ ?_
                · extract_lets +onlyGivenNames v6
                  clear_value v6
                  with_reducible exact State_setCore_keeps (by assumption)
                · with_reducible refine Keeps.iteK ?_ ?_
                  · with_reducible exact State_setCore_keeps (by assumption)
                  · with_reducible refine Keeps.iteK ?_ ?_
                    · extract_lets +onlyGivenNames v7
                      clear_value v7
                      with_reducible exact State_setCore_keeps (by assumption)
                    · with_reducible refine Keeps.iteK ?_ ?_
                      · with_reducible exact State_setArch_keeps (by assumption)
                      · with_reducible refine Keeps.iteK ?_ ?_
                        · with_reducible exact State_setArch_keeps (by assumption)
                        · with_reducible refine Keeps.iteK ?_ ?_
                          · with_reducible exact State_setArch_keeps (by assumption)
                          · with_reducible refine Keeps.iteK ?_ ?_
                            · with_reducible exact State_setArch_keeps (by assumption)
                            · with_reducible refine Keeps.iteK ?_ ?_
                              · extract_lets +onlyGivenNames v8
                                clear_value v8
                                extract_lets +onlyGivenNames v9
                                have k9 : Keeps z (v9) := by
                                  dsimp only [v9]
                                  with_reducible exact State_setCore_keeps (by assumption)
                                clear_value v9
                                with_reducible exact State_setBent_keeps (by assumption)
                              · with_reducible refine Keeps.iteK ?_ ?_
                                · with_reducible exact State_setBent_keeps (by assumption)
                                · with_reducible refine Keeps.iteK ?_ ?_
                                  · with_reducible exact State_setArch_keeps (by assumption)
                                  · with_reducible refine Keeps.iteK ?_ ?_
                                    · with_reducible exact State_setCore_keeps (by assumption)
                                    · with_reducible refine Keeps.iteK ?_ ?_
                                      · with_reducible exact State_setArch_keeps (by assumption)
                                      · with_reducible refine Keeps.iteK ?_ ?_
                                        · extract_lets +onlyGivenNames v10
                                          clear_value v10
                                          with_reducible exact State_setCore_keeps (by assumption)
                                        · with_reducible refine Keeps.iteK ?_ ?_
                                          · extract_lets +onlyGivenNames v11
                                            clear_value v11
                                            extract_lets +onlyGivenNames v12
                                            clear_value v12
                                            with_reducible refine Keeps.iteK ?_ ?_
                                            · with_reducible exact State_setRegion_keeps (by assumption)
                                            · with_reducible refine Keeps.iteK ?_ ?_
                                              · with_reducible exact State_setRegion_keeps (by assumption)
                                              · with_reducible exact State_setRegion_keeps (by assumption)
                                          · with_reducible assumption

theorem settleShadow_keeps {z : State} {x1 s} (h2 : Keeps z (s)) : Keeps z (settleShadow x1 s) := by
  unfold settleShadow
  extract_lets +onlyGivenNames v1
  clear_value v1
  extract_lets +onlyGivenNames v2
  clear_value v2
  extract_lets +onlyGivenNames v3
  have k3 : Keeps z (v3) := by
    dsimp only [v3]
    with_reducible exact State_setArch_keeps (by assumption)
  clear_value v3
  with_reducible refine Keeps.foldl ?_ _ ?_
  · intro _ _
    intro _
    with_reducible exact applyCtl_keeps (by assumption)
  · with_reducible assumption

theorem settle_keeps {z : State} {x1 s} (h2 : Keeps z (s)) : Keeps z (settle x1 s) := by
  unfold settle
  with_reducible exact settleShadow_keeps (State_setArch_keeps (by assumption))

theorem restage_keeps {z : State} {x1 x2 s} (h3 : Keeps z (s)) : Keeps z (restage x1 x2 s) := by
  unfold restage
  extract_lets +onlyGivenNames v1
  clear_value v1
  extract_lets +onlyGivenNames v2
  clear_value v2
  with_reducible refine Keeps.iteK ?_ ?_
  · with_reducible exact State_setBent_keeps (by assumption)
  · with_reducible refine Keeps.iteK ?_ ?_
    · with_reducible exact State_setBent_keeps (by assumption)
    · with_reducible refine Keeps.iteK ?_ ?_
      · with_reducible assumption
      · with_reducible refine Keeps.iteK ?_ ?_
        · with_reducible exact State_setRegion_keeps (by assumption)
        · with_reducible refine Keeps.iteK ?_ ?_
          · with_reducible exact State_setRegion_keeps (by assumption)
          · with_reducible assumption

theorem rollback_keeps {z : State} {x1 s} (h2 : Keeps z (s)) : Keeps z (rollback x1 s) := by
  unfold rollback
  extract_lets +onlyGivenNames v1
  have k1 : Keeps z (v1) := by
    dsimp only [v1]
    with_reducible refine Keeps.foldl ?_ _ ?_
    · intro _ _
      intro _
      with_reducible exact restage_keeps (by assumption)
    · with_reducible assumption
  clear_value v1
  extract_lets +onlyGivenNames v2
  clear_value v2
  with_reducible exact State_setCore_keeps (by assumption)

theorem forcedEvent_keeps {z : State} {x1 s} (h2 : Keeps z (s)) : Keeps z (forcedEvent x1 s) := by
  unfold forcedEvent
  extract_lets +onlyGivenNames v1
  clear_value v1
  extract_lets +onlyGivenNames v2
  clear_value v2
  extract_lets +onlyGivenNames v3
  clear_value v3
  extract_lets +onlyGivenNames v4
  have k4 : Keeps z (v4) := by
    dsimp only [v4]
    with_reducible exact rollback_keeps (Keeps.upd (by assumption) rfl rfl rfl rfl)
  clear_value v4
  extract_lets +onlyGivenNames v5
  have k5 : Keeps z (v5) := by
    dsimp only [v5]
    with_reducible exact countPair_keeps (countPair_keeps (countPair_keeps (by assumption)))
  clear_value v5
  extract_lets +onlyGivenNames v6
  have k6 : Keeps z (v6) := by
    dsimp only [v6]
    with_reducible exact logErr_keeps (by assumption)
  clear_value v6
  with_reducible exact logErr_keeps (by assumption)

theorem checkpoint_keeps {z : State} {x1 s} (h2 : Keeps z (s)) : Keeps z (checkpoint x1 s) := by
  unfold checkpoint
  with_reducible refine Keeps.iteK ?_ ?_
  · with_reducible assumption
  · with_reducible refine Keeps.iteK ?_ ?_
    · with_reducible exact forcedEvent_keeps (by assumption)
    · extract_lets +onlyGivenNames v1
      clear_value v1
      with_reducible refine Keeps.iteK ?_ ?_
      · with_reducible exact State_setCore_keeps (by assumption)
      · with_reducible exact State_setCore_keeps (by assumption)

theorem writeCounts_keeps {z : State} {x1 x2 x3 x4 s} (h5 : Keeps z (s)) : Keeps z (writeCounts x1 x2 x3 x4 s) := by
  unfold writeCounts
  extract_lets +onlyGivenNames v1
  extract_lets +onlyGivenNames v2
  clear_value v2
  with_reducible exact State_setBent_keeps (by assumption)

theorem noteCounts_keeps {z : State} {x1 x2 s} (h3 : Keeps z (s)) : Keeps z (noteCounts x1 x2 s) := by
  unfold noteCounts
  split
  · with_reducible exact writeCounts_keeps (by assumption)
  · with_reducible assumption

theorem stopStream_keeps {z : State} {x1 s} (h2 : Keeps z (s)) : Keeps z (stopStream x1 s) := by
  unfold stopStream
  extract_lets +onlyGivenNames v1
  clear_value v1
  split
  · with_reducible assumption
  · extract_lets +onlyGivenNames v2
    clear_value v2
    with_reducible exact noteCounts_keeps (State_setCore_keeps (by assumption))

theorem stopPipes_keeps {z : State} {x1 s} (h2 : Keeps z (s)) : Keeps z (stopPipes x1 s) := by
  unfold stopPipes
  extract_lets +onlyGivenNames v1
  have k1 : Keeps z (v1) := by
    dsimp only [v1]
    with_reducible exact stopStream_keeps (by assumption)
  clear_value v1
  extract_lets +onlyGivenNames v2
  clear_value v2
  with_reducible exact State_setCore_keeps (by assumption)

theorem lineUpdate_keeps {z : State} {x1 x2 s} (h3 : Keeps z (s)) : Keeps z (lineUpdate x1 x2 s) := by
  induction x2 generalizing x1 s
  · unfold lineUpdate
    with_reducible assumption
  · rename_i e l ih
    unfold lineUpdate
    split
    · with_reducible assumption
    · injections
      subst_vars
      extract_lets +onlyGivenNames v1
      split
      · with_reducible apply ih
        with_reducible assumption
      · with_reducible apply ih
        with_reducible exact State_setBent_keeps (by assumption)
    · injections
      subst_vars
      with_reducible apply ih
      with_reducible assumption

theorem performEntry_keeps {z : State} {x1 x2 s} (h3 : Keeps z (s)) : Keeps z (performEntry x1 x2 s) := by
  unfold performEntry
  extract_lets +onlyGivenNames v1
  clear_value v1
  with_reducible exact lineUpdate_keeps (writePlaces_keeps (by assumption))

theorem drainAll_keeps {z : State} {x1 s} (h2 : Keeps z (s)) : Keeps z (drainAll x1 s) := by
  unfold drainAll
  extract_lets +onlyGivenNames v1
  have k1 : Keeps z (v1) := by
    dsimp only [v1]
    with_reducible exact checkpoint_keeps (by assumption)
  clear_value v1
  extract_lets +onlyGivenNames v2
  clear_value v2
  with_reducible refine Keeps.foldl ?_ _ ?_
  · intro _ _
    intro _
    with_reducible exact performEntry_keeps (by assumption)
  · with_reducible exact State_setCore_keeps (by assumption)

theorem stopCore_keeps {z : State} {x1 s} (h2 : Keeps z (s)) : Keeps z (stopCore x1 s) := by
  unfold stopCore
  extract_lets +onlyGivenNames v1
  have k1 : Keeps z (v1) := by
    dsimp only [v1]
    with_reducible exact settle_keeps (by assumption)
  clear_value v1
  extract_lets +onlyGivenNames v2
  have k2 : Keeps z (v2) := by
    dsimp only [v2]
    with_reducible refine Keeps.iteK ?_ ?_
    · with_reducible exact checkpoint_keeps (by assumption)
    · with_reducible assumption
  clear_value v2
  extract_lets +onlyGivenNames v3
  have k3 : Keeps z (v3) := by
    dsimp only [v3]
    with_reducible exact stopPipes_keeps (drainAll_keeps (settle_keeps (by assumption)))
  clear_value v3
  with_reducible exact trySave_keeps (State_setCore_keeps (by assumption))

theorem dueStop_keeps {z : State} {x1 s} (h2 : Keeps z (s)) : Keeps z (dueStop x1 s) := by
  unfold dueStop
  extract_lets +onlyGivenNames v1
  clear_value v1
  with_reducible refine Keeps.iteK ?_ ?_
  · with_reducible assumption
  · with_reducible exact stopCore_keeps (by assumption)

theorem dropCtl_keeps {z : State} {x1 x2 s} (h3 : Keeps z (s)) : Keeps z (dropCtl x1 x2 s) := by
  unfold dropCtl
  extract_lets +onlyGivenNames v1
  clear_value v1
  with_reducible exact State_setArch_keeps (by assumption)

theorem loopBack_keeps {z : State} {x1 x2 x3 s} (h4 : Keeps z (s)) : Keeps z (loopBack x1 x2 x3 s) := by
  unfold loopBack
  extract_lets +onlyGivenNames v1
  clear_value v1
  extract_lets +onlyGivenNames v2
  clear_value v2
  with_reducible refine Keeps.iteK ?_ ?_
  · with_reducible exact State_setArch_keeps (by assumption)
  · extract_lets +onlyGivenNames v3
    clear_value v3
    with_reducible refine Keeps.iteK ?_ ?_
    · with_reducible exact dropCtl_keeps (State_setArch_keeps (by assumption))
    · with_reducible exact dropCtl_keeps (State_setArch_keeps (by assumption))

theorem tickShadow_keeps {z : State} {x1 s} (h2 : Keeps z (s)) : Keeps z (tickShadow x1 s) := by
  unfold tickShadow
  extract_lets +onlyGivenNames v1
  clear_value v1
  extract_lets +onlyGivenNames v2
  clear_value v2
  extract_lets +onlyGivenNames v3
  clear_value v3
  with_reducible refine Keeps.foldl ?_ _ ?_
  · intro _ _
    intro _
    with_reducible exact applyCtl_keeps (by assumption)
  · with_reducible exact State_setArch_keeps (by assumption)

theorem dueCheckpoint_keeps {z : State} {x1 s} (h2 : Keeps z (s)) : Keeps z (dueCheckpoint x1 s) := by
  unfold dueCheckpoint
  extract_lets +onlyGivenNames v1
  clear_value v1
  with_reducible refine Keeps.iteK ?_ ?_
  · with_reducible exact checkpoint_keeps (by assumption)
  · with_reducible assumption

theorem retire_keeps {z : State} {x1 x2 x3 x4 s} (h5 : Keeps z (s)) : Keeps z (retire x1 x2 x3 x4 s) := by
  unfold retire
  extract_lets +onlyGivenNames v1
  clear_value v1
  extract_lets +onlyGivenNames v2
  have k2 : Keeps z (v2) := by
    dsimp only [v2]
    split
    · with_reducible exact State_setArch_keeps (by assumption)
    · with_reducible exact loopBack_keeps (by assumption)
  clear_value v2
  extract_lets +onlyGivenNames v3
  clear_value v3
  extract_lets +onlyGivenNames v4
  have k4 : Keeps z (v4) := by
    dsimp only [v4]
    with_reducible exact State_setArch_keeps (by assumption)
  clear_value v4
  extract_lets +onlyGivenNames v5
  have k5 : Keeps z (v5) := by
    dsimp only [v5]
    with_reducible exact tickShadow_keeps (by assumption)
  clear_value v5
  extract_lets +onlyGivenNames v6
  clear_value v6
  extract_lets +onlyGivenNames v7
  have k7 : Keeps z (v7) := by
    dsimp only [v7]
    with_reducible exact State_setCore_keeps (by assumption)
  clear_value v7
  with_reducible exact dueCheckpoint_keeps (State_drawn_keeps (by assumption))

theorem noteSent_keeps {z : State} {x1 x2 s} (h3 : Keeps z (s)) : Keeps z (noteSent x1 x2 s) := by
  unfold noteSent
  with_reducible refine Keeps.iteK ?_ ?_
  · with_reducible assumption
  · with_reducible exact State_setCore_keeps (by assumption)

theorem wrDd_keeps {z : State} {x1 x2 x3 x4 s} (h5 : Keeps z (s)) : Keeps z (wrDd x1 x2 x3 x4 s) := by
  unfold wrDd
  extract_lets +onlyGivenNames v1
  clear_value v1
  with_reducible exact State_setArch_keeps (by assumption)

theorem wrD_keeps {z : State} {x1 x2 x3 s} (h4 : Keeps z (s)) : Keeps z (wrD x1 x2 x3 s) := by
  unfold wrD
  with_reducible exact wrDd_keeps (by assumption)

theorem passAgain_keeps {z : State} {x1 x2 s} (h3 : Keeps z (s)) : Keeps z (passAgain x1 x2 s) := by
  unfold passAgain
  extract_lets +onlyGivenNames v1
  have k1 : Keeps z (v1) := by
    dsimp only [v1]
    with_reducible refine Keeps.foldl ?_ _ ?_
    · intro _ _
      intro _
      with_reducible exact wrD_keeps (by assumption)
    · with_reducible assumption
  clear_value v1
  with_reducible exact State_setCore_keeps (by assumption)

theorem lineGone_keeps {z : State} {x1 x2 s} (h3 : Keeps z (s)) : Keeps z (lineGone x1 x2 s) := by
  unfold lineGone
  extract_lets +onlyGivenNames v1
  with_reducible exact State_setBent_keeps (by assumption)

theorem fetchCached_keeps {z : State} {x1 x2 x3 x4 s} (hf4 : ∀ y1, Keeps z (y1) → Res.all (Keeps z) (x4 y1)) (h5 : Keeps z (s)) : Res.all (Keeps z) (fetchCached x1 x2 x3 x4 s) := by
  unfold fetchCached
  extract_lets +onlyGivenNames v1
  clear_value v1
  extract_lets +onlyGivenNames v2
  have k2 : ∀ y1, Keeps z (y1) → Res.all (Keeps z) (v2 y1) := by
    intro _ _
    dsimp only [v2]
    with_reducible refine Res.bindK ?_ ?_
    · with_reducible apply hf4
      with_reducible assumption
    · intro _ _
      intro _
      with_reducible exact Res.okI (State_setBent_keeps (by assumption))
  clear_value v2
  with_reducible refine Res.iteK ?_ ?_
  · with_reducible apply k2
    with_reducible assumption
  · split
    · with_reducible apply k2
      with_reducible apply lineGone_keeps
      with_reducible refine Pair.sndK (by assumption) ?_
      with_reducible apply sramRead_keeps
      · intro _ _
        with_reducible exact State_setBent_keeps (by assumption)
      · with_reducible assumption
    · split
      · with_reducible refine Res.okI ?_
        with_reducible refine Res.okK (by assumption) ?_
        with_reducible apply hf4
        with_reducible refine Pair.sndK (by assumption) ?_
        with_reducible apply sramRead_keeps
        · intro _ _
          with_reducible exact State_setBent_keeps (by assumption)
        · with_reducible assumption
      · with_reducible refine Res.iteK ?_ ?_
        · with_reducible refine Res.okI ?_
          with_reducible apply State_drawn_keeps
          with_reducible refine Pair.sndK (by assumption) ?_
          with_reducible apply sramRead_keeps
          · intro _ _
            with_reducible exact State_setBent_keeps (by assumption)
          · with_reducible assumption
        · with_reducible apply hf4
          with_reducible refine Pair.sndK (by assumption) ?_
          with_reducible apply sramRead_keeps
          · intro _ _
            with_reducible exact State_setBent_keeps (by assumption)
          · with_reducible assumption

theorem fetchWord_keeps {z : State} {x1 x2 x3 s} (h4 : Keeps z (s)) : Res.all (Keeps z) (fetchWord x1 x2 x3 s) := by
  unfold fetchWord
  with_reducible refine Res.iteK ?_ ?_
  · with_reducible refine Res.iteK ?_ ?_
    · with_reducible exact Res.okI (by assumption)
    · with_reducible exact Res.stallI (by assumption)
  · with_reducible refine Res.bindK ?_ ?_
    · with_reducible exact xlate_keeps (by assumption)
    · intro _ _
      intro _
      extract_lets +onlyGivenNames v1
      have k1 : ∀ y1, Keeps z (y1) → Res.all (Keeps z) (v1 y1) := by
        intro _ _
        dsimp only [v1]
        with_reducible refine Res.bindK ?_ ?_
        · with_reducible exact readPlaces_keeps (by assumption)
        · intro _ _
          intro _
          with_reducible exact Res.okI (by assumption)
      clear_value v1
      split
      · with_reducible refine Res.iteK ?_ ?_
        · with_reducible apply k1
          with_reducible assumption
        · with_reducible apply fetchCached_keeps
          · with_reducible assumption
          · with_reducible assumption
      · with_reducible apply k1
        with_reducible assumption

theorem fetchInstr_keeps {z : State} {x1 x2 s} (h3 : Keeps z (s)) : Res.all (Keeps z) (fetchInstr x1 x2 s) := by
  unfold fetchInstr
  extract_lets +onlyGivenNames v1
  clear_value v1
  with_reducible refine Res.bindK ?_ ?_
  · with_reducible exact fetchWord_keeps (by assumption)
  · intro _ _
    intro _
    with_reducible refine Res.iteK ?_ ?_
    · with_reducible exact fetchWord_keeps (by assumption)
    · with_reducible exact Res.okI (by assumption)

theorem notePlumb_keeps {z : State} {x1 s} (h2 : Keeps z (s)) : Keeps z (notePlumb x1 s) := by
  unfold notePlumb
  extract_lets +onlyGivenNames v1
  clear_value v1
  with_reducible refine Keeps.iteK ?_ ?_
  · with_reducible assumption
  · with_reducible exact State_setArch_keeps (by assumption)

theorem endExact_keeps {z : State} {x1 s} (h2 : Keeps z (s)) : Keeps z (endExact x1 s) := by
  unfold endExact
  extract_lets +onlyGivenNames v1
  clear_value v1
  with_reducible exact State_setArch_keeps (by assumption)

theorem runBody_keeps {z : State} {x1 x2 s} (hf2 : ∀ y1, Keeps z (y1) → Res.all (Keeps z) (x2 y1)) (h3 : Keeps z (s)) : Res.all (Keeps z) (runBody x1 x2 s) := by
  unfold runBody
  extract_lets +onlyGivenNames v1
  clear_value v1
  with_reducible refine Res.iteK ?_ ?_
  · with_reducible apply hf2
    with_reducible exact endExact_keeps (by assumption)
  · with_reducible apply hf2
    with_reducible assumption

theorem endByTrap_keeps {z : State} {x1 x2 x3 x4 x5 s} (h6 : Keeps z (s)) : Keeps z (endByTrap x1 x2 x3 x4 x5 s) := by
  unfold endByTrap
  split
  · with_reducible exact State_setCore_keeps (by assumption)
  · with_reducible exact finishJob_keeps (by assumption)

theorem serviceTrap_keeps {z : State} {x1 x2 x3 x4 s} (h5 : Keeps z (s)) : Keeps z (serviceTrap x1 x2 x3 x4 s) := by
  unfold serviceTrap
  extract_lets +onlyGivenNames v1
  clear_value v1
  extract_lets +onlyGivenNames v2
  clear_value v2
  with_reducible refine Keeps.iteK ?_ ?_
  · with_reducible exact endByTrap_keeps (by assumption)
  · with_reducible refine Keeps.iteK ?_ ?_
    · with_reducible exact State_setArch_keeps (by assumption)
    · extract_lets +onlyGivenNames v3
      clear_value v3
      with_reducible exact endByTrap_keeps (by assumption)

theorem roomForFrame_keeps {z : State} {x1 s} (h2 : Keeps z (s)) : Keeps z (roomForFrame x1 s) := by
  unfold roomForFrame
  with_reducible refine Keeps.iteK ?_ ?_
  · with_reducible exact drainAll_keeps (by assumption)
  · with_reducible assumption

theorem recordFrame_keeps {z : State} {x1 x2 x3 x4 s} (h5 : Keeps z (s)) : Keeps z (recordFrame x1 x2 x3 x4 s) := by
  unfold recordFrame
  extract_lets +onlyGivenNames v1
  clear_value v1
  with_reducible exact State_setCore_keeps (by assumption)

theorem takeTrap_keeps {z : State} {x1 x2 x3 x4 s} (h5 : Keeps z (s)) : Keeps z (takeTrap x1 x2 x3 x4 s) := by
  unfold takeTrap
  extract_lets +onlyGivenNames v1
  have k1 : Keeps z (v1) := by
    dsimp only [v1]
    with_reducible exact settle_keeps (by assumption)
  clear_value v1
  extract_lets +onlyGivenNames v2
  clear_value v2
  extract_lets +onlyGivenNames v3
  clear_value v3
  extract_lets +onlyGivenNames v4
  clear_value v4
  extract_lets +onlyGivenNames v5
  have k5 : Keeps z (v5) := by
    dsimp only [v5]
    with_reducible exact State_setCore_keeps (by assumption)
  clear_value v5
  extract_lets +onlyGivenNames v6
  clear_value v6
  extract_lets +onlyGivenNames v7
  clear_value v7
  extract_lets +onlyGivenNames v8
  clear_value v8
  with_reducible refine Keeps.iteK ?_ ?_
  · with_reducible exact serviceTrap_keeps (by assumption)
  · with_reducible refine Keeps.iteK ?_ ?_
    · with_reducible exact endByTrap_keeps (by assumption)
    · with_reducible refine Keeps.iteK ?_ ?_
      · with_reducible exact endByTrap_keeps (by assumption)
      · extract_lets +onlyGivenNames v9
        clear_value v9
        extract_lets +onlyGivenNames v10
        have k10 : ∀ y1 y2, Keeps z (y2) → Keeps z (v10 y1 y2) := by
          intro _ _
          intro _
          dsimp only [v10]
          with_reducible exact serviceTrap_keeps (by assumption)
        clear_value v10
        with_reducible refine Keeps.iteK ?_ ?_
        · with_reducible apply k10
          with_reducible assumption
        · split
          · with_reducible apply k10
            with_reducible refine Res.trapK (by assumption) ?_
            with_reducible exact xlate_keeps (by assumption)
          · with_reducible refine Keeps.upd ?_ rfl rfl rfl rfl
            with_reducible refine Res.stallK (by assumption) ?_
            with_reducible exact xlate_keeps (by assumption)
          · extract_lets +onlyGivenNames v11
            have k11 : Keeps z (v11) := by
              dsimp only [v11]
              with_reducible apply roomForFrame_keeps
              with_reducible refine Res.okK (by assumption) ?_
              with_reducible exact xlate_keeps (by assumption)
            clear_value v11
            extract_lets +onlyGivenNames v12
            clear_value v12
            extract_lets +onlyGivenNames v13
            have k13 : Keeps z (v13) := by
              dsimp only [v13]
              with_reducible exact State_setCore_keeps (by assumption)
            clear_value v13
            extract_lets +onlyGivenNames v14
            clear_value v14
            extract_lets +onlyGivenNames v15
            clear_value v15
            extract_lets +onlyGivenNames v16
            clear_value v16
            extract_lets +onlyGivenNames v17
            clear_value v17
            extract_lets +onlyGivenNames v18
            have k18 : Keeps z (v18) := by
              dsimp only [v18]
              with_reducible exact State_setArch_keeps (by assumption)
            clear_value v18
            extract_lets +onlyGivenNames v19
            have k19 : Keeps z (v19) := by
              dsimp only [v19]
              with_reducible exact recordFrame_keeps (by assumption)
            clear_value v19
            split
            · with_reducible apply serviceTrap_keeps
              with_reducible refine Res.trapK (by assumption) ?_
              with_reducible exact fetchWord_keeps (by assumption)
            · with_reducible refine Res.stallK (by assumption) ?_
              with_reducible exact fetchWord_keeps (by assumption)
            · with_reducible refine Res.okK (by assumption) ?_
              with_reducible exact fetchWord_keeps (by assumption)

theorem issueRun_keeps {z : State} {x1 x2 x3 x4 s} (hf4 : ∀ y1, Keeps z (y1) → Res.all (Keeps z) (x4 y1)) (h5 : Keeps z (s)) : Keeps z (issueRun x1 x2 x3 x4 s) := by
  unfold issueRun
  extract_lets +onlyGivenNames v1
  clear_value v1
  extract_lets +onlyGivenNames v2
  clear_value v2
  split
  · with_reducible exact dueStop_keeps (checkpoint_keeps (retire_keeps (noteSent_keeps (passAgain_keeps (by assumption)))))
  · extract_lets +onlyGivenNames v3
    have k3 : Res.all (Keeps z) (v3) := by
      dsimp only [v3]
      with_reducible refine Res.bindK ?_ ?_
      · with_reducible exact fetchInstr_keeps (notePlumb_keeps (by assumption))
      · intro _ _
        intro _
        with_reducible apply runBody_keeps
        · with_reducible assumption
        · with_reducible refine Keeps.iteK ?_ ?_
          · with_reducible assumption
          · with_reducible exact checkpoint_keeps (by assumption)
    clear_value v3
    with_reducible refine Keeps.iteK ?_ ?_
    · with_reducible exact forcedEvent_keeps (by assumption)
    · split
      · extract_lets +onlyGivenNames v4
        have k4 : Keeps z (v4) := by
          dsimp only [v4]
          with_reducible refine Keeps.iteK ?_ ?_
          · with_reducible exact noteSent_keeps (Res.okE (by assumption))
          · with_reducible refine Res.okE (by assumption)
        clear_value v4
        extract_lets +onlyGivenNames v5
        have k5 : Keeps z (v5) := by
          dsimp only [v5]
          with_reducible exact retire_keeps (by assumption)
        clear_value v5
        with_reducible apply dueStop_keeps
        with_reducible refine Keeps.iteK ?_ ?_
        · with_reducible assumption
        · with_reducible exact checkpoint_keeps (by assumption)
      · with_reducible exact dueStop_keeps (takeTrap_keeps (Res.trapE (by assumption)))
      · with_reducible refine Res.stallE (by assumption)

theorem noteAccess_keeps {z : State} {x1 x2 x3 s} (h4 : Keeps z (s)) : Keeps z (noteAccess x1 x2 x3 s) := by
  unfold noteAccess
  with_reducible refine Keeps.iteK ?_ ?_
  · with_reducible assumption
  · extract_lets +onlyGivenNames v1
    have k1 : Keeps z (v1) := by
      dsimp only [v1]
      with_reducible exact endExact_keeps (by assumption)
    clear_value v1
    with_reducible exact State_setCore_keeps (by assumption)

theorem bufferStore_keeps {z : State} {x1 x2 x3 x4 s} (h5 : Keeps z (s)) : Res.all (Keeps z) (bufferStore x1 x2 x3 x4 s) := by
  unfold bufferStore
  extract_lets +onlyGivenNames v1
  clear_value v1
  with_reducible refine Res.iteK ?_ ?_
  · with_reducible exact Res.stallI (by assumption)
  · with_reducible exact Res.okI (State_setCore_keeps (by assumption))

theorem icacheDrop_keeps {z : State} {x1 x2 s} (h3 : Keeps z (s)) : Keeps z (icacheDrop x1 x2 s) := by
  unfold icacheDrop
  extract_lets +onlyGivenNames v1
  with_reducible exact State_setBent_keeps (by assumption)

theorem storeCode_keeps {z : State} {x1 x2 x3 s} (h4 : Keeps z (s)) : Keeps z (storeCode x1 x2 x3 s) := by
  unfold storeCode
  extract_lets +onlyGivenNames v1
  clear_value v1
  with_reducible refine Keeps.iteK ?_ ?_
  · with_reducible assumption
  · with_reducible refine Keeps.iteK ?_ ?_
    · with_reducible exact icacheDrop_keeps (drainAll_keeps (by assumption))
    · with_reducible refine Keeps.iteK ?_ ?_
      · with_reducible refine Keeps.iteK ?_ ?_
        · with_reducible exact drainAll_keeps (State_drawn_keeps (by assumption))
        · with_reducible exact State_drawn_keeps (by assumption)
      · with_reducible assumption

theorem wrAd_keeps {z : State} {x1 x2 x3 x4 s} (h5 : Keeps z (s)) : Keeps z (wrAd x1 x2 x3 x4 s) := by
  unfold wrAd
  extract_lets +onlyGivenNames v1
  clear_value v1
  with_reducible exact State_setArch_keeps (by assumption)

theorem wrA_keeps {z : State} {x1 x2 x3 s} (h4 : Keeps z (s)) : Keeps z (wrA x1 x2 x3 s) := by
  unfold wrA
  with_reducible exact wrAd_keeps (by assumption)

theorem push_keeps {z : State} {x1 x2 s} (h3 : Keeps z (s)) : Res.all (Keeps z) (push x1 x2 s) := by
  unfold push
  extract_lets +onlyGivenNames v1
  clear_value v1
  extract_lets +onlyGivenNames v2
  clear_value v2
  extract_lets +onlyGivenNames v3
  clear_value v3
  extract_lets +onlyGivenNames v4
  clear_value v4
  with_reducible refine Res.iteK ?_ ?_
  · with_reducible exact Res.trapI (by assumption)
  · extract_lets +onlyGivenNames v5
    clear_value v5
    split
    · with_reducible refine Res.trapI ?_
      with_reducible refine Res.trapK (by assumption) ?_
      with_reducible exact xlate_keeps (noteAccess_keeps (by assumption))
    · with_reducible refine Res.stallI ?_
      with_reducible refine Res.stallK (by assumption) ?_
      with_reducible exact xlate_keeps (noteAccess_keeps (by assumption))
    · with_reducible refine Res.bindK ?_ ?_
      · with_reducible apply bufferStore_keeps
        with_reducible refine Res.okK (by assumption) ?_
        with_reducible exact xlate_keeps (noteAccess_keeps (by assumption))
      · intro _ _
        intro _
        with_reducible exact Res.okI (storeCode_keeps (wrA_keeps (by assumption)))

theorem settleCtl_keeps {z : State} {x1 x2 s} (h3 : Keeps z (s)) : Keeps z (settleCtl x1 x2 s) := by
  unfold settleCtl
  with_reducible refine Keeps.foldl ?_ _ ?_
  · intro _ _
    intro _
    with_reducible exact applyCtl_keeps (by assumption)
  · with_reducible exact dropCtl_keeps (by assumption)

theorem dcacheDrop_keeps {z : State} {x1 x2 s} (h3 : Keeps z (s)) : Keeps z (dcacheDrop x1 x2 s) := by
  unfold dcacheDrop
  extract_lets +onlyGivenNames v1
  with_reducible exact State_setBent_keeps (by assumption)

theorem privileged_keeps {z : State} {x1 s} (h2 : Keeps z (s)) : Res.all (Keeps z) (privileged x1 s) := by
  unfold privileged
  with_reducible exact Res.trapI (by assumption)

theorem needLevel_keeps {z : State} {x1 x2 x3 x4 s} (hf4 : ∀ y1, Keeps z (y1) → Res.all (Keeps z) (x4 y1)) (h5 : Keeps z (s)) : Res.all (Keeps z) (needLevel x1 x2 x3 x4 s) := by
  unfold needLevel
  with_reducible refine Res.iteK ?_ ?_
  · with_reducible apply hf4
    with_reducible assumption
  · with_reducible exact privileged_keeps (by assumption)

theorem wrPairD_keeps {z : State} {x1 x2 x3 x4 s} (h5 : Keeps z (s)) : Keeps z (wrPairD x1 x2 x3 x4 s) := by
  unfold wrPairD
  with_reducible exact wrDd_keeps (wrDd_keeps (by assumption))

theorem illegal_keeps {z : State} {x1 s} (h2 : Keeps z (s)) : Res.all (Keeps z) (illegal x1 s) := by
  unfold illegal
  with_reducible exact Res.trapI (by assumption)

theorem cacheRead_keeps {z : State} {x1 x2 x3 x4 s} (h5 : Keeps z (s)) : Res.all (Keeps z) (cacheRead x1 x2 x3 x4 s) := by
  unfold cacheRead
  extract_lets +onlyGivenNames v1
  clear_value v1
  extract_lets +onlyGivenNames v2
  have k2 : ∀ y1, Keeps z (y1) → Res.all (Keeps z) (v2 y1) := by
    intro _ _
    dsimp only [v2]
    split
    · with_reducible refine Res.trapI ?_
      with_reducible refine Pair.sndK (by assumption) ?_
      with_reducible exact blkRead_keeps (by assumption)
    · with_reducible refine Res.okI ?_
      with_reducible refine Keeps.iteK ?_ ?_
      · with_reducible refine Pair.sndK (by assumption) ?_
        with_reducible exact blkRead_keeps (by assumption)
      · with_reducible apply dcacheFill_keeps
        with_reducible refine Pair.sndK (by assumption) ?_
        with_reducible exact blkRead_keeps (by assumption)
  clear_value v2
  split
  · with_reducible apply k2
    with_reducible assumption
  · with_reducible refine Res.iteK ?_ ?_
    · with_reducible apply k2
      with_reducible assumption
    · extract_lets +onlyGivenNames v3
      clear_value v3
      split
      · with_reducible refine Res.iteK ?_ ?_
        · with_reducible refine Res.trapI ?_
          with_reducible apply dcacheDrop_keeps
          with_reducible refine Pair.sndK (by assumption) ?_
          with_reducible apply sramRead_keeps
          · intro _ _
            with_reducible exact State_setBent_keeps (by assumption)
          · with_reducible assumption
        · with_reducible apply k2
          with_reducible apply dcacheDrop_keeps
          with_reducible refine Pair.sndK (by assumption) ?_
          with_reducible apply sramRead_keeps
          · intro _ _
            with_reducible exact State_setBent_keeps (by assumption)
          · with_reducible assumption
      · with_reducible refine Res.iteK ?_ ?_
        · with_reducible refine Res.okI ?_
          with_reducible refine Pair.sndK (by assumption) ?_
          with_reducible apply sramRead_keeps
          · intro _ _
            with_reducible exact State_setBent_keeps (by assumption)
          · with_reducible assumption
        · with_reducible refine Res.iteK ?_ ?_
          · with_reducible refine Res.okI ?_
            with_reducible apply State_drawn_keeps
            with_reducible refine Pair.sndK (by assumption) ?_
            with_reducible apply sramRead_keeps
            · intro _ _
              with_reducible exact State_setBent_keeps (by assumption)
            · with_reducible assumption
          · with_reducible apply k2
            with_reducible apply State_drawn_keeps
            with_reducible refine Pair.sndK (by assumption) ?_
            with_reducible apply sramRead_keeps
            · intro _ _
              with_reducible exact State_setBent_keeps (by assumption)
            · with_reducible assumption

theorem loadFrom_keeps {z : State} {x1 x2 x3 x4 s} (h5 : Keeps z (s)) : Res.all (Keeps z) (loadFrom x1 x2 x3 x4 s) := by
  induction x2 generalizing x1 x3 x4 s
  · unfold loadFrom
    split
    · with_reducible exact Res.okI (by assumption)
    · injections
    · injections
  · rename_i n ih
    unfold loadFrom
    split
    · with_reducible exact Res.okI (by assumption)
    · injections
    · injections
      subst_vars
      split
      · with_reducible refine Res.iteK ?_ ?_
        · extract_lets +onlyGivenNames v1
          clear_value v1
          with_reducible refine Res.bindK ?_ ?_
          · with_reducible exact cacheRead_keeps (by assumption)
          · intro _ _
            intro _
            with_reducible refine Res.bindK ?_ ?_
            · with_reducible apply ih
              with_reducible assumption
            · intro _ _
              intro _
              with_reducible exact Res.okI (by assumption)
        · with_reducible refine Res.iteK ?_ ?_
          · with_reducible exact Res.stallI (by assumption)
          · with_reducible refine Res.iteK ?_ ?_
            · with_reducible exact Res.trapI (State_drawn_keeps (by assumption))
            · extract_lets +onlyGivenNames v2
              clear_value v2
              with_reducible refine Res.bindK ?_ ?_
              · with_reducible apply ih
                with_reducible exact State_drawn_keeps (by assumption)
              · intro _ _
                intro _
                with_reducible exact Res.okI (by assumption)
      · with_reducible refine Res.bindK ?_ ?_
        · with_reducible exact readSmall_keeps (by assumption)
        · intro _ _
          intro _
          with_reducible refine Res.bindK ?_ ?_
          · with_reducible apply ih
            with_reducible assumption
          · intro _ _
            intro _
            with_reducible exact Res.okI (by assumption)

theorem drainTo_keeps {z : State} {x1 x2 x3 s} (h4 : Keeps z (s)) : Keeps z (drainTo x1 x2 x3 s) := by
  induction x3 generalizing x1 x2 s
  · unfold drainTo
    with_reducible assumption
  · rename_i n ih
    unfold drainTo
    split
    · with_reducible assumption
    · with_reducible refine Keeps.iteK ?_ ?_
      · dsimp only
        with_reducible apply ih
        with_reducible exact performEntry_keeps (State_setCore_keeps (by assumption))
      · with_reducible assumption

theorem drainFor_keeps {z : State} {x1 x2 s} (h3 : Keeps z (s)) : Keeps z (drainFor x1 x2 s) := by
  unfold drainFor
  with_reducible refine Keeps.iteK ?_ ?_
  · with_reducible exact drainTo_keeps (by assumption)
  · with_reducible exact drainAll_keeps (by assumption)

theorem loadAt_keeps {z : State} {x1 x2 x3 x4 s} (h5 : Keeps z (s)) : Res.all (Keeps z) (loadAt x1 x2 x3 x4 s) := by
  unfold loadAt
  extract_lets +onlyGivenNames v1
  clear_value v1
  with_reducible refine Res.bindK ?_ ?_
  · with_reducible exact xlate_keeps (noteAccess_keeps (by assumption))
  · intro _ _
    intro _
    extract_lets +onlyGivenNames v2
    clear_value v2
    split
    · with_reducible refine Res.iteK ?_ ?_
      · with_reducible exact Res.okI (by assumption)
      · with_reducible refine Res.bindK ?_ ?_
        · with_reducible exact loadFrom_keeps (drainFor_keeps (by assumption))
        · intro _ _
          intro _
          with_reducible exact Res.okI (by assumption)
    · with_reducible refine Res.bindK ?_ ?_
      · with_reducible exact loadFrom_keeps (by assumption)
      · intro _ _
        intro _
        with_reducible exact Res.okI (by assumption)

theorem load_keeps {z : State} {x1 x2 x3 s} (h4 : Keeps z (s)) : Res.all (Keeps z) (load x1 x2 x3 s) := by
  unfold load
  with_reducible exact loadAt_keeps (by assumption)

theorem pop_keeps {z : State} {x1 x2 s} (h3 : Keeps z (s)) : Res.all (Keeps z) (pop x1 x2 s) := by
  unfold pop
  extract_lets +onlyGivenNames v1
  clear_value v1
  with_reducible refine Res.bindK ?_ ?_
  · with_reducible exact load_keeps (by assumption)
  · intro _ _
    intro _
    with_reducible exact Res.okI (wrA_keeps (by assumption))

theorem noteLoad_keeps {z : State} {x1 x2 s} (h3 : Keeps z (s)) : Keeps z (noteLoad x1 x2 s) := by
  unfold noteLoad
  with_reducible refine Keeps.iteK ?_ ?_
  · with_reducible assumption
  · with_reducible exact endExact_keeps (by assumption)

theorem restoreFrame_keeps {z : State} {x1 x2 x3 x4 s} (h5 : Keeps z (s)) : Keeps z (restoreFrame x1 x2 x3 x4 s) := by
  unfold restoreFrame
  extract_lets +onlyGivenNames v1
  clear_value v1
  extract_lets +onlyGivenNames v2
  have k2 : Keeps z (v2) := by
    dsimp only [v2]
    with_reducible exact settleCtl_keeps (by assumption)
  clear_value v2
  extract_lets +onlyGivenNames v3
  clear_value v3
  extract_lets +onlyGivenNames v4
  clear_value v4
  extract_lets +onlyGivenNames v5
  clear_value v5
  extract_lets +onlyGivenNames v6
  clear_value v6
  extract_lets +onlyGivenNames v7
  have k7 : Keeps z (v7) := by
    dsimp only [v7]
    with_reducible exact State_setArch_keeps (by assumption)
  clear_value v7
  with_reducible exact State_setCore_keeps (by assumption)

theorem need_keeps {z : State} {x1 x2 x3 s} (hf3 : ∀ y1, Keeps z (y1) → Res.all (Keeps z) (x3 y1)) (h4 : Keeps z (s)) : Res.all (Keeps z) (need x1 x2 x3 s) := by
  unfold need
  with_reducible refine Res.iteK ?_ ?_
  · with_reducible apply hf3
    with_reducible assumption
  · with_reducible exact illegal_keeps (by assumption)

theorem storeAt_keeps {z : State} {x1 x2 x3 x4 s} (h5 : Keeps z (s)) : Res.all (Keeps z) (storeAt x1 x2 x3 x4 s) := by
  unfold storeAt
  extract_lets +onlyGivenNames v1
  clear_value v1
  extract_lets +onlyGivenNames v2
  clear_value v2
  with_reducible refine Res.bindK ?_ ?_
  · with_reducible exact xlate_keeps (noteAccess_keeps (by assumption))
  · intro _ _
    intro _
    with_reducible refine Res.bindK ?_ ?_
    · with_reducible exact bufferStore_keeps (by assumption)
    · intro _ _
      intro _
      with_reducible exact Res.okI (storeCode_keeps (by assumption))

theorem wrPair_keeps {z : State} {x1 x2 x3 s} (h4 : Keeps z (s)) : Keeps z (wrPair x1 x2 x3 s) := by
  unfold wrPair
  with_reducible exact wrPairD_keeps (by assumption)

theorem loadPairs_keeps {z : State} {x1 x2 x3 s} (h4 : Keeps z (s)) : Res.all (Keeps z) (loadPairs x1 x2 x3 s) := by
  induction x3 generalizing x1 x2 s
  · unfold loadPairs
    with_reducible exact Res.okI (by assumption)
  · rename_i n ih
    unfold loadPairs
    with_reducible refine Res.bindK ?_ ?_
    · with_reducible exact load_keeps (by assumption)
    · intro _ _
      intro _
      with_reducible refine Res.bindK ?_ ?_
      · with_reducible apply ih
        with_reducible assumption
      · intro _ _
        intro _
        with_reducible exact Res.okI (by assumption)

theorem takeReady_keeps {z : State} {x1 s} (h2 : Keeps z (s)) : Keeps z (takeReady x1 s) := by
  unfold takeReady
  split
  · with_reducible assumption
  · with_reducible exact dueStop_keeps (takeTrap_keeps (by assumption))

theorem store_keeps {z : State} {x1 x2 x3 s} (h4 : Keeps z (s)) : Res.all (Keeps z) (store x1 x2 x3 s) := by
  unfold store
  with_reducible exact storeAt_keeps (by assumption)

theorem issueAny_keeps {z : State} {x1 x2 x3 x4 x5 s} (hf5 : ∀ y1, Keeps z (y1) → Res.all (Keeps z) (x5 y1)) (h6 : Keeps z (s)) : Keeps z (issueAny x1 x2 x3 x4 x5 s) := by
  unfold issueAny
  with_reducible refine Keeps.iteK ?_ ?_
  · with_reducible assumption
  · with_reducible refine Keeps.iteK ?_ ?_
    · with_reducible exact takeReady_keeps (by assumption)
    · with_reducible refine Keeps.iteK ?_ ?_
      · with_reducible exact forcedEvent_keeps (by assumption)
      · with_reducible refine Keeps.iteK ?_ ?_
        · with_reducible exact takeTrap_keeps (by assumption)
        · with_reducible apply issueRun_keeps
          · with_reducible assumption
          · with_reducible assumption

theorem issueC_keeps {z : State} {x1 x2 x3 s} (hf3 : ∀ y1, Keeps z (y1) → Res.all (Keeps z) (x3 y1)) (h4 : Keeps z (s)) : Keeps z (issueC x1 x2 x3 s) := by
  unfold issueC
  with_reducible apply issueAny_keeps
  · with_reducible assumption
  · with_reducible assumption

theorem issue_keeps {z : State} {x1 x2 x3 s} (hf3 : ∀ y1, Keeps z (y1) → Res.all (Keeps z) (x3 y1)) (h4 : Keeps z (s)) : Keeps z (issue x1 x2 x3 s) := by
  unfold issue
  with_reducible apply issueAny_keeps
  · with_reducible assumption
  · with_reducible assumption

theorem askStop_keeps {z : State} {x1 x2 s} (h3 : Keeps z (s)) : Keeps z (askStop x1 x2 s) := by
  unfold askStop
  with_reducible exact dueStop_keeps (State_setCore_keeps (by assumption))

theorem goOn_keeps {z : State} {s} (h1 : Keeps z (s)) : Res.all (Keeps z) (goOn s) := by
  unfold goOn
  with_reducible exact Res.okI (by assumption)

theorem wrACd_keeps {z : State} {x1 x2 x3 x4 s} (h5 : Keeps z (s)) : Keeps z (wrACd x1 x2 x3 x4 s) := by
  unfold wrACd
  extract_lets +onlyGivenNames v1
  clear_value v1
  with_reducible exact State_setArch_keeps (by assumption)

theorem writeCtl_keeps {z : State} {x1 x2 x3 s} (h4 : Keeps z (s)) : Keeps z (writeCtl x1 x2 x3 s) := by
  unfold writeCtl
  extract_lets +onlyGivenNames v1
  clear_value v1
  with_reducible refine Keeps.iteK ?_ ?_
  · with_reducible exact applyCtl_keeps (dropCtl_keeps (by assumption))
  · with_reducible exact State_setArch_keeps (by assumption)

theorem doRete_keeps {z : State} {x1 s} (h2 : Keeps z (s)) : Res.all (Keeps z) (doRete x1 s) := by
  unfold doRete
  extract_lets +onlyGivenNames v1
  clear_value v1
  extract_lets +onlyGivenNames v2
  clear_value v2
  extract_lets +onlyGivenNames v3
  clear_value v3
  extract_lets +onlyGivenNames v4
  have k4 : Res.all (Keeps z) (v4) := by
    dsimp only [v4]
    with_reducible refine Res.iteK ?_ ?_
    · with_reducible exact Res.okI (by assumption)
    · with_reducible refine Res.bindK ?_ ?_
      · with_reducible exact loadPairs_keeps (by assumption)
      · intro _ _
        intro _
        with_reducible exact Res.okI (by assumption)
  clear_value v4
  with_reducible refine Res.bindK ?_ ?_
  · with_reducible assumption
  · intro _ _
    intro _
    extract_lets +onlyGivenNames v5
    clear_value v5
    with_reducible refine Res.iteK ?_ ?_
    · with_reducible exact Res.trapI (by assumption)
    · extract_lets +onlyGivenNames v6
      have k6 : Keeps z (v6) := by
        dsimp only [v6]
        with_reducible exact restoreFrame_keeps (by assumption)
      clear_value v6
      with_reducible exact Res.okI (by assumption)

/-! ### Alu -/

theorem aluRR_keeps {z : State} {x1 x2 x3 x4 s} (h5 : Keeps z (s)) : Keeps z (aluRR x1 x2 x3 x4 s) := by
  unfold aluRR
  with_reducible apply issue_keeps
  · intro _ _
    with_reducible exact goOn_keeps (wrD_keeps (by assumption))
  · with_reducible assumption

theorem execAnd_keeps {z : State} {x1 x2 x3 s} (h4 : Keeps z (s)) : outcomeAll (Keeps z) (execAnd x1 x2 x3 s) := by
  unfold execAnd
  with_reducible exact outcomeAll_next (aluRR_keeps (by assumption))

theorem execShl_keeps {z : State} {x1 x2 x3 s} (h4 : Keeps z (s)) : outcomeAll (Keeps z) (execShl x1 x2 x3 s) := by
  unfold execShl
  with_reducible exact outcomeAll_next (aluRR_keeps (by assumption))

theorem compareTo_keeps {z : State} {x1 x2 x3 x4 s} (h5 : Keeps z (s)) : Res.all (Keeps z) (compareTo x1 x2 x3 x4 s) := by
  unfold compareTo
  split
  · with_reducible exact goOn_keeps (wrD_keeps (by assumption))
  · with_reducible exact illegal_keeps (by assumption)

theorem execCmp_keeps {z : State} {x1 x2 x3 x4 x5 s} (h6 : Keeps z (s)) : outcomeAll (Keeps z) (execCmp x1 x2 x3 x4 x5 s) := by
  unfold execCmp
  with_reducible refine outcomeAll_next ?_
  with_reducible apply issue_keeps
  · intro _ _
    with_reducible apply need_keeps
    · intro _ _
      with_reducible exact compareTo_keeps (by assumption)
    · with_reducible assumption
  · with_reducible assumption

theorem execOr_keeps {z : State} {x1 x2 x3 s} (h4 : Keeps z (s)) : outcomeAll (Keeps z) (execOr x1 x2 x3 s) := by
  unfold execOr
  with_reducible exact outcomeAll_next (aluRR_keeps (by assumption))

theorem execCc_keeps {z : State} {x1 x2 x3 x4 s} (h5 : Keeps z (s)) : outcomeAll (Keeps z) (execCc x1 x2 x3 x4 s) := by
  unfold execCc
  with_reducible refine outcomeAll_next ?_
  with_reducible apply issue_keeps
  · intro _ _
    with_reducible exact compareTo_keeps (by assumption)
  · with_reducible assumption

theorem shiftImm_keeps {z : State} {x1 x2 x3 x4 x5 s} (h6 : Keeps z (s)) : Keeps z (shiftImm x1 x2 x3 x4 x5 s) := by
  unfold shiftImm
  with_reducible apply issue_keeps
  · intro _ _
    with_reducible apply need_keeps
    · intro _ _
      with_reducible exact goOn_keeps (wrD_keeps (by assumption))
    · with_reducible assumption
  · with_reducible assumption

theorem execSari_keeps {z : State} {x1 x2 x3 s} (h4 : Keeps z (s)) : outcomeAll (Keeps z) (execSari x1 x2 x3 s) := by
  unfold execSari
  with_reducible exact outcomeAll_next (shiftImm_keeps (by assumption))

theorem execSub_keeps {z : State} {x1 x2 x3 s} (h4 : Keeps z (s)) : outcomeAll (Keeps z) (execSub x1 x2 x3 s) := by
  unfold execSub
  with_reducible exact outcomeAll_next (aluRR_keeps (by assumption))

theorem execShri_keeps {z : State} {x1 x2 x3 s} (h4 : Keeps z (s)) : outcomeAll (Keeps z) (execShri x1 x2 x3 s) := by
  unfold execShri
  with_reducible exact outcomeAll_next (shiftImm_keeps (by assumption))

theorem aluRI_keeps {z : State} {x1 x2 x3 s} (h4 : Keeps z (s)) : Keeps z (aluRI x1 x2 x3 s) := by
  unfold aluRI
  with_reducible apply issue_keeps
  · intro _ _
    with_reducible exact goOn_keeps (wrD_keeps (by assumption))
  · with_reducible assumption

theorem execXori_keeps {z : State} {x1 x2 x3 s} (h4 : Keeps z (s)) : outcomeAll (Keeps z) (execXori x1 x2 x3 s) := by
  unfold execXori
  with_reducible exact outcomeAll_next (aluRI_keeps (by assumption))

theorem moveRR_keeps {z : State} {x1 x2 x3 x4 s} (h5 : Keeps z (s)) : Keeps z (moveRR x1 x2 x3 x4 s) := by
  unfold moveRR
  with_reducible apply issue_keeps
  · intro _ _
    with_reducible exact goOn_keeps (wrD_keeps (by assumption))
  · with_reducible assumption

theorem execMov_keeps {z : State} {x1 x2 x3 s} (h4 : Keeps z (s)) : outcomeAll (Keeps z) (execMov x1 x2 x3 s) := by
  unfold execMov
  with_reducible exact outcomeAll_next (moveRR_keeps (by assumption))

theorem execCmpi_keeps {z : State} {x1 x2 x3 x4 x5 s} (h6 : Keeps z (s)) : outcomeAll (Keeps z) (execCmpi x1 x2 x3 x4 x5 s) := by
  unfold execCmpi
  with_reducible refine outcomeAll_next ?_
  with_reducible apply issue_keeps
  · intro _ _
    with_reducible exact compareTo_keeps (by assumption)
  · with_reducible assumption

theorem execSar_keeps {z : State} {x1 x2 x3 s} (h4 : Keeps z (s)) : outcomeAll (Keeps z) (execSar x1 x2 x3 s) := by
  unfold execSar
  with_reducible exact outcomeAll_next (aluRR_keeps (by assumption))

theorem execLui_keeps {z : State} {x1 x2 x3 s} (h4 : Keeps z (s)) : outcomeAll (Keeps z) (execLui x1 x2 x3 s) := by
  unfold execLui
  with_reducible exact outcomeAll_next (aluRI_keeps (by assumption))

theorem execAdd_keeps {z : State} {x1 x2 x3 s} (h4 : Keeps z (s)) : outcomeAll (Keeps z) (execAdd x1 x2 x3 s) := by
  unfold execAdd
  with_reducible exact outcomeAll_next (aluRR_keeps (by assumption))

theorem execLdi_keeps {z : State} {x1 x2 x3 s} (h4 : Keeps z (s)) : outcomeAll (Keeps z) (execLdi x1 x2 x3 s) := by
  unfold execLdi
  with_reducible refine outcomeAll_next ?_
  with_reducible apply issue_keeps
  · intro _ _
    with_reducible exact goOn_keeps (wrD_keeps (by assumption))
  · with_reducible assumption

theorem execShr_keeps {z : State} {x1 x2 x3 s} (h4 : Keeps z (s)) : outcomeAll (Keeps z) (execShr x1 x2 x3 s) := by
  unfold execShr
  with_reducible exact outcomeAll_next (aluRR_keeps (by assumption))

theorem execOri_keeps {z : State} {x1 x2 x3 s} (h4 : Keeps z (s)) : outcomeAll (Keeps z) (execOri x1 x2 x3 s) := by
  unfold execOri
  with_reducible exact outcomeAll_next (aluRI_keeps (by assumption))

theorem execNot_keeps {z : State} {x1 x2 x3 s} (h4 : Keeps z (s)) : outcomeAll (Keeps z) (execNot x1 x2 x3 s) := by
  unfold execNot
  with_reducible exact outcomeAll_next (moveRR_keeps (by assumption))

theorem execAddi_keeps {z : State} {x1 x2 x3 s} (h4 : Keeps z (s)) : outcomeAll (Keeps z) (execAddi x1 x2 x3 s) := by
  unfold execAddi
  with_reducible exact outcomeAll_next (aluRI_keeps (by assumption))

theorem execAndn_keeps {z : State} {x1 x2 x3 s} (h4 : Keeps z (s)) : outcomeAll (Keeps z) (execAndn x1 x2 x3 s) := by
  unfold execAndn
  with_reducible exact outcomeAll_next (aluRR_keeps (by assumption))

theorem execShli_keeps {z : State} {x1 x2 x3 s} (h4 : Keeps z (s)) : outcomeAll (Keeps z) (execShli x1 x2 x3 s) := by
  unfold execShli
  with_reducible exact outcomeAll_next (shiftImm_keeps (by assumption))

theorem execXor_keeps {z : State} {x1 x2 x3 s} (h4 : Keeps z (s)) : outcomeAll (Keeps z) (execXor x1 x2 x3 s) := by
  unfold execXor
  with_reducible exact outcomeAll_next (aluRR_keeps (by assumption))

theorem execLdi20_keeps {z : State} {x1 x2 x3 x4 x5 s} (h6 : Keeps z (s)) : outcomeAll (Keeps z) (execLdi20 x1 x2 x3 x4 x5 s) := by
  unfold execLdi20
  with_reducible refine outcomeAll_next ?_
  with_reducible apply issue_keeps
  · intro _ _
    with_reducible apply need_keeps
    · intro _ _
      with_reducible exact goOn_keeps (wrD_keeps (by assumption))
    · with_reducible assumption
  · with_reducible assumption

theorem execNeg_keeps {z : State} {x1 x2 x3 s} (h4 : Keeps z (s)) : outcomeAll (Keeps z) (execNeg x1 x2 x3 s) := by
  unfold execNeg
  with_reducible exact outcomeAll_next (moveRR_keeps (by assumption))

theorem execAndi_keeps {z : State} {x1 x2 x3 s} (h4 : Keeps z (s)) : outcomeAll (Keeps z) (execAndi x1 x2 x3 s) := by
  unfold execAndi
  with_reducible exact outcomeAll_next (aluRI_keeps (by assumption))

/-! ### Acc -/

theorem limbOp_keeps {z : State} {x1 x2 x3 x4 x5 s} (hf5 : ∀ y1, Keeps z (y1) → Res.all (Keeps z) (x5 y1)) (h6 : Keeps z (s)) : Keeps z (limbOp x1 x2 x3 x4 x5 s) := by
  unfold limbOp
  with_reducible apply issue_keeps
  · intro _ _
    with_reducible apply need_keeps
    · with_reducible assumption
    · with_reducible assumption
  · with_reducible assumption

theorem putLimbCarry_keeps {z : State} {x1 x2 x3 s} (h4 : Keeps z (s)) : Res.all (Keeps z) (putLimbCarry x1 x2 x3 s) := by
  unfold putLimbCarry
  with_reducible exact goOn_keeps (wrD_keeps (wrD_keeps (by assumption)))

theorem execLsbb_keeps {z : State} {x1 x2 x3 s} (h4 : Keeps z (s)) : outcomeAll (Keeps z) (execLsbb x1 x2 x3 s) := by
  unfold execLsbb
  with_reducible refine outcomeAll_next ?_
  with_reducible apply limbOp_keeps
  · intro _ _
    with_reducible exact putLimbCarry_keeps (by assumption)
  · with_reducible assumption

theorem overflow_keeps {z : State} {s} (h1 : Keeps z (s)) : Res.all (Keeps z) (overflow s) := by
  unfold overflow
  with_reducible exact Res.trapI (by assumption)

theorem putTop_keeps {z : State} {x1 x2 x3 s} (h4 : Keeps z (s)) : Res.all (Keeps z) (putTop x1 x2 x3 s) := by
  unfold putTop
  with_reducible refine Res.iteK ?_ ?_
  · with_reducible exact overflow_keeps (by assumption)
  · with_reducible exact goOn_keeps (wrD_keeps (wrD_keeps (by assumption)))

theorem execLtop_keeps {z : State} {x1 x2 x3 s} (h4 : Keeps z (s)) : outcomeAll (Keeps z) (execLtop x1 x2 x3 s) := by
  unfold execLtop
  with_reducible refine outcomeAll_next ?_
  with_reducible apply limbOp_keeps
  · intro _ _
    with_reducible exact putTop_keeps (by assumption)
  · with_reducible assumption

theorem formatErr_keeps {z : State} {x1 s} (h2 : Keeps z (s)) : Res.all (Keeps z) (formatErr x1 s) := by
  unfold formatErr
  with_reducible exact Res.trapI (by assumption)

theorem putAcc_keeps {z : State} {x1 x2 x3 x4 s} (h5 : Keeps z (s)) : Res.all (Keeps z) (putAcc x1 x2 x3 x4 s) := by
  unfold putAcc
  with_reducible refine Res.iteK ?_ ?_
  · with_reducible exact overflow_keeps (by assumption)
  · with_reducible exact goOn_keeps (wrACd_keeps (by assumption))

theorem execAcscl_keeps {z : State} {x1 x2 x3 x4 x5 s} (h6 : Keeps z (s)) : outcomeAll (Keeps z) (execAcscl x1 x2 x3 x4 x5 s) := by
  unfold execAcscl
  with_reducible refine outcomeAll_next ?_
  with_reducible apply issue_keeps
  · intro _ _
    with_reducible apply need_keeps
    · intro _ _
      extract_lets +onlyGivenNames v1
      clear_value v1
      extract_lets +onlyGivenNames v2
      clear_value v2
      with_reducible refine Res.iteK ?_ ?_
      · with_reducible exact formatErr_keeps (by assumption)
      · with_reducible refine Res.iteK ?_ ?_
        · with_reducible exact formatErr_keeps (by assumption)
        · with_reducible exact putAcc_keeps (by assumption)
    · with_reducible assumption
  · with_reducible assumption

theorem execMacu_keeps {z : State} {x1 x2 x3 x4 s} (h5 : Keeps z (s)) : outcomeAll (Keeps z) (execMacu x1 x2 x3 x4 s) := by
  unfold execMacu
  with_reducible refine outcomeAll_next ?_
  with_reducible apply issue_keeps
  · intro _ _
    with_reducible exact putAcc_keeps (by assumption)
  · with_reducible assumption

theorem execLadzs_keeps {z : State} {x1 x2 x3 s} (h4 : Keeps z (s)) : outcomeAll (Keeps z) (execLadzs x1 x2 x3 s) := by
  unfold execLadzs
  with_reducible refine outcomeAll_next ?_
  with_reducible apply limbOp_keeps
  · intro _ _
    extract_lets +onlyGivenNames v1
    clear_value v1
    with_reducible refine Res.iteK ?_ ?_
    · with_reducible exact overflow_keeps (by assumption)
    · with_reducible exact goOn_keeps (wrD_keeps (by assumption))
  · with_reducible assumption

theorem mulWide_keeps {z : State} {x1 x2 x3 x4 x5 s} (h6 : Keeps z (s)) : Keeps z (mulWide x1 x2 x3 x4 x5 s) := by
  unfold mulWide
  with_reducible apply issue_keeps
  · intro _ _
    with_reducible apply need_keeps
    · intro _ _
      with_reducible exact goOn_keeps (wrPairD_keeps (by assumption))
    · with_reducible assumption
  · with_reducible assumption

theorem execMulwu_keeps {z : State} {x1 x2 x3 s} (h4 : Keeps z (s)) : outcomeAll (Keeps z) (execMulwu x1 x2 x3 s) := by
  unfold execMulwu
  with_reducible exact outcomeAll_next (mulWide_keeps (by assumption))

theorem execLadc_keeps {z : State} {x1 x2 x3 s} (h4 : Keeps z (s)) : outcomeAll (Keeps z) (execLadc x1 x2 x3 s) := by
  unfold execLadc
  with_reducible refine outcomeAll_next ?_
  with_reducible apply limbOp_keeps
  · intro _ _
    with_reducible exact putLimbCarry_keeps (by assumption)
  · with_reducible assumption

theorem execLadz_keeps {z : State} {x1 x2 x3 s} (h4 : Keeps z (s)) : outcomeAll (Keeps z) (execLadz x1 x2 x3 s) := by
  unfold execLadz
  with_reducible refine outcomeAll_next ?_
  with_reducible apply limbOp_keeps
  · intro _ _
    extract_lets +onlyGivenNames v1
    clear_value v1
    with_reducible refine Res.iteK ?_ ?_
    · with_reducible exact overflow_keeps (by assumption)
    · with_reducible exact goOn_keeps (wrD_keeps (by assumption))
  · with_reducible assumption

theorem execAccmp_keeps {z : State} {x1 x2 x3 x4 x5 s} (h6 : Keeps z (s)) : outcomeAll (Keeps z) (execAccmp x1 x2 x3 x4 x5 s) := by
  unfold execAccmp
  with_reducible refine outcomeAll_next ?_
  with_reducible apply issue_keeps
  · intro _ _
    with_reducible apply need_keeps
    · intro _ _
      with_reducible exact compareTo_keeps (by assumption)
    · with_reducible assumption
  · with_reducible assumption

theorem execAcmov_keeps {z : State} {x1 x2 x3 x4 x5 s} (h6 : Keeps z (s)) : outcomeAll (Keeps z) (execAcmov x1 x2 x3 x4 x5 s) := by
  unfold execAcmov
  with_reducible refine outcomeAll_next ?_
  with_reducible apply issue_keeps
  · intro _ _
    with_reducible apply need_keeps
    · intro _ _
      with_reducible exact putAcc_keeps (by assumption)
    · with_reducible assumption
  · with_reducible assumption

theorem execMacs_keeps {z : State} {x1 x2 x3 x4 s} (h5 : Keeps z (s)) : outcomeAll (Keeps z) (execMacs x1 x2 x3 x4 s) := by
  unfold execMacs
  with_reducible refine outcomeAll_next ?_
  with_reducible apply issue_keeps
  · intro _ _
    with_reducible exact putAcc_keeps (by assumption)
  · with_reducible assumption

theorem limbsErr_keeps {z : State} {x1 x2 s} (h3 : Keeps z (s)) : Res.all (Keeps z) (limbsErr x1 x2 s) := by
  unfold limbsErr
  with_reducible exact Res.trapI (by assumption)

theorem execAclq_keeps {z : State} {x1 x2 x3 x4 x5 s} (h6 : Keeps z (s)) : outcomeAll (Keeps z) (execAclq x1 x2 x3 x4 x5 s) := by
  unfold execAclq
  with_reducible refine outcomeAll_next ?_
  with_reducible apply issue_keeps
  · intro _ _
    with_reducible apply need_keeps
    · intro _ _
      split
      · with_reducible exact limbsErr_keeps (by assumption)
      · with_reducible refine Res.bindK ?_ ?_
        · with_reducible exact load_keeps (by assumption)
        · intro _ _
          intro _
          with_reducible refine Res.bindK ?_ ?_
          · with_reducible exact putAcc_keeps (by assumption)
          · intro _ _
            intro _
            with_reducible exact Res.okI (noteLoad_keeps (by assumption))
    · with_reducible assumption
  · with_reducible assumption

theorem execAdiv_keeps {z : State} {x1 x2 x3 x4 x5 s} (h6 : Keeps z (s)) : outcomeAll (Keeps z) (execAdiv x1 x2 x3 x4 x5 s) := by
  unfold execAdiv
  with_reducible refine outcomeAll_next ?_
  with_reducible apply issue_keeps
  · intro _ _
    with_reducible apply need_keeps
    · intro _ _
      extract_lets +onlyGivenNames v1
      clear_value v1
      extract_lets +onlyGivenNames v2
      clear_value v2
      with_reducible refine Res.iteK ?_ ?_
      · with_reducible exact formatErr_keeps (by assumption)
      · with_reducible refine Res.iteK ?_ ?_
        · with_reducible exact Res.trapI (by assumption)
        · with_reducible exact putAcc_keeps (by assumption)
    · with_reducible assumption
  · with_reducible assumption

theorem execAcneg_keeps {z : State} {x1 x2 x3 x4 x5 s} (h6 : Keeps z (s)) : outcomeAll (Keeps z) (execAcneg x1 x2 x3 x4 x5 s) := by
  unfold execAcneg
  with_reducible refine outcomeAll_next ?_
  with_reducible apply issue_keeps
  · intro _ _
    with_reducible apply need_keeps
    · intro _ _
      with_reducible exact putAcc_keeps (by assumption)
    · with_reducible assumption
  · with_reducible assumption

theorem execLtopb_keeps {z : State} {x1 x2 x3 s} (h4 : Keeps z (s)) : outcomeAll (Keeps z) (execLtopb x1 x2 x3 s) := by
  unfold execLtopb
  with_reducible refine outcomeAll_next ?_
  with_reducible apply limbOp_keeps
  · intro _ _
    with_reducible exact putTop_keeps (by assumption)
  · with_reducible assumption

theorem packedOp_keeps {z : State} {x1 x2 x3 x4 x5 s} (h6 : Keeps z (s)) : Keeps z (packedOp x1 x2 x3 x4 x5 s) := by
  unfold packedOp
  with_reducible apply issue_keeps
  · intro _ _
    with_reducible apply need_keeps
    · intro _ _
      split
      · extract_lets +onlyGivenNames v1
        clear_value v1
        with_reducible exact goOn_keeps (wrD_keeps (wrD_keeps (by assumption)))
      · with_reducible exact formatErr_keeps (by assumption)
    · with_reducible assumption
  · with_reducible assumption

theorem execPdsub_keeps {z : State} {x1 x2 x3 s} (h4 : Keeps z (s)) : outcomeAll (Keeps z) (execPdsub x1 x2 x3 s) := by
  unfold execPdsub
  with_reducible exact outcomeAll_next (packedOp_keeps (by assumption))

theorem execMul_keeps {z : State} {x1 x2 x3 s} (h4 : Keeps z (s)) : outcomeAll (Keeps z) (execMul x1 x2 x3 s) := by
  unfold execMul
  with_reducible refine outcomeAll_next ?_
  with_reducible apply issue_keeps
  · intro _ _
    with_reducible exact goOn_keeps (wrDd_keeps (by assumption))
  · with_reducible assumption

theorem execAcz_keeps {z : State} {x1 x2 x3 x4 x5 s} (h6 : Keeps z (s)) : outcomeAll (Keeps z) (execAcz x1 x2 x3 x4 x5 s) := by
  unfold execAcz
  with_reducible refine outcomeAll_next ?_
  with_reducible apply issue_keeps
  · intro _ _
    with_reducible apply need_keeps
    · intro _ _
      with_reducible exact putAcc_keeps (by assumption)
    · with_reducible assumption
  · with_reducible assumption

theorem execAc5_keeps {z : State} {x1 x2 x3 x4 s} (h5 : Keeps z (s)) : outcomeAll (Keeps z) (execAc5 x1 x2 x3 x4 s) := by
  unfold execAc5
  with_reducible refine outcomeAll_next ?_
  with_reducible apply issue_keeps
  · intro _ _
    with_reducible apply need_keeps
    · intro _ _
      with_reducible exact putAcc_keeps (by assumption)
    · with_reducible assumption
  · with_reducible assumption

theorem execMulws_keeps {z : State} {x1 x2 x3 s} (h4 : Keeps z (s)) : outcomeAll (Keeps z) (execMulws x1 x2 x3 s) := by
  unfold execMulws
  with_reducible exact outcomeAll_next (mulWide_keeps (by assumption))

theorem execPdadd_keeps {z : State} {x1 x2 x3 s} (h4 : Keeps z (s)) : outcomeAll (Keeps z) (execPdadd x1 x2 x3 s) := by
  unfold execPdadd
  with_reducible exact outcomeAll_next (packedOp_keeps (by assumption))

theorem execLnrm_keeps {z : State} {x1 x2 x3 s} (h4 : Keeps z (s)) : outcomeAll (Keeps z) (execLnrm x1 x2 x3 s) := by
  unfold execLnrm
  with_reducible refine outcomeAll_next ?_
  with_reducible apply limbOp_keeps
  · intro _ _
    with_reducible apply need_keeps
    · intro _ _
      with_reducible exact putLimbCarry_keeps (by assumption)
    · with_reducible assumption
  · with_reducible assumption

theorem execAcsq_keeps {z : State} {x1 x2 x3 x4 x5 s} (h6 : Keeps z (s)) : outcomeAll (Keeps z) (execAcsq x1 x2 x3 x4 x5 s) := by
  unfold execAcsq
  with_reducible refine outcomeAll_next ?_
  with_reducible apply issue_keeps
  · intro _ _
    with_reducible apply need_keeps
    · intro _ _
      split
      · with_reducible exact limbsErr_keeps (by assumption)
      · extract_lets +onlyGivenNames v1
        clear_value v1
        extract_lets +onlyGivenNames v2
        clear_value v2
        with_reducible refine Res.bindK ?_ ?_
        · with_reducible exact xlate_keeps (by assumption)
        · intro _ _
          intro _
          split
          · with_reducible exact overflow_keeps (by assumption)
          · with_reducible refine Res.bindK ?_ ?_
            · with_reducible exact store_keeps (by assumption)
            · intro _ _
              intro _
              with_reducible exact goOn_keeps (by assumption)
    · with_reducible assumption
  · with_reducible assumption

/-! ### Addr -/

theorem execDwa_keeps {z : State} {x1 x2 x3 s} (h4 : Keeps z (s)) : outcomeAll (Keeps z) (execDwa x1 x2 x3 s) := by
  unfold execDwa
  with_reducible refine outcomeAll_next ?_
  with_reducible apply issue_keeps
  · intro _ _
    with_reducible apply need_keeps
    · intro _ _
      with_reducible exact goOn_keeps (wrPair_keeps (by assumption))
    · with_reducible assumption
  · with_reducible assumption

theorem addrOp_keeps {z : State} {x1 x2 x3 s} (h4 : Keeps z (s)) : Keeps z (addrOp x1 x2 x3 s) := by
  unfold addrOp
  with_reducible apply issue_keeps
  · intro _ _
    with_reducible exact goOn_keeps (wrA_keeps (by assumption))
  · with_reducible assumption

theorem execAaddd_keeps {z : State} {x1 x2 x3 s} (h4 : Keeps z (s)) : outcomeAll (Keeps z) (execAaddd x1 x2 x3 s) := by
  unfold execAaddd
  with_reducible exact outcomeAll_next (addrOp_keeps (by assumption))

theorem execAmov_keeps {z : State} {x1 x2 x3 s} (h4 : Keeps z (s)) : outcomeAll (Keeps z) (execAmov x1 x2 x3 s) := by
  unfold execAmov
  with_reducible refine outcomeAll_next ?_
  with_reducible apply issue_keeps
  · intro _ _
    with_reducible exact goOn_keeps (wrA_keeps (by assumption))
  · with_reducible assumption

theorem execAaddi_keeps {z : State} {x1 x2 x3 s} (h4 : Keeps z (s)) : outcomeAll (Keeps z) (execAaddi x1 x2 x3 s) := by
  unfold execAaddi
  with_reducible exact outcomeAll_next (addrOp_keeps (by assumption))

theorem execAsub_keeps {z : State} {x1 x2 x3 s} (h4 : Keeps z (s)) : outcomeAll (Keeps z) (execAsub x1 x2 x3 s) := by
  unfold execAsub
  with_reducible exact outcomeAll_next (addrOp_keeps (by assumption))

theorem execSdw_keeps {z : State} {x1 x2 x3 s} (h4 : Keeps z (s)) : outcomeAll (Keeps z) (execSdw x1 x2 x3 s) := by
  unfold execSdw
  with_reducible refine outcomeAll_next ?_
  with_reducible apply issue_keeps
  · intro _ _
    with_reducible apply need_keeps
    · intro _ _
      with_reducible exact goOn_keeps (wrS_keeps (by assumption))
    · with_reducible assumption
  · with_reducible assumption

theorem execAadds_keeps {z : State} {x1 x2 x3 s} (h4 : Keeps z (s)) : outcomeAll (Keeps z) (execAadds x1 x2 x3 s) := by
  unfold execAadds
  with_reducible exact outcomeAll_next (addrOp_keeps (by assumption))

theorem execAdw_keeps {z : State} {x1 x2 x3 s} (h4 : Keeps z (s)) : outcomeAll (Keeps z) (execAdw x1 x2 x3 s) := by
  unfold execAdw
  with_reducible refine outcomeAll_next ?_
  with_reducible apply issue_keeps
  · intro _ _
    with_reducible apply need_keeps
    · intro _ _
      with_reducible exact goOn_keeps (wrA_keeps (by assumption))
    · with_reducible assumption
  · with_reducible assumption

theorem execSai_keeps {z : State} {x1 x2 x3 x4 x5 s} (h6 : Keeps z (s)) : outcomeAll (Keeps z) (execSai x1 x2 x3 x4 x5 s) := by
  unfold execSai
  with_reducible refine outcomeAll_next ?_
  with_reducible apply issue_keeps
  · intro _ _
    with_reducible exact goOn_keeps (wrS_keeps (by assumption))
  · with_reducible assumption

theorem execDws_keeps {z : State} {x1 x2 x3 s} (h4 : Keeps z (s)) : outcomeAll (Keeps z) (execDws x1 x2 x3 s) := by
  unfold execDws
  with_reducible refine outcomeAll_next ?_
  with_reducible apply issue_keeps
  · intro _ _
    with_reducible apply need_keeps
    · intro _ _
      with_reducible exact goOn_keeps (wrPair_keeps (by assumption))
    · with_reducible assumption
  · with_reducible assumption

theorem execBchk_keeps {z : State} {x1 x2 x3 x4 s} (h5 : Keeps z (s)) : outcomeAll (Keeps z) (execBchk x1 x2 x3 x4 s) := by
  unfold execBchk
  with_reducible refine outcomeAll_next ?_
  with_reducible apply issue_keeps
  · intro _ _
    with_reducible apply need_keeps
    · intro _ _
      extract_lets +onlyGivenNames v1
      clear_value v1
      extract_lets +onlyGivenNames v2
      clear_value v2
      extract_lets +onlyGivenNames v3
      clear_value v3
      extract_lets +onlyGivenNames v4
      clear_value v4
      with_reducible refine Res.iteK ?_ ?_
      · with_reducible exact goOn_keeps (by assumption)
      · with_reducible exact Res.trapI (by assumption)
    · with_reducible assumption
  · with_reducible assumption

theorem execSmov_keeps {z : State} {x1 x2 x3 s} (h4 : Keeps z (s)) : outcomeAll (Keeps z) (execSmov x1 x2 x3 s) := by
  unfold execSmov
  with_reducible refine outcomeAll_next ?_
  with_reducible apply issue_keeps
  · intro _ _
    with_reducible exact goOn_keeps (wrS_keeps (by assumption))
  · with_reducible assumption

theorem execAaddl_keeps {z : State} {x1 x2 x3 x4 x5 s} (h6 : Keeps z (s)) : outcomeAll (Keeps z) (execAaddl x1 x2 x3 x4 x5 s) := by
  unfold execAaddl
  with_reducible refine outcomeAll_next ?_
  with_reducible apply issue_keeps
  · intro _ _
    with_reducible exact goOn_keeps (wrA_keeps (by assumption))
  · with_reducible assumption

theorem execLahi_keeps {z : State} {x1 x2 x3 x4 x5 s} (h6 : Keeps z (s)) : outcomeAll (Keeps z) (execLahi x1 x2 x3 x4 x5 s) := by
  unfold execLahi
  with_reducible refine outcomeAll_next ?_
  with_reducible apply issue_keeps
  · intro _ _
    with_reducible exact goOn_keeps (wrA_keeps (by assumption))
  · with_reducible assumption

theorem execCmpa_keeps {z : State} {x1 x2 x3 x4 x5 s} (h6 : Keeps z (s)) : outcomeAll (Keeps z) (execCmpa x1 x2 x3 x4 x5 s) := by
  unfold execCmpa
  with_reducible refine outcomeAll_next ?_
  with_reducible apply issue_keeps
  · intro _ _
    with_reducible apply need_keeps
    · intro _ _
      with_reducible exact compareTo_keeps (by assumption)
    · with_reducible assumption
  · with_reducible assumption

theorem execSneg_keeps {z : State} {x1 x2 x3 s} (h4 : Keeps z (s)) : outcomeAll (Keeps z) (execSneg x1 x2 x3 s) := by
  unfold execSneg
  with_reducible refine outcomeAll_next ?_
  with_reducible apply issue_keeps
  · intro _ _
    with_reducible exact goOn_keeps (wrS_keeps (by assumption))
  · with_reducible assumption

theorem execLai_keeps {z : State} {x1 x2 x3 x4 x5 s} (h6 : Keeps z (s)) : outcomeAll (Keeps z) (execLai x1 x2 x3 x4 x5 s) := by
  unfold execLai
  with_reducible refine outcomeAll_next ?_
  with_reducible apply issue_keeps
  · intro _ _
    with_reducible exact goOn_keeps (wrA_keeps (by assumption))
  · with_reducible assumption

theorem execAadd_keeps {z : State} {x1 x2 x3 s} (h4 : Keeps z (s)) : outcomeAll (Keeps z) (execAadd x1 x2 x3 s) := by
  unfold execAadd
  with_reducible exact outcomeAll_next (addrOp_keeps (by assumption))

/-! ### Memory -/

theorem lockedNone_keeps {z : State} {x1 s} (h2 : Keeps z (s)) : Keeps z (lockedNone x1 s) := by
  unfold lockedNone
  split
  · with_reducible refine Keeps.iteK ?_ ?_
    · with_reducible exact lockedEnd_keeps (by assumption)
    · with_reducible assumption
  · with_reducible assumption

theorem lockedWrite_keeps {z : State} {x1 x2 x3 s} (h4 : Keeps z (s)) : Keeps z (lockedWrite x1 x2 x3 s) := by
  unfold lockedWrite
  extract_lets +onlyGivenNames v1
  have k1 : Keeps z (v1) := by
    dsimp only [v1]
    with_reducible exact lineUpdate_keeps (by assumption)
  clear_value v1
  split
  · with_reducible refine Keeps.iteK ?_ ?_
    · with_reducible exact lockedEnd_keeps (by assumption)
    · with_reducible assumption
  · with_reducible exact writePlaces_keeps (by assumption)

theorem locked_keeps {z : State} {x1 x2 x3 x4 s} (hf4 : ∀ y1 y2, Keeps z (y2) → PairR.all (Keeps z) (x4 y1 y2)) (h5 : Keeps z (s)) : Res.all (Keeps z) (locked x1 x2 x3 x4 s) := by
  unfold locked
  extract_lets +onlyGivenNames v1
  clear_value v1
  with_reducible refine Res.iteK ?_ ?_
  · with_reducible exact Res.trapI (by assumption)
  · with_reducible refine Res.iteK ?_ ?_
    · with_reducible exact Res.trapI (by assumption)
    · extract_lets +onlyGivenNames v2
      have k2 : Keeps z (v2) := by
        dsimp only [v2]
        with_reducible exact drainAll_keeps (noteAccess_keeps (by assumption))
      clear_value v2
      with_reducible refine Res.bindK ?_ ?_
      · with_reducible exact xlate_keeps (by assumption)
      · intro _ _
        intro _
        with_reducible refine Res.iteK ?_ ?_
        · with_reducible exact Res.stallI (by assumption)
        · split
          · split
            · with_reducible refine PairR.sndI ?_
              with_reducible apply hf4
              with_reducible apply closeFetch_keeps
              with_reducible apply lockedNone_keeps
              with_reducible refine Res.okK (by assumption) ?_
              with_reducible exact readPlaces_keeps (openFetch_keeps (by assumption))
            · with_reducible refine PairR.sndI ?_
              with_reducible apply hf4
              with_reducible apply closeFetch_keeps
              with_reducible apply lockedWrite_keeps
              with_reducible refine Res.okK (by assumption) ?_
              with_reducible exact readPlaces_keeps (openFetch_keeps (by assumption))
          · with_reducible refine Res.trapI ?_
            with_reducible apply closeFetch_keeps
            with_reducible apply lockedNone_keeps
            with_reducible refine Res.trapK (by assumption) ?_
            with_reducible exact readPlaces_keeps (openFetch_keeps (by assumption))
          · with_reducible refine Res.stallI ?_
            with_reducible apply closeFetch_keeps
            with_reducible refine Res.stallK (by assumption) ?_
            with_reducible exact readPlaces_keeps (openFetch_keeps (by assumption))

theorem execLqadd_keeps {z : State} {x1 x2 x3 x4 x5 s} (h6 : Keeps z (s)) : outcomeAll (Keeps z) (execLqadd x1 x2 x3 x4 x5 s) := by
  unfold execLqadd
  extract_lets +onlyGivenNames v1
  clear_value v1
  with_reducible refine outcomeAll_next ?_
  with_reducible apply issueC_keeps
  · intro _ _
    with_reducible apply need_keeps
    · intro _ _
      with_reducible apply locked_keeps
      · intro _ _
        intro _
        extract_lets +onlyGivenNames v2
        clear_value v2
        split
        · with_reducible exact PairR.mkI (overflow_keeps (by assumption))
        · with_reducible exact PairR.mkI (goOn_keeps (wrD_keeps (by assumption)))
      · with_reducible assumption
    · with_reducible assumption
  · with_reducible assumption

theorem stackOp_keeps {z : State} {x1 x2 x3 x4 x5 x6 s} (hf6 : ∀ y1, Keeps z (y1) → Res.all (Keeps z) (x6 y1)) (h7 : Keeps z (s)) : Keeps z (stackOp x1 x2 x3 x4 x5 x6 s) := by
  unfold stackOp
  with_reducible apply issue_keeps
  · intro _ _
    with_reducible apply need_keeps
    · with_reducible assumption
    · with_reducible assumption
  · with_reducible assumption

theorem execPush_keeps {z : State} {x1 x2 x3 s} (h4 : Keeps z (s)) : outcomeAll (Keeps z) (execPush x1 x2 x3 s) := by
  unfold execPush
  with_reducible refine outcomeAll_next ?_
  with_reducible apply stackOp_keeps
  · intro _ _
    with_reducible refine Res.bindK ?_ ?_
    · with_reducible exact push_keeps (by assumption)
    · intro _ _
      intro _
      with_reducible exact goOn_keeps (by assumption)
  · with_reducible assumption

theorem storeD_keeps {z : State} {x1 x2 x3 s} (h4 : Keeps z (s)) : Res.all (Keeps z) (storeD x1 x2 x3 s) := by
  unfold storeD
  with_reducible refine Res.bindK ?_ ?_
  · with_reducible exact store_keeps (by assumption)
  · intro _ _
    intro _
    with_reducible exact goOn_keeps (by assumption)

theorem execStx_keeps {z : State} {x1 x2 x3 x4 x5 s} (h6 : Keeps z (s)) : outcomeAll (Keeps z) (execStx x1 x2 x3 x4 x5 s) := by
  unfold execStx
  with_reducible refine outcomeAll_next ?_
  with_reducible apply issue_keeps
  · intro _ _
    with_reducible apply need_keeps
    · intro _ _
      with_reducible exact storeD_keeps (by assumption)
    · with_reducible assumption
  · with_reducible assumption

theorem evenAddr_keeps {z : State} {x1 x2 x3 s} (hf3 : ∀ y1, Keeps z (y1) → Res.all (Keeps z) (x3 y1)) (h4 : Keeps z (s)) : Res.all (Keeps z) (evenAddr x1 x2 x3 s) := by
  unfold evenAddr
  with_reducible refine Res.iteK ?_ ?_
  · with_reducible apply hf3
    with_reducible assumption
  · with_reducible exact Res.trapI (by assumption)

theorem loadPair_keeps {z : State} {x1 x2 x3 s} (h4 : Keeps z (s)) : Res.all (Keeps z) (loadPair x1 x2 x3 s) := by
  unfold loadPair
  with_reducible apply evenAddr_keeps
  · intro _ _
    with_reducible refine Res.bindK ?_ ?_
    · with_reducible exact load_keeps (by assumption)
    · intro _ _
      intro _
      with_reducible exact goOn_keeps (noteLoad_keeps (wrPairD_keeps (by assumption)))
  · with_reducible assumption

theorem storeA_keeps {z : State} {x1 x2 x3 s} (h4 : Keeps z (s)) : Res.all (Keeps z) (storeA x1 x2 x3 s) := by
  unfold storeA
  with_reducible apply evenAddr_keeps
  · intro _ _
    with_reducible refine Res.bindK ?_ ?_
    · with_reducible exact store_keeps (by assumption)
    · intro _ _
      intro _
      with_reducible exact goOn_keeps (by assumption)
  · with_reducible assumption

theorem execSta_keeps {z : State} {x1 x2 x3 x4 s} (h5 : Keeps z (s)) : outcomeAll (Keeps z) (execSta x1 x2 x3 x4 s) := by
  unfold execSta
  with_reducible refine outcomeAll_next ?_
  with_reducible apply issue_keeps
  · intro _ _
    with_reducible exact storeA_keeps (by assumption)
  · with_reducible assumption

theorem longForm_keeps {z : State} {x1 x2 x3 x4 x5 x6 x7 s} (hf7 : ∀ y1, Keeps z (y1) → Res.all (Keeps z) (x7 y1)) (h8 : Keeps z (s)) : Keeps z (longForm x1 x2 x3 x4 x5 x6 x7 s) := by
  unfold longForm
  with_reducible apply issue_keeps
  · intro _ _
    with_reducible apply need_keeps
    · with_reducible assumption
    · with_reducible assumption
  · with_reducible assumption

theorem execLd2l_keeps {z : State} {x1 x2 x3 x4 x5 s} (h6 : Keeps z (s)) : outcomeAll (Keeps z) (execLd2l x1 x2 x3 x4 x5 s) := by
  unfold execLd2l
  with_reducible refine outcomeAll_next ?_
  with_reducible apply longForm_keeps
  · intro _ _
    with_reducible exact loadPair_keeps (by assumption)
  · with_reducible assumption

theorem execPusha_keeps {z : State} {x1 x2 x3 s} (h4 : Keeps z (s)) : outcomeAll (Keeps z) (execPusha x1 x2 x3 s) := by
  unfold execPusha
  with_reducible refine outcomeAll_next ?_
  with_reducible apply stackOp_keeps
  · intro _ _
    with_reducible refine Res.bindK ?_ ?_
    · with_reducible exact push_keeps (by assumption)
    · intro _ _
      intro _
      with_reducible exact goOn_keeps (by assumption)
  · with_reducible assumption

theorem loadD_keeps {z : State} {x1 x2 x3 s} (h4 : Keeps z (s)) : Res.all (Keeps z) (loadD x1 x2 x3 s) := by
  unfold loadD
  with_reducible refine Res.bindK ?_ ?_
  · with_reducible exact load_keeps (by assumption)
  · intro _ _
    intro _
    with_reducible exact goOn_keeps (noteLoad_keeps (wrDd_keeps (by assumption)))

theorem execLd_keeps {z : State} {x1 x2 x3 x4 s} (h5 : Keeps z (s)) : outcomeAll (Keeps z) (execLd x1 x2 x3 x4 s) := by
  unfold execLd
  with_reducible refine outcomeAll_next ?_
  with_reducible apply issue_keeps
  · intro _ _
    with_reducible exact loadD_keeps (by assumption)
  · with_reducible assumption

theorem storePair_keeps {z : State} {x1 x2 x3 s} (h4 : Keeps z (s)) : Res.all (Keeps z) (storePair x1 x2 x3 s) := by
  unfold storePair
  with_reducible apply evenAddr_keeps
  · intro _ _
    with_reducible refine Res.bindK ?_ ?_
    · with_reducible exact store_keeps (by assumption)
    · intro _ _
      intro _
      with_reducible exact goOn_keeps (by assumption)
  · with_reducible assumption

theorem execSt2_keeps {z : State} {x1 x2 x3 x4 s} (h5 : Keeps z (s)) : outcomeAll (Keeps z) (execSt2 x1 x2 x3 x4 s) := by
  unfold execSt2
  with_reducible refine outcomeAll_next ?_
  with_reducible apply issue_keeps
  · intro _ _
    with_reducible apply need_keeps
    · intro _ _
      with_reducible exact storePair_keeps (by assumption)
    · with_reducible assumption
  · with_reducible assumption

theorem loadA_keeps {z : State} {x1 x2 x3 s} (h4 : Keeps z (s)) : Res.all (Keeps z) (loadA x1 x2 x3 s) := by
  unfold loadA
  with_reducible apply evenAddr_keeps
  · intro _ _
    with_reducible refine Res.bindK ?_ ?_
    · with_reducible exact load_keeps (by assumption)
    · intro _ _
      intro _
      with_reducible exact goOn_keeps (noteLoad_keeps (wrAd_keeps (by assumption)))
  · with_reducible assumption

theorem execLda_keeps {z : State} {x1 x2 x3 x4 s} (h5 : Keeps z (s)) : outcomeAll (Keeps z) (execLda x1 x2 x3 x4 s) := by
  unfold execLda
  with_reducible refine outcomeAll_next ?_
  with_reducible apply issue_keeps
  · intro _ _
    with_reducible exact loadA_keeps (by assumption)
  · with_reducible assumption

theorem execSt2l_keeps {z : State} {x1 x2 x3 x4 x5 s} (h6 : Keeps z (s)) : outcomeAll (Keeps z) (execSt2l x1 x2 x3 x4 x5 s) := by
  unfold execSt2l
  with_reducible refine outcomeAll_next ?_
  with_reducible apply longForm_keeps
  · intro _ _
    with_reducible exact storePair_keeps (by assumption)
  · with_reducible assumption

theorem execStal_keeps {z : State} {x1 x2 x3 x4 x5 s} (h6 : Keeps z (s)) : outcomeAll (Keeps z) (execStal x1 x2 x3 x4 x5 s) := by
  unfold execStal
  with_reducible refine outcomeAll_next ?_
  with_reducible apply longForm_keeps
  · intro _ _
    with_reducible exact storeA_keeps (by assumption)
  · with_reducible assumption

theorem lockedWord_keeps {z : State} {x1 x2 x3 x4 x5 x6 x7 x8 s} (h9 : Keeps z (s)) : Keeps z (lockedWord x1 x2 x3 x4 x5 x6 x7 x8 s) := by
  unfold lockedWord
  with_reducible apply issueC_keeps
  · intro _ _
    with_reducible apply need_keeps
    · intro _ _
      with_reducible apply locked_keeps
      · intro _ _
        intro _
        extract_lets +onlyGivenNames v1
        clear_value v1
        with_reducible exact PairR.mkI (goOn_keeps (wrD_keeps (by assumption)))
      · with_reducible assumption
    · with_reducible assumption
  · with_reducible assumption

theorem execLcas_keeps {z : State} {x1 x2 x3 x4 x5 s} (h6 : Keeps z (s)) : outcomeAll (Keeps z) (execLcas x1 x2 x3 x4 x5 s) := by
  unfold execLcas
  with_reducible exact outcomeAll_next (lockedWord_keeps (by assumption))

theorem execLd2_keeps {z : State} {x1 x2 x3 x4 s} (h5 : Keeps z (s)) : outcomeAll (Keeps z) (execLd2 x1 x2 x3 x4 s) := by
  unfold execLd2
  with_reducible refine outcomeAll_next ?_
  with_reducible apply issue_keeps
  · intro _ _
    with_reducible apply need_keeps
    · intro _ _
      with_reducible exact loadPair_keeps (by assumption)
    · with_reducible assumption
  · with_reducible assumption

theorem execLxadd_keeps {z : State} {x1 x2 x3 x4 x5 s} (h6 : Keeps z (s)) : outcomeAll (Keeps z) (execLxadd x1 x2 x3 x4 x5 s) := by
  unfold execLxadd
  with_reducible exact outcomeAll_next (lockedWord_keeps (by assumption))

theorem execPop2_keeps {z : State} {x1 x2 x3 s} (h4 : Keeps z (s)) : outcomeAll (Keeps z) (execPop2 x1 x2 x3 s) := by
  unfold execPop2
  with_reducible refine outcomeAll_next ?_
  with_reducible apply stackOp_keeps
  · intro _ _
    with_reducible refine Res.bindK ?_ ?_
    · with_reducible exact pop_keeps (by assumption)
    · intro _ _
      intro _
      with_reducible exact goOn_keeps (noteLoad_keeps (wrPairD_keeps (by assumption)))
  · with_reducible assumption

theorem execLdal_keeps {z : State} {x1 x2 x3 x4 x5 s} (h6 : Keeps z (s)) : outcomeAll (Keeps z) (execLdal x1 x2 x3 x4 x5 s) := by
  unfold execLdal
  with_reducible refine outcomeAll_next ?_
  with_reducible apply longForm_keeps
  · intro _ _
    with_reducible exact loadA_keeps (by assumption)
  · with_reducible assumption

theorem execLxchg_keeps {z : State} {x1 x2 x3 x4 x5 s} (h6 : Keeps z (s)) : outcomeAll (Keeps z) (execLxchg x1 x2 x3 x4 x5 s) := by
  unfold execLxchg
  with_reducible exact outcomeAll_next (lockedWord_keeps (by assumption))

theorem execPopa_keeps {z : State} {x1 x2 x3 s} (h4 : Keeps z (s)) : outcomeAll (Keeps z) (execPopa x1 x2 x3 s) := by
  unfold execPopa
  with_reducible refine outcomeAll_next ?_
  with_reducible apply stackOp_keeps
  · intro _ _
    with_reducible refine Res.bindK ?_ ?_
    · with_reducible exact pop_keeps (by assumption)
    · intro _ _
      intro _
      with_reducible exact goOn_keeps (noteLoad_keeps (wrAd_keeps (by assumption)))
  · with_reducible assumption

theorem execLdx_keeps {z : State} {x1 x2 x3 x4 x5 s} (h6 : Keeps z (s)) : outcomeAll (Keeps z) (execLdx x1 x2 x3 x4 x5 s) := by
  unfold execLdx
  with_reducible refine outcomeAll_next ?_
  with_reducible apply issue_keeps
  · intro _ _
    with_reducible apply need_keeps
    · intro _ _
      with_reducible exact loadD_keeps (by assumption)
    · with_reducible assumption
  · with_reducible assumption

theorem execPop_keeps {z : State} {x1 x2 x3 s} (h4 : Keeps z (s)) : outcomeAll (Keeps z) (execPop x1 x2 x3 s) := by
  unfold execPop
  with_reducible refine outcomeAll_next ?_
  with_reducible apply stackOp_keeps
  · intro _ _
    with_reducible refine Res.bindK ?_ ?_
    · with_reducible exact pop_keeps (by assumption)
    · intro _ _
      intro _
      with_reducible exact goOn_keeps (noteLoad_keeps (wrDd_keeps (by assumption)))
  · with_reducible assumption

theorem execSt_keeps {z : State} {x1 x2 x3 x4 s} (h5 : Keeps z (s)) : outcomeAll (Keeps z) (execSt x1 x2 x3 x4 s) := by
  unfold execSt
  with_reducible refine outcomeAll_next ?_
  with_reducible apply issue_keeps
  · intro _ _
    with_reducible exact storeD_keeps (by assumption)
  · with_reducible assumption

theorem execStl_keeps {z : State} {x1 x2 x3 x4 x5 s} (h6 : Keeps z (s)) : outcomeAll (Keeps z) (execStl x1 x2 x3 x4 x5 s) := by
  unfold execStl
  with_reducible refine outcomeAll_next ?_
  with_reducible apply longForm_keeps
  · intro _ _
    with_reducible exact storeD_keeps (by assumption)
  · with_reducible assumption

theorem execPush2_keeps {z : State} {x1 x2 x3 s} (h4 : Keeps z (s)) : outcomeAll (Keeps z) (execPush2 x1 x2 x3 s) := by
  unfold execPush2
  with_reducible refine outcomeAll_next ?_
  with_reducible apply stackOp_keeps
  · intro _ _
    with_reducible refine Res.bindK ?_ ?_
    · with_reducible exact push_keeps (by assumption)
    · intro _ _
      intro _
      with_reducible exact goOn_keeps (by assumption)
  · with_reducible assumption

theorem execLdl_keeps {z : State} {x1 x2 x3 x4 x5 s} (h6 : Keeps z (s)) : outcomeAll (Keeps z) (execLdl x1 x2 x3 x4 x5 s) := by
  unfold execLdl
  with_reducible refine outcomeAll_next ?_
  with_reducible apply longForm_keeps
  · intro _ _
    with_reducible exact loadD_keeps (by assumption)
  · with_reducible assumption

/-! ### Branch -/

theorem jump_keeps {z : State} {x1 s} (h2 : Keeps z (s)) : Res.all (Keeps z) (jump x1 s) := by
  unfold jump
  with_reducible exact Res.okI (by assumption)

theorem callTo_keeps {z : State} {x1 x2 x3 s} (h4 : Keeps z (s)) : Res.all (Keeps z) (callTo x1 x2 x3 s) := by
  unfold callTo
  with_reducible refine Res.bindK ?_ ?_
  · with_reducible exact push_keeps (by assumption)
  · intro _ _
    intro _
    with_reducible exact jump_keeps (by assumption)

theorem execCalll_keeps {z : State} {x1 x2 x3 x4 x5 s} (h6 : Keeps z (s)) : outcomeAll (Keeps z) (execCalll x1 x2 x3 x4 x5 s) := by
  unfold execCalll
  with_reducible refine outcomeAll_next ?_
  with_reducible apply issue_keeps
  · intro _ _
    with_reducible apply need_keeps
    · intro _ _
      with_reducible exact callTo_keeps (by assumption)
    · with_reducible assumption
  · with_reducible assumption

theorem execJr_keeps {z : State} {x1 x2 s} (h3 : Keeps z (s)) : outcomeAll (Keeps z) (execJr x1 x2 s) := by
  unfold execJr
  with_reducible refine outcomeAll_next ?_
  with_reducible apply issue_keeps
  · intro _ _
    with_reducible exact jump_keeps (by assumption)
  · with_reducible assumption

theorem branchIf_keeps {z : State} {n : Nat} {x1 : Nat} {x2 : Bool} {x3 : BitVec n} {s : State} (h4 : Keeps z (s)) : Res.all (Keeps z) (@branchIf n x1 x2 x3 s) := by
  unfold branchIf
  with_reducible refine Res.iteK ?_ ?_
  · with_reducible exact jump_keeps (by assumption)
  · with_reducible exact goOn_keeps (by assumption)

theorem execBzl_keeps {z : State} {x1 x2 x3 x4 x5 s} (h6 : Keeps z (s)) : outcomeAll (Keeps z) (execBzl x1 x2 x3 x4 x5 s) := by
  unfold execBzl
  with_reducible refine outcomeAll_next ?_
  with_reducible apply issue_keeps
  · intro _ _
    with_reducible apply need_keeps
    · intro _ _
      with_reducible exact branchIf_keeps (by assumption)
    · with_reducible assumption
  · with_reducible assumption

theorem execBz_keeps {z : State} {x1 x2 x3 s} (h4 : Keeps z (s)) : outcomeAll (Keeps z) (execBz x1 x2 x3 s) := by
  unfold execBz
  with_reducible refine outcomeAll_next ?_
  with_reducible apply issue_keeps
  · intro _ _
    with_reducible exact branchIf_keeps (by assumption)
  · with_reducible assumption

theorem lengthAt_keeps {z : State} {x1 x2 s} (h3 : Keeps z (s)) : Res.all (Keeps z) (lengthAt x1 x2 s) := by
  unfold lengthAt
  extract_lets +onlyGivenNames v1
  clear_value v1
  with_reducible refine Res.iteK ?_ ?_
  · split
    · with_reducible exact Res.okI (by assumption)
    · with_reducible exact Res.stallI (by assumption)
  · with_reducible refine Res.bindK ?_ ?_
    · with_reducible exact xlate_keeps (by assumption)
    · intro _ _
      intro _
      with_reducible refine Res.bindK ?_ ?_
      · with_reducible exact readPlaces_keeps (by assumption)
      · intro _ _
        intro _
        with_reducible exact Res.okI (by assumption)

theorem openLoop_keeps {z : State} {x1 x2 x3 x4 s} (h5 : Keeps z (s)) : Res.all (Keeps z) (openLoop x1 x2 x3 x4 s) := by
  unfold openLoop
  extract_lets +onlyGivenNames v1
  clear_value v1
  extract_lets +onlyGivenNames v2
  clear_value v2
  with_reducible refine Res.iteK ?_ ?_
  · with_reducible exact Res.trapI (by assumption)
  · with_reducible refine Res.iteK ?_ ?_
    · with_reducible refine Res.bindK ?_ ?_
      · with_reducible exact lengthAt_keeps (by assumption)
      · intro _ _
        intro _
        with_reducible exact jump_keeps (by assumption)
    · with_reducible exact goOn_keeps (State_setArch_keeps (by assumption))

theorem execCallr_keeps {z : State} {x1 x2 s} (h3 : Keeps z (s)) : outcomeAll (Keeps z) (execCallr x1 x2 s) := by
  unfold execCallr
  with_reducible refine outcomeAll_next ?_
  with_reducible apply issue_keeps
  · intro _ _
    with_reducible exact callTo_keeps (by assumption)
  · with_reducible assumption

theorem execBnzl_keeps {z : State} {x1 x2 x3 x4 x5 s} (h6 : Keeps z (s)) : outcomeAll (Keeps z) (execBnzl x1 x2 x3 x4 x5 s) := by
  unfold execBnzl
  with_reducible refine outcomeAll_next ?_
  with_reducible apply issue_keeps
  · intro _ _
    with_reducible apply need_keeps
    · intro _ _
      with_reducible exact branchIf_keeps (by assumption)
    · with_reducible assumption
  · with_reducible assumption

theorem loopOp_keeps {z : State} {x1 x2 x3 x4 x5 s} (h6 : Keeps z (s)) : Res.all (Keeps z) (loopOp x1 x2 x3 x4 x5 s) := by
  unfold loopOp
  with_reducible refine Res.iteK ?_ ?_
  · with_reducible exact illegal_keeps (by assumption)
  · extract_lets +onlyGivenNames v1
    clear_value v1
    extract_lets +onlyGivenNames v2
    clear_value v2
    extract_lets +onlyGivenNames v3
    have k3 : Keeps z (v3) := by
      dsimp only [v3]
      with_reducible refine Keeps.iteK ?_ ?_
      · with_reducible assumption
      · with_reducible exact dropCtl_keeps (by assumption)
    clear_value v3
    with_reducible exact openLoop_keeps (by assumption)

theorem execLoop_keeps {z : State} {x1 x2 x3 s} (h4 : Keeps z (s)) : outcomeAll (Keeps z) (execLoop x1 x2 x3 s) := by
  unfold execLoop
  with_reducible refine outcomeAll_next ?_
  with_reducible apply issue_keeps
  · intro _ _
    with_reducible exact loopOp_keeps (by assumption)
  · with_reducible assumption

theorem execRet_keeps {z : State} {x1 x2 s} (h3 : Keeps z (s)) : outcomeAll (Keeps z) (execRet x1 x2 s) := by
  unfold execRet
  with_reducible refine outcomeAll_next ?_
  with_reducible apply issue_keeps
  · intro _ _
    with_reducible refine Res.bindK ?_ ?_
    · with_reducible exact pop_keeps (by assumption)
    · intro _ _
      intro _
      with_reducible exact jump_keeps (by assumption)
  · with_reducible assumption

theorem execLoopl_keeps {z : State} {x1 x2 x3 x4 x5 s} (h6 : Keeps z (s)) : outcomeAll (Keeps z) (execLoopl x1 x2 x3 x4 x5 s) := by
  unfold execLoopl
  with_reducible refine outcomeAll_next ?_
  with_reducible apply issue_keeps
  · intro _ _
    with_reducible apply need_keeps
    · intro _ _
      with_reducible exact loopOp_keeps (by assumption)
    · with_reducible assumption
  · with_reducible assumption

theorem execBrl_keeps {z : State} {x1 x2 x3 x4 x5 s} (h6 : Keeps z (s)) : outcomeAll (Keeps z) (execBrl x1 x2 x3 x4 x5 s) := by
  unfold execBrl
  with_reducible refine outcomeAll_next ?_
  with_reducible apply issue_keeps
  · intro _ _
    with_reducible apply need_keeps
    · intro _ _
      with_reducible exact jump_keeps (by assumption)
    · with_reducible assumption
  · with_reducible assumption

theorem execCall_keeps {z : State} {x1 x2 s} (h3 : Keeps z (s)) : outcomeAll (Keeps z) (execCall x1 x2 s) := by
  unfold execCall
  with_reducible refine outcomeAll_next ?_
  with_reducible apply issue_keeps
  · intro _ _
    with_reducible exact callTo_keeps (by assumption)
  · with_reducible assumption

theorem execBr_keeps {z : State} {x1 x2 s} (h3 : Keeps z (s)) : outcomeAll (Keeps z) (execBr x1 x2 s) := by
  unfold execBr
  with_reducible refine outcomeAll_next ?_
  with_reducible apply issue_keeps
  · intro _ _
    with_reducible exact jump_keeps (by assumption)
  · with_reducible assumption

theorem execBnz_keeps {z : State} {x1 x2 x3 s} (h4 : Keeps z (s)) : outcomeAll (Keeps z) (execBnz x1 x2 x3 s) := by
  unfold execBnz
  with_reducible refine outcomeAll_next ?_
  with_reducible apply issue_keeps
  · intro _ _
    with_reducible exact branchIf_keeps (by assumption)
  · with_reducible assumption

theorem execLexit_keeps {z : State} {x1 x2 s} (h3 : Keeps z (s)) : outcomeAll (Keeps z) (execLexit x1 x2 s) := by
  unfold execLexit
  with_reducible refine outcomeAll_next ?_
  with_reducible apply issue_keeps
  · intro _ _
    with_reducible apply need_keeps
    · intro _ _
      extract_lets +onlyGivenNames v1
      clear_value v1
      with_reducible exact goOn_keeps (dropCtl_keeps (State_setArch_keeps (by assumption)))
    · with_reducible assumption
  · with_reducible assumption

/-! ### Events -/

theorem takeOrphans_keeps {z : State} {x1 s} (h2 : Keeps z (s)) : Keeps z (takeOrphans x1 s) := by
  unfold takeOrphans
  with_reducible refine Keeps.foldl ?_ _ ?_
  · intro _ _
    intro _
    extract_lets +onlyGivenNames v1
    clear_value v1
    extract_lets +onlyGivenNames v2
    clear_value v2
    with_reducible refine Keeps.iteK ?_ ?_
    · with_reducible exact logErr_keeps (State_setSrc_keeps (by assumption))
    · with_reducible assumption
  · with_reducible assumption

theorem withdraw_keeps {z : State} {s} (h1 : Keeps z (s)) : Keeps z (withdraw s) := by
  unfold withdraw
  with_reducible exact Keeps.upd (by assumption) rfl rfl rfl rfl

theorem commitTarget_keeps {z : State} {x1 s} (h2 : Keeps z (s)) : Keeps z (commitTarget x1 s) := by
  unfold commitTarget
  extract_lets +onlyGivenNames v1
  clear_value v1
  with_reducible refine Keeps.iteK ?_ ?_
  · with_reducible exact withdraw_keeps (State_setSrc_keeps (by assumption))
  · with_reducible exact State_setSrc_keeps (by assumption)

theorem writeTarget_keeps {z : State} {x1 x2 s} (h3 : Keeps z (s)) : Keeps z (writeTarget x1 x2 s) := by
  unfold writeTarget
  with_reducible refine Keeps.iteK ?_ ?_
  · with_reducible assumption
  · extract_lets +onlyGivenNames v1
    clear_value v1
    extract_lets +onlyGivenNames v2
    have k2 : Keeps z (v2) := by
      dsimp only [v2]
      with_reducible exact State_setSrc_keeps (by assumption)
    clear_value v2
    with_reducible refine Keeps.iteK ?_ ?_
    · with_reducible exact commitTarget_keeps (by assumption)
    · with_reducible assumption

theorem evOp_keeps {z : State} {x1 x2 x3 x4 x5 x6 x7 s} (hf7 : ∀ y1, Keeps z (y1) → Res.all (Keeps z) (x7 y1)) (h8 : Keeps z (s)) : Keeps z (evOp x1 x2 x3 x4 x5 x6 x7 s) := by
  unfold evOp
  with_reducible apply issueAny_keeps
  · intro _ _
    with_reducible apply need_keeps
    · intro _ _
      with_reducible apply needLevel_keeps
      · with_reducible assumption
      · with_reducible assumption
    · with_reducible assumption
  · with_reducible assumption

theorem writeEv_keeps {z : State} {x1 x2 s} (h3 : Keeps z (s)) : Keeps z (writeEv x1 x2 s) := by
  unfold writeEv
  split
  · with_reducible exact Keeps.upd (by assumption) rfl rfl rfl rfl
  · with_reducible assumption
  · extract_lets +onlyGivenNames v1
    clear_value v1
    split
    · with_reducible exact State_setSrc_keeps (by assumption)
    · with_reducible exact writeTarget_keeps (by assumption)
    · with_reducible exact State_setSrc_keeps (by assumption)
    · with_reducible refine Keeps.iteK ?_ ?_
      · with_reducible refine Keeps.iteK ?_ ?_
        · with_reducible exact fireSrc_keeps (by assumption)
        · with_reducible assumption
      · with_reducible assumption

theorem complete_keeps {z : State} {x1 x2 s} (h3 : Keeps z (s)) : Pair.all (Keeps z) (complete x1 x2 s) := by
  unfold complete
  split
  · extract_lets +onlyGivenNames v1
    clear_value v1
    with_reducible refine Pair.iteK ?_ ?_
    · with_reducible refine Pair.iteK ?_ ?_
      · with_reducible exact Pair.mkI (State_setSrc_keeps (by assumption))
      · with_reducible exact Pair.mkI (by assumption)
    · with_reducible exact Pair.mkI (by assumption)
  · with_reducible exact Pair.mkI (by assumption)

theorem execEvcmp_keeps {z : State} {x1 x2 s} (h3 : Keeps z (s)) : outcomeAll (Keeps z) (execEvcmp x1 x2 s) := by
  unfold execEvcmp
  with_reducible refine outcomeAll_next ?_
  with_reducible apply evOp_keeps
  · intro _ _
    extract_lets +onlyGivenNames v1
    have k1 : Pair.all (Keeps z) (v1) := by
      dsimp only [v1]
      with_reducible exact complete_keeps (by assumption)
    clear_value v1
    with_reducible exact goOn_keeps (wrD_keeps (Pair.sndI (by assumption)))
  · with_reducible assumption

theorem present_keeps {z : State} {x1 s} (h2 : Keeps z (s)) : Keeps z (present x1 s) := by
  unfold present
  extract_lets +onlyGivenNames v1
  have k1 : Keeps z (v1) := by
    dsimp only [v1]
    with_reducible exact withdraw_keeps (by assumption)
  clear_value v1
  split
  · with_reducible assumption
  · extract_lets +onlyGivenNames v2
    have k2 : Keeps z (v2) := by
      dsimp only [v2]
      with_reducible exact Keeps.upd (by assumption) rfl rfl rfl rfl
    clear_value v2
    with_reducible exact State_setSrc_keeps (by assumption)

theorem endWait_keeps {z : State} {x1 s} (h2 : Keeps z (s)) : Keeps z (endWait x1 s) := by
  unfold endWait
  extract_lets +onlyGivenNames v1
  clear_value v1
  extract_lets +onlyGivenNames v2
  have k2 : Keeps z (v2) := by
    dsimp only [v2]
    with_reducible exact State_setCore_keeps (by assumption)
  clear_value v2
  with_reducible apply takeReady_keeps
  with_reducible refine Keeps.iteK ?_ ?_
  · with_reducible assumption
  · with_reducible exact present_keeps (by assumption)

theorem wakeCore_keeps {z : State} {x1 s} (h2 : Keeps z (s)) : Keeps z (wakeCore x1 s) := by
  unfold wakeCore
  extract_lets +onlyGivenNames v1
  clear_value v1
  with_reducible refine Keeps.iteK ?_ ?_
  · with_reducible exact endWait_keeps (by assumption)
  · with_reducible assumption

theorem execEventPresentation_keeps {z : State} {x1 s} (h2 : Keeps z (s)) : outcomeAll (Keeps z) (execEventPresentation x1 s) := by
  unfold execEventPresentation
  with_reducible exact outcomeAll_next (present_keeps (takeOrphans_keeps (wakeCore_keeps (present_keeps (by assumption)))))

theorem claim_keeps {z : State} {x1 s} (h2 : Keeps z (s)) : Pair.all (Keeps z) (claim x1 s) := by
  unfold claim
  split
  · with_reducible exact Pair.mkI (State_setSrc_keeps (by assumption))
  · with_reducible exact Pair.mkI (by assumption)

theorem execEvclm_keeps {z : State} {x1 x2 s} (h3 : Keeps z (s)) : outcomeAll (Keeps z) (execEvclm x1 x2 s) := by
  unfold execEvclm
  with_reducible refine outcomeAll_next ?_
  with_reducible apply evOp_keeps
  · intro _ _
    extract_lets +onlyGivenNames v1
    have k1 : Pair.all (Keeps z) (v1) := by
      dsimp only [v1]
      with_reducible exact claim_keeps (by assumption)
    clear_value v1
    with_reducible exact goOn_keeps (wrD_keeps (Pair.sndI (by assumption)))
  · with_reducible assumption

theorem reachEv_keeps {z : State} {x1 x2 x3 x4 x5 x6 s} (hf6 : ∀ y1 y2, Keeps z (y2) → Res.all (Keeps z) (x6 y1 y2)) (h7 : Keeps z (s)) : Res.all (Keeps z) (reachEv x1 x2 x3 x4 x5 x6 s) := by
  unfold reachEv
  split
  · with_reducible exact illegal_keeps (by assumption)
  · with_reducible refine Res.iteK ?_ ?_
    · with_reducible apply hf6
      with_reducible assumption
    · with_reducible exact privileged_keeps (by assumption)

theorem execEvrd_keeps {z : State} {x1 x2 s} (h3 : Keeps z (s)) : outcomeAll (Keeps z) (execEvrd x1 x2 s) := by
  unfold execEvrd
  with_reducible refine outcomeAll_next ?_
  with_reducible apply evOp_keeps
  · intro _ _
    with_reducible apply reachEv_keeps
    · intro _ _
      intro _
      with_reducible exact goOn_keeps (wrD_keeps (by assumption))
    · with_reducible assumption
  · with_reducible assumption

theorem signal_keeps {z : State} {x1 x2 x3 s} (h4 : Keeps z (s)) : Pair.all (Keeps z) (signal x1 x2 x3 s) := by
  unfold signal
  extract_lets +onlyGivenNames v1
  clear_value v1
  with_reducible refine Pair.iteK ?_ ?_
  · with_reducible exact Pair.mkI (fireSrc_keeps (by assumption))
  · split
    · with_reducible exact Pair.mkI (by assumption)
    · split
      · with_reducible exact Pair.mkI (by assumption)
      · split
        · with_reducible exact Pair.mkI (fireSrc_keeps (by assumption))
        · extract_lets +onlyGivenNames v2
          clear_value v2
          with_reducible exact Pair.mkI (State_setJob_keeps (by assumption))
        · with_reducible exact Pair.mkI (by assumption)

theorem execEvset_keeps {z : State} {x1 x2 s} (h3 : Keeps z (s)) : outcomeAll (Keeps z) (execEvset x1 x2 s) := by
  unfold execEvset
  with_reducible refine outcomeAll_next ?_
  with_reducible apply evOp_keeps
  · intro _ _
    extract_lets +onlyGivenNames v1
    clear_value v1
    extract_lets +onlyGivenNames v2
    have k2 : Pair.all (Keeps z) (v2) := by
      dsimp only [v2]
      with_reducible exact signal_keeps (by assumption)
    clear_value v2
    with_reducible exact goOn_keeps (wrD_keeps (Pair.sndI (by assumption)))
  · with_reducible assumption

theorem execEvwr_keeps {z : State} {x1 x2 s} (h3 : Keeps z (s)) : outcomeAll (Keeps z) (execEvwr x1 x2 s) := by
  unfold execEvwr
  with_reducible refine outcomeAll_next ?_
  with_reducible apply evOp_keeps
  · intro _ _
    extract_lets +onlyGivenNames v1
    clear_value v1
    with_reducible apply reachEv_keeps
    · intro _ _
      intro _
      with_reducible exact goOn_keeps (writeEv_keeps (by assumption))
    · with_reducible assumption
  · with_reducible assumption

theorem execSetp_keeps {z : State} {x1 s} (h2 : Keeps z (s)) : outcomeAll (Keeps z) (execSetp x1 s) := by
  unfold execSetp
  with_reducible exact outcomeAll_next (writeEv_keeps (by assumption))

theorem execTargetCommit_keeps {z : State} {x1 x2 s} (h3 : Keeps z (s)) : outcomeAll (Keeps z) (execTargetCommit x1 x2 s) := by
  unfold execTargetCommit
  with_reducible exact outcomeAll_next (writeTarget_keeps (by assumption))

/-! ### Control -/

theorem writeYrAttr_keeps {z : State} {x1 x2 s} (h3 : Keeps z (s)) : Keeps z (writeYrAttr x1 x2 s) := by
  unfold writeYrAttr
  extract_lets +onlyGivenNames v1
  clear_value v1
  extract_lets +onlyGivenNames v2
  clear_value v2
  extract_lets +onlyGivenNames v3
  clear_value v3
  extract_lets +onlyGivenNames v4
  have k4 : Keeps z (v4) := by
    dsimp only [v4]
    with_reducible exact writeCtl_keeps (State_setRegion_keeps (by assumption))
  clear_value v4
  extract_lets +onlyGivenNames v5
  clear_value v5
  with_reducible refine Keeps.iteK ?_ ?_
  · with_reducible assumption
  · with_reducible refine Keeps.iteK ?_ ?_
    · with_reducible exact State_setRegion_keeps (by assumption)
    · extract_lets +onlyGivenNames v6
      have k6 : Keeps z (v6) := by
        dsimp only [v6]
        with_reducible exact State_setRegion_keeps (by assumption)
      clear_value v6
      with_reducible exact writeCtl_keeps (writeCtl_keeps (by assumption))

theorem writeXlCommit_keeps {z : State} {x1 x2 s} (h3 : Keeps z (s)) : Keeps z (writeXlCommit x1 x2 s) := by
  unfold writeXlCommit
  extract_lets +onlyGivenNames v1
  clear_value v1
  extract_lets +onlyGivenNames v2
  extract_lets +onlyGivenNames v3
  have k3 : Keeps z (v3) := by
    dsimp only [v3]
    with_reducible exact State_setBent_keeps (by assumption)
  clear_value v3
  extract_lets +onlyGivenNames v4
  with_reducible refine Keeps.iteK ?_ ?_
  · with_reducible assumption
  · with_reducible refine Keeps.iteK ?_ ?_
    · with_reducible exact answered_keeps (State_setBent_keeps (by assumption))
    · extract_lets +onlyGivenNames v5
      have k5 : Keeps z (v5) := by
        dsimp only [v5]
        with_reducible exact answered_keeps (State_setBent_keeps (by assumption))
      clear_value v5
      with_reducible exact writeCtl_keeps (writeCtl_keeps (by assumption))

theorem ctlWrite_keeps {z : State} {x1 x2 x3 s} (h4 : Keeps z (s)) : Keeps z (ctlWrite x1 x2 x3 s) := by
  unfold ctlWrite
  extract_lets +onlyGivenNames v1
  clear_value v1
  extract_lets +onlyGivenNames v2
  extract_lets +onlyGivenNames v3
  clear_value v3
  extract_lets +onlyGivenNames v4
  clear_value v4
  with_reducible refine Keeps.iteK ?_ ?_
  · with_reducible exact State_setBent_keeps (by assumption)
  · with_reducible refine Keeps.iteK ?_ ?_
    · with_reducible exact State_setBent_keeps (by assumption)
    · with_reducible refine Keeps.iteK ?_ ?_
      · with_reducible exact writeXlCommit_keeps (by assumption)
      · with_reducible refine Keeps.iteK ?_ ?_
        · with_reducible exact State_setRegion_keeps (by assumption)
        · with_reducible refine Keeps.iteK ?_ ?_
          · with_reducible exact State_setRegion_keeps (by assumption)
          · with_reducible refine Keeps.iteK ?_ ?_
            · with_reducible exact writeYrAttr_keeps (by assumption)
            · with_reducible exact writeCtl_keeps (by assumption)

theorem ctlRead_keeps {z : State} {x1 x2 s} (h3 : Keeps z (s)) : Res.all (Keeps z) (ctlRead x1 x2 s) := by
  unfold ctlRead
  extract_lets +onlyGivenNames v1
  clear_value v1
  with_reducible refine Res.iteK ?_ ?_
  · with_reducible exact Res.stallI (by assumption)
  · with_reducible refine Res.iteK ?_ ?_
    · with_reducible exact Res.stallI (by assumption)
    · split
      · with_reducible exact Res.okI (by assumption)
      · with_reducible exact Res.okI (by assumption)

theorem wrClass_keeps {z : State} {x1 x2 x3 x4 s} (h5 : Keeps z (s)) : Keeps z (wrClass x1 x2 x3 x4 s) := by
  unfold wrClass
  split
  · with_reducible exact wrD_keeps (by assumption)
  · with_reducible exact wrPair_keeps (by assumption)
  · with_reducible exact wrA_keeps (by assumption)

theorem movc_keeps {z : State} {x1 x2 x3 x4 x5 x6 x7 s} (h8 : Keeps z (s)) : Keeps z (movc x1 x2 x3 x4 x5 x6 x7 s) := by
  unfold movc
  with_reducible apply issueAny_keeps
  · intro _ _
    split
    · with_reducible exact illegal_keeps (by assumption)
    · with_reducible refine Res.iteK ?_ ?_
      · with_reducible exact illegal_keeps (by assumption)
      · with_reducible refine Res.iteK ?_ ?_
        · split
          · with_reducible exact illegal_keeps (by assumption)
          · with_reducible apply needLevel_keeps
            · intro _ _
              with_reducible exact goOn_keeps (ctlWrite_keeps (by assumption))
            · with_reducible assumption
        · with_reducible refine Res.bindK ?_ ?_
          · with_reducible exact ctlRead_keeps (by assumption)
          · intro _ _
            intro _
            with_reducible exact goOn_keeps (wrClass_keeps (by assumption))
  · with_reducible assumption

theorem execIinv_keeps {z : State} {x1 x2 s} (h3 : Keeps z (s)) : outcomeAll (Keeps z) (execIinv x1 x2 s) := by
  unfold execIinv
  with_reducible exact outcomeAll_next (movc_keeps (by assumption))

theorem execTickcmpWrite_keeps {z : State} {x1 x2 x3 s} (h4 : Keeps z (s)) : outcomeAll (Keeps z) (execTickcmpWrite x1 x2 x3 s) := by
  unfold execTickcmpWrite
  extract_lets +onlyGivenNames v1
  clear_value v1
  with_reducible refine outcomeAll_ite ?_ ?_
  · with_reducible refine outcomeAll_next ?_
    with_reducible apply issue_keeps
    · intro _ _
      with_reducible exact illegal_keeps (by assumption)
    · with_reducible assumption
  · with_reducible exact outcomeAll_next (movc_keeps (by assumption))

theorem execXlcommit_keeps {z : State} {x1 x2 s} (h3 : Keeps z (s)) : outcomeAll (Keeps z) (execXlcommit x1 x2 s) := by
  unfold execXlcommit
  with_reducible exact outcomeAll_next (movc_keeps (by assumption))

theorem execMovc_keeps {z : State} {x1 x2 x3 x4 x5 s} (h6 : Keeps z (s)) : outcomeAll (Keeps z) (execMovc x1 x2 x3 x4 x5 s) := by
  unfold execMovc
  extract_lets +onlyGivenNames v1
  clear_value v1
  with_reducible refine outcomeAll_ite ?_ ?_
  · with_reducible refine outcomeAll_next ?_
    with_reducible apply issue_keeps
    · intro _ _
      with_reducible exact illegal_keeps (by assumption)
    · with_reducible assumption
  · with_reducible exact outcomeAll_next (movc_keeps (by assumption))

theorem execDinv_keeps {z : State} {x1 x2 s} (h3 : Keeps z (s)) : outcomeAll (Keeps z) (execDinv x1 x2 s) := by
  unfold execDinv
  with_reducible exact outcomeAll_next (movc_keeps (by assumption))

/-! ### System -/

theorem execBrk_keeps {z : State} {x1 x2 s} (h3 : Keeps z (s)) : outcomeAll (Keeps z) (execBrk x1 x2 s) := by
  unfold execBrk
  with_reducible refine outcomeAll_next ?_
  with_reducible apply issue_keeps
  · intro _ _
    with_reducible exact Res.trapI (by assumption)
  · with_reducible assumption

theorem dropTlb_keeps {z : State} {x1 s} (h2 : Keeps z (s)) : Keeps z (dropTlb x1 s) := by
  unfold dropTlb
  with_reducible exact Keeps.upd (by assumption) rfl rfl rfl rfl

theorem xinv_keeps {z : State} {x1 x2 x3 x4 s} (h5 : Keeps z (s)) : Keeps z (xinv x1 x2 x3 x4 s) := by
  unfold xinv
  with_reducible apply issueC_keeps
  · intro _ _
    with_reducible apply needLevel_keeps
    · intro _ _
      extract_lets +onlyGivenNames v1
      have k1 : Keeps z (v1) := by
        dsimp only [v1]
        with_reducible exact drainAll_keeps (by assumption)
      clear_value v1
      with_reducible refine Res.iteK ?_ ?_
      · with_reducible exact Res.stallI (by assumption)
      · with_reducible exact goOn_keeps (dropTlb_keeps (by assumption))
    · with_reducible assumption
  · with_reducible assumption

theorem execXinvContext_keeps {z : State} {x1 x2 s} (h3 : Keeps z (s)) : outcomeAll (Keeps z) (execXinvContext x1 x2 s) := by
  unfold execXinvContext
  with_reducible exact outcomeAll_next (xinv_keeps (by assumption))

theorem blockAddr_keeps {z : State} {x1 x2 x3 s} (hf3 : ∀ y1 y2, Keeps z (y2) → Res.all (Keeps z) (x3 y1 y2)) (h4 : Keeps z (s)) : Res.all (Keeps z) (blockAddr x1 x2 x3 s) := by
  unfold blockAddr
  extract_lets +onlyGivenNames v1
  clear_value v1
  with_reducible refine Res.iteK ?_ ?_
  · with_reducible exact Res.trapI (by assumption)
  · with_reducible refine Res.iteK ?_ ?_
    · with_reducible exact Res.trapI (by assumption)
    · with_reducible apply hf3
      with_reducible assumption

theorem sealMismatch_keeps {z : State} {x1 x2 s} (h3 : Keeps z (s)) : Keeps z (sealMismatch x1 x2 s) := by
  unfold sealMismatch
  extract_lets +onlyGivenNames v1
  clear_value v1
  extract_lets +onlyGivenNames v2
  have k2 : Keeps z (v2) := by
    dsimp only [v2]
    with_reducible exact State_setCore_keeps (by assumption)
  clear_value v2
  extract_lets +onlyGivenNames v3
  have k3 : Keeps z (v3) := by
    dsimp only [v3]
    with_reducible exact takeTrap_keeps (by assumption)
  clear_value v3
  with_reducible refine Keeps.iteK ?_ ?_
  · with_reducible exact State_setCore_keeps (by assumption)
  · with_reducible assumption

theorem performScope_keeps {z : State} {x1 x2 s} (h3 : Keeps z (s)) : Keeps z (performScope x1 x2 s) := by
  unfold performScope
  extract_lets +onlyGivenNames v1
  clear_value v1
  extract_lets +onlyGivenNames v2
  have k2 : Keeps z (v2) := by
    dsimp only [v2]
    with_reducible refine Keeps.iteK ?_ ?_
    · with_reducible exact State_setCore_keeps (by assumption)
    · with_reducible assumption
  clear_value v2
  extract_lets +onlyGivenNames v3
  have k3 : Keeps z (v3) := by
    dsimp only [v3]
    with_reducible refine Keeps.iteK ?_ ?_
    · with_reducible exact drainAll_keeps (by assumption)
    · with_reducible assumption
  clear_value v3
  with_reducible refine Keeps.iteK ?_ ?_
  · with_reducible exact invalidate_keeps (by assumption)
  · with_reducible assumption

theorem execFenceComplete_keeps {z : State} {x1 s} (h2 : Keeps z (s)) : outcomeAll (Keeps z) (execFenceComplete x1 s) := by
  unfold execFenceComplete
  split
  · with_reducible refine outcomeAll_ite ?_ ?_
    · with_reducible exact outcomeAll_next (by assumption)
    · extract_lets +onlyGivenNames v1
      have k1 : Keeps z (v1) := by
        dsimp only [v1]
        with_reducible exact performScope_keeps (by assumption)
      clear_value v1
      extract_lets +onlyGivenNames v2
      clear_value v2
      extract_lets +onlyGivenNames v3
      have k3 : Keeps z (v3) := by
        dsimp only [v3]
        with_reducible exact State_setCore_keeps (by assumption)
      clear_value v3
      with_reducible exact outcomeAll_next (dueStop_keeps (retire_keeps (by assumption)))
  · with_reducible exact outcomeAll_next (by assumption)

theorem sealTest_keeps {z : State} {x1 x2 x3 s} (h4 : Keeps z (s)) : Res.all (Keeps z) (sealTest x1 x2 x3 s) := by
  unfold sealTest
  extract_lets +onlyGivenNames v1
  clear_value v1
  with_reducible refine Res.iteK ?_ ?_
  · with_reducible exact goOn_keeps (by assumption)
  · with_reducible exact Res.trapI (by assumption)

theorem releaseOne_keeps {z : State} {x1 x2 s} (h3 : Keeps z (s)) : Keeps z (releaseOne x1 x2 s) := by
  unfold releaseOne
  extract_lets +onlyGivenNames v1
  clear_value v1
  split
  · extract_lets +onlyGivenNames v2
    clear_value v2
    extract_lets +onlyGivenNames v3
    have k3 : Keeps z (v3) := by
      dsimp only [v3]
      with_reducible exact State_setCore_keeps (by assumption)
    clear_value v3
    extract_lets +onlyGivenNames v4
    clear_value v4
    extract_lets +onlyGivenNames v5
    clear_value v5
    split
    · with_reducible apply dueStop_keeps
      with_reducible apply checkpoint_keeps
      with_reducible apply retire_keeps
      with_reducible refine Res.okK (by assumption) ?_
      with_reducible exact sealTest_keeps (by assumption)
    · with_reducible apply dueStop_keeps
      with_reducible apply sealMismatch_keeps
      with_reducible refine Res.trapK (by assumption) ?_
      with_reducible exact sealTest_keeps (by assumption)
    · with_reducible refine Res.stallK (by assumption) ?_
      with_reducible exact sealTest_keeps (by assumption)
  · with_reducible assumption

theorem shareDone_keeps {z : State} {x1 x2 s} (h3 : Keeps z (s)) : Keeps z (shareDone x1 x2 s) := by
  unfold shareDone
  extract_lets +onlyGivenNames v1
  have k1 : Keeps z (v1) := by
    dsimp only [v1]
    with_reducible exact endShare_keeps (by assumption)
  clear_value v1
  split
  · with_reducible refine Keeps.iteK ?_ ?_
    · with_reducible exact finishJob_keeps (by assumption)
    · with_reducible assumption
  · with_reducible assumption

theorem execJend_keeps {z : State} {x1 x2 s} (h3 : Keeps z (s)) : outcomeAll (Keeps z) (execJend x1 x2 s) := by
  unfold execJend
  with_reducible refine outcomeAll_next ?_
  with_reducible apply issueC_keeps
  · intro _ _
    with_reducible apply need_keeps
    · intro _ _
      extract_lets +onlyGivenNames v1
      have k1 : Keeps z (v1) := by
        dsimp only [v1]
        with_reducible exact State_setCore_keeps (by assumption)
      clear_value v1
      with_reducible refine Res.iteK ?_ ?_
      · with_reducible exact Res.stallI (by assumption)
      · extract_lets +onlyGivenNames v2
        have k2 : Keeps z (v2) := by
          dsimp only [v2]
          with_reducible exact performScope_keeps (by assumption)
        clear_value v2
        split
        · with_reducible exact Res.stallI (shareDone_keeps (by assumption))
        · with_reducible exact Res.stallI (State_setCore_keeps (by assumption))
    · with_reducible assumption
  · with_reducible assumption

theorem execSealBarrierRelease_keeps {z : State} {x1 s} (h2 : Keeps z (s)) : outcomeAll (Keeps z) (execSealBarrierRelease x1 s) := by
  unfold execSealBarrierRelease
  split
  · with_reducible exact outcomeAll_next (by assumption)
  · with_reducible refine outcomeAll_ite ?_ ?_
    · extract_lets +onlyGivenNames v1
      clear_value v1
      with_reducible refine outcomeAll_next ?_
      with_reducible refine Keeps.foldl ?_ _ ?_
      · intro _ _
        intro _
        with_reducible exact releaseOne_keeps (by assumption)
      · with_reducible exact sealsFormed_keeps (by assumption)
    · with_reducible exact outcomeAll_next (by assumption)

theorem execFence_keeps {z : State} {x1 x2 s} (h3 : Keeps z (s)) : outcomeAll (Keeps z) (execFence x1 x2 s) := by
  unfold execFence
  with_reducible refine outcomeAll_next ?_
  with_reducible apply issue_keeps
  · intro _ _
    with_reducible apply need_keeps
    · intro _ _
      extract_lets +onlyGivenNames v1
      have k1 : Keeps z (v1) := by
        dsimp only [v1]
        with_reducible exact checkpoint_keeps (by assumption)
      clear_value v1
      with_reducible refine Res.iteK ?_ ?_
      · with_reducible exact goOn_keeps (by assumption)
      · with_reducible exact Res.stallI (State_setCore_keeps (by assumption))
    · with_reducible assumption
  · with_reducible assumption

theorem execXinvPage_keeps {z : State} {x1 x2 s} (h3 : Keeps z (s)) : outcomeAll (Keeps z) (execXinvPage x1 x2 s) := by
  unfold execXinvPage
  with_reducible exact outcomeAll_next (xinv_keeps (by assumption))

theorem execNop_keeps {z : State} {x1 x2 s} (h3 : Keeps z (s)) : outcomeAll (Keeps z) (execNop x1 x2 s) := by
  unfold execNop
  with_reducible refine outcomeAll_next ?_
  with_reducible apply issue_keeps
  · intro _ _
    with_reducible apply need_keeps
    · intro _ _
      with_reducible exact goOn_keeps (by assumption)
    · with_reducible assumption
  · with_reducible assumption

theorem execSealchk_keeps {z : State} {x1 x2 s} (h3 : Keeps z (s)) : outcomeAll (Keeps z) (execSealchk x1 x2 s) := by
  unfold execSealchk
  with_reducible refine outcomeAll_next ?_
  with_reducible apply issueC_keeps
  · intro _ _
    with_reducible apply need_keeps
    · intro _ _
      with_reducible refine Res.iteK ?_ ?_
      · with_reducible exact sealTest_keeps (by assumption)
      · with_reducible exact Res.stallI (by assumption)
    · with_reducible assumption
  · with_reducible assumption

theorem unpark_keeps {z : State} {x1 s} (h2 : Keeps z (s)) : Pair2.all (Keeps z) (unpark x1 s) := by
  unfold unpark
  with_reducible refine Pair2.iteK ?_ ?_
  · split
    · with_reducible exact Pair2.mkI (Keeps.upd (by assumption) rfl rfl rfl rfl)
    · with_reducible exact Pair2.mkI (by assumption)
  · with_reducible exact Pair2.mkI (by assumption)

theorem splitWith_keeps {z : State} {x1 x2 s} (h3 : Keeps z (s)) : Res.all (Keeps z) (splitWith x1 x2 s) := by
  unfold splitWith
  extract_lets +onlyGivenNames v1
  clear_value v1
  with_reducible refine Res.iteK ?_ ?_
  · with_reducible exact Res.stallI (by assumption)
  · extract_lets +onlyGivenNames v2
    have k2 : Keeps z (v2) := by
      dsimp only [v2]
      with_reducible exact drainAll_keeps (by assumption)
    clear_value v2
    split
    extract_lets +onlyGivenNames v3
    extract_lets +onlyGivenNames v4
    have k4 : Keeps z (v4) := by
      dsimp only [v4]
      with_reducible apply State_setBent_keeps
      with_reducible refine Pair2.sndK (by assumption) ?_
      with_reducible exact unpark_keeps (by assumption)
    clear_value v4
    extract_lets +onlyGivenNames v5
    clear_value v5
    extract_lets +onlyGivenNames v6
    clear_value v6
    extract_lets +onlyGivenNames v7
    clear_value v7
    with_reducible exact goOn_keeps (withdraw_keeps (State_drawn_keeps (State_setCore_keeps (by assumption))))

theorem setVcnt_keeps {z : State} {x1 x2 s} (h3 : Keeps z (s)) : Keeps z (setVcnt x1 x2 s) := by
  unfold setVcnt
  extract_lets +onlyGivenNames v1
  clear_value v1
  extract_lets +onlyGivenNames v2
  clear_value v2
  with_reducible exact State_setArch_keeps (by assumption)

theorem execVsetc_keeps {z : State} {x1 x2 s} (h3 : Keeps z (s)) : outcomeAll (Keeps z) (execVsetc x1 x2 s) := by
  unfold execVsetc
  with_reducible refine outcomeAll_next ?_
  with_reducible apply issue_keeps
  · intro _ _
    with_reducible apply need_keeps
    · intro _ _
      extract_lets +onlyGivenNames v1
      clear_value v1
      extract_lets +onlyGivenNames v2
      clear_value v2
      extract_lets +onlyGivenNames v3
      clear_value v3
      with_reducible exact goOn_keeps (setVcnt_keeps (wrD_keeps (by assumption)))
    · with_reducible assumption
  · with_reducible assumption

theorem execXinvFunction_keeps {z : State} {x1 x2 s} (h3 : Keeps z (s)) : outcomeAll (Keeps z) (execXinvFunction x1 x2 s) := by
  unfold execXinvFunction
  with_reducible exact outcomeAll_next (xinv_keeps (by assumption))

theorem execSealchkMerged_keeps {z : State} {x1 x2 s} (h3 : Keeps z (s)) : outcomeAll (Keeps z) (execSealchkMerged x1 x2 s) := by
  unfold execSealchkMerged
  with_reducible refine outcomeAll_next ?_
  with_reducible apply issueC_keeps
  · intro _ _
    with_reducible apply need_keeps
    · intro _ _
      with_reducible refine Res.iteK ?_ ?_
      · with_reducible exact Res.stallI (State_setCore_keeps (by assumption))
      · with_reducible exact Res.stallI (by assumption)
    · with_reducible assumption
  · with_reducible assumption

theorem execTrap_keeps {z : State} {x1 x2 s} (h3 : Keeps z (s)) : outcomeAll (Keeps z) (execTrap x1 x2 s) := by
  unfold execTrap
  with_reducible refine outcomeAll_next ?_
  with_reducible apply issue_keeps
  · intro _ _
    with_reducible exact Res.trapI (by assumption)
  · with_reducible assumption

theorem joinNow_keeps {z : State} {x1 x2 s} (h3 : Keeps z (s)) : Res.all (Keeps z) (joinNow x1 x2 s) := by
  unfold joinNow
  extract_lets +onlyGivenNames v1
  clear_value v1
  extract_lets +onlyGivenNames v2
  clear_value v2
  extract_lets +onlyGivenNames v3
  clear_value v3
  extract_lets +onlyGivenNames v4
  clear_value v4
  extract_lets +onlyGivenNames v5
  have k5 : Keeps z (v5) := by
    dsimp only [v5]
    with_reducible exact writePlaces_keeps (State_drawn_keeps (by assumption))
  clear_value v5
  extract_lets +onlyGivenNames v6
  clear_value v6
  extract_lets +onlyGivenNames v7
  have k7 : Keeps z (v7) := by
    dsimp only [v7]
    with_reducible exact Keeps.upd (by assumption) rfl rfl rfl rfl
  clear_value v7
  extract_lets +onlyGivenNames v8
  clear_value v8
  extract_lets +onlyGivenNames v9
  have k9 : Keeps z (v9) := by
    dsimp only [v9]
    with_reducible exact State_setCore_keeps (by assumption)
  clear_value v9
  extract_lets +onlyGivenNames v10
  have k10 : Keeps z (v10) := by
    dsimp only [v10]
    with_reducible exact State_setCore_keeps (by assumption)
  clear_value v10
  extract_lets +onlyGivenNames v11
  extract_lets +onlyGivenNames v12
  have k12 : Keeps z (v12) := by
    dsimp only [v12]
    with_reducible exact State_setBent_keeps (by assumption)
  clear_value v12
  with_reducible exact goOn_keeps (withdraw_keeps (by assumption))

theorem execJoin_keeps {z : State} {x1 x2 s} (h3 : Keeps z (s)) : outcomeAll (Keeps z) (execJoin x1 x2 s) := by
  unfold execJoin
  with_reducible refine outcomeAll_next ?_
  with_reducible apply issueC_keeps
  · intro _ _
    with_reducible apply needLevel_keeps
    · intro _ _
      with_reducible apply need_keeps
      · intro _ _
        with_reducible apply blockAddr_keeps
        · intro _ _
          intro _
          with_reducible refine Res.bindK ?_ ?_
          · with_reducible exact xlate_keeps (by assumption)
          · intro _ _
            intro _
            with_reducible refine Res.iteK ?_ ?_
            · with_reducible exact joinNow_keeps (drainAll_keeps (by assumption))
            · with_reducible exact Res.stallI (askStop_keeps (by assumption))
        · with_reducible assumption
      · with_reducible assumption
    · with_reducible assumption
  · with_reducible assumption

theorem execWait_keeps {z : State} {x1 x2 s} (h3 : Keeps z (s)) : outcomeAll (Keeps z) (execWait x1 x2 s) := by
  unfold execWait
  extract_lets +onlyGivenNames v1
  have k1 : Keeps z (v1) := by
    dsimp only [v1]
    with_reducible apply issueAny_keeps
    · intro _ _
      with_reducible apply needLevel_keeps
      · intro _ _
        with_reducible exact goOn_keeps (State_setCore_keeps (by assumption))
      · with_reducible assumption
    · with_reducible assumption
  clear_value v1
  with_reducible refine outcomeAll_next ?_
  with_reducible refine Keeps.iteK ?_ ?_
  · with_reducible exact wakeCore_keeps (by assumption)
  · with_reducible assumption

theorem execSplit_keeps {z : State} {x1 x2 s} (h3 : Keeps z (s)) : outcomeAll (Keeps z) (execSplit x1 x2 s) := by
  unfold execSplit
  with_reducible refine outcomeAll_next ?_
  with_reducible apply issueC_keeps
  · intro _ _
    with_reducible apply needLevel_keeps
    · intro _ _
      with_reducible apply need_keeps
      · intro _ _
        with_reducible apply blockAddr_keeps
        · intro _ _
          intro _
          with_reducible refine Res.bindK ?_ ?_
          · with_reducible exact readMem_keeps (by assumption)
          · intro _ _
            intro _
            with_reducible refine Res.iteK ?_ ?_
            · with_reducible exact Res.trapI (by assumption)
            · with_reducible exact splitWith_keeps (by assumption)
        · with_reducible assumption
      · with_reducible assumption
    · with_reducible assumption
  · with_reducible assumption

theorem execSealclr_keeps {z : State} {x1 x2 s} (h3 : Keeps z (s)) : outcomeAll (Keeps z) (execSealclr x1 x2 s) := by
  unfold execSealclr
  with_reducible refine outcomeAll_next ?_
  with_reducible apply issueC_keeps
  · intro _ _
    with_reducible apply need_keeps
    · intro _ _
      with_reducible apply needLevel_keeps
      · intro _ _
        extract_lets +onlyGivenNames v1
        clear_value v1
        with_reducible refine Res.iteK ?_ ?_
        · with_reducible exact goOn_keeps (State_setCore_keeps (by assumption))
        · with_reducible exact Res.stallI (by assumption)
      · with_reducible assumption
    · with_reducible assumption
  · with_reducible assumption

theorem execRete_keeps {z : State} {x1 x2 s} (h3 : Keeps z (s)) : outcomeAll (Keeps z) (execRete x1 x2 s) := by
  unfold execRete
  with_reducible refine outcomeAll_next ?_
  with_reducible apply issue_keeps
  · intro _ _
    with_reducible apply need_keeps
    · intro _ _
      with_reducible apply needLevel_keeps
      · intro _ _
        with_reducible exact doRete_keeps (by assumption)
      · with_reducible assumption
    · with_reducible assumption
  · with_reducible assumption

end Sys2Proof.Machine
end

