-- ==== Sys2Proof/Laws/KeepsPipes.lean ====
section
/-! SUPPORT. Keeps of streams, vectors, pairs, traps and the memory controllers: one lemma a function. -/

namespace Sys2Proof.Machine

/-! ### StreamIssue -/

theorem acceptMember_keeps {z : State} {x1 x2 s} (h3 : Keeps z (s)) : Res.all (Keeps z) (acceptMember x1 x2 s) := by
  unfold acceptMember
  extract_lets +onlyGivenNames v1
  clear_value v1
  extract_lets +onlyGivenNames v2
  clear_value v2
  extract_lets +onlyGivenNames v3
  clear_value v3
  extract_lets +onlyGivenNames v4
  have k4 : ∀ y1, Keeps z (y1) → Keeps z (v4 y1) := by
    intro _ _
    dsimp only [v4]
    with_reducible refine Keeps.iteK ?_ ?_
    · with_reducible exact writeCounts_keeps (by assumption)
    · with_reducible assumption
  clear_value v4
  with_reducible refine Res.iteK ?_ ?_
  · with_reducible refine Res.iteK ?_ ?_
    · with_reducible exact Res.stallI (by assumption)
    · extract_lets +onlyGivenNames v5
      clear_value v5
      with_reducible apply goOn_keeps
      with_reducible apply k4
      with_reducible exact State_setCore_keeps (by assumption)
  · with_reducible apply goOn_keeps
    with_reducible apply k4
    with_reducible exact State_setCore_keeps (by assumption)

theorem issueStream_keeps {z : State} {x1 x2 x3 x4 x5 x6 x7 s} (h8 : Keeps z (s)) : Keeps z (issueStream x1 x2 x3 x4 x5 x6 x7 s) := by
  unfold issueStream
  with_reducible apply issueAny_keeps
  · intro _ _
    extract_lets +onlyGivenNames v1
    clear_value v1
    extract_lets +onlyGivenNames v2
    clear_value v2
    with_reducible refine Res.iteK ?_ ?_
    · with_reducible exact illegal_keeps (by assumption)
    · split
      · with_reducible exact Res.trapI (by assumption)
      · with_reducible refine Res.iteK ?_ ?_
        · with_reducible exact formatErr_keeps (by assumption)
        · with_reducible exact acceptMember_keeps (by assumption)
  · with_reducible assumption

theorem execScmp_keeps {z : State} {x1 x2 x3 x4 x5 s} (h6 : Keeps z (s)) : outcomeAll (Keeps z) (execScmp x1 x2 x3 x4 x5 s) := by
  unfold execScmp
  with_reducible exact outcomeAll_next (issueStream_keeps (by assumption))

theorem execScvtPepixoOut_keeps {z : State} {x1 x2 x3 x4 x5 s} (h6 : Keeps z (s)) : outcomeAll (Keeps z) (execScvtPepixoOut x1 x2 x3 x4 x5 s) := by
  unfold execScvtPepixoOut
  with_reducible exact outcomeAll_next (issueStream_keeps (by assumption))

theorem execSmitreAnti_keeps {z : State} {x1 x2 x3 x4 x5 s} (h6 : Keeps z (s)) : outcomeAll (Keeps z) (execSmitreAnti x1 x2 x3 x4 x5 s) := by
  unfold execSmitreAnti
  with_reducible exact outcomeAll_next (issueStream_keeps (by assumption))

theorem execSscale_keeps {z : State} {x1 x2 x3 x4 x5 s} (h6 : Keeps z (s)) : outcomeAll (Keeps z) (execSscale x1 x2 x3 x4 x5 s) := by
  unfold execSscale
  with_reducible exact outcomeAll_next (issueStream_keeps (by assumption))

theorem execSsub_keeps {z : State} {x1 x2 x3 x4 x5 s} (h6 : Keeps z (s)) : outcomeAll (Keeps z) (execSsub x1 x2 x3 x4 x5 s) := by
  unfold execSsub
  with_reducible exact outcomeAll_next (issueStream_keeps (by assumption))

theorem execSlogAnd_keeps {z : State} {x1 x2 x3 x4 x5 s} (h6 : Keeps z (s)) : outcomeAll (Keeps z) (execSlogAnd x1 x2 x3 x4 x5 s) := by
  unfold execSlogAnd
  with_reducible exact outcomeAll_next (issueStream_keeps (by assumption))

theorem execScvtAmountToWord_keeps {z : State} {x1 x2 x3 x4 x5 s} (h6 : Keeps z (s)) : outcomeAll (Keeps z) (execScvtAmountToWord x1 x2 x3 x4 x5 s) := by
  unfold execScvtAmountToWord
  with_reducible exact outcomeAll_next (issueStream_keeps (by assumption))

theorem execSnorm_keeps {z : State} {x1 x2 x3 x4 x5 s} (h6 : Keeps z (s)) : outcomeAll (Keeps z) (execSnorm x1 x2 x3 x4 x5 s) := by
  unfold execSnorm
  with_reducible exact outcomeAll_next (issueStream_keeps (by assumption))

theorem execSlogXor_keeps {z : State} {x1 x2 x3 x4 x5 s} (h6 : Keeps z (s)) : outcomeAll (Keeps z) (execSlogXor x1 x2 x3 x4 x5 s) := by
  unfold execSlogXor
  with_reducible exact outcomeAll_next (issueStream_keeps (by assumption))

theorem execSmove_keeps {z : State} {x1 x2 x3 x4 x5 s} (h6 : Keeps z (s)) : outcomeAll (Keeps z) (execSmove x1 x2 x3 x4 x5 s) := by
  unfold execSmove
  with_reducible exact outcomeAll_next (issueStream_keeps (by assumption))

theorem execSlogNot_keeps {z : State} {x1 x2 x3 x4 x5 s} (h6 : Keeps z (s)) : outcomeAll (Keeps z) (execSlogNot x1 x2 x3 x4 x5 s) := by
  unfold execSlogNot
  with_reducible exact outcomeAll_next (issueStream_keeps (by assumption))

theorem execSsegCompact_keeps {z : State} {x1 x2 x3 x4 x5 s} (h6 : Keeps z (s)) : outcomeAll (Keeps z) (execSsegCompact x1 x2 x3 x4 x5 s) := by
  unfold execSsegCompact
  with_reducible exact outcomeAll_next (issueStream_keeps (by assumption))

theorem execSmac_keeps {z : State} {x1 x2 x3 x4 x5 s} (h6 : Keeps z (s)) : outcomeAll (Keeps z) (execSmac x1 x2 x3 x4 x5 s) := by
  unfold execSmac
  with_reducible exact outcomeAll_next (issueStream_keeps (by assumption))

theorem execSkcmp_keeps {z : State} {x1 x2 x3 x4 x5 s} (h6 : Keeps z (s)) : outcomeAll (Keeps z) (execSkcmp x1 x2 x3 x4 x5 s) := by
  unfold execSkcmp
  with_reducible exact outcomeAll_next (issueStream_keeps (by assumption))

theorem execSmitreInner_keeps {z : State} {x1 x2 x3 x4 x5 s} (h6 : Keeps z (s)) : outcomeAll (Keeps z) (execSmitreInner x1 x2 x3 x4 x5 s) := by
  unfold execSmitreInner
  with_reducible exact outcomeAll_next (issueStream_keeps (by assumption))

theorem execSladd_keeps {z : State} {x1 x2 x3 x4 x5 s} (h6 : Keeps z (s)) : outcomeAll (Keeps z) (execSladd x1 x2 x3 x4 x5 s) := by
  unfold execSladd
  with_reducible exact outcomeAll_next (issueStream_keeps (by assumption))

theorem execSsortForm_keeps {z : State} {x1 x2 x3 x4 x5 s} (h6 : Keeps z (s)) : outcomeAll (Keeps z) (execSsortForm x1 x2 x3 x4 x5 s) := by
  unfold execSsortForm
  with_reducible exact outcomeAll_next (issueStream_keeps (by assumption))

theorem execSlogAndn_keeps {z : State} {x1 x2 x3 x4 x5 s} (h6 : Keeps z (s)) : outcomeAll (Keeps z) (execSlogAndn x1 x2 x3 x4 x5 s) := by
  unfold execSlogAndn
  with_reducible exact outcomeAll_next (issueStream_keeps (by assumption))

theorem execSlogOr_keeps {z : State} {x1 x2 x3 x4 x5 s} (h6 : Keeps z (s)) : outcomeAll (Keeps z) (execSlogOr x1 x2 x3 x4 x5 s) := by
  unfold execSlogOr
  with_reducible exact outcomeAll_next (issueStream_keeps (by assumption))

theorem execSmul_keeps {z : State} {x1 x2 x3 x4 x5 s} (h6 : Keeps z (s)) : outcomeAll (Keeps z) (execSmul x1 x2 x3 x4 x5 s) := by
  unfold execSmul
  with_reducible exact outcomeAll_next (issueStream_keeps (by assumption))

theorem execSkcmpOrder_keeps {z : State} {x1 x2 x3 x4 x5 s} (h6 : Keeps z (s)) : outcomeAll (Keeps z) (execSkcmpOrder x1 x2 x3 x4 x5 s) := by
  unfold execSkcmpOrder
  with_reducible exact outcomeAll_next (issueStream_keeps (by assumption))

theorem execSadd_keeps {z : State} {x1 x2 x3 x4 x5 s} (h6 : Keeps z (s)) : outcomeAll (Keeps z) (execSadd x1 x2 x3 x4 x5 s) := by
  unfold execSadd
  with_reducible exact outcomeAll_next (issueStream_keeps (by assumption))

theorem execScvtPepixoIn_keeps {z : State} {x1 x2 x3 x4 x5 s} (h6 : Keeps z (s)) : outcomeAll (Keeps z) (execScvtPepixoIn x1 x2 x3 x4 x5 s) := by
  unfold execScvtPepixoIn
  with_reducible exact outcomeAll_next (issueStream_keeps (by assumption))

theorem execSsortMerge_keeps {z : State} {x1 x2 x3 x4 x5 s} (h6 : Keeps z (s)) : outcomeAll (Keeps z) (execSsortMerge x1 x2 x3 x4 x5 s) := by
  unfold execSsortMerge
  with_reducible exact outcomeAll_next (issueStream_keeps (by assumption))

theorem execScvtWordToAmount_keeps {z : State} {x1 x2 x3 x4 x5 s} (h6 : Keeps z (s)) : outcomeAll (Keeps z) (execScvtWordToAmount x1 x2 x3 x4 x5 s) := by
  unfold execScvtWordToAmount
  with_reducible exact outcomeAll_next (issueStream_keeps (by assumption))

theorem execSdiv_keeps {z : State} {x1 x2 x3 x4 x5 s} (h6 : Keeps z (s)) : outcomeAll (Keeps z) (execSdiv x1 x2 x3 x4 x5 s) := by
  unfold execSdiv
  with_reducible exact outcomeAll_next (issueStream_keeps (by assumption))

theorem execSmitreLeft_keeps {z : State} {x1 x2 x3 x4 x5 s} (h6 : Keeps z (s)) : outcomeAll (Keeps z) (execSmitreLeft x1 x2 x3 x4 x5 s) := by
  unfold execSmitreLeft
  with_reducible exact outcomeAll_next (issueStream_keeps (by assumption))

theorem execSsegRunning_keeps {z : State} {x1 x2 x3 x4 x5 s} (h6 : Keeps z (s)) : outcomeAll (Keeps z) (execSsegRunning x1 x2 x3 x4 x5 s) := by
  unfold execSsegRunning
  with_reducible exact outcomeAll_next (issueStream_keeps (by assumption))

theorem execSsegMark_keeps {z : State} {x1 x2 x3 x4 x5 s} (h6 : Keeps z (s)) : outcomeAll (Keeps z) (execSsegMark x1 x2 x3 x4 x5 s) := by
  unfold execSsegMark
  with_reducible exact outcomeAll_next (issueStream_keeps (by assumption))

/-! ### Pair -/

theorem readyBent_keeps {z : State} {x1 s} (h2 : Keeps z (s)) : Keeps z (readyBent x1 s) := by
  unfold readyBent
  with_reducible exact State_setBent_keeps (State_setCore_keeps (State_setCore_keeps (by assumption)))

theorem haltBent_keeps {z : State} {x1 s} (h2 : Keeps z (s)) : Keeps z (haltBent x1 s) := by
  unfold haltBent
  extract_lets +onlyGivenNames v1
  have k1 : ∀ y1 y2, Keeps z (y2) → Keeps z (v1 y1 y2) := by
    intro _ _
    intro _
    dsimp only [v1]
    with_reducible refine Keeps.iteK ?_ ?_
    · with_reducible assumption
    · with_reducible exact State_setCore_keeps (drainAll_keeps (stopPipes_keeps (settle_keeps (by assumption))))
  clear_value v1
  with_reducible refine Keeps.iteK ?_ ?_
  · with_reducible apply k1
    with_reducible apply k1
    with_reducible assumption
  · with_reducible apply k1
    with_reducible exact rollback_keeps (by assumption)

theorem setPhysState_keeps {z : State} {x1 x2 x3 s} (h4 : Keeps z (s)) : Keeps z (setPhysState x1 x2 x3 s) := by
  unfold setPhysState
  with_reducible exact fireModule_keeps (State_setPhys_keeps (by assumption))

theorem loseJob_keeps {z : State} {x1 s} (h2 : Keeps z (s)) : Keeps z (loseJob x1 s) := by
  unfold loseJob
  split
  · with_reducible refine Keeps.iteK ?_ ?_
    · with_reducible exact finishJob_keeps (by assumption)
    · with_reducible assumption
  · with_reducible assumption

theorem takeOver_keeps {z : State} {x1 x2 x3 s} (h4 : Keeps z (s)) : Keeps z (takeOver x1 x2 x3 s) := by
  unfold takeOver
  split
  · extract_lets +onlyGivenNames v1
    have k1 : Keeps z (v1) := by
      dsimp only [v1]
      with_reducible exact setPhysState_keeps (by assumption)
    clear_value v1
    extract_lets +onlyGivenNames v2
    clear_value v2
    extract_lets +onlyGivenNames v3
    have k3 : Keeps z (v3) := by
      dsimp only [v3]
      with_reducible exact Keeps.upd (by assumption) rfl rfl rfl rfl
    clear_value v3
    with_reducible exact logErr_keeps (by assumption)
  · extract_lets +onlyGivenNames v4
    clear_value v4
    extract_lets +onlyGivenNames v5
    have k5 : Keeps z (v5) := by
      dsimp only [v5]
      with_reducible exact Keeps.upd (by assumption) rfl rfl rfl rfl
    clear_value v5
    extract_lets +onlyGivenNames v6
    have k6 : Keeps z (v6) := by
      dsimp only [v6]
      with_reducible exact logErr_keeps (by assumption)
    clear_value v6
    split
    · with_reducible exact loseJob_keeps (by assumption)
    · with_reducible assumption

theorem markRetired_keeps {z : State} {x1 x2 s} (h3 : Keeps z (s)) : Keeps z (markRetired x1 x2 s) := by
  unfold markRetired
  extract_lets +onlyGivenNames v1
  have k1 : Keeps z (v1) := by
    dsimp only [v1]
    with_reducible exact setPhysState_keeps (by assumption)
  clear_value v1
  extract_lets +onlyGivenNames v2
  clear_value v2
  extract_lets +onlyGivenNames v3
  have k3 : Keeps z (v3) := by
    dsimp only [v3]
    with_reducible exact Keeps.upd (by assumption) rfl rfl rfl rfl
  clear_value v3
  with_reducible exact queueEvent_keeps (logErr_keeps (by assumption))

theorem retireBent_keeps {z : State} {x1 x2 s} (h3 : Keeps z (s)) : Keeps z (retireBent x1 x2 s) := by
  unfold retireBent
  extract_lets +onlyGivenNames v1
  clear_value v1
  extract_lets +onlyGivenNames v2
  clear_value v2
  extract_lets +onlyGivenNames v3
  clear_value v3
  extract_lets +onlyGivenNames v4
  have k4 : Keeps z (v4) := by
    dsimp only [v4]
    with_reducible exact Keeps.upd (by assumption) rfl rfl rfl rfl
  clear_value v4
  extract_lets +onlyGivenNames v5
  have k5 : Keeps z (v5) := by
    dsimp only [v5]
    with_reducible exact haltBent_keeps (by assumption)
  clear_value v5
  extract_lets +onlyGivenNames v6
  have k6 : Keeps z (v6) := by
    dsimp only [v6]
    split
    · with_reducible exact saveShare_keeps (by assumption)
    · with_reducible assumption
  clear_value v6
  extract_lets +onlyGivenNames v7
  clear_value v7
  with_reducible exact takeOver_keeps (markRetired_keeps (by assumption))

theorem execStoreDrain_keeps {z : State} {x1 s} (h2 : Keeps z (s)) : outcomeAll (Keeps z) (execStoreDrain x1 s) := by
  unfold execStoreDrain
  split
  · with_reducible refine outcomeAll_ite ?_ ?_
    · with_reducible exact outcomeAll_next (performEntry_keeps (State_setCore_keeps (by assumption)))
    · with_reducible exact outcomeAll_next (by assumption)
  · with_reducible exact outcomeAll_next (by assumption)

theorem armCmptest_keeps {z : State} {s} (h1 : Keeps z (s)) : Keeps z (armCmptest s) := by
  unfold armCmptest
  extract_lets +onlyGivenNames v1
  clear_value v1
  with_reducible refine Keeps.iteK ?_ ?_
  · with_reducible exact Keeps.upd (by assumption) rfl rfl rfl rfl
  · with_reducible exact Keeps.upd (by assumption) rfl rfl rfl rfl

theorem writeCmptest_keeps {z : State} {x1 s} (h2 : Keeps z (s)) : Keeps z (writeCmptest x1 s) := by
  unfold writeCmptest
  extract_lets +onlyGivenNames v1
  clear_value v1
  extract_lets +onlyGivenNames v2
  clear_value v2
  extract_lets +onlyGivenNames v3
  have k3 : Keeps z (v3) := by
    dsimp only [v3]
    with_reducible exact Keeps.upd (by assumption) rfl rfl rfl rfl
  clear_value v3
  with_reducible refine Keeps.iteK ?_ ?_
  · with_reducible exact armCmptest_keeps (by assumption)
  · with_reducible assumption

theorem execCmptestArm_keeps {z : State} {x1 s} (h2 : Keeps z (s)) : outcomeAll (Keeps z) (execCmptestArm x1 s) := by
  unfold execCmptestArm
  with_reducible refine outcomeAll_next ?_
  with_reducible apply hostWrite_keeps
  · intro _ _
    with_reducible exact writeCmptest_keeps (by assumption)
  · with_reducible assumption

theorem countRollback_keeps {z : State} {x1 x2 s} (h3 : Keeps z (s)) : Keeps z (countRollback x1 x2 s) := by
  unfold countRollback
  split
  · with_reducible exact logErr_keeps (countPair_keeps (by assumption))
  · with_reducible exact logErr_keeps (countPair_keeps (by assumption))
  · with_reducible exact logErr_keeps (countPair_keeps (by assumption))
  · with_reducible assumption

theorem checkerBurst_keeps {z : State} {x1 s} (h2 : Keeps z (s)) : Pair.all (Keeps z) (checkerBurst x1 s) := by
  unfold checkerBurst
  extract_lets +onlyGivenNames v1
  clear_value v1
  extract_lets +onlyGivenNames v2
  clear_value v2
  with_reducible exact Pair.mkI (Keeps.upd (by assumption) rfl rfl rfl rfl)

theorem execRollback_keeps {z : State} {x1 x2 s} (h3 : Keeps z (s)) : outcomeAll (Keeps z) (execRollback x1 x2 s) := by
  unfold execRollback
  extract_lets +onlyGivenNames v1
  clear_value v1
  extract_lets +onlyGivenNames v2
  clear_value v2
  with_reducible refine outcomeAll_ite ?_ ?_
  · with_reducible exact outcomeAll_next (by assumption)
  · extract_lets +onlyGivenNames v3
    have k3 : Keeps z (v3) := by
      dsimp only [v3]
      with_reducible exact countPair_keeps (countRollback_keeps (by assumption))
    clear_value v3
    extract_lets +onlyGivenNames v4
    clear_value v4
    extract_lets +onlyGivenNames v5
    clear_value v5
    extract_lets +onlyGivenNames v6
    have k6 : Keeps z (v6) := by
      dsimp only [v6]
      with_reducible exact rollback_keeps (State_setCore_keeps (by assumption))
    clear_value v6
    split
    extract_lets +onlyGivenNames v7
    clear_value v7
    with_reducible refine outcomeAll_ite ?_ ?_
    · with_reducible refine outcomeAll_next ?_
      with_reducible apply retireBent_keeps
      with_reducible refine Pair.sndK (by assumption) ?_
      with_reducible refine Pair.iteK ?_ ?_
      · with_reducible exact checkerBurst_keeps (by assumption)
      · with_reducible exact Pair.mkI (by assumption)
    · with_reducible refine outcomeAll_ite ?_ ?_
      · with_reducible refine outcomeAll_next ?_
        with_reducible apply retireBent_keeps
        with_reducible refine Pair.sndK (by assumption) ?_
        with_reducible refine Pair.iteK ?_ ?_
        · with_reducible exact checkerBurst_keeps (by assumption)
        · with_reducible exact Pair.mkI (by assumption)
      · with_reducible refine outcomeAll_ite ?_ ?_
        · with_reducible refine outcomeAll_next ?_
          with_reducible apply retireBent_keeps
          with_reducible refine Pair.sndK (by assumption) ?_
          with_reducible refine Pair.iteK ?_ ?_
          · with_reducible exact checkerBurst_keeps (by assumption)
          · with_reducible exact Pair.mkI (by assumption)
        · with_reducible refine outcomeAll_next ?_
          with_reducible refine Pair.sndK (by assumption) ?_
          with_reducible refine Pair.iteK ?_ ?_
          · with_reducible exact checkerBurst_keeps (by assumption)
          · with_reducible exact Pair.mkI (by assumption)

theorem clearPairCounters_keeps {z : State} {s} (h1 : Keeps z (s)) : Keeps z (clearPairCounters s) := by
  unfold clearPairCounters
  with_reducible exact Keeps.upd (by assumption) rfl rfl rfl rfl

theorem execPairClrcnt_keeps {z : State} {s} (h1 : Keeps z (s)) : outcomeAll (Keeps z) (execPairClrcnt s) := by
  unfold execPairClrcnt
  with_reducible refine outcomeAll_next ?_
  with_reducible apply hostWrite_keeps
  · intro _ _
    with_reducible exact clearPairCounters_keeps (by assumption)
  · with_reducible assumption

theorem execCmptestDisarm_keeps {z : State} {s} (h1 : Keeps z (s)) : outcomeAll (Keeps z) (execCmptestDisarm s) := by
  unfold execCmptestDisarm
  with_reducible refine outcomeAll_next ?_
  with_reducible apply hostWrite_keeps
  · intro _ _
    with_reducible exact Keeps.upd (by assumption) rfl rfl rfl rfl
  · with_reducible assumption

theorem execSpareCheckComplete_keeps {z : State} {x1 x2 s} (h3 : Keeps z (s)) : outcomeAll (Keeps z) (execSpareCheckComplete x1 x2 s) := by
  unfold execSpareCheckComplete
  split
  · with_reducible exact outcomeAll_next (by assumption)
  · extract_lets +onlyGivenNames v1
    clear_value v1
    extract_lets +onlyGivenNames v2
    have k2 : Keeps z (v2) := by
      dsimp only [v2]
      with_reducible exact Keeps.upd (by assumption) rfl rfl rfl rfl
    clear_value v2
    with_reducible refine outcomeAll_ite ?_ ?_
    · extract_lets +onlyGivenNames v3
      have k3 : Keeps z (v3) := by
        dsimp only [v3]
        with_reducible exact readyBent_keeps (setPhysState_keeps (by assumption))
      clear_value v3
      split
      · with_reducible exact outcomeAll_next (restoreShare_keeps (by assumption))
      · with_reducible exact outcomeAll_next (by assumption)
    · with_reducible exact outcomeAll_next (takeOver_keeps (markRetired_keeps (by assumption)))

theorem execCheckpoint_keeps {z : State} {x1 s} (h2 : Keeps z (s)) : outcomeAll (Keeps z) (execCheckpoint x1 s) := by
  unfold execCheckpoint
  with_reducible refine outcomeAll_ite ?_ ?_
  · with_reducible exact outcomeAll_next (by assumption)
  · with_reducible exact outcomeAll_next (checkpoint_keeps (by assumption))

/-! ### StreamElem -/

theorem healSlot_keeps {z : State} {x1 x2 s} (h3 : Keeps z (s)) : Keeps z (healSlot x1 x2 s) := by
  unfold healSlot
  with_reducible exact State_setBent_keeps (by assumption)

theorem readSlot_keeps {z : State} {x1 x2 x3 s} (h4 : Keeps z (s)) : Res.all (Keeps z) (readSlot x1 x2 x3 s) := by
  unfold readSlot
  split
  · with_reducible refine Res.okI ?_
    with_reducible refine Pair.sndK (by assumption) ?_
    with_reducible apply sramRead_keeps
    · intro _ _
      with_reducible exact healSlot_keeps (by assumption)
    · with_reducible assumption
  · with_reducible refine Res.trapI ?_
    with_reducible apply healSlot_keeps
    with_reducible refine Pair.sndK (by assumption) ?_
    with_reducible apply sramRead_keeps
    · intro _ _
      with_reducible exact healSlot_keeps (by assumption)
    · with_reducible assumption

theorem readSource_keeps {z : State} {x1 x2 x3 x4 x5 x6 x7 x8 s} (h9 : Keeps z (s)) : Res.all (Keeps z) (readSource x1 x2 x3 x4 x5 x6 x7 x8 s) := by
  unfold readSource
  split
  · with_reducible exact Res.okI (by assumption)
  · with_reducible exact readSlot_keeps (by assumption)
  · with_reducible exact Res.okI (by assumption)
  · extract_lets +onlyGivenNames v1
    clear_value v1
    with_reducible refine Res.bindK ?_ ?_
    · with_reducible exact readMemQ_keeps (by assumption)
    · intro _ _
      intro _
      with_reducible exact Res.okI (State_drawn_keeps (by assumption))

theorem destPlaces_keeps {z : State} {x1 x2 x3 x4 x5 x6 s} (h7 : Keeps z (s)) : Res.all (Keeps z) (destPlaces x1 x2 x3 x4 x5 x6 s) := by
  unfold destPlaces
  split
  · with_reducible exact Res.okI (by assumption)
  · with_reducible exact xlate_keeps (by assumption)

theorem decTrap_keeps {z : State} {α : Type} {x1 : Member} {x2 : Nat} {x3 : Nat} {x4 : Nat} {s : State} (h5 : Keeps z (s)) : Res.all (Keeps z) (@decTrap α x1 x2 x3 x4 s) := by
  unfold decTrap
  with_reducible exact Res.trapI (by assumption)

theorem putQ_keeps {z : State} {x1 x2 x3 x4 s} (h5 : Keeps z (s)) : Res.all (Keeps z) (putQ x1 x2 x3 x4 s) := by
  unfold putQ
  split
  · with_reducible exact Res.okI (by assumption)
  · with_reducible exact decTrap_keeps (by assumption)

theorem compute_keeps {z : State} {x1 x2 x3 x4 x5 s} (h6 : Keeps z (s)) : Res.all (Keeps z) (compute x1 x2 x3 x4 x5 s) := by
  unfold compute
  extract_lets +onlyGivenNames v1
  clear_value v1
  extract_lets +onlyGivenNames v2
  have k2 : ∀ y1, Res.all (Keeps z) (v2 y1) := by
    intro _
    dsimp only [v2]
    with_reducible refine Res.bindK ?_ ?_
    · with_reducible exact putQ_keeps (by assumption)
    · intro _ _
      intro _
      with_reducible exact Res.okI (by assumption)
  clear_value v2
  extract_lets +onlyGivenNames v3
  have k3 : ∀ y1, Res.all (Keeps z) (v3 y1) := by
    intro _
    dsimp only [v3]
    with_reducible exact Res.okI (by assumption)
  clear_value v3
  extract_lets +onlyGivenNames v4
  clear_value v4
  extract_lets +onlyGivenNames v5
  clear_value v5
  split
  · split
    · with_reducible apply k3
    · with_reducible apply k2
  · split
    · with_reducible apply k3
    · with_reducible apply k2
  · split
    · with_reducible exact Res.okI (by assumption)
    · with_reducible exact decTrap_keeps (by assumption)
  · with_reducible apply k2
  · with_reducible apply k3
  · with_reducible apply k3
  · split
    · split
      · with_reducible apply k2
      · with_reducible exact decTrap_keeps (by assumption)
    · split
      · with_reducible exact Res.okI (by assumption)
      · with_reducible exact decTrap_keeps (by assumption)
    · with_reducible apply k2
    · with_reducible refine Res.iteK ?_ ?_
      · with_reducible apply k3
      · with_reducible exact decTrap_keeps (by assumption)
  · split
    · with_reducible apply k2
    · with_reducible exact Res.okI (by assumption)
  · with_reducible apply k2
  · with_reducible refine Res.bindK ?_ ?_
    · with_reducible exact putQ_keeps (by assumption)
    · intro _ _
      intro _
      with_reducible exact Res.okI (by assumption)
  · with_reducible apply k2
  · with_reducible refine Res.iteK ?_ ?_
    · with_reducible exact decTrap_keeps (by assumption)
    · with_reducible apply k2
  · with_reducible apply k3

theorem simpleMember_keeps {z : State} {x1 x2 x3 x4 x5 x6 s} (h7 : Keeps z (s)) : Res.all (Keeps z) (simpleMember x1 x2 x3 x4 x5 x6 s) := by
  unfold simpleMember
  with_reducible refine Res.bindK ?_ ?_
  · with_reducible exact readSource_keeps (by assumption)
  · intro _ _
    intro _
    with_reducible refine Res.bindK ?_ ?_
    · with_reducible exact readSource_keeps (by assumption)
    · intro _ _
      intro _
      with_reducible refine Res.bindK ?_ ?_
      · with_reducible exact destPlaces_keeps (by assumption)
      · intro _ _
        intro _
        with_reducible refine Res.bindK ?_ ?_
        · with_reducible refine Res.iteK ?_ ?_
          · with_reducible exact readPlacesQ_keeps (by assumption)
          · with_reducible exact Res.okI (by assumption)
        · intro _ _
          intro _
          split
          · with_reducible exact Res.trapI (by assumption)
          · with_reducible refine Res.bindK ?_ ?_
            · with_reducible exact compute_keeps (by assumption)
            · intro _ _
              intro _
              with_reducible exact Res.okI (by assumption)

theorem placeElem_keeps {z : State} {α : Type} {x1 : Member} {x2 : Nat} {p3 : Res α} (h3 : Res.all (Keeps z) (p3)) : Res.all (Keeps z) (@placeElem α x1 x2 p3) := by
  unfold placeElem
  split
  · with_reducible exact Res.trapI (Res.trapE (by assumption))
  · with_reducible assumption

/-! ### StreamKey -/

theorem placesIf_keeps {z : State} {x1 x2 x3 x4 s} (h5 : Keeps z (s)) : Res.all (Keeps z) (placesIf x1 x2 x3 x4 s) := by
  unfold placesIf
  with_reducible refine Res.iteK ?_ ?_
  · with_reducible exact destPlaces_keeps (by assumption)
  · with_reducible exact Res.okI (by assumption)

theorem readKeyed_keeps {z : State} {x1 x2 x3 x4 x5 s} (h6 : Keeps z (s)) : Res.all (Keeps z) (readKeyed x1 x2 x3 x4 x5 s) := by
  unfold readKeyed
  with_reducible refine Res.bindK ?_ ?_
  · with_reducible exact readMemQ_keeps (by assumption)
  · intro _ _
    intro _
    with_reducible exact Res.okI (by assumption)

theorem readKeyedRun_keeps {z : State} {x1 x2 x3 x4 x5 s} (h6 : Keeps z (s)) : Res.all (Keeps z) (readKeyedRun x1 x2 x3 x4 x5 s) := by
  induction x5 generalizing x1 x2 x3 x4 s
  · unfold readKeyedRun
    with_reducible exact Res.okI (by assumption)
  · rename_i n ih
    unfold readKeyedRun
    with_reducible refine Res.bindK ?_ ?_
    · with_reducible exact readKeyed_keeps (by assumption)
    · intro _ _
      intro _
      with_reducible refine Res.bindK ?_ ?_
      · with_reducible apply ih
        with_reducible assumption
      · intro _ _
        intro _
        with_reducible exact Res.okI (by assumption)

theorem raiseHeld_keeps {z : State} {x1 s} (h2 : Keeps z (s)) : Res.all (Keeps z) (raiseHeld x1 s) := by
  unfold raiseHeld
  split
  · with_reducible exact Res.trapI (by assumption)
  · with_reducible exact Res.okI (by assumption)

theorem spoilArea_keeps {z : State} {x1 x2 x3 s} (h4 : Keeps z (s)) : Keeps z (spoilArea x1 x2 x3 s) := by
  unfold spoilArea
  extract_lets +onlyGivenNames v1
  extract_lets +onlyGivenNames v2
  clear_value v2
  with_reducible exact State_setBent_keeps (by assumption)

theorem loadRun_keeps {z : State} {x1 x2 x3 x4 x5 x6 x7 s} (h8 : Keeps z (s)) : Res.all (Keeps z) (loadRun x1 x2 x3 x4 x5 x6 x7 s) := by
  unfold loadRun
  with_reducible refine Res.iteK ?_ ?_
  · with_reducible exact Res.okI (by assumption)
  · extract_lets +onlyGivenNames v1
    clear_value v1
    with_reducible refine Res.bindK ?_ ?_
    · with_reducible exact readKeyedRun_keeps (by assumption)
    · intro _ _
      intro _
      with_reducible refine Res.bindK ?_ ?_
      · with_reducible exact raiseHeld_keeps (by assumption)
      · intro _ _
        intro _
        with_reducible exact Res.okI (State_drawn_keeps (spoilArea_keeps (by assumption)))

theorem endsRun_keeps {z : State} {x1 x2 x3 x4 x5 s} (h6 : Keeps z (s)) : Res.all (Keeps z) (endsRun x1 x2 x3 x4 x5 s) := by
  unfold endsRun
  with_reducible refine Res.iteK ?_ ?_
  · with_reducible exact Res.okI (by assumption)
  · with_reducible refine Res.bindK ?_ ?_
    · with_reducible exact readKeyed_keeps (by assumption)
    · intro _ _
      intro _
      with_reducible exact Res.okI (by assumption)

theorem sumIf_keeps {z : State} {x1 x2 x3 x4 x5 s} (h6 : Keeps z (s)) : Res.all (Keeps z) (sumIf x1 x2 x3 x4 x5 s) := by
  unfold sumIf
  with_reducible refine Res.iteK ?_ ?_
  · with_reducible exact putQ_keeps (by assumption)
  · with_reducible exact Res.okI (by assumption)

theorem sseg_keeps {z : State} {x1 x2 x3 x4 x5 x6 s} (h7 : Keeps z (s)) : Res.all (Keeps z) (sseg x1 x2 x3 x4 x5 x6 s) := by
  unfold sseg
  extract_lets +onlyGivenNames v1
  clear_value v1
  with_reducible refine Res.bindK ?_ ?_
  · with_reducible exact readKeyed_keeps (by assumption)
  · intro _ _
    intro _
    extract_lets +onlyGivenNames v2
    clear_value v2
    extract_lets +onlyGivenNames v3
    clear_value v3
    extract_lets +onlyGivenNames v4
    clear_value v4
    extract_lets +onlyGivenNames v5
    clear_value v5
    extract_lets +onlyGivenNames v6
    clear_value v6
    with_reducible refine Res.bindK ?_ ?_
    · with_reducible refine Res.iteK ?_ ?_
      · with_reducible exact Res.okI (by assumption)
      · with_reducible exact endsRun_keeps (by assumption)
    · intro _ _
      intro _
      extract_lets +onlyGivenNames v7
      clear_value v7
      extract_lets +onlyGivenNames v8
      clear_value v8
      extract_lets +onlyGivenNames v9
      clear_value v9
      with_reducible refine Res.bindK ?_ ?_
      · with_reducible exact placesIf_keeps (by assumption)
      · intro _ _
        intro _
        with_reducible refine Res.bindK ?_ ?_
        · with_reducible exact raiseHeld_keeps (by assumption)
        · intro _ _
          intro _
          with_reducible refine Res.bindK ?_ ?_
          · with_reducible exact sumIf_keeps (by assumption)
          · intro _ _
            intro _
            extract_lets +onlyGivenNames v10
            clear_value v10
            with_reducible exact Res.okI (by assumption)

theorem consume_keeps {z : State} {x1 x2 x3 x4 x5 x6 x7 x8 x9 s} (h10 : Keeps z (s)) : Res.all (Keeps z) (consume x1 x2 x3 x4 x5 x6 x7 x8 x9 s) := by
  induction x8 generalizing x1 x2 x3 x4 x5 x6 x7 x9 s
  · unfold consume
    with_reducible exact Res.okI (by assumption)
  · rename_i n ih
    unfold consume
    with_reducible refine Res.iteK ?_ ?_
    · with_reducible exact Res.okI (by assumption)
    · extract_lets +onlyGivenNames v1
      clear_value v1
      with_reducible refine Res.bindK ?_ ?_
      · with_reducible exact readKeyed_keeps (by assumption)
      · intro _ _
        intro _
        extract_lets +onlyGivenNames v2
        clear_value v2
        with_reducible refine Res.iteK ?_ ?_
        · with_reducible exact Res.okI (by assumption)
        · extract_lets +onlyGivenNames v3
          clear_value v3
          extract_lets +onlyGivenNames v4
          clear_value v4
          with_reducible apply ih
          with_reducible assumption

theorem runHeads_keeps {z : State} {x1 x2 x3 x4 x5 x6 x7 x8 x9 s} (h10 : Keeps z (s)) : Res.all (Keeps z) (runHeads x1 x2 x3 x4 x5 x6 x7 x8 x9 s) := by
  induction x9 generalizing x1 x2 x3 x4 x5 x6 x7 x8 s
  · unfold runHeads
    with_reducible exact Res.okI (by assumption)
  · rename_i n ih
    unfold runHeads
    extract_lets +onlyGivenNames v1
    clear_value v1
    extract_lets +onlyGivenNames v2
    clear_value v2
    with_reducible refine Res.iteK ?_ ?_
    · with_reducible refine Res.bindK ?_ ?_
      · with_reducible exact readKeyed_keeps (by assumption)
      · intro _ _
        intro _
        with_reducible refine Res.bindK ?_ ?_
        · with_reducible apply ih
          with_reducible assumption
        · intro _ _
          intro _
          with_reducible exact Res.okI (by assumption)
    · with_reducible apply ih
      with_reducible assumption

theorem sortMerge_keeps {z : State} {x1 x2 x3 x4 x5 x6 x7 s} (h8 : Keeps z (s)) : Res.all (Keeps z) (sortMerge x1 x2 x3 x4 x5 x6 x7 s) := by
  unfold sortMerge
  extract_lets +onlyGivenNames v1
  clear_value v1
  extract_lets +onlyGivenNames v2
  clear_value v2
  extract_lets +onlyGivenNames v3
  clear_value v3
  extract_lets +onlyGivenNames v4
  clear_value v4
  with_reducible refine Res.bindK ?_ ?_
  · with_reducible exact runHeads_keeps (by assumption)
  · intro _ _
    intro _
    split
    · with_reducible refine Res.bindK ?_ ?_
      · with_reducible exact raiseHeld_keeps (by assumption)
      · intro _ _
        intro _
        with_reducible exact Res.okI (by assumption)
    · extract_lets +onlyGivenNames v5
      clear_value v5
      extract_lets +onlyGivenNames v6
      clear_value v6
      with_reducible refine Res.bindK ?_ ?_
      · with_reducible exact placesIf_keeps (by assumption)
      · intro _ _
        intro _
        with_reducible refine Res.bindK ?_ ?_
        · with_reducible exact raiseHeld_keeps (by assumption)
        · intro _ _
          intro _
          extract_lets +onlyGivenNames v7
          clear_value v7
          extract_lets +onlyGivenNames v8
          clear_value v8
          with_reducible exact Res.okI (by assumption)

theorem excPlaces_keeps {z : State} {x1 x2 x3 x4 x5 s} (h6 : Keeps z (s)) : Res.all (Keeps z) (excPlaces x1 x2 x3 x4 x5 s) := by
  induction x5 generalizing x1 x2 x3 x4 s
  · unfold excPlaces
    with_reducible exact Res.okI (by assumption)
  · rename_i e l ih
    unfold excPlaces
    extract_lets +onlyGivenNames v1
    clear_value v1
    with_reducible refine Res.bindK ?_ ?_
    · with_reducible exact xlate_keeps (by assumption)
    · intro _ _
      intro _
      with_reducible refine Res.bindK ?_ ?_
      · with_reducible apply ih
        with_reducible assumption
      · intro _ _
        intro _
        with_reducible exact Res.okI (by assumption)

theorem readArea_keeps {z : State} {x1 x2 x3 x4 s} (h5 : Keeps z (s)) : Res.all (Keeps z) (readArea x1 x2 x3 x4 s) := by
  unfold readArea
  with_reducible exact readPlaces_keeps (by assumption)

theorem sortForm_keeps {z : State} {x1 x2 x3 x4 x5 x6 s} (h7 : Keeps z (s)) : Res.all (Keeps z) (sortForm x1 x2 x3 x4 x5 x6 s) := by
  unfold sortForm
  extract_lets +onlyGivenNames v1
  clear_value v1
  extract_lets +onlyGivenNames v2
  clear_value v2
  extract_lets +onlyGivenNames v3
  clear_value v3
  extract_lets +onlyGivenNames v4
  clear_value v4
  with_reducible refine Res.iteK ?_ ?_
  · with_reducible exact Res.okI (by assumption)
  · with_reducible refine Res.bindK ?_ ?_
    · with_reducible exact readArea_keeps (by assumption)
    · intro _ _
      intro _
      with_reducible refine Res.bindK ?_ ?_
      · with_reducible exact destPlaces_keeps (by assumption)
      · intro _ _
        intro _
        extract_lets +onlyGivenNames v5
        clear_value v5
        with_reducible exact Res.okI (State_drawn_keeps (by assumption))

theorem smitre_keeps {z : State} {x1 x2 x3 x4 x5 x6 x7 s} (h8 : Keeps z (s)) : Res.all (Keeps z) (smitre x1 x2 x3 x4 x5 x6 x7 s) := by
  unfold smitre
  extract_lets +onlyGivenNames v1
  clear_value v1
  extract_lets +onlyGivenNames v2
  clear_value v2
  with_reducible refine Res.bindK ?_ ?_
  · with_reducible exact readKeyed_keeps (by assumption)
  · intro _ _
    intro _
    extract_lets +onlyGivenNames v3
    clear_value v3
    extract_lets +onlyGivenNames v4
    clear_value v4
    extract_lets +onlyGivenNames v5
    clear_value v5
    with_reducible refine Res.bindK ?_ ?_
    · with_reducible exact consume_keeps (by assumption)
    · intro _ _
      intro _
      extract_lets +onlyGivenNames v6
      clear_value v6
      extract_lets +onlyGivenNames v7
      clear_value v7
      extract_lets +onlyGivenNames v8
      clear_value v8
      extract_lets +onlyGivenNames v9
      clear_value v9
      with_reducible refine Res.bindK ?_ ?_
      · with_reducible exact placesIf_keeps (by assumption)
      · intro _ _
        intro _
        with_reducible refine Res.bindK ?_ ?_
        · with_reducible exact excPlaces_keeps (by assumption)
        · intro _ _
          intro _
          with_reducible refine Res.bindK ?_ ?_
          · with_reducible exact raiseHeld_keeps (by assumption)
          · intro _ _
            intro _
            with_reducible refine Res.bindK ?_ ?_
            · with_reducible exact sumIf_keeps (by assumption)
            · intro _ _
              intro _
              extract_lets +onlyGivenNames v10
              clear_value v10
              extract_lets +onlyGivenNames v11
              clear_value v11
              with_reducible exact Res.okI (by assumption)

theorem keyMember_keeps {z : State} {x1 x2 x3 x4 x5 x6 x7 s} (h8 : Keeps z (s)) : Res.all (Keeps z) (keyMember x1 x2 x3 x4 x5 x6 x7 s) := by
  unfold keyMember
  split
  · with_reducible exact smitre_keeps (by assumption)
  · with_reducible exact sseg_keeps (by assumption)
  · with_reducible refine Res.iteK ?_ ?_
    · with_reducible exact sortForm_keeps (by assumption)
    · with_reducible exact sortMerge_keeps (by assumption)

/-! ### StreamRun -/

theorem finishHead_keeps {z : State} {x1 x2 s} (h3 : Keeps z (s)) : Keeps z (finishHead x1 x2 s) := by
  unfold finishHead
  extract_lets +onlyGivenNames v1
  have k1 : Keeps z (v1) := by
    dsimp only [v1]
    with_reducible exact noteCounts_keeps (by assumption)
  clear_value v1
  extract_lets +onlyGivenNames v2
  clear_value v2
  with_reducible exact State_setCore_keeps (by assumption)

theorem dropLines_keeps {z : State} {x1 x2 s} (h3 : Keeps z (s)) : Keeps z (dropLines x1 x2 s) := by
  unfold dropLines
  extract_lets +onlyGivenNames v1
  extract_lets +onlyGivenNames v2
  clear_value v2
  with_reducible exact State_setBent_keeps (by assumption)

theorem putOne_keeps {z : State} {x1 s} (h2 : Keeps z (s)) : Keeps z (putOne x1 s) := by
  unfold putOne
  with_reducible refine Keeps.iteK ?_ ?_
  · with_reducible exact dropLines_keeps (writePlaces_keeps (by assumption))
  · with_reducible exact dropLines_keeps (writePlaces_keeps (State_drawn_keeps (by assumption)))

theorem putElem_keeps {z : State} {x1 s} (h2 : Keeps z (s)) : Keeps z (putElem x1 s) := by
  unfold putElem
  with_reducible refine Keeps.foldl ?_ _ ?_
  · intro _ _
    intro _
    with_reducible exact putOne_keeps (by assumption)
  · with_reducible assumption

theorem putStrand_keeps {z : State} {x1 x2 x3 s} (h4 : Keeps z (s)) : Pair.all (Keeps z) (putStrand x1 x2 x3 s) := by
  unfold putStrand
  with_reducible refine Pair.iteK ?_ ?_
  · with_reducible exact Pair.mkI (by assumption)
  · with_reducible exact Pair.mkI (putElem_keeps (by assumption))

theorem portLog_keeps {z : State} {x1 x2 x3 s} (h4 : Keeps z (s)) : Keeps z (portLog x1 x2 x3 s) := by
  unfold portLog
  extract_lets +onlyGivenNames v1
  clear_value v1
  extract_lets +onlyGivenNames v2
  have k2 : Keeps z (v2) := by
    dsimp only [v2]
    with_reducible exact logErr_keeps (countErr_keeps (by assumption))
  clear_value v2
  with_reducible refine Keeps.iteK ?_ ?_
  · with_reducible exact logErr_keeps (by assumption)
  · with_reducible assumption

theorem runMember_keeps {z : State} {x1 x2 x3 x4 x5 s} (h6 : Keeps z (s)) : Res.all (Keeps z) (runMember x1 x2 x3 x4 x5 s) := by
  unfold runMember
  extract_lets +onlyGivenNames v1
  clear_value v1
  extract_lets +onlyGivenNames v2
  have k2 : Keeps z (v2) := by
    dsimp only [v2]
    with_reducible exact fetchFor_keeps (by assumption)
  clear_value v2
  split
  · with_reducible refine Res.iteK ?_ ?_
    · with_reducible exact keyMember_keeps (by assumption)
    · with_reducible exact simpleMember_keeps (by assumption)
  · with_reducible exact simpleMember_keeps (by assumption)

theorem setHead_keeps {z : State} {x1 x2 s} (h3 : Keeps z (s)) : Keeps z (setHead x1 x2 s) := by
  unfold setHead
  with_reducible exact State_setCore_keeps (by assumption)

theorem breakChain_keeps {z : State} {x1 s} (h2 : Keeps z (s)) : Keeps z (breakChain x1 s) := by
  unfold breakChain
  with_reducible refine Keeps.foldl ?_ _ ?_
  · intro _ _
    intro _
    split
    · with_reducible refine Keeps.iteK ?_ ?_
      · with_reducible assumption
      · with_reducible exact setHead_keeps (by assumption)
    · with_reducible assumption
  · with_reducible assumption

theorem addSeals_keeps {z : State} {x1 x2 s} (h3 : Keeps z (s)) : exceptAll (Keeps z) (addSeals x1 x2 s) := by
  induction x2 generalizing x1 s
  · unfold addSeals
    refine exceptAll_okI ?_
    with_reducible assumption
  · rename_i e l ih
    unfold addSeals
    extract_lets +onlyGivenNames v1
    clear_value v1
    extract_lets +onlyGivenNames v2
    clear_value v2
    with_reducible refine exceptAll_ite ?_ ?_
    · with_reducible apply ih
      with_reducible exact State_setCore_keeps (by assumption)
    · exact trivial

theorem sealAll_keeps {z : State} {x1 x2 x3 s} (h4 : Keeps z (s)) : exceptAll (Keeps z) (sealAll x1 x2 x3 s) := by
  induction x3 generalizing x1 x2 s
  · unfold sealAll
    refine exceptAll_okI ?_
    with_reducible assumption
  · rename_i e l ih
    unfold sealAll
    with_reducible refine exceptAll_ite ?_ ?_
    · with_reducible apply ih
      with_reducible assumption
    · split
      · with_reducible apply ih
        with_reducible refine exceptAll_ok (by assumption) ?_
        with_reducible exact addSeals_keeps (by assumption)
      · exact trivial

theorem beginHead_keeps {z : State} {x1 x2 s} (h3 : Keeps z (s)) : Keeps z (beginHead x1 x2 s) := by
  unfold beginHead
  with_reducible exact setHead_keeps (State_setBent_keeps (by assumption))

theorem execStreamStart_keeps {z : State} {x1 s} (h2 : Keeps z (s)) : outcomeAll (Keeps z) (execStreamStart x1 s) := by
  unfold execStreamStart
  split
  · with_reducible refine outcomeAll_ite ?_ ?_
    · with_reducible exact outcomeAll_next (setHead_keeps (by assumption))
    · with_reducible refine outcomeAll_ite ?_ ?_
      · with_reducible refine outcomeAll_ite ?_ ?_
        · with_reducible exact outcomeAll_next (finishHead_keeps (beginHead_keeps (by assumption)))
        · with_reducible exact outcomeAll_next (beginHead_keeps (by assumption))
      · with_reducible exact outcomeAll_next (by assumption)
  · with_reducible exact outcomeAll_next (by assumption)

theorem GroupRun_s_keeps {z : State} {p1} (h1 : GroupRun.all (Keeps z) (p1)) : Keeps z (GroupRun.s p1) := by
  unfold GroupRun.s
  with_reducible exact GroupRun.sI (by assumption)

theorem replays_keeps {z : State} {x1 x2 s} (h3 : Keeps z (s)) : Keeps z (replays x1 x2 s) := by
  induction x2 generalizing x1 s
  · unfold replays
    with_reducible assumption
  · rename_i n ih
    unfold replays
    extract_lets +onlyGivenNames v1
    clear_value v1
    with_reducible apply ih
    with_reducible exact logErr_keeps (countPair_keeps (countErr_keeps (by assumption)))

theorem checkResidue_keeps {z : State} {x1 x2 x3 s} (hf3 : ∀ y1, Keeps z (y1) → Keeps z (x3 y1)) (h4 : Keeps z (s)) : Keeps z (checkResidue x1 x2 x3 s) := by
  unfold checkResidue
  extract_lets +onlyGivenNames v1
  have k1 : Keeps z (v1) := by
    dsimp only [v1]
    with_reducible exact replays_keeps (by assumption)
  clear_value v1
  with_reducible refine Keeps.iteK ?_ ?_
  · with_reducible exact retireBent_keeps (logErr_keeps (by assumption))
  · with_reducible apply hf3
    with_reducible assumption

theorem portWrite_keeps {z : State} {x1 x2 x3 s} (h4 : Keeps z (s)) : Keeps z (portWrite x1 x2 x3 s) := by
  unfold portWrite
  extract_lets +onlyGivenNames v1
  have k1 : Keeps z (v1) := by
    dsimp only [v1]
    with_reducible exact portLog_keeps (by assumption)
  clear_value v1
  with_reducible refine Keeps.iteK ?_ ?_
  · with_reducible assumption
  · split
    · with_reducible refine Keeps.iteK ?_ ?_
      · with_reducible exact setPoison_keeps (by assumption)
      · with_reducible assumption
    · with_reducible exact Keeps.upd (by assumption) rfl rfl rfl rfl
    · with_reducible exact State_setBent_keeps (by assumption)
    · with_reducible assumption

theorem GroupRun_wrote_keeps {z : State} {p1 x2} (h1 : GroupRun.all (Keeps z) (p1)) : GroupRun.all (Keeps z) (GroupRun.wrote p1 x2) := by
  unfold GroupRun.wrote
  split
  · with_reducible assumption
  · split
    · with_reducible exact GroupRun.mkI (portWrite_keeps (GroupRun.sI (by assumption)))
    · with_reducible assumption

theorem loadFor_keeps {z : State} {x1 x2 x3 s} (h4 : Keeps z (s)) : Res.all (Keeps z) (loadFor x1 x2 x3 s) := by
  unfold loadFor
  split
  · with_reducible refine Res.iteK ?_ ?_
    · with_reducible exact loadRun_keeps (fetchFor_keeps (by assumption))
    · with_reducible exact Res.okI (by assumption)
  · with_reducible exact Res.okI (by assumption)

theorem runElem_keeps {z : State} {x1 x2 x3 x4 x5 s} (h6 : Keeps z (s)) : ElemRes.all (Keeps z) (runElem x1 x2 x3 x4 x5 s) := by
  induction x3 generalizing x1 x2 x4 x5 s
  · unfold runElem
    with_reducible exact ElemRes.okI (by assumption)
  · rename_i n ih
    unfold runElem
    split
    · injections
    · injections
    · injections
      subst_vars
      split
      · with_reducible exact ElemRes.stallI (by assumption)
      · split
        · split
          · with_reducible apply ih
            with_reducible refine Res.okK (by assumption) ?_
            with_reducible exact runMember_keeps (by assumption)
          · with_reducible refine ElemRes.trapI ?_
            with_reducible refine Res.trapK (by assumption) ?_
            with_reducible exact runMember_keeps (by assumption)
          · with_reducible refine ElemRes.stallI ?_
            with_reducible refine Res.stallK (by assumption) ?_
            with_reducible exact runMember_keeps (by assumption)
        · with_reducible exact ElemRes.okI (by assumption)

theorem GroupRun_stalled_keeps {z : State} {p1 x2 s3} (h1 : GroupRun.all (Keeps z) (p1)) (h3 : Keeps z (s3)) : GroupRun.all (Keeps z) (GroupRun.stalled p1 x2 s3) := by
  unfold GroupRun.stalled
  with_reducible exact GroupRun.mkI (by assumption)

theorem GroupRun_faulted_keeps {z : State} {p1 x2 x3 x4 s5} (h1 : GroupRun.all (Keeps z) (p1)) (h5 : Keeps z (s5)) : GroupRun.all (Keeps z) (GroupRun.faulted p1 x2 x3 x4 s5) := by
  unfold GroupRun.faulted
  with_reducible exact GroupRun.mkI (by assumption)

theorem putAll_keeps {z : State} {x1 x2 s} (h3 : Keeps z (s)) : Pair.all (Keeps z) (putAll x1 x2 s) := by
  induction x2 generalizing x1 s
  · unfold putAll
    with_reducible exact Pair.mkI (by assumption)
  · rename_i e l ih
    unfold putAll
    split
    split
    with_reducible refine Pair.mkI ?_
    with_reducible refine Pair.sndK (by assumption) ?_
    with_reducible apply ih
    with_reducible refine Pair.sndK (by assumption) ?_
    with_reducible exact putStrand_keeps (by assumption)

theorem commitElem_keeps {z : State} {x1 x2 s} (h3 : Keeps z (s)) : exceptPair (Keeps z) (commitElem x1 x2 s) := by
  unfold commitElem
  split
  · exact trivial
  · with_reducible refine exceptPair_okI ?_
    with_reducible apply putAll_keeps
    with_reducible refine exceptAll_ok (by assumption) ?_
    with_reducible exact sealAll_keeps (by assumption)

theorem groupBody_keeps {z : State} {p1 x2} (h1 : GroupRun.all (Keeps z) (p1)) : GroupRun.all (Keeps z) (groupBody p1 x2) := by
  unfold groupBody
  extract_lets +onlyGivenNames v1
  clear_value v1
  extract_lets +onlyGivenNames v2
  clear_value v2
  split
  · with_reducible apply GroupRun_stalled_keeps
    · with_reducible assumption
    · with_reducible refine ElemRes.stallK (by assumption) ?_
      with_reducible exact runElem_keeps (GroupRun.sI (by assumption))
  · with_reducible apply GroupRun_faulted_keeps
    · with_reducible assumption
    · with_reducible refine ElemRes.trapK (by assumption) ?_
      with_reducible exact runElem_keeps (GroupRun.sI (by assumption))
  · split
    · with_reducible apply GroupRun_faulted_keeps
      · with_reducible assumption
      · with_reducible refine ElemRes.okK (by assumption) ?_
        with_reducible exact runElem_keeps (GroupRun.sI (by assumption))
    · with_reducible apply GroupRun_wrote_keeps
      with_reducible refine GroupRun.mkI ?_
      with_reducible refine exceptPair_ok (by assumption) ?_
      with_reducible apply commitElem_keeps
      with_reducible refine ElemRes.okK (by assumption) ?_
      with_reducible exact runElem_keeps (GroupRun.sI (by assumption))

theorem upset_keeps {z : State} {x1 x2 s} (h3 : Keeps z (s)) : Keeps z (upset x1 x2 s) := by
  unfold upset
  extract_lets +onlyGivenNames v1
  extract_lets +onlyGivenNames v2
  clear_value v2
  with_reducible exact State_setBent_keeps (by assumption)

theorem holdGang_keeps {z : State} {x1 s} (h2 : Keeps z (s)) : Keeps z (holdGang x1 s) := by
  unfold holdGang
  with_reducible refine Keeps.foldl ?_ _ ?_
  · intro _ _
    intro _
    with_reducible refine Keeps.iteK ?_ ?_
    · with_reducible exact stopStream_keeps (by assumption)
    · with_reducible assumption
  · with_reducible assumption

theorem portRead_keeps {z : State} {x1 x2 x3 s} (h4 : Keeps z (s)) : Pair.all (Keeps z) (portRead x1 x2 x3 s) := by
  unfold portRead
  split
  · with_reducible exact Pair.mkI (by assumption)
  · split
    · with_reducible refine Pair.mkI ?_
      with_reducible apply portLog_keeps
      with_reducible refine Res.okK (by assumption) ?_
      with_reducible exact xlate_keeps (by assumption)
    · with_reducible refine Pair.mkI ?_
      with_reducible refine Res.okK (by assumption) ?_
      with_reducible exact xlate_keeps (by assumption)
    · with_reducible refine Pair.mkI ?_
      with_reducible refine Res.trapK (by assumption) ?_
      with_reducible exact xlate_keeps (by assumption)
    · with_reducible refine Pair.mkI ?_
      with_reducible refine Res.stallK (by assumption) ?_
      with_reducible exact xlate_keeps (by assumption)

theorem endGroup_keeps {z : State} {p1} (h1 : GroupRun.all (Keeps z) (p1)) : Keeps z (endGroup p1) := by
  unfold endGroup
  extract_lets +onlyGivenNames v1
  clear_value v1
  with_reducible refine Keeps.foldl ?_ _ ?_
  · intro _ _
    intro _
    extract_lets +onlyGivenNames v2
    clear_value v2
    extract_lets +onlyGivenNames v3
    clear_value v3
    with_reducible refine Keeps.iteK ?_ ?_
    · with_reducible exact setHead_keeps (by assumption)
    · with_reducible exact setHead_keeps (by assumption)
  · with_reducible exact GroupRun.sI (by assumption)

theorem loadAll_keeps {z : State} {x1 x2 x3 s} (h4 : Keeps z (s)) : ElemRes.all (Keeps z) (loadAll x1 x2 x3 s) := by
  induction x3 generalizing x1 x2 s
  · unfold loadAll
    with_reducible exact ElemRes.okI (by assumption)
  · rename_i e l ih
    unfold loadAll
    split
    · with_reducible refine ElemRes.trapI ?_
      with_reducible refine Res.trapK (by assumption) ?_
      with_reducible exact loadFor_keeps (by assumption)
    · with_reducible refine ElemRes.stallI ?_
      with_reducible refine Res.stallK (by assumption) ?_
      with_reducible exact loadFor_keeps (by assumption)
    · split
      · with_reducible refine ElemRes.okI ?_
        with_reducible refine ElemRes.okK (by assumption) ?_
        with_reducible apply ih
        with_reducible refine Res.okK (by assumption) ?_
        with_reducible exact loadFor_keeps (by assumption)
      · with_reducible apply ih
        with_reducible refine Res.okK (by assumption) ?_
        with_reducible exact loadFor_keeps (by assumption)

theorem groupElem_keeps {z : State} {x1 p2 x3} (h2 : GroupRun.all (Keeps z) (p2)) : GroupRun.all (Keeps z) (groupElem x1 p2 x3) := by
  unfold groupElem
  with_reducible refine GroupRun.iteK ?_ ?_
  · with_reducible assumption
  · split
    · with_reducible apply GroupRun_faulted_keeps
      · with_reducible assumption
      · with_reducible exact GroupRun.sI (by assumption)
    · split
      · with_reducible apply GroupRun_stalled_keeps
        · with_reducible assumption
        · with_reducible refine ElemRes.stallK (by assumption) ?_
          with_reducible exact loadAll_keeps (GroupRun.sI (by assumption))
      · with_reducible apply GroupRun_faulted_keeps
        · with_reducible assumption
        · with_reducible refine ElemRes.trapK (by assumption) ?_
          with_reducible exact loadAll_keeps (GroupRun.sI (by assumption))
      · with_reducible apply groupBody_keeps
        with_reducible refine GroupRun.mkI ?_
        with_reducible refine ElemRes.okK (by assumption) ?_
        with_reducible exact loadAll_keeps (GroupRun.sI (by assumption))

theorem runGroup_keeps {z : State} {x1 x2 s} (h3 : Keeps z (s)) : Keeps z (runGroup x1 x2 s) := by
  unfold runGroup
  extract_lets +onlyGivenNames v1
  clear_value v1
  extract_lets +onlyGivenNames v2
  clear_value v2
  extract_lets +onlyGivenNames v3
  clear_value v3
  extract_lets +onlyGivenNames v4
  clear_value v4
  split
  extract_lets +onlyGivenNames v5
  clear_value v5
  with_reducible apply closeFetch_keeps
  with_reducible apply endGroup_keeps
  with_reducible refine GroupRun.foldl ?_ _ ?_
  · intro _ _
    intro _
    with_reducible exact groupElem_keeps (by assumption)
  · with_reducible refine GroupRun.mkI ?_
    with_reducible apply openFetch_keeps
    with_reducible apply State_drawn_keeps
    with_reducible refine Pair.sndK (by assumption) ?_
    split
    · with_reducible refine Pair.iteK ?_ ?_
      · with_reducible exact Pair.mkI (by assumption)
      · with_reducible exact portRead_keeps (by assumption)
    · with_reducible exact Pair.mkI (by assumption)

theorem advanceGang_keeps {z : State} {x1 x2 x3 x4 s} (h5 : Keeps z (s)) : Keeps z (advanceGang x1 x2 x3 x4 s) := by
  unfold advanceGang
  extract_lets +onlyGivenNames v1
  clear_value v1
  with_reducible refine Keeps.iteK ?_ ?_
  · with_reducible exact breakChain_keeps (by assumption)
  · with_reducible refine Keeps.iteK ?_ ?_
    · with_reducible refine Keeps.iteK ?_ ?_
      · with_reducible exact holdGang_keeps (by assumption)
      · with_reducible assumption
    · with_reducible refine Keeps.iteK ?_ ?_
      · with_reducible exact breakChain_keeps (by assumption)
      · with_reducible refine Keeps.iteK ?_ ?_
        · with_reducible assumption
        · with_reducible apply checkResidue_keeps
          · intro _ _
            with_reducible exact runGroup_keeps (by assumption)
          · with_reducible assumption

theorem execElementGroup_keeps {z : State} {x1 x2 s} (h3 : Keeps z (s)) : outcomeAll (Keeps z) (execElementGroup x1 x2 s) := by
  unfold execElementGroup
  extract_lets +onlyGivenNames v1
  have k1 : Keeps z (v1) := by
    dsimp only [v1]
    with_reducible refine Keeps.foldl ?_ _ ?_
    · intro _ _
      intro _
      with_reducible exact upset_keeps (by assumption)
    · with_reducible assumption
  clear_value v1
  split
  · with_reducible refine outcomeAll_ite ?_ ?_
    · with_reducible exact outcomeAll_next (advanceGang_keeps (by assumption))
    · with_reducible exact outcomeAll_next (by assumption)
  · with_reducible exact outcomeAll_next (by assumption)

theorem execStreamFinish_keeps {z : State} {x1 s} (h2 : Keeps z (s)) : outcomeAll (Keeps z) (execStreamFinish x1 s) := by
  unfold execStreamFinish
  split
  · with_reducible refine outcomeAll_ite ?_ ?_
    · extract_lets +onlyGivenNames v1
      clear_value v1
      with_reducible refine outcomeAll_ite ?_ ?_
      · with_reducible exact outcomeAll_next (finishHead_keeps (by assumption))
      · with_reducible refine outcomeAll_ite ?_ ?_
        · with_reducible exact outcomeAll_next (breakChain_keeps (by assumption))
        · with_reducible refine outcomeAll_ite ?_ ?_
          · with_reducible exact outcomeAll_next (by assumption)
          · with_reducible refine outcomeAll_ite ?_ ?_
            · with_reducible exact outcomeAll_next (breakChain_keeps (by assumption))
            · with_reducible refine outcomeAll_next ?_
              with_reducible refine Keeps.foldl ?_ _ ?_
              · intro _ _
                intro _
                with_reducible refine Keeps.elim ?_ ?_
                · with_reducible assumption
                · intro _
                  with_reducible exact finishHead_keeps (by assumption)
              · with_reducible assumption
    · with_reducible exact outcomeAll_next (by assumption)
  · with_reducible exact outcomeAll_next (by assumption)

theorem execStreamStop_keeps {z : State} {x1 s} (h2 : Keeps z (s)) : outcomeAll (Keeps z) (execStreamStop x1 s) := by
  unfold execStreamStop
  split
  · with_reducible refine outcomeAll_ite ?_ ?_
    · with_reducible exact outcomeAll_next (stopStream_keeps (holdGang_keeps (by assumption)))
    · with_reducible exact outcomeAll_next (by assumption)
  · with_reducible exact outcomeAll_next (by assumption)

/-! ### VectorIssue -/

theorem vecFinished_keeps {z : State} {x1 x2 s} (h3 : Keeps z (s)) : Keeps z (vecFinished x1 x2 s) := by
  unfold vecFinished
  with_reducible exact State_setCore_keeps (by assumption)

theorem pcnt_keeps {z : State} {x1 x2 x3 s} (h4 : Keeps z (s)) : Res.all (Keeps z) (pcnt x1 x2 x3 s) := by
  unfold pcnt
  extract_lets +onlyGivenNames v1
  clear_value v1
  with_reducible refine Res.iteK ?_ ?_
  · with_reducible exact Res.stallI (by assumption)
  · with_reducible exact goOn_keeps (vecFinished_keeps (wrD_keeps (by assumption)))

theorem acceptVec_keeps {z : State} {x1 x2 s} (h3 : Keeps z (s)) : Res.all (Keeps z) (acceptVec x1 x2 s) := by
  unfold acceptVec
  extract_lets +onlyGivenNames v1
  clear_value v1
  with_reducible refine Res.iteK ?_ ?_
  · with_reducible exact Res.stallI (by assumption)
  · with_reducible exact goOn_keeps (State_setCore_keeps (by assumption))

theorem issueVec_keeps {z : State} {x1 x2 x3 x4 x5 x6 x7 s} (h8 : Keeps z (s)) : Keeps z (issueVec x1 x2 x3 x4 x5 x6 x7 s) := by
  unfold issueVec
  with_reducible apply issueAny_keeps
  · intro _ _
    extract_lets +onlyGivenNames v1
    clear_value v1
    with_reducible refine Res.iteK ?_ ?_
    · with_reducible exact illegal_keeps (by assumption)
    · split
      · with_reducible exact Res.trapI (by assumption)
      · with_reducible refine Res.iteK ?_ ?_
        · with_reducible exact formatErr_keeps (by assumption)
        · with_reducible refine Res.iteK ?_ ?_
          · with_reducible exact Res.trapI (by assumption)
          · with_reducible refine Res.iteK ?_ ?_
            · with_reducible exact pcnt_keeps (by assumption)
            · with_reducible exact acceptVec_keeps (by assumption)
  · with_reducible assumption

theorem execVsub_keeps {z : State} {x1 x2 x3 x4 x5 s} (h6 : Keeps z (s)) : outcomeAll (Keeps z) (execVsub x1 x2 x3 x4 x5 s) := by
  unfold execVsub
  with_reducible exact outcomeAll_next (issueVec_keeps (by assumption))

theorem execVredSealAdd_keeps {z : State} {x1 x2 x3 x4 x5 s} (h6 : Keeps z (s)) : outcomeAll (Keeps z) (execVredSealAdd x1 x2 x3 x4 x5 s) := by
  unfold execVredSealAdd
  with_reducible exact outcomeAll_next (issueVec_keeps (by assumption))

theorem execVnorm_keeps {z : State} {x1 x2 x3 x4 x5 s} (h6 : Keeps z (s)) : outcomeAll (Keeps z) (execVnorm x1 x2 x3 x4 x5 s) := by
  unfold execVnorm
  with_reducible exact outcomeAll_next (issueVec_keeps (by assumption))

theorem execVcmp_keeps {z : State} {x1 x2 x3 x4 x5 s} (h6 : Keeps z (s)) : outcomeAll (Keeps z) (execVcmp x1 x2 x3 x4 x5 s) := by
  unfold execVcmp
  with_reducible exact outcomeAll_next (issueVec_keeps (by assumption))

theorem execVkcmp_keeps {z : State} {x1 x2 x3 x4 x5 s} (h6 : Keeps z (s)) : outcomeAll (Keeps z) (execVkcmp x1 x2 x3 x4 x5 s) := by
  unfold execVkcmp
  with_reducible exact outcomeAll_next (issueVec_keeps (by assumption))

theorem execPand_keeps {z : State} {x1 x2 x3 x4 x5 s} (h6 : Keeps z (s)) : outcomeAll (Keeps z) (execPand x1 x2 x3 x4 x5 s) := by
  unfold execPand
  with_reducible exact outcomeAll_next (issueVec_keeps (by assumption))

theorem execVst_keeps {z : State} {x1 x2 x3 x4 x5 s} (h6 : Keeps z (s)) : outcomeAll (Keeps z) (execVst x1 x2 x3 x4 x5 s) := by
  unfold execVst
  with_reducible exact outcomeAll_next (issueVec_keeps (by assumption))

theorem execPnot_keeps {z : State} {x1 x2 x3 x4 x5 s} (h6 : Keeps z (s)) : outcomeAll (Keeps z) (execPnot x1 x2 x3 x4 x5 s) := by
  unfold execPnot
  with_reducible exact outcomeAll_next (issueVec_keeps (by assumption))

theorem execPcnt_keeps {z : State} {x1 x2 x3 x4 x5 s} (h6 : Keeps z (s)) : outcomeAll (Keeps z) (execPcnt x1 x2 x3 x4 x5 s) := by
  unfold execPcnt
  with_reducible exact outcomeAll_next (issueVec_keeps (by assumption))

theorem execVld_keeps {z : State} {x1 x2 x3 x4 x5 s} (h6 : Keeps z (s)) : outcomeAll (Keeps z) (execVld x1 x2 x3 x4 x5 s) := by
  unfold execVld
  with_reducible exact outcomeAll_next (issueVec_keeps (by assumption))

theorem execVmul_keeps {z : State} {x1 x2 x3 x4 x5 s} (h6 : Keeps z (s)) : outcomeAll (Keeps z) (execVmul x1 x2 x3 x4 x5 s) := by
  unfold execVmul
  with_reducible exact outcomeAll_next (issueVec_keeps (by assumption))

theorem execVmac_keeps {z : State} {x1 x2 x3 x4 x5 s} (h6 : Keeps z (s)) : outcomeAll (Keeps z) (execVmac x1 x2 x3 x4 x5 s) := by
  unfold execVmac
  with_reducible exact outcomeAll_next (issueVec_keeps (by assumption))

theorem execVredSealSubtract_keeps {z : State} {x1 x2 x3 x4 x5 s} (h6 : Keeps z (s)) : outcomeAll (Keeps z) (execVredSealSubtract x1 x2 x3 x4 x5 s) := by
  unfold execVredSealSubtract
  with_reducible exact outcomeAll_next (issueVec_keeps (by assumption))

theorem execPsetn_keeps {z : State} {x1 x2 x3 x4 x5 s} (h6 : Keeps z (s)) : outcomeAll (Keeps z) (execPsetn x1 x2 x3 x4 x5 s) := by
  unfold execPsetn
  with_reducible exact outcomeAll_next (issueVec_keeps (by assumption))

theorem execVgath_keeps {z : State} {x1 x2 x3 x4 x5 s} (h6 : Keeps z (s)) : outcomeAll (Keeps z) (execVgath x1 x2 x3 x4 x5 s) := by
  unfold execVgath
  with_reducible exact outcomeAll_next (issueVec_keeps (by assumption))

theorem execVlog_keeps {z : State} {x1 x2 x3 x4 x5 s} (h6 : Keeps z (s)) : outcomeAll (Keeps z) (execVlog x1 x2 x3 x4 x5 s) := by
  unfold execVlog
  with_reducible exact outcomeAll_next (issueVec_keeps (by assumption))

theorem execVredSum_keeps {z : State} {x1 x2 x3 x4 x5 s} (h6 : Keeps z (s)) : outcomeAll (Keeps z) (execVredSum x1 x2 x3 x4 x5 s) := by
  unfold execVredSum
  with_reducible exact outcomeAll_next (issueVec_keeps (by assumption))

theorem execPld_keeps {z : State} {x1 x2 x3 x4 x5 s} (h6 : Keeps z (s)) : outcomeAll (Keeps z) (execPld x1 x2 x3 x4 x5 s) := by
  unfold execPld
  with_reducible exact outcomeAll_next (issueVec_keeps (by assumption))

theorem execVadd_keeps {z : State} {x1 x2 x3 x4 x5 s} (h6 : Keeps z (s)) : outcomeAll (Keeps z) (execVadd x1 x2 x3 x4 x5 s) := by
  unfold execVadd
  with_reducible exact outcomeAll_next (issueVec_keeps (by assumption))

theorem execPst_keeps {z : State} {x1 x2 x3 x4 x5 s} (h6 : Keeps z (s)) : outcomeAll (Keeps z) (execPst x1 x2 x3 x4 x5 s) := by
  unfold execPst
  with_reducible exact outcomeAll_next (issueVec_keeps (by assumption))

theorem execPor_keeps {z : State} {x1 x2 x3 x4 x5 s} (h6 : Keeps z (s)) : outcomeAll (Keeps z) (execPor x1 x2 x3 x4 x5 s) := by
  unfold execPor
  with_reducible exact outcomeAll_next (issueVec_keeps (by assumption))

theorem execVredMin_keeps {z : State} {x1 x2 x3 x4 x5 s} (h6 : Keeps z (s)) : outcomeAll (Keeps z) (execVredMin x1 x2 x3 x4 x5 s) := by
  unfold execVredMin
  with_reducible exact outcomeAll_next (issueVec_keeps (by assumption))

theorem execPandn_keeps {z : State} {x1 x2 x3 x4 x5 s} (h6 : Keeps z (s)) : outcomeAll (Keeps z) (execPandn x1 x2 x3 x4 x5 s) := by
  unfold execPandn
  with_reducible exact outcomeAll_next (issueVec_keeps (by assumption))

theorem execVnormAdd_keeps {z : State} {x1 x2 x3 x4 x5 s} (h6 : Keeps z (s)) : outcomeAll (Keeps z) (execVnormAdd x1 x2 x3 x4 x5 s) := by
  unfold execVnormAdd
  with_reducible exact outcomeAll_next (issueVec_keeps (by assumption))

theorem execVtbl_keeps {z : State} {x1 x2 x3 x4 x5 s} (h6 : Keeps z (s)) : outcomeAll (Keeps z) (execVtbl x1 x2 x3 x4 x5 s) := by
  unfold execVtbl
  with_reducible exact outcomeAll_next (issueVec_keeps (by assumption))

theorem execVscat_keeps {z : State} {x1 x2 x3 x4 x5 s} (h6 : Keeps z (s)) : outcomeAll (Keeps z) (execVscat x1 x2 x3 x4 x5 s) := by
  unfold execVscat
  with_reducible exact outcomeAll_next (issueVec_keeps (by assumption))

theorem execVredMax_keeps {z : State} {x1 x2 x3 x4 x5 s} (h6 : Keeps z (s)) : outcomeAll (Keeps z) (execVredMax x1 x2 x3 x4 x5 s) := by
  unfold execVredMax
  with_reducible exact outcomeAll_next (issueVec_keeps (by assumption))

/-! ### VectorRun -/

theorem healV_keeps {z : State} {x1 x2 s} (h3 : Keeps z (s)) : Keeps z (healV x1 x2 s) := by
  unfold healV
  with_reducible exact State_setBent_keeps (by assumption)

theorem checkV_keeps {z : State} {x1 x2 x3 s} (h4 : Keeps z (s)) : Res.all (Keeps z) (checkV x1 x2 x3 s) := by
  induction x3 generalizing x1 x2 s
  · unfold checkV
    with_reducible exact Res.okI (by assumption)
  · rename_i e l ih
    unfold checkV
    split
    · with_reducible apply ih
      with_reducible refine Pair.sndK (by assumption) ?_
      with_reducible apply sramRead_keeps
      · intro _ _
        with_reducible exact healV_keeps (by assumption)
      · with_reducible assumption
    · with_reducible refine Res.trapI ?_
      with_reducible refine Pair.sndK (by assumption) ?_
      with_reducible apply sramRead_keeps
      · intro _ _
        with_reducible exact healV_keeps (by assumption)
      · with_reducible assumption

theorem readV_keeps {z : State} {x1 x2 x3 x4 x5 s} (h6 : Keeps z (s)) : Res.all (Keeps z) (readV x1 x2 x3 x4 x5 s) := by
  unfold readV
  with_reducible refine Res.bindK ?_ ?_
  · with_reducible exact checkV_keeps (by assumption)
  · intro _ _
    intro _
    with_reducible exact Res.okI (by assumption)

theorem readActive_keeps {z : State} {x1 x2 x3 s} (h4 : Keeps z (s)) : Res.all (Keeps z) (readActive x1 x2 x3 s) := by
  induction x3 generalizing x1 x2 s
  · unfold readActive
    with_reducible exact Res.okI (by assumption)
  · rename_i e l ih
    unfold readActive
    with_reducible refine Res.iteK ?_ ?_
    · with_reducible refine Res.bindK ?_ ?_
      · with_reducible exact readV_keeps (by assumption)
      · intro _ _
        intro _
        with_reducible refine Res.bindK ?_ ?_
        · with_reducible apply ih
          with_reducible assumption
        · intro _ _
          intro _
          with_reducible exact Res.okI (by assumption)
    · with_reducible apply ih
      with_reducible assumption

theorem readTable_keeps {z : State} {x1 x2 x3 s} (h4 : Keeps z (s)) : Res.all (Keeps z) (readTable x1 x2 x3 s) := by
  unfold readTable
  split
  · with_reducible exact Res.trapI (by assumption)
  · with_reducible exact readPlaces_keeps (by assumption)

theorem putV_keeps {z : State} {x1 x2 x3 x4 s} (h5 : Keeps z (s)) : Keeps z (putV x1 x2 x3 x4 s) := by
  unfold putV
  extract_lets +onlyGivenNames v1
  extract_lets +onlyGivenNames v2
  clear_value v2
  with_reducible exact State_setBent_keeps (by assumption)

theorem vecInactive_keeps {z : State} {x1 x2 x3 s} (h4 : Keeps z (s)) : Keeps z (vecInactive x1 x2 x3 s) := by
  unfold vecInactive
  with_reducible refine Keeps.iteK ?_ ?_
  · with_reducible exact putV_keeps (by assumption)
  · with_reducible assumption

theorem srcWords_keeps {z : State} {x1 x2 x3 x4 x5 x6 s} (h7 : Keeps z (s)) : Res.all (Keeps z) (srcWords x1 x2 x3 x4 x5 x6 s) := by
  unfold srcWords
  with_reducible refine Res.bindK ?_ ?_
  · with_reducible exact readV_keeps (by assumption)
  · intro _ _
    intro _
    extract_lets +onlyGivenNames v1
    clear_value v1
    with_reducible refine Res.iteK ?_ ?_
    · with_reducible exact Res.okI (State_drawn_keeps (by assumption))
    · with_reducible exact Res.okI (by assumption)

theorem readAddr_keeps {z : State} {x1 x2 x3 x4 s} (h5 : Keeps z (s)) : Res.all (Keeps z) (readAddr x1 x2 x3 x4 s) := by
  unfold readAddr
  with_reducible refine Res.bindK ?_ ?_
  · with_reducible refine Res.iteK ?_ ?_
    · with_reducible exact srcWords_keeps (by assumption)
    · with_reducible exact Res.okI (by assumption)
  · intro _ _
    intro _
    with_reducible exact Res.okI (by assumption)

theorem VecRun_s_keeps {z : State} {p1} (h1 : VecRun.all (Keeps z) (p1)) : Keeps z (VecRun.s p1) := by
  unfold VecRun.s
  with_reducible exact VecRun.sI (by assumption)

theorem setVop_keeps {z : State} {x1 x2 x3 s} (h4 : Keeps z (s)) : Keeps z (setVop x1 x2 x3 s) := by
  unfold setVop
  with_reducible exact State_setCore_keeps (by assumption)

theorem execVectorStart_keeps {z : State} {x1 s} (h2 : Keeps z (s)) : outcomeAll (Keeps z) (execVectorStart x1 s) := by
  unfold execVectorStart
  split
  · with_reducible refine outcomeAll_ite ?_ ?_
    · extract_lets +onlyGivenNames v1
      extract_lets +onlyGivenNames v2
      have k2 : Keeps z (v2) := by
        dsimp only [v2]
        with_reducible exact State_setBent_keeps (by assumption)
      clear_value v2
      with_reducible exact outcomeAll_next (State_setCore_keeps (by assumption))
    · with_reducible exact outcomeAll_next (by assumption)
  · with_reducible exact outcomeAll_next (by assumption)

theorem putP_keeps {z : State} {x1 x2 x3 s} (h4 : Keeps z (s)) : Keeps z (putP x1 x2 x3 s) := by
  unfold putP
  extract_lets +onlyGivenNames v1
  with_reducible exact State_setBent_keeps (by assumption)

theorem fromElem_keeps {z : State} {α : Type} {x1 : Nat} {p2 : Res α} (h2 : Res.all (Keeps z) (p2)) : Res.all (Keeps z) (@fromElem α x1 p2) := by
  unfold fromElem
  split
  · with_reducible exact Res.trapI (Res.trapE (by assumption))
  · with_reducible assumption

theorem vpred_keeps {z : State} {x1 x2 s} (h3 : Keeps z (s)) : Res.all (Keeps z) (vpred x1 x2 s) := by
  unfold vpred
  extract_lets +onlyGivenNames v1
  clear_value v1
  extract_lets +onlyGivenNames v2
  clear_value v2
  extract_lets +onlyGivenNames v3
  have k3 : ∀ y1, Res.all (Keeps z) (v3 y1) := by
    intro _
    dsimp only [v3]
    with_reducible exact Res.okI (putP_keeps (by assumption))
  clear_value v3
  split
  · with_reducible apply k3
  · with_reducible apply k3
  · with_reducible apply k3
  · with_reducible apply k3
  · with_reducible apply k3
  · with_reducible refine Res.bindK ?_ ?_
    · with_reducible exact fromElem_keeps (readMem_keeps (by assumption))
    · intro _ _
      intro _
      with_reducible exact Res.okI (putP_keeps (by assumption))
  · with_reducible refine Res.bindK ?_ ?_
    · with_reducible exact xlate_keeps (by assumption)
    · intro _ _
      intro _
      with_reducible exact Res.okI (putElem_keeps (by assumption))

theorem vecElem_keeps {z : State} {x1 x2 x3 x4 s} (h5 : Keeps z (s)) : Res.all (Keeps z) (vecElem x1 x2 x3 x4 s) := by
  unfold vecElem
  extract_lets +onlyGivenNames v1
  clear_value v1
  split
  · with_reducible refine Res.bindK ?_ ?_
    · with_reducible exact readAddr_keeps (by assumption)
    · intro _ _
      intro _
      with_reducible refine Res.bindK ?_ ?_
      · with_reducible exact fromElem_keeps (readMem_keeps (by assumption))
      · intro _ _
        intro _
        with_reducible exact Res.okI (putV_keeps (by assumption))
  · with_reducible refine Res.bindK ?_ ?_
    · with_reducible exact readAddr_keeps (by assumption)
    · intro _ _
      intro _
      with_reducible refine Res.bindK ?_ ?_
      · with_reducible exact fromElem_keeps (readMem_keeps (by assumption))
      · intro _ _
        intro _
        with_reducible exact Res.okI (putV_keeps (by assumption))
  · with_reducible refine Res.bindK ?_ ?_
    · with_reducible exact readAddr_keeps (by assumption)
    · intro _ _
      intro _
      with_reducible refine Res.bindK ?_ ?_
      · with_reducible exact readTable_keeps (by assumption)
      · intro _ _
        intro _
        with_reducible exact Res.okI (putV_keeps (by assumption))
  · with_reducible refine Res.bindK ?_ ?_
    · with_reducible exact readAddr_keeps (by assumption)
    · intro _ _
      intro _
      with_reducible refine Res.bindK ?_ ?_
      · with_reducible exact readV_keeps (by assumption)
      · intro _ _
        intro _
        with_reducible refine Res.bindK ?_ ?_
        · with_reducible exact xlate_keeps (by assumption)
        · intro _ _
          intro _
          with_reducible exact Res.okI (putElem_keeps (by assumption))
  · with_reducible refine Res.bindK ?_ ?_
    · with_reducible exact readAddr_keeps (by assumption)
    · intro _ _
      intro _
      with_reducible refine Res.bindK ?_ ?_
      · with_reducible exact readV_keeps (by assumption)
      · intro _ _
        intro _
        with_reducible refine Res.bindK ?_ ?_
        · with_reducible exact xlate_keeps (by assumption)
        · intro _ _
          intro _
          with_reducible exact Res.okI (putElem_keeps (by assumption))
  · with_reducible refine Res.bindK ?_ ?_
    · with_reducible exact srcWords_keeps (by assumption)
    · intro _ _
      intro _
      with_reducible refine Res.bindK ?_ ?_
      · with_reducible refine Res.iteK ?_ ?_
        · with_reducible exact srcWords_keeps (by assumption)
        · with_reducible exact Res.okI (by assumption)
      · intro _ _
        intro _
        with_reducible refine Res.bindK ?_ ?_
        · with_reducible refine Res.iteK ?_ ?_
          · with_reducible exact readV_keeps (by assumption)
          · with_reducible exact Res.okI (by assumption)
        · intro _ _
          intro _
          with_reducible refine Res.bindK ?_ ?_
          · with_reducible exact compute_keeps (by assumption)
          · intro _ _
            intro _
            with_reducible refine Res.iteK ?_ ?_
            · with_reducible exact Res.okI (putP_keeps (by assumption))
            · with_reducible exact Res.okI (putV_keeps (by assumption))

theorem vecStep_keeps {z : State} {x1 x2 x3 p4 x5} (h4 : VecRun.all (Keeps z) (p4)) : VecRun.all (Keeps z) (vecStep x1 x2 x3 p4 x5) := by
  unfold vecStep
  with_reducible refine VecRun.iteK ?_ ?_
  · with_reducible exact VecRun.mkI (VecRun.sI (by assumption))
  · with_reducible refine VecRun.iteK ?_ ?_
    · with_reducible assumption
    · with_reducible refine VecRun.iteK ?_ ?_
      · with_reducible exact VecRun.mkI (vecInactive_keeps (VecRun.sI (by assumption)))
      · split
        · with_reducible assumption
        · with_reducible refine VecRun.iteK ?_ ?_
          · with_reducible assumption
          · split
            · with_reducible refine VecRun.mkI ?_
              with_reducible refine Res.okK (by assumption) ?_
              with_reducible exact vecElem_keeps (VecRun.sI (by assumption))
            · with_reducible assumption
            · with_reducible refine VecRun.mkI ?_
              with_reducible refine Res.stallK (by assumption) ?_
              with_reducible exact vecElem_keeps (VecRun.sI (by assumption))
        · split
          · with_reducible refine VecRun.mkI ?_
            with_reducible refine Res.okK (by assumption) ?_
            with_reducible exact vecElem_keeps (VecRun.sI (by assumption))
          · with_reducible refine VecRun.mkI ?_
            with_reducible refine Res.trapK (by assumption) ?_
            with_reducible exact vecElem_keeps (VecRun.sI (by assumption))
          · with_reducible refine VecRun.mkI ?_
            with_reducible refine Res.stallK (by assumption) ?_
            with_reducible exact vecElem_keeps (VecRun.sI (by assumption))

theorem notePast_keeps {z : State} {x1 x2 s} (h3 : Keeps z (s)) : Keeps z (notePast x1 x2 s) := by
  unfold notePast
  with_reducible refine Keeps.iteK ?_ ?_
  · with_reducible assumption
  · with_reducible exact State_setCore_keeps (by assumption)

theorem putRed_keeps {z : State} {x1 x2 x3 s} (h4 : Keeps z (s)) : Res.all (Keeps z) (putRed x1 x2 x3 s) := by
  unfold putRed
  split
  · with_reducible exact Res.okI (putV_keeps (by assumption))
  · split
    · with_reducible exact Res.okI (putV_keeps (by assumption))
    · with_reducible exact Res.trapI (by assumption)

theorem vred_keeps {z : State} {x1 x2 s} (h3 : Keeps z (s)) : Res.all (Keeps z) (vred x1 x2 s) := by
  unfold vred
  with_reducible refine Res.bindK ?_ ?_
  · with_reducible exact fromElem_keeps (readActive_keeps (by assumption))
  · intro _ _
    intro _
    extract_lets +onlyGivenNames v1
    clear_value v1
    split
    · with_reducible exact putRed_keeps (by assumption)
    · with_reducible refine Res.elimK ?_ ?_
      · with_reducible exact Res.okI (by assumption)
      · intro _
        with_reducible exact putRed_keeps (by assumption)
    · with_reducible refine Res.elimK ?_ ?_
      · with_reducible exact Res.okI (by assumption)
      · intro _
        with_reducible exact putRed_keeps (by assumption)
    · split
      · with_reducible refine Res.okI ?_
        with_reducible refine exceptAll_ok (by assumption) ?_
        with_reducible exact addSeals_keeps (by assumption)
      · with_reducible exact Res.trapI (by assumption)

theorem runElems_keeps {z : State} {x1 x2 s} (h3 : Keeps z (s)) : VecRun.all (Keeps z) (runElems x1 x2 s) := by
  unfold runElems
  with_reducible refine VecRun.foldl ?_ _ ?_
  · intro _ _
    intro _
    with_reducible exact vecStep_keeps (by assumption)
  · with_reducible exact VecRun.mkI (by assumption)

theorem runVec_keeps {z : State} {x1 x2 s} (h3 : Keeps z (s)) : VecRun.all (Keeps z) (runVec x1 x2 s) := by
  unfold runVec
  extract_lets +onlyGivenNames v1
  clear_value v1
  extract_lets +onlyGivenNames v2
  have k2 : ∀ y1, Res.all (Keeps z) (y1) → VecRun.all (Keeps z) (v2 y1) := by
    intro _ _
    dsimp only [v2]
    split
    · with_reducible exact VecRun.mkI (Res.okE (by assumption))
    · with_reducible exact VecRun.mkI (Res.trapE (by assumption))
    · with_reducible exact VecRun.mkI (Res.stallE (by assumption))
  clear_value v2
  with_reducible refine VecRun.iteK ?_ ?_
  · with_reducible apply k2
    with_reducible exact vpred_keeps (by assumption)
  · with_reducible refine VecRun.iteK ?_ ?_
    · with_reducible apply k2
      with_reducible exact vred_keeps (by assumption)
    · with_reducible exact runElems_keeps (by assumption)

theorem finishVec_keeps {z : State} {x1 x2 x3 s} (h4 : Keeps z (s)) : Keeps z (finishVec x1 x2 x3 s) := by
  induction x3 generalizing x1 x2 s
  · unfold finishVec
    with_reducible assumption
  · rename_i n ih
    unfold finishVec
    split
    · with_reducible assumption
    · with_reducible refine Keeps.iteK ?_ ?_
      · with_reducible apply ih
        with_reducible assumption
      · extract_lets +onlyGivenNames v1
        have k1 : VecRun.all (Keeps z) (v1) := by
          dsimp only [v1]
          with_reducible exact runVec_keeps (State_drawn_keeps (by assumption))
        clear_value v1
        split
        · with_reducible apply ih
          with_reducible assumption
        · with_reducible apply ih
          with_reducible exact setVop_keeps (VecRun.sI (by assumption))
        · extract_lets +onlyGivenNames v2
          have k2 : Keeps z (v2) := by
            dsimp only [v2]
            with_reducible exact notePast_keeps (VecRun.sI (by assumption))
          clear_value v2
          with_reducible exact vecFinished_keeps (State_setCore_keeps (by assumption))

theorem execVectorFinish_keeps {z : State} {x1 s} (h2 : Keeps z (s)) : outcomeAll (Keeps z) (execVectorFinish x1 s) := by
  unfold execVectorFinish
  extract_lets +onlyGivenNames v1
  have k1 : ∀ y1, Keeps z (y1) → Keeps z (v1 y1) := by
    intro _ _
    dsimp only [v1]
    with_reducible exact finishVec_keeps (by assumption)
  clear_value v1
  with_reducible refine outcomeAll_next ?_
  with_reducible refine Keeps.iteK ?_ ?_
  · with_reducible apply checkResidue_keeps
    · with_reducible assumption
    · with_reducible assumption
  · with_reducible apply k1
    with_reducible assumption

theorem stopVec_keeps {z : State} {x1 x2 x3 s} (h4 : Keeps z (s)) : Keeps z (stopVec x1 x2 x3 s) := by
  induction x3 generalizing x1 x2 s
  · unfold stopVec
    with_reducible assumption
  · rename_i n ih
    unfold stopVec
    split
    · with_reducible assumption
    · with_reducible refine Keeps.iteK ?_ ?_
      · with_reducible apply ih
        with_reducible assumption
      · extract_lets +onlyGivenNames v1
        have k1 : VecRun.all (Keeps z) (v1) := by
          dsimp only [v1]
          with_reducible exact runVec_keeps (State_drawn_keeps (by assumption))
        clear_value v1
        split
        · with_reducible exact setVop_keeps (notePast_keeps (VecRun.sI (by assumption)))
        · with_reducible apply ih
          with_reducible assumption

theorem execVectorStop_keeps {z : State} {x1 s} (h2 : Keeps z (s)) : outcomeAll (Keeps z) (execVectorStop x1 s) := by
  unfold execVectorStop
  with_reducible refine outcomeAll_ite ?_ ?_
  · with_reducible exact outcomeAll_next (by assumption)
  · with_reducible exact outcomeAll_next (stopVec_keeps (by assumption))

/-! ### Traps -/

theorem execPreemptNoticeTimeout_keeps {z : State} {x1 s} (h2 : Keeps z (s)) : outcomeAll (Keeps z) (execPreemptNoticeTimeout x1 s) := by
  unfold execPreemptNoticeTimeout
  extract_lets +onlyGivenNames v1
  clear_value v1
  with_reducible refine outcomeAll_ite ?_ ?_
  · with_reducible exact outcomeAll_next (trySave_keeps (askStop_keeps (by assumption)))
  · with_reducible exact outcomeAll_next (by assumption)

theorem preemptCore_keeps {z : State} {x1 x2 s} (h3 : Keeps z (s)) : Keeps z (preemptCore x1 x2 s) := by
  unfold preemptCore
  extract_lets +onlyGivenNames v1
  clear_value v1
  with_reducible refine Keeps.iteK ?_ ?_
  · with_reducible assumption
  · extract_lets +onlyGivenNames v2
    have k2 : Keeps z (v2) := by
      dsimp only [v2]
      with_reducible exact stopPipes_keeps (by assumption)
    clear_value v2
    with_reducible refine Keeps.iteK ?_ ?_
    · with_reducible exact State_setCore_keeps (by assumption)
    · with_reducible exact askStop_keeps (by assumption)

theorem preemptJob_keeps {z : State} {x1 x2 x3 s} (h4 : Keeps z (s)) : Keeps z (preemptJob x1 x2 x3 s) := by
  unfold preemptJob
  split
  · with_reducible assumption
  · extract_lets +onlyGivenNames v1
    have k1 : Keeps z (v1) := by
      dsimp only [v1]
      with_reducible exact State_setJob_keeps (by assumption)
    clear_value v1
    with_reducible refine Keeps.foldl ?_ _ ?_
    · intro _ _
      intro _
      with_reducible exact trySave_keeps (preemptCore_keeps (preemptCore_keeps (by assumption)))
    · with_reducible assumption

theorem requestPower_keeps {z : State} {x1 s} (h2 : Keeps z (s)) : Keeps z (requestPower x1 s) := by
  unfold requestPower
  extract_lets +onlyGivenNames v1
  clear_value v1
  extract_lets +onlyGivenNames v2
  clear_value v2
  extract_lets +onlyGivenNames v3
  clear_value v3
  with_reducible exact Keeps.upd (by assumption) rfl rfl rfl rfl

theorem takeBents_keeps {z : State} {x1 s} (h2 : Keeps z (s)) : Pair.all (Keeps z) (takeBents x1 s) := by
  unfold takeBents
  extract_lets +onlyGivenNames v1
  clear_value v1
  extract_lets +onlyGivenNames v2
  clear_value v2
  with_reducible refine Pair.iteK ?_ ?_
  · with_reducible exact Pair.mkI (by assumption)
  · with_reducible refine Pair.iteK ?_ ?_
    · with_reducible exact Pair.mkI (State_drawn_keeps (by assumption))
    · with_reducible exact Pair.mkI (requestPower_keeps (by assumption))

theorem restoreAll_keeps {z : State} {x1 x2 x3 s} (h4 : Keeps z (s)) : Keeps z (restoreAll x1 x2 x3 s) := by
  induction x2 generalizing x1 x3 s
  · unfold restoreAll
    with_reducible assumption
  · rename_i e l ih
    unfold restoreAll
    split
    · injections
      subst_vars
      with_reducible apply ih
      with_reducible exact restoreShare_keeps (by assumption)
    · with_reducible assumption

theorem execShareRestore_keeps {z : State} {x1 s} (h2 : Keeps z (s)) : outcomeAll (Keeps z) (execShareRestore x1 s) := by
  unfold execShareRestore
  split
  · with_reducible exact outcomeAll_next (by assumption)
  · extract_lets +onlyGivenNames v1
    clear_value v1
    with_reducible refine outcomeAll_ite ?_ ?_
    · with_reducible exact outcomeAll_next (by assumption)
    · split
      · with_reducible refine outcomeAll_next ?_
        with_reducible refine Pair.sndK (by assumption) ?_
        with_reducible exact takeBents_keeps (by assumption)
      · with_reducible refine outcomeAll_next ?_
        with_reducible apply restoreAll_keeps
        with_reducible apply State_setJob_keeps
        with_reducible refine Pair.sndK (by assumption) ?_
        with_reducible exact takeBents_keeps (by assumption)

theorem execPreemption_keeps {z : State} {s} (h1 : Keeps z (s)) : outcomeAll (Keeps z) (execPreemption s) := by
  unfold execPreemption
  split
  · with_reducible exact outcomeAll_next (by assumption)
  · extract_lets +onlyGivenNames v1
    clear_value v1
    extract_lets +onlyGivenNames v2
    clear_value v2
    extract_lets +onlyGivenNames v3
    clear_value v3
    extract_lets +onlyGivenNames v4
    clear_value v4
    extract_lets +onlyGivenNames v5
    clear_value v5
    with_reducible refine outcomeAll_ite ?_ ?_
    · with_reducible exact outcomeAll_next (by assumption)
    · with_reducible refine outcomeAll_next ?_
      with_reducible refine Keeps.foldl ?_ _ ?_
      · intro _ _
        intro _
        with_reducible exact preemptJob_keeps (by assumption)
      · with_reducible assumption

theorem execWaitEnd_keeps {z : State} {x1 s} (h2 : Keeps z (s)) : outcomeAll (Keeps z) (execWaitEnd x1 s) := by
  unfold execWaitEnd
  with_reducible exact outcomeAll_next (wakeCore_keeps (by assumption))

theorem execTrapEntry_keeps {z : State} {x1 x2 s} (h3 : Keeps z (s)) : outcomeAll (Keeps z) (execTrapEntry x1 x2 s) := by
  unfold execTrapEntry
  split
  · split
    · with_reducible exact outcomeAll_next (dueStop_keeps (sealMismatch_keeps (by assumption)))
    · with_reducible refine outcomeAll_ite ?_ ?_
      · with_reducible exact outcomeAll_next (takeReady_keeps (by assumption))
      · with_reducible exact outcomeAll_next (by assumption)
  · with_reducible refine outcomeAll_ite ?_ ?_
    · with_reducible refine outcomeAll_next ?_
      with_reducible apply issueAny_keeps
      · intro _ _
        with_reducible exact illegal_keeps (by assumption)
      · with_reducible assumption
    · with_reducible exact outcomeAll_next (by assumption)

theorem execPageWaitPreempt_keeps {z : State} {x1 s} (h2 : Keeps z (s)) : outcomeAll (Keeps z) (execPageWaitPreempt x1 s) := by
  unfold execPageWaitPreempt
  with_reducible refine outcomeAll_ite ?_ ?_
  · exact trivial
  · split
    · with_reducible exact outcomeAll_next (by assumption)
    · split
      · with_reducible exact outcomeAll_next (by assumption)
      · with_reducible refine outcomeAll_ite ?_ ?_
        · with_reducible exact outcomeAll_next (by assumption)
        · with_reducible exact outcomeAll_next (preemptJob_keeps (by assumption))

theorem advance_keeps {z : State} {x1 s} (h2 : Keeps z (s)) : Keeps z (advance x1 s) := by
  unfold advance
  extract_lets +onlyGivenNames v1
  clear_value v1
  with_reducible exact Keeps.upd (by assumption) rfl rfl rfl rfl

theorem execTimer_keeps {z : State} {x1 s} (h2 : Keeps z (s)) : outcomeAll (Keeps z) (execTimer x1 s) := by
  unfold execTimer
  extract_lets +onlyGivenNames v1
  clear_value v1
  with_reducible exact outcomeAll_next (advance_keeps (by assumption))

theorem idleTick_keeps {z : State} {s} (h1 : Keeps z (s)) : Keeps z (idleTick s) := by
  unfold idleTick
  with_reducible refine Keeps.iteK ?_ ?_
  · with_reducible exact advance_keeps (by assumption)
  · with_reducible assumption

/-! ### Controller -/

theorem clearErrl_keeps {z : State} {s} (h1 : Keeps z (s)) : Keeps z (clearErrl s) := by
  unfold clearErrl
  with_reducible exact Keeps.upd (by assumption) rfl rfl rfl rfl

theorem execErrlClrcnt_keeps {z : State} {s} (h1 : Keeps z (s)) : outcomeAll (Keeps z) (execErrlClrcnt s) := by
  unfold execErrlClrcnt
  with_reducible refine outcomeAll_next ?_
  with_reducible apply hostWrite_keeps
  · intro _ _
    with_reducible exact clearErrl_keeps (by assumption)
  · with_reducible assumption

theorem hostYrattr_keeps {z : State} {x1 x2 x3 s} (h4 : Keeps z (s)) : Keeps z (hostYrattr x1 x2 x3 s) := by
  unfold hostYrattr
  with_reducible refine Keeps.iteK ?_ ?_
  · with_reducible assumption
  · extract_lets +onlyGivenNames v1
    clear_value v1
    extract_lets +onlyGivenNames v2
    clear_value v2
    extract_lets +onlyGivenNames v3
    have k3 : Keeps z (v3) := by
      dsimp only [v3]
      with_reducible exact State_setRegion_keeps (by assumption)
    clear_value v3
    with_reducible refine Keeps.iteK ?_ ?_
    · with_reducible assumption
    · with_reducible refine Keeps.iteK ?_ ?_
      · with_reducible exact State_setRegion_keeps (by assumption)
      · with_reducible exact State_setRegion_keeps (by assumption)

theorem scrubCorrected_keeps {z : State} {x1 x2 x3 x4 s} (h5 : Keeps z (s)) : Pair.all (Keeps z) (scrubCorrected x1 x2 x3 x4 s) := by
  unfold scrubCorrected
  with_reducible refine Pair.mkI ?_
  with_reducible refine Keeps.iteK ?_ ?_
  · with_reducible exact rmwStore_keeps (dropMerge_keeps (by assumption))
  · with_reducible assumption

theorem dropLeaves_keeps {z : State} {x1 x2 s} (h3 : Keeps z (s)) : Keeps z (dropLeaves x1 x2 s) := by
  unfold dropLeaves
  extract_lets +onlyGivenNames v1
  clear_value v1
  with_reducible exact Keeps.upd (by assumption) rfl rfl rfl rfl

theorem armEcc_keeps {z : State} {s} (h1 : Keeps z (s)) : Keeps z (armEcc s) := by
  unfold armEcc
  extract_lets +onlyGivenNames v1
  clear_value v1
  extract_lets +onlyGivenNames v2
  clear_value v2
  extract_lets +onlyGivenNames v3
  clear_value v3
  with_reducible refine Keeps.iteK ?_ ?_
  · with_reducible exact Keeps.upd (by assumption) rfl rfl rfl rfl
  · with_reducible exact Keeps.upd (by assumption) rfl rfl rfl rfl

theorem setWaits_keeps {z : State} {x1 x2 s} (h3 : Keeps z (s)) : Keeps z (setWaits x1 x2 s) := by
  unfold setWaits
  with_reducible exact Keeps.upd (by assumption) rfl rfl rfl rfl

theorem markLane_keeps {z : State} {x1 x2 x3 s} (h4 : Keeps z (s)) : Keeps z (markLane x1 x2 x3 s) := by
  unfold markLane
  extract_lets +onlyGivenNames v1
  clear_value v1
  with_reducible refine Keeps.iteK ?_ ?_
  · with_reducible assumption
  · extract_lets +onlyGivenNames v2
    clear_value v2
    with_reducible exact logErr_keeps (Keeps.upd (by assumption) rfl rfl rfl rfl)

theorem serveReq_keeps {z : State} {x1 s} (h2 : Keeps z (s)) : Keeps z (serveReq x1 s) := by
  unfold serveReq
  split
  · extract_lets +onlyGivenNames v1
    have k1 : Keeps z (v1) := by
      dsimp only [v1]
      split
      · with_reducible exact markLane_keeps (by assumption)
      · with_reducible assumption
    clear_value v1
    with_reducible refine Keeps.iteK ?_ ?_
    · with_reducible assumption
    · with_reducible exact Pair.sndI (fetchBlock_keeps (by assumption))
  · extract_lets +onlyGivenNames v2
    have k2 : Keeps z (v2) := by
      dsimp only [v2]
      with_reducible refine Keeps.iteK ?_ ?_
      · with_reducible exact logErr_keeps (countErr_keeps (by assumption))
      · with_reducible assumption
    clear_value v2
    extract_lets +onlyGivenNames v3
    have k3 : Keeps z (v3) := by
      dsimp only [v3]
      with_reducible exact blkWrite_keeps (by assumption)
    clear_value v3
    with_reducible refine Keeps.iteK ?_ ?_
    · with_reducible exact poisonWrite_keeps (by assumption)
    · with_reducible assumption

theorem chanRequest_keeps {z : State} {x1 x2 s} (h3 : Keeps z (s)) : Keeps z (chanRequest x1 x2 s) := by
  unfold chanRequest
  with_reducible refine Keeps.iteK ?_ ?_
  · with_reducible assumption
  · extract_lets +onlyGivenNames v1
    clear_value v1
    extract_lets +onlyGivenNames v2
    clear_value v2
    with_reducible refine Keeps.iteK ?_ ?_
    · with_reducible exact setWaits_keeps (by assumption)
    · extract_lets +onlyGivenNames v3
      clear_value v3
      with_reducible refine Keeps.foldl ?_ _ ?_
      · intro _ _
        intro _
        with_reducible exact serveReq_keeps (by assumption)
      · with_reducible exact setWaits_keeps (by assumption)

theorem execControllerWrite_keeps {z : State} {x1 x2 x3 s} (h4 : Keeps z (s)) : outcomeAll (Keeps z) (execControllerWrite x1 x2 x3 s) := by
  unfold execControllerWrite
  with_reducible exact outcomeAll_next (chanRequest_keeps (by assumption))

theorem upsetYard_keeps {z : State} {x1 x2 x3 s} (h4 : Keeps z (s)) : Keeps z (upsetYard x1 x2 x3 s) := by
  unfold upsetYard
  extract_lets +onlyGivenNames v1
  clear_value v1
  extract_lets +onlyGivenNames v2
  clear_value v2
  with_reducible exact Keeps.upd (by assumption) rfl rfl rfl rfl

theorem execYardAccess_keeps {z : State} {x1 x2 s} (h3 : Keeps z (s)) : outcomeAll (Keeps z) (execYardAccess x1 x2 s) := by
  unfold execYardAccess
  with_reducible refine outcomeAll_ite ?_ ?_
  · exact trivial
  · extract_lets +onlyGivenNames v1
    have k1 : Keeps z (v1) := by
      dsimp only [v1]
      with_reducible refine Keeps.elim ?_ ?_
      · with_reducible assumption
      · intro _
        with_reducible exact upsetYard_keeps (by assumption)
    clear_value v1
    extract_lets +onlyGivenNames v2
    clear_value v2
    split
    · with_reducible exact outcomeAll_next (by assumption)
    · extract_lets +onlyGivenNames v3
      clear_value v3
      with_reducible exact outcomeAll_next (Keeps.upd (by assumption) rfl rfl rfl rfl)

theorem commitTract_keeps {z : State} {s} (h1 : Keeps z (s)) : Keeps z (commitTract s) := by
  unfold commitTract
  extract_lets +onlyGivenNames v1
  clear_value v1
  extract_lets +onlyGivenNames v2
  clear_value v2
  extract_lets +onlyGivenNames v3
  clear_value v3
  with_reducible refine Keeps.iteK ?_ ?_
  · with_reducible exact Keeps.upd (by assumption) rfl rfl rfl rfl
  · extract_lets +onlyGivenNames v4
    have k4 : Keeps z (v4) := by
      dsimp only [v4]
      with_reducible exact dropLeaves_keeps (by assumption)
    clear_value v4
    with_reducible exact Keeps.upd (by assumption) rfl rfl rfl rfl

theorem writeTrctl_keeps {z : State} {x1 s} (h2 : Keeps z (s)) : Keeps z (writeTrctl x1 s) := by
  unfold writeTrctl
  extract_lets +onlyGivenNames v1
  clear_value v1
  extract_lets +onlyGivenNames v2
  extract_lets +onlyGivenNames v3
  have k3 : Keeps z (v3) := by
    dsimp only [v3]
    with_reducible exact Keeps.upd (by assumption) rfl rfl rfl rfl
  clear_value v3
  with_reducible refine Keeps.iteK ?_ ?_
  · with_reducible exact commitTract_keeps (by assumption)
  · with_reducible assumption

theorem execTractRecode_keeps {z : State} {x1 s} (h2 : Keeps z (s)) : outcomeAll (Keeps z) (execTractRecode x1 s) := by
  unfold execTractRecode
  with_reducible refine outcomeAll_next ?_
  with_reducible apply hostWrite_keeps
  · intro _ _
    with_reducible exact writeTrctl_keeps (by assumption)
  · with_reducible assumption

theorem execRequestAging_keeps {z : State} {x1 s} (h2 : Keeps z (s)) : outcomeAll (Keeps z) (execRequestAging x1 s) := by
  unfold execRequestAging
  with_reducible refine outcomeAll_ite ?_ ?_
  · with_reducible exact outcomeAll_next (setWaits_keeps (by assumption))
  · with_reducible exact outcomeAll_next (by assumption)

theorem popErrl_keeps {z : State} {s} (h1 : Keeps z (s)) : Keeps z (popErrl s) := by
  unfold popErrl
  with_reducible exact Keeps.upd (by assumption) rfl rfl rfl rfl

theorem execTractZero_keeps {z : State} {x1 s} (h2 : Keeps z (s)) : outcomeAll (Keeps z) (execTractZero x1 s) := by
  unfold execTractZero
  with_reducible refine outcomeAll_next ?_
  with_reducible apply hostWrite_keeps
  · intro _ _
    with_reducible exact writeTrctl_keeps (by assumption)
  · with_reducible assumption

theorem writeEccctl_keeps {z : State} {x1 s} (h2 : Keeps z (s)) : Keeps z (writeEccctl x1 s) := by
  unfold writeEccctl
  extract_lets +onlyGivenNames v1
  clear_value v1
  extract_lets +onlyGivenNames v2
  clear_value v2
  extract_lets +onlyGivenNames v3
  extract_lets +onlyGivenNames v4
  have k4 : Keeps z (v4) := by
    dsimp only [v4]
    with_reducible exact Keeps.upd (by assumption) rfl rfl rfl rfl
  clear_value v4
  with_reducible refine Keeps.iteK ?_ ?_
  · with_reducible exact armEcc_keeps (by assumption)
  · with_reducible assumption

theorem execEccflipArm_keeps {z : State} {x1 s} (h2 : Keeps z (s)) : outcomeAll (Keeps z) (execEccflipArm x1 s) := by
  unfold execEccflipArm
  with_reducible refine outcomeAll_next ?_
  with_reducible apply hostWrite_keeps
  · intro _ _
    with_reducible exact writeEccctl_keeps (by assumption)
  · with_reducible assumption

theorem execControllerRead_keeps {z : State} {x1 x2 s} (h3 : Keeps z (s)) : outcomeAll (Keeps z) (execControllerRead x1 x2 s) := by
  unfold execControllerRead
  with_reducible exact outcomeAll_next (chanRequest_keeps (by assumption))

theorem execDramRefresh_keeps {z : State} {x1 s} (h2 : Keeps z (s)) : outcomeAll (Keeps z) (execDramRefresh x1 s) := by
  unfold execDramRefresh
  with_reducible refine outcomeAll_ite ?_ ?_
  · with_reducible exact outcomeAll_next (Keeps.upd (by assumption) rfl rfl rfl rfl)
  · with_reducible exact outcomeAll_next (by assumption)

theorem execMergeRetire_keeps {z : State} {x1 s} (h2 : Keeps z (s)) : outcomeAll (Keeps z) (execMergeRetire x1 s) := by
  unfold execMergeRetire
  with_reducible exact outcomeAll_next (mergeRetire_keeps (by assumption))

theorem execEccflipDisarm_keeps {z : State} {s} (h1 : Keeps z (s)) : outcomeAll (Keeps z) (execEccflipDisarm s) := by
  unfold execEccflipDisarm
  with_reducible refine outcomeAll_next ?_
  with_reducible apply hostWrite_keeps
  · intro _ _
    with_reducible exact Keeps.upd (by assumption) rfl rfl rfl rfl
  · with_reducible assumption

theorem scrubBlock_keeps {z : State} {x1 x2 p3} (h3 : Pair.all (Keeps z) (p3)) : Pair.all (Keeps z) (scrubBlock x1 x2 p3) := by
  unfold scrubBlock
  split
  with_reducible refine Pair.iteK ?_ ?_
  · with_reducible assumption
  · with_reducible refine Pair.iteK ?_ ?_
    · with_reducible exact Pair.mkI (Pair.sndE (by assumption))
    · split
      split
      · with_reducible refine Pair.mkI ?_
        with_reducible refine Pair.sndK (by assumption) ?_
        with_reducible exact fetchBlock_keeps (Pair.sndE (by assumption))
      · with_reducible refine Pair.mkI ?_
        with_reducible refine Pair.sndK (by assumption) ?_
        with_reducible exact fetchBlock_keeps (Pair.sndE (by assumption))
      · with_reducible apply scrubCorrected_keeps
        with_reducible refine Pair.sndK (by assumption) ?_
        with_reducible exact fetchBlock_keeps (Pair.sndE (by assumption))
      · with_reducible refine Pair.iteK ?_ ?_
        · with_reducible refine Pair.mkI ?_
          with_reducible refine Pair.sndK (by assumption) ?_
          with_reducible exact fetchBlock_keeps (Pair.sndE (by assumption))
        · with_reducible apply scrubCorrected_keeps
          with_reducible refine Pair.sndK (by assumption) ?_
          with_reducible exact fetchBlock_keeps (Pair.sndE (by assumption))

theorem scrubTracts_keeps {z : State} {x1 x2 x3 s} (h4 : Keeps z (s)) : Pair.all (Keeps z) (scrubTracts x1 x2 x3 s) := by
  unfold scrubTracts
  with_reducible refine Pair.foldl ?_ _ ?_
  · intro _ _
    intro _
    with_reducible exact scrubBlock_keeps (by assumption)
  · with_reducible exact Pair.mkI (by assumption)

theorem finishTracts_keeps {z : State} {s} (h1 : Keeps z (s)) : Keeps z (finishTracts s) := by
  unfold finishTracts
  extract_lets +onlyGivenNames v1
  clear_value v1
  extract_lets +onlyGivenNames v2
  have k2 : Keeps z (v2) := by
    dsimp only [v2]
    with_reducible exact zeroTracts_keeps (by assumption)
  clear_value v2
  with_reducible exact Keeps.upd (by assumption) rfl rfl rfl rfl

theorem execTractOperationDone_keeps {z : State} {s} (h1 : Keeps z (s)) : outcomeAll (Keeps z) (execTractOperationDone s) := by
  unfold execTractOperationDone
  with_reducible refine outcomeAll_ite ?_ ?_
  · with_reducible exact outcomeAll_next (finishTracts_keeps (by assumption))
  · with_reducible exact outcomeAll_next (by assumption)

theorem execErrlPop_keeps {z : State} {s} (h1 : Keeps z (s)) : outcomeAll (Keeps z) (execErrlPop s) := by
  unfold execErrlPop
  with_reducible refine outcomeAll_next ?_
  with_reducible apply hostWrite_keeps
  · intro _ _
    with_reducible exact popErrl_keeps (by assumption)
  · with_reducible assumption

theorem serveAll_keeps {z : State} {s} (h1 : Keeps z (s)) : Keeps z (serveAll s) := by
  unfold serveAll
  extract_lets +onlyGivenNames v1
  extract_lets +onlyGivenNames v2
  have k2 : Keeps z (v2) := by
    dsimp only [v2]
    with_reducible exact Keeps.upd (by assumption) rfl rfl rfl rfl
  clear_value v2
  with_reducible refine Keeps.foldl ?_ _ ?_
  · intro _ _
    intro _
    with_reducible refine Keeps.foldl ?_ _ ?_
    · intro _ _
      intro _
      with_reducible exact serveReq_keeps (by assumption)
    · with_reducible assumption
  · with_reducible assumption

theorem execYardRegionCommit_keeps {z : State} {x1 x2 x3 s} (h4 : Keeps z (s)) : outcomeAll (Keeps z) (execYardRegionCommit x1 x2 x3 s) := by
  unfold execYardRegionCommit
  with_reducible refine outcomeAll_next ?_
  with_reducible apply hostWrite_keeps
  · intro _ _
    with_reducible exact hostYrattr_keeps (by assumption)
  · with_reducible assumption

end Sys2Proof.Machine
end

