-- ==== Sys2Proof/Laws/KeepsQueues.lean ====
section
/-! SUPPORT. Keeps of host pages, queues, services and the start of jobs: one lemma a function. -/

namespace Sys2Proof.Machine

/-! ### HostPages -/

theorem execInvalidateCompletion_keeps {z : State} {s} (h1 : Keeps z (s)) : outcomeAll (Keeps z) (execInvalidateCompletion s) := by
  unfold execInvalidateCompletion
  split
  · with_reducible exact outcomeAll_next (by assumption)
  · with_reducible refine outcomeAll_ite ?_ ?_
    · with_reducible exact outcomeAll_next (by assumption)
    · with_reducible exact outcomeAll_next (Keeps.upd (by assumption) rfl rfl rfl rfl)

theorem promote_keeps {z : State} {s} (h1 : Keeps z (s)) : Keeps z (promote s) := by
  unfold promote
  with_reducible exact Keeps.upd (by assumption) rfl rfl rfl rfl

theorem failWaiter_keeps {z : State} {x1 x2 x3 x4 s x6} (h5 : Keeps z (s)) : Keeps z (failWaiter x1 x2 x3 x4 s x6) := by
  unfold failWaiter
  with_reducible exact Keeps.upd (by assumption) rfl rfl rfl rfl

theorem failPage_keeps {z : State} {x1 x2 x3 x4 x5 s} (h6 : Keeps z (s)) : Keeps z (failPage x1 x2 x3 x4 x5 s) := by
  unfold failPage
  with_reducible refine Keeps.foldl ?_ _ ?_
  · intro _ _
    intro _
    with_reducible exact failWaiter_keeps (by assumption)
  · with_reducible assumption

theorem dropReq_keeps {z : State} {x1 x2 x3 s} (h4 : Keeps z (s)) : Keeps z (dropReq x1 x2 x3 s) := by
  unfold dropReq
  with_reducible exact Keeps.upd (by assumption) rfl rfl rfl rfl

theorem execPriTimeout_keeps {z : State} {x1 x2 x3 s} (h4 : Keeps z (s)) : outcomeAll (Keeps z) (execPriTimeout x1 x2 x3 s) := by
  unfold execPriTimeout
  split
  · with_reducible exact outcomeAll_next (by assumption)
  · extract_lets +onlyGivenNames v1
    have k1 : Keeps z (v1) := by
      dsimp only [v1]
      with_reducible exact logErr_keeps (by assumption)
    clear_value v1
    with_reducible exact outcomeAll_next (promote_keeps (failPage_keeps (dropReq_keeps (by assumption))))

theorem pageSuccess_keeps {z : State} {x1 x2 x3 s} (h4 : Keeps z (s)) : Keeps z (pageSuccess x1 x2 x3 s) := by
  unfold pageSuccess
  split
  · with_reducible assumption
  · with_reducible exact promote_keeps (Keeps.upd (by assumption) rfl rfl rfl rfl)

theorem pageInvalid_keeps {z : State} {x1 x2 x3 s} (h4 : Keeps z (s)) : Keeps z (pageInvalid x1 x2 x3 s) := by
  unfold pageInvalid
  split
  · with_reducible exact promote_keeps (failPage_keeps (dropReq_keeps (by assumption)))
  · with_reducible assumption

theorem pageFailure_keeps {z : State} {x1 x2 x3 s} (h4 : Keeps z (s)) : Keeps z (pageFailure x1 x2 x3 s) := by
  unfold pageFailure
  with_reducible refine Keeps.iteK ?_ ?_
  · extract_lets +onlyGivenNames v1
    clear_value v1
    extract_lets +onlyGivenNames v2
    clear_value v2
    extract_lets +onlyGivenNames v3
    have k3 : Keeps z (v3) := by
      dsimp only [v3]
      with_reducible exact Keeps.upd (by assumption) rfl rfl rfl rfl
    clear_value v3
    with_reducible apply promote_keeps
    with_reducible refine Keeps.foldl ?_ _ ?_
    · intro _ _
      intro _
      with_reducible exact failPage_keeps (by assumption)
    · with_reducible assumption
  · with_reducible assumption

theorem actHeld_keeps {z : State} {x1 s} (h2 : Keeps z (s)) : Keeps z (actHeld x1 s) := by
  unfold actHeld
  with_reducible refine Keeps.iteK ?_ ?_
  · with_reducible exact pageSuccess_keeps (by assumption)
  · with_reducible refine Keeps.iteK ?_ ?_
    · with_reducible exact pageInvalid_keeps (by assumption)
    · with_reducible exact pageFailure_keeps (by assumption)

theorem notPresent_keeps {z : State} {x1 s} (h2 : Keeps z (s)) : Keeps z (notPresent x1 s) := by
  unfold notPresent
  split
  · with_reducible refine Keeps.iteK ?_ ?_
    · with_reducible exact promote_keeps (failPage_keeps (dropReq_keeps (by assumption)))
    · with_reducible exact promote_keeps (Keeps.upd (by assumption) rfl rfl rfl rfl)
  · extract_lets +onlyGivenNames v1
    clear_value v1
    extract_lets +onlyGivenNames v2
    have k2 : Keeps z (v2) := by
      dsimp only [v2]
      with_reducible exact failPage_keeps (by assumption)
    clear_value v2
    with_reducible refine Keeps.iteK ?_ ?_
    · with_reducible assumption
    · with_reducible exact promote_keeps (Keeps.upd (by assumption) rfl rfl rfl rfl)

theorem execZbRewalk_keeps {z : State} {x1 s} (h2 : Keeps z (s)) : outcomeAll (Keeps z) (execZbRewalk x1 s) := by
  unfold execZbRewalk
  with_reducible exact outcomeAll_next (by assumption)

theorem holdResponse_keeps {z : State} {x1 x2 x3 x4 s} (h5 : Keeps z (s)) : Keeps z (holdResponse x1 x2 x3 x4 s) := by
  unfold holdResponse
  with_reducible exact Keeps.upd (by assumption) rfl rfl rfl rfl

theorem execResponseFailure_keeps {z : State} {x1 x2 x3 s} (h4 : Keeps z (s)) : outcomeAll (Keeps z) (execResponseFailure x1 x2 x3 s) := by
  unfold execResponseFailure
  with_reducible refine outcomeAll_next ?_
  with_reducible refine Keeps.iteK ?_ ?_
  · with_reducible exact holdResponse_keeps (by assumption)
  · with_reducible exact pageFailure_keeps (by assumption)

theorem execResponseSuccess_keeps {z : State} {x1 x2 x3 s} (h4 : Keeps z (s)) : outcomeAll (Keeps z) (execResponseSuccess x1 x2 x3 s) := by
  unfold execResponseSuccess
  with_reducible refine outcomeAll_next ?_
  with_reducible refine Keeps.iteK ?_ ?_
  · with_reducible exact holdResponse_keeps (by assumption)
  · with_reducible exact pageSuccess_keeps (by assumption)

theorem actAllHeld_keeps {z : State} {s} (h1 : Keeps z (s)) : Keeps z (actAllHeld s) := by
  unfold actAllHeld
  with_reducible refine Keeps.foldl ?_ _ ?_
  · intro _ _
    intro _
    with_reducible exact actHeld_keeps (by assumption)
  · with_reducible exact Keeps.upd (by assumption) rfl rfl rfl rfl

theorem execZbTakeover_keeps {z : State} {x1 x2 x3 x4 s} (h5 : Keeps z (s)) : outcomeAll (Keeps z) (execZbTakeover x1 x2 x3 x4 s) := by
  unfold execZbTakeover
  split
  · with_reducible refine outcomeAll_ite ?_ ?_
    · with_reducible refine outcomeAll_next ?_
      with_reducible apply logErr_keeps
      with_reducible refine Keeps.upd ?_ rfl rfl rfl rfl
      with_reducible refine Pair.sndK (by assumption) ?_
      with_reducible exact readEntry_keeps (by assumption)
    · with_reducible refine outcomeAll_next ?_
      with_reducible refine Pair.sndK (by assumption) ?_
      with_reducible exact readEntry_keeps (by assumption)
  · with_reducible refine outcomeAll_next ?_
    with_reducible refine Pair.sndK (by assumption) ?_
    with_reducible exact readEntry_keeps (by assumption)

theorem execResponseInvalidRequest_keeps {z : State} {x1 x2 x3 s} (h4 : Keeps z (s)) : outcomeAll (Keeps z) (execResponseInvalidRequest x1 x2 x3 s) := by
  unfold execResponseInvalidRequest
  with_reducible refine outcomeAll_next ?_
  with_reducible refine Keeps.iteK ?_ ?_
  · with_reducible exact holdResponse_keeps (by assumption)
  · with_reducible exact pageInvalid_keeps (by assumption)

theorem cacheAtc_keeps {z : State} {x1 x2 x3 x4 x5 x6 x7 s} (h8 : Keeps z (s)) : Keeps z (cacheAtc x1 x2 x3 x4 x5 x6 x7 s) := by
  unfold cacheAtc
  extract_lets +onlyGivenNames v1
  clear_value v1
  extract_lets +onlyGivenNames v2
  clear_value v2
  with_reducible exact Keeps.upd (by assumption) rfl rfl rfl rfl

theorem execFirstTouchZeroingDone_keeps {z : State} {x1 s} (h2 : Keeps z (s)) : outcomeAll (Keeps z) (execFirstTouchZeroingDone x1 s) := by
  unfold execFirstTouchZeroingDone
  with_reducible exact outcomeAll_next (finishClaim_keeps (by assumption))

theorem execTranslationCompletion_keeps {z : State} {x1 x2 x3 x4 s} (h5 : Keeps z (s)) : outcomeAll (Keeps z) (execTranslationCompletion x1 x2 x3 x4 s) := by
  unfold execTranslationCompletion
  split
  · with_reducible exact outcomeAll_next (by assumption)
  · extract_lets +onlyGivenNames v1
    clear_value v1
    extract_lets +onlyGivenNames v2
    have k2 : Keeps z (v2) := by
      dsimp only [v2]
      with_reducible exact Keeps.upd (by assumption) rfl rfl rfl rfl
    clear_value v2
    split
    · with_reducible exact outcomeAll_next (notPresent_keeps (by assumption))
    · extract_lets +onlyGivenNames v3
      have k3 : Keeps z (v3) := by
        dsimp only [v3]
        with_reducible exact promote_keeps (dropReq_keeps (by assumption))
      clear_value v3
      with_reducible refine outcomeAll_ite ?_ ?_
      · with_reducible exact outcomeAll_next (by assumption)
      · with_reducible exact outcomeAll_next (cacheAtc_keeps (by assumption))

theorem execAtsInvalidateRequest_keeps {z : State} {x1 x2 x3 x4 s} (h5 : Keeps z (s)) : outcomeAll (Keeps z) (execAtsInvalidateRequest x1 x2 x3 x4 s) := by
  unfold execAtsInvalidateRequest
  with_reducible exact outcomeAll_next (Keeps.upd (by assumption) rfl rfl rfl rfl)

/-! ### Queues -/

theorem takeHostBad_keeps {z : State} {x1 x2 s} (h3 : Keeps z (s)) : Pair.all (Keeps z) (takeHostBad x1 x2 s) := by
  unfold takeHostBad
  split
  · with_reducible exact Pair.mkI (Keeps.upd (by assumption) rfl rfl rfl rfl)
  · with_reducible exact Pair.mkI (by assumption)

theorem assignTracts_keeps {z : State} {x1 x2 x3 x4 s} (h5 : Keeps z (s)) : Keeps z (assignTracts x1 x2 x3 x4 s) := by
  unfold assignTracts
  with_reducible refine Keeps.iteK ?_ ?_
  · with_reducible assumption
  · extract_lets +onlyGivenNames v1
    have k1 : Keeps z (v1) := by
      dsimp only [v1]
      with_reducible exact zeroTracts_keeps (dropLeaves_keeps (by assumption))
    clear_value v1
    with_reducible exact Keeps.upd (by assumption) rfl rfl rfl rfl

theorem takeHead_keeps {z : State} {x1 x2 x3 s} (h4 : Keeps z (s)) : Keeps z (takeHead x1 x2 x3 s) := by
  unfold takeHead
  split
  · with_reducible assumption
  · with_reducible refine Keeps.iteK ?_ ?_
    · with_reducible assumption
    · with_reducible refine Keeps.iteK ?_ ?_
      · with_reducible exact State_setCq_keeps (by assumption)
      · with_reducible exact logErr_keeps (by assumption)

theorem ringRead_keeps {z : State} {x1 x2 x3 s x5} (h4 : Keeps z (s)) (hf5 : ∀ y1 y2, Keeps z (y2) → PageRead.all (Keeps z) (x5 y1 y2)) : PageRead.all (Keeps z) (ringRead x1 x2 x3 s x5) := by
  unfold ringRead
  split
  · with_reducible refine PageRead.waitI ?_
    with_reducible refine HostXl.waitK (by assumption) ?_
    with_reducible exact hostXl_keeps (by assumption)
  · with_reducible refine PageRead.badI ?_
    with_reducible refine HostXl.failK (by assumption) ?_
    with_reducible exact hostXl_keeps (by assumption)
  · split
    · with_reducible refine PageRead.badI ?_
      with_reducible refine Pair.sndK (by assumption) ?_
      with_reducible exact takeHostBad_keeps (by assumption)
    · with_reducible apply hf5
      with_reducible refine Pair.sndK (by assumption) ?_
      with_reducible exact takeHostBad_keeps (by assumption)

theorem fetchSlot_keeps {z : State} {x1 x2 s} (h3 : Keeps z (s)) : Pair.all (Keeps z) (fetchSlot x1 x2 s) := by
  unfold fetchSlot
  split
  · with_reducible exact Pair.mkI (by assumption)
  · with_reducible refine Pair.iteK ?_ ?_
    · with_reducible exact Pair.mkI (by assumption)
    · extract_lets +onlyGivenNames v1
      have k1 : ∀ y1, Keeps z (y1) → Keeps z (v1 y1) := by
        intro _ _
        dsimp only [v1]
        with_reducible exact State_setSq_keeps (by assumption)
      clear_value v1
      split
      · with_reducible refine Pair.mkI ?_
        with_reducible apply k1
        with_reducible refine PageRead.doneK (by assumption) ?_
        with_reducible apply ringRead_keeps
        · with_reducible assumption
        · intro _ _
          intro _
          with_reducible exact PageRead.doneI (putHost_keeps (by assumption))
      · with_reducible refine Pair.mkI ?_
        with_reducible refine PageRead.waitK (by assumption) ?_
        with_reducible apply ringRead_keeps
        · with_reducible assumption
        · intro _ _
          intro _
          with_reducible exact PageRead.doneI (putHost_keeps (by assumption))
      · with_reducible refine Pair.mkI ?_
        with_reducible apply holdEntry_keeps
        with_reducible apply k1
        with_reducible refine PageRead.badK (by assumption) ?_
        with_reducible apply ringRead_keeps
        · with_reducible assumption
        · intro _ _
          intro _
          with_reducible exact PageRead.doneI (putHost_keeps (by assumption))

theorem sendModerated_keeps {z : State} {x1 s} (h2 : Keeps z (s)) : Keeps z (sendModerated x1 s) := by
  unfold sendModerated
  split
  · with_reducible exact sendVec_keeps (State_setCq_keeps (by assumption))
  · with_reducible assumption

theorem State_setGroup_keeps {z : State} {s x2 x3 x4} (h1 : Keeps z (s)) : Keeps z (State.setGroup s x2 x3 x4) := by
  unfold State.setGroup
  with_reducible exact Keeps.upd (by assumption) rfl rfl rfl rfl

theorem endRead_keeps {z : State} {x1 x2 x3 s} (h4 : Keeps z (s)) : Keeps z (endRead x1 x2 x3 s) := by
  unfold endRead
  extract_lets +onlyGivenNames v1
  clear_value v1
  with_reducible exact State_setGroup_keeps (by assumption)

theorem groupLost_keeps {z : State} {x1 x2 s} (h3 : Keeps z (s)) : Keeps z (groupLost x1 x2 s) := by
  unfold groupLost
  with_reducible exact endRead_keeps (logErr_keeps (by assumption))

theorem takeTail_keeps {z : State} {x1 x2 x3 s} (h4 : Keeps z (s)) : Keeps z (takeTail x1 x2 x3 s) := by
  unfold takeTail
  split
  · with_reducible assumption
  · with_reducible refine Keeps.iteK ?_ ?_
    · with_reducible assumption
    · with_reducible refine Keeps.iteK ?_ ?_
      · with_reducible exact State_setSq_keeps (by assumption)
      · with_reducible exact holdEntry_keeps (logErr_keeps (State_setSq_keeps (by assumption)))

theorem takeDoorbells_keeps {z : State} {x1 x2 x3 x4 s} (h5 : Keeps z (s)) : Keeps z (takeDoorbells x1 x2 x3 x4 s) := by
  unfold takeDoorbells
  with_reducible refine Keeps.foldl ?_ _ ?_
  · intro _ _
    intro _
    with_reducible refine Keeps.iteK ?_ ?_
    · extract_lets +onlyGivenNames v1
      clear_value v1
      with_reducible exact takeHead_keeps (takeTail_keeps (by assumption))
    · with_reducible assumption
  · with_reducible assumption

theorem readGroup_keeps {z : State} {x1 x2 s} (h3 : Keeps z (s)) : PageRead.all (Keeps z) (readGroup x1 x2 s) := by
  unfold readGroup
  extract_lets +onlyGivenNames v1
  clear_value v1
  with_reducible apply ringRead_keeps
  · with_reducible assumption
  · intro _ _
    intro _
    extract_lets +onlyGivenNames v2
    clear_value v2
    with_reducible refine PageRead.iteK ?_ ?_
    · with_reducible exact PageRead.doneI (endRead_keeps (by assumption))
    · with_reducible apply ringRead_keeps
      · with_reducible assumption
      · intro _ _
        intro _
        with_reducible exact PageRead.doneI (endRead_keeps (takeDoorbells_keeps (by assumption)))

theorem execDoorbellReadRetry_keeps {z : State} {x1 x2 x3 s} (h4 : Keeps z (s)) : outcomeAll (Keeps z) (execDoorbellReadRetry x1 x2 x3 s) := by
  unfold execDoorbellReadRetry
  with_reducible refine outcomeAll_ite ?_ ?_
  · with_reducible exact outcomeAll_next (by assumption)
  · with_reducible refine outcomeAll_ite ?_ ?_
    · with_reducible exact outcomeAll_next (groupLost_keeps (by assumption))
    · split
      · with_reducible refine outcomeAll_next ?_
        with_reducible refine PageRead.doneK (by assumption) ?_
        with_reducible exact readGroup_keeps (by assumption)
      · with_reducible refine outcomeAll_next ?_
        with_reducible refine PageRead.waitK (by assumption) ?_
        with_reducible exact readGroup_keeps (by assumption)
      · with_reducible refine outcomeAll_next ?_
        with_reducible apply groupLost_keeps
        with_reducible refine PageRead.badK (by assumption) ?_
        with_reducible exact readGroup_keeps (by assumption)

theorem adminDone_keeps {z : State} {x1 x2 x3 x4 s} (h5 : Keeps z (s)) : Keeps z (adminDone x1 x2 x3 x4 s) := by
  unfold adminDone
  with_reducible exact holdEntry_keeps (by assumption)

theorem admin_keeps {z : State} {x1 x2 x3 x4 x5 x6 s} (hf6 : ∀ y1 y2, Keeps z (y2) → Keeps z (x6 y1 y2)) (h7 : Keeps z (s)) : Keeps z (admin x1 x2 x3 x4 x5 x6 s) := by
  unfold admin
  with_reducible refine Keeps.iteK ?_ ?_
  · with_reducible assumption
  · split
    · with_reducible refine Pair.sndK (by assumption) ?_
      with_reducible exact fetchSlot_keeps (by assumption)
    · split
      · with_reducible apply adminDone_keeps
        with_reducible refine Pair.sndK (by assumption) ?_
        with_reducible exact fetchSlot_keeps (by assumption)
      · with_reducible apply hf6
        with_reducible refine Pair.sndK (by assumption) ?_
        with_reducible exact fetchSlot_keeps (by assumption)

theorem execDeleteCq_keeps {z : State} {x1 x2 s} (h3 : Keeps z (s)) : outcomeAll (Keeps z) (execDeleteCq x1 x2 s) := by
  unfold execDeleteCq
  extract_lets +onlyGivenNames v1
  clear_value v1
  with_reducible refine outcomeAll_next ?_
  with_reducible apply admin_keeps
  · intro _ _
    intro _
    extract_lets +onlyGivenNames v2
    clear_value v2
    with_reducible apply adminDone_keeps
    with_reducible apply State_setCq_keeps
    with_reducible refine Keeps.iteK ?_ ?_
    · with_reducible exact sendModerated_keeps (by assumption)
    · with_reducible assumption
  · with_reducible assumption

theorem beginRead_keeps {z : State} {x1 x2 s} (h3 : Keeps z (s)) : Keeps z (beginRead x1 x2 s) := by
  unfold beginRead
  extract_lets +onlyGivenNames v1
  clear_value v1
  with_reducible exact State_setGroup_keeps (by assumption)

theorem readAllGroups_keeps {z : State} {x1 s} (h2 : Keeps z (s)) : Keeps z (readAllGroups x1 s) := by
  unfold readAllGroups
  with_reducible refine Keeps.foldl ?_ _ ?_
  · intro _ _
    intro _
    with_reducible exact beginRead_keeps (by assumption)
  · with_reducible assumption

theorem commitDbpg_keeps {z : State} {x1 s} (h2 : Keeps z (s)) : Keeps z (commitDbpg x1 s) := by
  unfold commitDbpg
  extract_lets +onlyGivenNames v1
  clear_value v1
  with_reducible refine Keeps.iteK ?_ ?_
  · with_reducible exact State_setFn_keeps (by assumption)
  · extract_lets +onlyGivenNames v2
    clear_value v2
    extract_lets +onlyGivenNames v3
    have k3 : Keeps z (v3) := by
      dsimp only [v3]
      with_reducible exact State_setFn_keeps (by assumption)
    clear_value v3
    with_reducible refine Keeps.iteK ?_ ?_
    · with_reducible exact readAllGroups_keeps (by assumption)
    · with_reducible assumption

theorem setCtx_keeps {z : State} {x1 x2 s} (h3 : Keeps z (s)) : Keeps z (setCtx x1 x2 s) := by
  unfold setCtx
  with_reducible exact Keeps.upd (by assumption) rfl rfl rfl rfl

theorem commitModeration_keeps {z : State} {x1 s} (h2 : Keeps z (s)) : Keeps z (commitModeration x1 s) := by
  unfold commitModeration
  extract_lets +onlyGivenNames v1
  clear_value v1
  extract_lets +onlyGivenNames v2
  clear_value v2
  with_reducible refine Keeps.iteK ?_ ?_
  · with_reducible exact State_setFn_keeps (by assumption)
  · extract_lets +onlyGivenNames v3
    clear_value v3
    extract_lets +onlyGivenNames v4
    have k4 : Keeps z (v4) := by
      dsimp only [v4]
      with_reducible exact State_setFn_keeps (by assumption)
    clear_value v4
    split
    · extract_lets +onlyGivenNames v5
      have k5 : Keeps z (v5) := by
        dsimp only [v5]
        with_reducible exact State_setCq_keeps (by assumption)
      clear_value v5
      with_reducible refine Keeps.iteK ?_ ?_
      · with_reducible exact sendModerated_keeps (by assumption)
      · with_reducible assumption
    · with_reducible assumption

theorem writeCqmod_keeps {z : State} {x1 x2 s} (h3 : Keeps z (s)) : Keeps z (writeCqmod x1 x2 s) := by
  unfold writeCqmod
  extract_lets +onlyGivenNames v1
  clear_value v1
  extract_lets +onlyGivenNames v2
  clear_value v2
  extract_lets +onlyGivenNames v3
  have k3 : Keeps z (v3) := by
    dsimp only [v3]
    with_reducible exact State_setFn_keeps (by assumption)
  clear_value v3
  with_reducible refine Keeps.iteK ?_ ?_
  · with_reducible exact commitModeration_keeps (by assumption)
  · with_reducible assumption

theorem execModerationCommit_keeps {z : State} {x1 x2 s} (h3 : Keeps z (s)) : outcomeAll (Keeps z) (execModerationCommit x1 x2 s) := by
  unfold execModerationCommit
  with_reducible refine outcomeAll_next ?_
  with_reducible apply hostWrite_keeps
  · intro _ _
    with_reducible exact writeCqmod_keeps (by assumption)
  · with_reducible assumption

theorem fetchJob_keeps {z : State} {x1 x2 s} (h3 : Keeps z (s)) : Keeps z (fetchJob x1 x2 s) := by
  unfold fetchJob
  split
  · with_reducible refine Pair.sndK (by assumption) ?_
    with_reducible exact fetchSlot_keeps (by assumption)
  · with_reducible refine Keeps.iteK ?_ ?_
    · with_reducible apply holdEntry_keeps
      with_reducible refine Pair.sndK (by assumption) ?_
      with_reducible exact fetchSlot_keeps (by assumption)
    · split
      · with_reducible apply State_setSq_keeps
        with_reducible refine Pair.sndK (by assumption) ?_
        with_reducible exact fetchSlot_keeps (by assumption)
      · with_reducible refine Pair.sndK (by assumption) ?_
        with_reducible exact fetchSlot_keeps (by assumption)

theorem applyRings_keeps {z : State} {x1 x2 s} (h3 : Keeps z (s)) : Keeps z (applyRings x1 x2 s) := by
  unfold applyRings
  extract_lets +onlyGivenNames v1
  clear_value v1
  extract_lets +onlyGivenNames v2
  clear_value v2
  extract_lets +onlyGivenNames v3
  clear_value v3
  extract_lets +onlyGivenNames v4
  clear_value v4
  extract_lets +onlyGivenNames v5
  clear_value v5
  extract_lets +onlyGivenNames v6
  clear_value v6
  extract_lets +onlyGivenNames v7
  have k7 : Keeps z (v7) := by
    dsimp only [v7]
    with_reducible exact State_setFn_keeps (by assumption)
  clear_value v7
  with_reducible exact State_setCq_keeps (State_setSq_keeps (by assumption))

theorem dropContext_keeps {z : State} {x1 s} (h2 : Keeps z (s)) : Keeps z (dropContext x1 s) := by
  unfold dropContext
  with_reducible exact dropTlb_keeps (by assumption)

theorem settleDelete_keeps {z : State} {x1 s} (h2 : Keeps z (s)) : Keeps z (settleDelete x1 s) := by
  unfold settleDelete
  split
  · with_reducible assumption
  · split
    · with_reducible assumption
    · with_reducible refine Keeps.iteK ?_ ?_
      · with_reducible assumption
      · with_reducible exact adminDone_keeps (State_setSq_keeps (by assumption))

theorem settleCommit_keeps {z : State} {x1 s} (h2 : Keeps z (s)) : Keeps z (settleCommit x1 s) := by
  unfold settleCommit
  split
  · with_reducible refine Keeps.iteK ?_ ?_
    · with_reducible assumption
    · with_reducible exact applyRings_keeps (by assumption)
  · with_reducible assumption

theorem settleQueues_keeps {z : State} {s} (h1 : Keeps z (s)) : Keeps z (settleQueues s) := by
  unfold settleQueues
  extract_lets +onlyGivenNames v1
  have k1 : Keeps z (v1) := by
    dsimp only [v1]
    with_reducible refine Keeps.foldl ?_ _ ?_
    · intro _ _
      intro _
      with_reducible exact settleDelete_keeps (by assumption)
    · with_reducible assumption
  clear_value v1
  with_reducible refine Keeps.foldl ?_ _ ?_
  · intro _ _
    intro _
    with_reducible exact settleCommit_keeps (by assumption)
  · with_reducible assumption

theorem retryEnding_keeps {z : State} {x1 s} (h2 : Keeps z (s)) : Keeps z (retryEnding x1 s) := by
  unfold retryEnding
  with_reducible refine Keeps.foldl ?_ _ ?_
  · intro _ _
    intro _
    with_reducible exact tryFinish_keeps (by assumption)
  · with_reducible assumption

theorem countWritten_keeps {z : State} {x1 s} (h2 : Keeps z (s)) : Keeps z (countWritten x1 s) := by
  unfold countWritten
  split
  · with_reducible refine Keeps.iteK ?_ ?_
    · with_reducible assumption
    · extract_lets +onlyGivenNames v1
      have k1 : Keeps z (v1) := by
        dsimp only [v1]
        with_reducible exact State_setCq_keeps (by assumption)
      clear_value v1
      with_reducible refine Keeps.iteK ?_ ?_
      · with_reducible exact sendModerated_keeps (by assumption)
      · with_reducible assumption
  · with_reducible assumption

theorem putEntry_keeps {z : State} {x1 x2 x3 x4 x5 s} (h6 : Keeps z (s)) : Keeps z (putEntry x1 x2 x3 x4 x5 s) := by
  unfold putEntry
  extract_lets +onlyGivenNames v1
  clear_value v1
  extract_lets +onlyGivenNames v2
  have k2 : Keeps z (v2) := by
    dsimp only [v2]
    with_reducible exact ordered_keeps (putHost_keeps (by assumption))
  clear_value v2
  extract_lets +onlyGivenNames v3
  clear_value v3
  extract_lets +onlyGivenNames v4
  have k4 : Keeps z (v4) := by
    dsimp only [v4]
    with_reducible exact State_setCq_keeps (by assumption)
  clear_value v4
  with_reducible exact settleQueues_keeps (countWritten_keeps (by assumption))

theorem execCompletionEntryWrite_keeps {z : State} {x1 s} (h2 : Keeps z (s)) : outcomeAll (Keeps z) (execCompletionEntryWrite x1 s) := by
  unfold execCompletionEntryWrite
  with_reducible refine outcomeAll_ite ?_ ?_
  · with_reducible exact outcomeAll_next (by assumption)
  · extract_lets +onlyGivenNames v1
    have k1 : Keeps z (v1) := by
      dsimp only [v1]
      with_reducible exact settleQueues_keeps (retryEnding_keeps (by assumption))
    clear_value v1
    split
    · with_reducible exact outcomeAll_next (by assumption)
    · split
      · with_reducible exact outcomeAll_next (by assumption)
      · with_reducible refine outcomeAll_ite ?_ ?_
        · with_reducible exact outcomeAll_next (by assumption)
        · split
          · with_reducible refine outcomeAll_next ?_
            with_reducible refine HostXl.waitK (by assumption) ?_
            with_reducible exact hostXl_keeps (by assumption)
          · with_reducible refine outcomeAll_next ?_
            with_reducible apply State_setCq_keeps
            with_reducible refine HostXl.failK (by assumption) ?_
            with_reducible exact hostXl_keeps (by assumption)
          · with_reducible exact outcomeAll_next (putEntry_keeps (by assumption))

theorem execCqHeadRecheck_keeps {z : State} {x1 s} (h2 : Keeps z (s)) : outcomeAll (Keeps z) (execCqHeadRecheck x1 s) := by
  unfold execCqHeadRecheck
  split
  · with_reducible exact outcomeAll_next (by assumption)
  · with_reducible refine outcomeAll_ite ?_ ?_
    · with_reducible exact outcomeAll_next (by assumption)
    · split
      · with_reducible refine outcomeAll_next ?_
        with_reducible refine PageRead.doneK (by assumption) ?_
        with_reducible apply ringRead_keeps
        · with_reducible assumption
        · intro _ _
          intro _
          with_reducible exact PageRead.doneI (takeHead_keeps (by assumption))
      · with_reducible refine outcomeAll_next ?_
        with_reducible refine PageRead.waitK (by assumption) ?_
        with_reducible apply ringRead_keeps
        · with_reducible assumption
        · intro _ _
          intro _
          with_reducible exact PageRead.doneI (takeHead_keeps (by assumption))
      · with_reducible refine outcomeAll_next ?_
        with_reducible refine PageRead.badK (by assumption) ?_
        with_reducible apply ringRead_keeps
        · with_reducible assumption
        · intro _ _
          intro _
          with_reducible exact PageRead.doneI (takeHead_keeps (by assumption))

theorem addScrub_keeps {z : State} {x1 s} (h2 : Keeps z (s)) : Keeps z (addScrub x1 s) := by
  unfold addScrub
  with_reducible exact Keeps.upd (by assumption) rfl rfl rfl rfl

theorem knock_keeps {z : State} {x1 x2 x3 s} (h4 : Keeps z (s)) : Keeps z (knock x1 x2 x3 s) := by
  unfold knock
  with_reducible refine Keeps.iteK ?_ ?_
  · with_reducible assumption
  · with_reducible refine Keeps.iteK ?_ ?_
    · with_reducible exact readAllGroups_keeps (by assumption)
    · with_reducible exact beginRead_keeps (by assumption)

theorem writeDbctl_keeps {z : State} {x1 x2 s} (h3 : Keeps z (s)) : Keeps z (writeDbctl x1 x2 s) := by
  unfold writeDbctl
  extract_lets +onlyGivenNames v1
  clear_value v1
  extract_lets +onlyGivenNames v2
  clear_value v2
  extract_lets +onlyGivenNames v3
  have k3 : Keeps z (v3) := by
    dsimp only [v3]
    with_reducible exact State_setFn_keeps (by assumption)
  clear_value v3
  with_reducible refine Keeps.iteK ?_ ?_
  · with_reducible exact commitDbpg_keeps (by assumption)
  · with_reducible assumption

theorem writeDbpg_keeps {z : State} {x1 x2 x3 s} (h4 : Keeps z (s)) : Keeps z (writeDbpg x1 x2 x3 s) := by
  unfold writeDbpg
  extract_lets +onlyGivenNames v1
  clear_value v1
  split
  · with_reducible exact State_setFn_keeps (by assumption)
  · with_reducible exact State_setFn_keeps (by assumption)
  · with_reducible exact writeDbctl_keeps (by assumption)
  · with_reducible assumption

theorem unreserve_keeps {z : State} {x1 s} (h2 : Keeps z (s)) : Keeps z (unreserve x1 s) := by
  unfold unreserve
  with_reducible refine Keeps.iteK ?_ ?_
  · with_reducible exact Keeps.upd (by assumption) rfl rfl rfl rfl
  · with_reducible assumption

theorem execCreateCq_keeps {z : State} {x1 x2 s} (h3 : Keeps z (s)) : outcomeAll (Keeps z) (execCreateCq x1 x2 s) := by
  unfold execCreateCq
  extract_lets +onlyGivenNames v1
  clear_value v1
  extract_lets +onlyGivenNames v2
  clear_value v2
  extract_lets +onlyGivenNames v3
  clear_value v3
  extract_lets +onlyGivenNames v4
  clear_value v4
  with_reducible refine outcomeAll_next ?_
  with_reducible apply admin_keeps
  · intro _ _
    intro _
    with_reducible exact adminDone_keeps (State_setCq_keeps (by assumption))
  · with_reducible assumption

theorem execAssignTracts_keeps {z : State} {x1 x2 s} (h3 : Keeps z (s)) : outcomeAll (Keeps z) (execAssignTracts x1 x2 s) := by
  unfold execAssignTracts
  with_reducible refine outcomeAll_next ?_
  with_reducible apply admin_keeps
  · intro _ _
    intro _
    with_reducible exact adminDone_keeps (assignTracts_keeps (by assumption))
  · with_reducible assumption

theorem execCreateSq_keeps {z : State} {x1 x2 s} (h3 : Keeps z (s)) : outcomeAll (Keeps z) (execCreateSq x1 x2 s) := by
  unfold execCreateSq
  extract_lets +onlyGivenNames v1
  clear_value v1
  extract_lets +onlyGivenNames v2
  clear_value v2
  with_reducible refine outcomeAll_next ?_
  with_reducible apply admin_keeps
  · intro _ _
    intro _
    with_reducible exact adminDone_keeps (State_setSq_keeps (by assumption))
  · with_reducible assumption

theorem execJobNop_keeps {z : State} {x1 x2 s} (h3 : Keeps z (s)) : outcomeAll (Keeps z) (execJobNop x1 x2 s) := by
  unfold execJobNop
  extract_lets +onlyGivenNames v1
  clear_value v1
  with_reducible refine outcomeAll_ite ?_ ?_
  · with_reducible exact outcomeAll_next (by assumption)
  · with_reducible exact outcomeAll_next (fetchJob_keeps (by assumption))

theorem runScrub_keeps {z : State} {x1 s} (h2 : Keeps z (s)) : Pair.all (Keeps z) (runScrub x1 s) := by
  unfold runScrub
  with_reducible refine Pair.iteK ?_ ?_
  · extract_lets +onlyGivenNames v1
    clear_value v1
    extract_lets +onlyGivenNames v2
    have k2 : Keeps z (v2) := by
      dsimp only [v2]
      with_reducible refine Keeps.iteK ?_ ?_
      · with_reducible exact finishTracts_keeps (by assumption)
      · with_reducible assumption
    clear_value v2
    with_reducible exact scrubTracts_keeps (by assumption)
  · extract_lets +onlyGivenNames v3
    clear_value v3
    with_reducible exact Pair.mkI (State_drawn_keeps (by assumption))

theorem execScrubDone_keeps {z : State} {s} (h1 : Keeps z (s)) : outcomeAll (Keeps z) (execScrubDone s) := by
  unfold execScrubDone
  split
  · with_reducible exact outcomeAll_next (by assumption)
  · with_reducible refine outcomeAll_ite ?_ ?_
    · with_reducible exact outcomeAll_next (by assumption)
    · extract_lets +onlyGivenNames v1
      clear_value v1
      extract_lets +onlyGivenNames v2
      have k2 : ∀ y1 y2, Keeps z (y2) → Keeps z (v2 y1 y2) := by
        intro _ _
        intro _
        dsimp only [v2]
        with_reducible apply settleQueues_keeps
        with_reducible apply adminDone_keeps
        with_reducible refine Keeps.iteK ?_ ?_
        · with_reducible exact logErr_keeps (Keeps.upd (by assumption) rfl rfl rfl rfl)
        · with_reducible exact Keeps.upd (by assumption) rfl rfl rfl rfl
      clear_value v2
      with_reducible refine outcomeAll_ite ?_ ?_
      · with_reducible exact outcomeAll_next (by assumption)
      · split
        · with_reducible refine outcomeAll_next ?_
          with_reducible refine HostXl.waitK (by assumption) ?_
          with_reducible exact hostXl_keeps (by assumption)
        · with_reducible refine outcomeAll_next ?_
          with_reducible apply k2
          with_reducible refine Pair.sndI ?_
          with_reducible apply runScrub_keeps
          with_reducible refine HostXl.failK (by assumption) ?_
          with_reducible exact hostXl_keeps (by assumption)
        · split
          · with_reducible refine outcomeAll_next ?_
            with_reducible refine HostXl.waitK (by assumption) ?_
            with_reducible exact hostXl_keeps (by assumption)
          · with_reducible refine outcomeAll_next ?_
            with_reducible apply k2
            with_reducible refine Pair.sndI ?_
            with_reducible apply runScrub_keeps
            with_reducible refine HostXl.failK (by assumption) ?_
            with_reducible exact hostXl_keeps (by assumption)
          · split
            extract_lets +onlyGivenNames v3
            clear_value v3
            extract_lets +onlyGivenNames v4
            clear_value v4
            with_reducible refine outcomeAll_next ?_
            with_reducible apply k2
            with_reducible apply ordered_keeps
            with_reducible refine Keeps.foldl ?_ _ ?_
            · intro _ _
              intro _
              with_reducible refine Keeps.foldl ?_ _ ?_
              · intro _ _
                intro _
                with_reducible exact putHost_keeps (by assumption)
              · with_reducible assumption
            · with_reducible refine Pair.sndK (by assumption) ?_
              with_reducible exact runScrub_keeps (by assumption)

theorem execGroupRead_keeps {z : State} {x1 x2 s} (h3 : Keeps z (s)) : outcomeAll (Keeps z) (execGroupRead x1 x2 s) := by
  unfold execGroupRead
  extract_lets +onlyGivenNames v1
  clear_value v1
  with_reducible refine outcomeAll_ite ?_ ?_
  · with_reducible exact outcomeAll_next (by assumption)
  · with_reducible refine outcomeAll_ite ?_ ?_
    · with_reducible exact outcomeAll_next (endRead_keeps (by assumption))
    · split
      · with_reducible refine outcomeAll_next ?_
        with_reducible refine PageRead.doneK (by assumption) ?_
        with_reducible exact readGroup_keeps (by assumption)
      · with_reducible refine outcomeAll_next ?_
        with_reducible refine PageRead.waitK (by assumption) ?_
        with_reducible exact readGroup_keeps (by assumption)
      · with_reducible refine outcomeAll_next ?_
        with_reducible apply State_setGroup_keeps
        with_reducible refine PageRead.badK (by assumption) ?_
        with_reducible exact readGroup_keeps (by assumption)

theorem execDeleteSq_keeps {z : State} {x1 x2 s} (h3 : Keeps z (s)) : outcomeAll (Keeps z) (execDeleteSq x1 x2 s) := by
  unfold execDeleteSq
  extract_lets +onlyGivenNames v1
  clear_value v1
  with_reducible refine outcomeAll_next ?_
  with_reducible apply admin_keeps
  · intro _ _
    intro _
    split
    · extract_lets +onlyGivenNames v2
      have k2 : Keeps z (v2) := by
        dsimp only [v2]
        with_reducible exact unreserve_keeps (State_setSq_keeps (by assumption))
      clear_value v2
      with_reducible apply settleDelete_keeps
      with_reducible refine Keeps.foldl ?_ _ ?_
      · intro _ _
        intro _
        with_reducible exact holdEntry_keeps (by assumption)
      · with_reducible assumption
    · with_reducible assumption
  · with_reducible assumption

theorem execNative_keeps {z : State} {x1 x2 s} (h3 : Keeps z (s)) : outcomeAll (Keeps z) (execNative x1 x2 s) := by
  unfold execNative
  with_reducible refine outcomeAll_ite ?_ ?_
  · with_reducible exact outcomeAll_next (fetchJob_keeps (by assumption))
  · with_reducible exact outcomeAll_next (by assumption)

theorem execDoorbellPageCommit_keeps {z : State} {x1 x2 s} (h3 : Keeps z (s)) : outcomeAll (Keeps z) (execDoorbellPageCommit x1 x2 s) := by
  unfold execDoorbellPageCommit
  with_reducible refine outcomeAll_next ?_
  with_reducible apply hostWrite_keeps
  · intro _ _
    with_reducible exact writeDbctl_keeps (by assumption)
  · with_reducible assumption

theorem abortJob_keeps {z : State} {x1 x2 s} (h3 : Keeps z (s)) : Pair.all (Keeps z) (abortJob x1 x2 s) := by
  unfold abortJob
  split
  · with_reducible exact Pair.mkI (finishJob_keeps (by assumption))
  · split
    · split
      · with_reducible exact Pair.mkI (holdEntry_keeps (unreserve_keeps (State_setSq_keeps (by assumption))))
      · with_reducible exact Pair.mkI (by assumption)
    · with_reducible exact Pair.mkI (by assumption)

theorem execAbort_keeps {z : State} {x1 x2 s} (h3 : Keeps z (s)) : outcomeAll (Keeps z) (execAbort x1 x2 s) := by
  unfold execAbort
  extract_lets +onlyGivenNames v1
  clear_value v1
  with_reducible refine outcomeAll_next ?_
  with_reducible apply admin_keeps
  · intro _ _
    intro _
    split
    with_reducible apply adminDone_keeps
    with_reducible refine Pair.sndK (by assumption) ?_
    with_reducible exact abortJob_keeps (by assumption)
  · with_reducible assumption

theorem disableCq_keeps {z : State} {x1 s} (h2 : Keeps z (s)) : Keeps z (disableCq x1 s) := by
  unfold disableCq
  split
  · with_reducible assumption
  · extract_lets +onlyGivenNames v1
    have k1 : Keeps z (v1) := by
      dsimp only [v1]
      with_reducible exact State_setCq_keeps (by assumption)
    clear_value v1
    extract_lets +onlyGivenNames v2
    have k2 : Keeps z (v2) := by
      dsimp only [v2]
      with_reducible exact logErr_keeps (by assumption)
    clear_value v2
    extract_lets +onlyGivenNames v3
    clear_value v3
    extract_lets +onlyGivenNames v4
    have k4 : Keeps z (v4) := by
      dsimp only [v4]
      with_reducible exact Keeps.upd (by assumption) rfl rfl rfl rfl
    clear_value v4
    with_reducible exact settleQueues_keeps (by assumption)

theorem commitAdmq_keeps {z : State} {x1 s} (h2 : Keeps z (s)) : Keeps z (commitAdmq x1 s) := by
  unfold commitAdmq
  extract_lets +onlyGivenNames v1
  clear_value v1
  extract_lets +onlyGivenNames v2
  clear_value v2
  with_reducible refine Keeps.iteK ?_ ?_
  · with_reducible exact State_setFn_keeps (by assumption)
  · with_reducible exact settleCommit_keeps (State_setFn_keeps (by assumption))

theorem execKnockGroup_keeps {z : State} {x1 x2 s} (h3 : Keeps z (s)) : outcomeAll (Keeps z) (execKnockGroup x1 x2 s) := by
  unfold execKnockGroup
  with_reducible refine outcomeAll_next ?_
  with_reducible apply hostWrite_keeps
  · intro _ _
    with_reducible exact knock_keeps (by assumption)
  · with_reducible assumption

theorem execDeleteContext_keeps {z : State} {x1 x2 s} (h3 : Keeps z (s)) : outcomeAll (Keeps z) (execDeleteContext x1 x2 s) := by
  unfold execDeleteContext
  extract_lets +onlyGivenNames v1
  clear_value v1
  with_reducible refine outcomeAll_next ?_
  with_reducible apply admin_keeps
  · intro _ _
    intro _
    with_reducible exact adminDone_keeps (dropContext_keeps (setCtx_keeps (by assumption)))
  · with_reducible assumption

theorem execKnockAll_keeps {z : State} {x1 s} (h2 : Keeps z (s)) : outcomeAll (Keeps z) (execKnockAll x1 s) := by
  unfold execKnockAll
  with_reducible refine outcomeAll_next ?_
  with_reducible apply hostWrite_keeps
  · intro _ _
    with_reducible exact knock_keeps (by assumption)
  · with_reducible assumption

theorem execScrub_keeps {z : State} {x1 x2 s} (h3 : Keeps z (s)) : outcomeAll (Keeps z) (execScrub x1 x2 s) := by
  unfold execScrub
  with_reducible refine outcomeAll_next ?_
  with_reducible apply admin_keeps
  · intro _ _
    intro _
    with_reducible exact addScrub_keeps (by assumption)
  · with_reducible assumption

theorem execPoll_keeps {z : State} {s} (h1 : Keeps z (s)) : outcomeAll (Keeps z) (execPoll s) := by
  unfold execPoll
  with_reducible refine outcomeAll_ite ?_ ?_
  · with_reducible exact outcomeAll_next (by assumption)
  · with_reducible refine outcomeAll_next ?_
    with_reducible refine Keeps.foldl ?_ _ ?_
    · intro _ _
      intro _
      with_reducible exact beginRead_keeps (by assumption)
    · with_reducible assumption

theorem writeActl_keeps {z : State} {x1 x2 s} (h3 : Keeps z (s)) : Keeps z (writeActl x1 x2 s) := by
  unfold writeActl
  extract_lets +onlyGivenNames v1
  clear_value v1
  extract_lets +onlyGivenNames v2
  clear_value v2
  extract_lets +onlyGivenNames v3
  clear_value v3
  extract_lets +onlyGivenNames v4
  clear_value v4
  extract_lets +onlyGivenNames v5
  have k5 : Keeps z (v5) := by
    dsimp only [v5]
    with_reducible exact State_setFn_keeps (by assumption)
  clear_value v5
  with_reducible refine Keeps.iteK ?_ ?_
  · with_reducible exact commitAdmq_keeps (by assumption)
  · with_reducible assumption

theorem execSetContext_keeps {z : State} {x1 x2 s} (h3 : Keeps z (s)) : outcomeAll (Keeps z) (execSetContext x1 x2 s) := by
  unfold execSetContext
  extract_lets +onlyGivenNames v1
  clear_value v1
  with_reducible refine outcomeAll_next ?_
  with_reducible apply admin_keeps
  · intro _ _
    intro _
    with_reducible exact adminDone_keeps (dropContext_keeps (setCtx_keeps (by assumption)))
  · with_reducible assumption

theorem execAdminQueueCommit_keeps {z : State} {x1 x2 s} (h3 : Keeps z (s)) : outcomeAll (Keeps z) (execAdminQueueCommit x1 x2 s) := by
  unfold execAdminQueueCommit
  with_reducible refine outcomeAll_next ?_
  with_reducible apply hostWrite_keeps
  · intro _ _
    with_reducible exact writeActl_keeps (by assumption)
  · with_reducible assumption

theorem execCqWriteRetry_keeps {z : State} {x1 x2 s} (h3 : Keeps z (s)) : outcomeAll (Keeps z) (execCqWriteRetry x1 x2 s) := by
  unfold execCqWriteRetry
  split
  · with_reducible exact outcomeAll_next (by assumption)
  · split
    · with_reducible exact outcomeAll_next (by assumption)
    · with_reducible refine outcomeAll_ite ?_ ?_
      · with_reducible exact outcomeAll_next (by assumption)
      · with_reducible refine outcomeAll_ite ?_ ?_
        · with_reducible exact outcomeAll_next (disableCq_keeps (by assumption))
        · split
          · with_reducible refine outcomeAll_next ?_
            with_reducible refine HostXl.waitK (by assumption) ?_
            with_reducible exact hostXl_keeps (by assumption)
          · with_reducible refine outcomeAll_next ?_
            with_reducible apply disableCq_keeps
            with_reducible refine HostXl.failK (by assumption) ?_
            with_reducible exact hostXl_keeps (by assumption)
          · with_reducible exact outcomeAll_next (putEntry_keeps (by assumption))

theorem execModerationTimer_keeps {z : State} {x1 s} (h2 : Keeps z (s)) : outcomeAll (Keeps z) (execModerationTimer x1 s) := by
  unfold execModerationTimer
  split
  · with_reducible refine outcomeAll_ite ?_ ?_
    · with_reducible exact outcomeAll_next (sendModerated_keeps (by assumption))
    · with_reducible exact outcomeAll_next (by assumption)
  · with_reducible exact outcomeAll_next (by assumption)

theorem writeAdmq_keeps {z : State} {x1 x2 x3 s} (h4 : Keeps z (s)) : Keeps z (writeAdmq x1 x2 x3 s) := by
  unfold writeAdmq
  extract_lets +onlyGivenNames v1
  clear_value v1
  extract_lets +onlyGivenNames v2
  clear_value v2
  extract_lets +onlyGivenNames v3
  have k3 : ∀ y1, Keeps z (v3 y1) := by
    intro _
    dsimp only [v3]
    with_reducible exact State_setFn_keeps (by assumption)
  clear_value v3
  split
  · with_reducible apply k3
  · with_reducible apply k3
  · with_reducible apply k3
  · with_reducible apply k3
  · with_reducible apply k3
  · with_reducible apply k3
  · with_reducible exact writeActl_keeps (by assumption)
  · with_reducible apply k3
  · with_reducible exact writeCqmod_keeps (by assumption)
  · with_reducible assumption

/-! ### Services -/

theorem readRec_keeps {z : State} {x1 x2 x3 s} (h4 : Keeps z (s)) : Res.all (Keeps z) (readRec x1 x2 x3 s) := by
  unfold readRec
  with_reducible exact readMem_keeps (by assumption)

theorem groupBelow_keeps {z : State} {x1 x2 x3 x4 x5 s} (h6 : Keeps z (s)) : Res.all (Keeps z) (groupBelow x1 x2 x3 x4 x5 s) := by
  induction x4 generalizing x1 x2 x3 x5 s
  · unfold groupBelow
    with_reducible exact Res.okI (by assumption)
  · rename_i n ih
    unfold groupBelow
    with_reducible refine Res.bindK ?_ ?_
    · with_reducible exact readRec_keeps (by assumption)
    · intro _ _
      intro _
      with_reducible refine Res.iteK ?_ ?_
      · with_reducible apply ih
        with_reducible assumption
      · with_reducible exact Res.okI (by assumption)

theorem groupFrom_keeps {z : State} {x1 x2 x3 x4 x5 s} (h6 : Keeps z (s)) : Res.all (Keeps z) (groupFrom x1 x2 x3 x4 x5 s) := by
  induction x5 generalizing x1 x2 x3 x4 s
  · unfold groupFrom
    with_reducible exact Res.okI (by assumption)
  · rename_i n ih
    unfold groupFrom
    with_reducible refine Res.bindK ?_ ?_
    · with_reducible exact readRec_keeps (by assumption)
    · intro _ _
      intro _
      with_reducible refine Res.iteK ?_ ?_
      · with_reducible refine Res.bindK ?_ ?_
        · with_reducible apply ih
          with_reducible assumption
        · intro _ _
          intro _
          with_reducible exact Res.okI (by assumption)
      · with_reducible exact Res.okI (by assumption)

theorem pairedIn_keeps {z : State} {x1 x2 x3 x4 x5 x6 s} (h7 : Keeps z (s)) : Res.all (Keeps z) (pairedIn x1 x2 x3 x4 x5 x6 s) := by
  unfold pairedIn
  with_reducible refine Res.bindK ?_ ?_
  · with_reducible exact groupBelow_keeps (by assumption)
  · intro _ _
    intro _
    with_reducible refine Res.bindK ?_ ?_
    · with_reducible exact groupBelow_keeps (by assumption)
    · intro _ _
      intro _
      with_reducible refine Res.bindK ?_ ?_
      · with_reducible exact groupFrom_keeps (by assumption)
      · intro _ _
        intro _
        with_reducible exact Res.okI (by assumption)

theorem feedSeal_keeps {z : State} {x1 x2 x3 s} (h4 : Keeps z (s)) : Keeps z (feedSeal x1 x2 x3 s) := by
  unfold feedSeal
  with_reducible refine Keeps.iteK ?_ ?_
  · with_reducible assumption
  · extract_lets +onlyGivenNames v1
    clear_value v1
    with_reducible exact State_setCore_keeps (by assumption)

theorem feedA_keeps {z : State} {x1 x2 s} (h3 : Keeps z (s)) : Keeps z (feedA x1 x2 s) := by
  unfold feedA
  with_reducible exact feedSeal_keeps (by assumption)

theorem recPlaces_keeps {z : State} {x1 x2 x3 s} (h4 : Keeps z (s)) : Res.all (Keeps z) (recPlaces x1 x2 x3 s) := by
  unfold recPlaces
  with_reducible exact xlate_keeps (by assumption)

theorem putRec_keeps {z : State} {x1 x2 x3 s} (h4 : Keeps z (s)) : Keeps z (putRec x1 x2 x3 s) := by
  unfold putRec
  with_reducible exact writePlaces_keeps (by assumption)

theorem feedB_keeps {z : State} {x1 x2 s} (h3 : Keeps z (s)) : Keeps z (feedB x1 x2 s) := by
  unfold feedB
  with_reducible exact feedSeal_keeps (by assumption)

theorem reconcileA_keeps {z : State} {x1 x2 s} (h3 : Keeps z (s)) : Res.all (Keeps z) (reconcileA x1 x2 s) := by
  unfold reconcileA
  extract_lets +onlyGivenNames v1
  clear_value v1
  extract_lets +onlyGivenNames v2
  clear_value v2
  extract_lets +onlyGivenNames v3
  clear_value v3
  extract_lets +onlyGivenNames v4
  clear_value v4
  extract_lets +onlyGivenNames v5
  clear_value v5
  extract_lets +onlyGivenNames v6
  clear_value v6
  with_reducible refine Res.bindK ?_ ?_
  · with_reducible exact pairedIn_keeps (by assumption)
  · intro _ _
    intro _
    extract_lets +onlyGivenNames v7
    clear_value v7
    with_reducible refine Res.iteK ?_ ?_
    · with_reducible exact Res.okI (feedA_keeps (by assumption))
    · with_reducible refine Res.bindK ?_ ?_
      · with_reducible exact recPlaces_keeps (by assumption)
      · intro _ _
        intro _
        extract_lets +onlyGivenNames v8
        have k8 : Keeps z (v8) := by
          dsimp only [v8]
          with_reducible exact putRec_keeps (by assumption)
        clear_value v8
        with_reducible exact Res.okI (feedB_keeps (feedA_keeps (by assumption)))

theorem logRefused_keeps {z : State} {s} (h1 : Keeps z (s)) : Keeps z (logRefused s) := by
  unfold logRefused
  with_reducible exact logErr_keeps (by assumption)

theorem writeUnit_keeps {z : State} {x1 x2 x3 s} (h4 : Keeps z (s)) : Keeps z (writeUnit x1 x2 x3 s) := by
  unfold writeUnit
  split
  · with_reducible assumption
  · with_reducible refine Keeps.iteK ?_ ?_
    · with_reducible exact finishJob_keeps (logRefused_keeps (by assumption))
    · extract_lets +onlyGivenNames v1
      clear_value v1
      extract_lets +onlyGivenNames v2
      extract_lets +onlyGivenNames v3
      have k3 : Keeps z (v3) := by
        dsimp only [v3]
        with_reducible exact Keeps.upd (by assumption) rfl rfl rfl rfl
      clear_value v3
      with_reducible exact State_setJob_keeps (by assumption)

theorem completeRun_keeps {z : State} {x1 s} (h2 : Keeps z (s)) : Keeps z (completeRun x1 s) := by
  unfold completeRun
  split
  · with_reducible assumption
  · extract_lets +onlyGivenNames v1
    clear_value v1
    extract_lets +onlyGivenNames v2
    have k2 : Keeps z (v2) := by
      dsimp only [v2]
      with_reducible refine Keeps.iteK ?_ ?_
      · with_reducible exact writeUnit_keeps (by assumption)
      · with_reducible assumption
    clear_value v2
    split
    · with_reducible refine Keeps.iteK ?_ ?_
      · with_reducible assumption
      · with_reducible exact finishJob_keeps (by assumption)
    · with_reducible assumption

theorem turnOf_keeps {z : State} {x1 x2 p3} (h3 : Res.all (Keeps z) (p3)) : Turn.all (Keeps z) (turnOf x1 x2 p3) := by
  unfold turnOf
  split
  · with_reducible exact Turn.goI (Res.okE (by assumption))
  · with_reducible exact Turn.stallI (Res.stallE (by assumption))
  · with_reducible exact Turn.failI (State_drawn_keeps (Res.trapE (by assumption)))

theorem readRun_keeps {z : State} {x1 x2 x3 x4 s} (h5 : Keeps z (s)) : Res.all (Keeps z) (readRun x1 x2 x3 x4 s) := by
  induction x4 generalizing x1 x2 x3 s
  · unfold readRun
    with_reducible exact Res.okI (by assumption)
  · rename_i n ih
    unfold readRun
    with_reducible refine Res.bindK ?_ ?_
    · with_reducible exact readRec_keeps (by assumption)
    · intro _ _
      intro _
      with_reducible refine Res.bindK ?_ ?_
      · with_reducible apply ih
        with_reducible assumption
      · intro _ _
        intro _
        with_reducible exact Res.okI (by assumption)

theorem runPlaces_keeps {z : State} {x1 x2 x3 x4 s} (h5 : Keeps z (s)) : Res.all (Keeps z) (runPlaces x1 x2 x3 x4 s) := by
  induction x4 generalizing x1 x2 x3 s
  · unfold runPlaces
    with_reducible exact Res.okI (by assumption)
  · rename_i n ih
    unfold runPlaces
    with_reducible refine Res.bindK ?_ ?_
    · with_reducible exact recPlaces_keeps (by assumption)
    · intro _ _
      intro _
      with_reducible refine Res.bindK ?_ ?_
      · with_reducible apply ih
        with_reducible assumption
      · intro _ _
        intro _
        with_reducible exact Res.okI (by assumption)

theorem sortTurn_keeps {z : State} {x1 s} (h2 : Keeps z (s)) : Turn.all (Keeps z) (sortTurn x1 s) := by
  unfold sortTurn
  extract_lets +onlyGivenNames v1
  clear_value v1
  extract_lets +onlyGivenNames v2
  clear_value v2
  extract_lets +onlyGivenNames v3
  clear_value v3
  extract_lets +onlyGivenNames v4
  clear_value v4
  extract_lets +onlyGivenNames v5
  clear_value v5
  extract_lets +onlyGivenNames v6
  clear_value v6
  extract_lets +onlyGivenNames v7
  clear_value v7
  extract_lets +onlyGivenNames v8
  clear_value v8
  extract_lets +onlyGivenNames v9
  clear_value v9
  with_reducible apply turnOf_keeps
  with_reducible refine Res.bindK ?_ ?_
  · with_reducible exact readRun_keeps (by assumption)
  · intro _ _
    intro _
    extract_lets +onlyGivenNames v10
    clear_value v10
    with_reducible refine Res.bindK ?_ ?_
    · with_reducible exact runPlaces_keeps (by assumption)
    · intro _ _
      intro _
      extract_lets +onlyGivenNames v11
      have k11 : Keeps z (v11) := by
        dsimp only [v11]
        with_reducible refine Keeps.foldl ?_ _ ?_
        · intro _ _
          intro _
          with_reducible exact putRec_keeps (by assumption)
        · with_reducible assumption
      clear_value v11
      extract_lets +onlyGivenNames v12
      clear_value v12
      extract_lets +onlyGivenNames v13
      have k13 : Keeps z (v13) := by
        dsimp only [v13]
        with_reducible refine Keeps.iteK ?_ ?_
        · with_reducible exact feedA_keeps (by assumption)
        · with_reducible refine Keeps.iteK ?_ ?_
          · with_reducible exact feedA_keeps (by assumption)
          · with_reducible assumption
      clear_value v13
      extract_lets +onlyGivenNames v14
      clear_value v14
      extract_lets +onlyGivenNames v15
      clear_value v15
      with_reducible refine Res.iteK ?_ ?_
      · with_reducible exact Res.okI (by assumption)
      · with_reducible exact Res.okI (by assumption)

theorem keyOrder_keeps {z : State} {α : Type} {x1 : Nat} {s : State} (h2 : Keeps z (s)) : Res.all (Keeps z) (@keyOrder α x1 s) := by
  unfold keyOrder
  with_reducible exact Res.trapI (by assumption)

theorem takeTrans_keeps {z : State} {x1 x2 x3 x4 x5 x6 s} (h7 : Keeps z (s)) : Res.all (Keeps z) (takeTrans x1 x2 x3 x4 x5 x6 s) := by
  induction x5 generalizing x1 x2 x3 x4 x6 s
  · unfold takeTrans
    with_reducible exact Res.okI (by assumption)
  · rename_i n ih
    unfold takeTrans
    with_reducible refine Res.bindK ?_ ?_
    · with_reducible exact readRec_keeps (by assumption)
    · intro _ _
      intro _
      extract_lets +onlyGivenNames v1
      clear_value v1
      with_reducible refine Res.iteK ?_ ?_
      · with_reducible exact keyOrder_keeps (by assumption)
      · with_reducible refine Res.iteK ?_ ?_
        · with_reducible exact Res.okI (by assumption)
        · with_reducible refine Res.bindK ?_ ?_
          · with_reducible apply ih
            with_reducible assumption
          · intro _ _
            intro _
            with_reducible refine Res.iteK ?_ ?_
            · with_reducible exact Res.okI (by assumption)
            · with_reducible exact Res.okI (by assumption)

theorem excepts_keeps {z : State} {x1 x2 x3 x4 s} (h5 : Keeps z (s)) : Res.all (Keeps z) (excepts x1 x2 x3 x4 s) := by
  induction x4 generalizing x1 x2 x3 s
  · unfold excepts
    with_reducible exact Res.okI (by assumption)
  · rename_i e l ih
    unfold excepts
    with_reducible refine Res.bindK ?_ ?_
    · with_reducible exact recPlaces_keeps (by assumption)
    · intro _ _
      intro _
      with_reducible refine Res.bindK ?_ ?_
      · with_reducible apply ih
        with_reducible assumption
      · intro _ _
        intro _
        with_reducible exact Res.okI (by assumption)

theorem putExcepts_keeps {z : State} {x1 x2 x3 x4 s} (h5 : Keeps z (s)) : Keeps z (putExcepts x1 x2 x3 x4 s) := by
  unfold putExcepts
  with_reducible refine Keeps.foldl ?_ _ ?_
  · intro _ _
    intro _
    with_reducible exact feedB_keeps (feedA_keeps (putRec_keeps (by assumption)))
  · with_reducible assumption

theorem postTurn_keeps {z : State} {x1 s} (h2 : Keeps z (s)) : Turn.all (Keeps z) (postTurn x1 s) := by
  unfold postTurn
  extract_lets +onlyGivenNames v1
  clear_value v1
  extract_lets +onlyGivenNames v2
  clear_value v2
  extract_lets +onlyGivenNames v3
  clear_value v3
  extract_lets +onlyGivenNames v4
  clear_value v4
  extract_lets +onlyGivenNames v5
  clear_value v5
  extract_lets +onlyGivenNames v6
  clear_value v6
  extract_lets +onlyGivenNames v7
  clear_value v7
  with_reducible refine Turn.iteK ?_ ?_
  · with_reducible apply turnOf_keeps
    with_reducible refine Res.bindK ?_ ?_
    · with_reducible exact readRec_keeps (by assumption)
    · intro _ _
      intro _
      extract_lets +onlyGivenNames v8
      clear_value v8
      with_reducible refine Res.iteK ?_ ?_
      · with_reducible exact keyOrder_keeps (by assumption)
      · with_reducible refine Res.bindK ?_ ?_
        · with_reducible exact takeTrans_keeps (by assumption)
        · intro _ _
          intro _
          extract_lets +onlyGivenNames v9
          clear_value v9
          with_reducible refine Res.bindK ?_ ?_
          · with_reducible exact excepts_keeps (by assumption)
          · intro _ _
            intro _
            with_reducible refine Res.bindK ?_ ?_
            · with_reducible exact recPlaces_keeps (by assumption)
            · intro _ _
              intro _
              split
              · with_reducible exact Res.trapI (by assumption)
              · extract_lets +onlyGivenNames v10
                have k10 : Keeps z (v10) := by
                  dsimp only [v10]
                  with_reducible exact feedA_keeps (putExcepts_keeps (putRec_keeps (by assumption)))
                clear_value v10
                extract_lets +onlyGivenNames v11
                clear_value v11
                extract_lets +onlyGivenNames v12
                clear_value v12
                with_reducible exact Res.okI (by assumption)
  · with_reducible apply turnOf_keeps
    with_reducible refine Res.bindK ?_ ?_
    · with_reducible exact takeTrans_keeps (by assumption)
    · intro _ _
      intro _
      with_reducible refine Res.bindK ?_ ?_
      · with_reducible exact excepts_keeps (by assumption)
      · intro _ _
        intro _
        extract_lets +onlyGivenNames v13
        have k13 : Keeps z (v13) := by
          dsimp only [v13]
          with_reducible exact putExcepts_keeps (by assumption)
        clear_value v13
        with_reducible exact Res.okI (by assumption)

theorem accrueTurn_keeps {z : State} {x1 s} (h2 : Keeps z (s)) : Turn.all (Keeps z) (accrueTurn x1 s) := by
  unfold accrueTurn
  extract_lets +onlyGivenNames v1
  clear_value v1
  extract_lets +onlyGivenNames v2
  clear_value v2
  extract_lets +onlyGivenNames v3
  clear_value v3
  extract_lets +onlyGivenNames v4
  clear_value v4
  extract_lets +onlyGivenNames v5
  clear_value v5
  with_reducible apply turnOf_keeps
  with_reducible refine Res.bindK ?_ ?_
  · with_reducible exact readRec_keeps (by assumption)
  · intro _ _
    intro _
    extract_lets +onlyGivenNames v6
    clear_value v6
    extract_lets +onlyGivenNames v7
    clear_value v7
    extract_lets +onlyGivenNames v8
    clear_value v8
    extract_lets +onlyGivenNames v9
    clear_value v9
    with_reducible refine Res.bindK ?_ ?_
    · with_reducible exact recPlaces_keeps (by assumption)
    · intro _ _
      intro _
      with_reducible refine Res.bindK ?_ ?_
      · with_reducible refine Res.iteK ?_ ?_
        · with_reducible exact recPlaces_keeps (by assumption)
        · with_reducible exact Res.okI (by assumption)
      · intro _ _
        intro _
        split
        · with_reducible exact Res.trapI (by assumption)
        · with_reducible refine Res.iteK ?_ ?_
          · with_reducible exact Res.trapI (by assumption)
          · extract_lets +onlyGivenNames v10
            have k10 : Keeps z (v10) := by
              dsimp only [v10]
              with_reducible exact State_drawn_keeps (putRec_keeps (by assumption))
            clear_value v10
            extract_lets +onlyGivenNames v11
            have k11 : Keeps z (v11) := by
              dsimp only [v11]
              with_reducible refine Keeps.iteK ?_ ?_
              · with_reducible exact putRec_keeps (by assumption)
              · with_reducible assumption
            clear_value v11
            extract_lets +onlyGivenNames v12
            have k12 : Keeps z (v12) := by
              dsimp only [v12]
              with_reducible exact feedA_keeps (by assumption)
            clear_value v12
            extract_lets +onlyGivenNames v13
            have k13 : Keeps z (v13) := by
              dsimp only [v13]
              with_reducible refine Keeps.iteK ?_ ?_
              · with_reducible exact feedB_keeps (by assumption)
              · with_reducible assumption
            clear_value v13
            extract_lets +onlyGivenNames v14
            clear_value v14
            with_reducible exact Res.okI (by assumption)

theorem reconcileB_keeps {z : State} {x1 s} (h2 : Keeps z (s)) : Res.all (Keeps z) (reconcileB x1 s) := by
  unfold reconcileB
  extract_lets +onlyGivenNames v1
  clear_value v1
  extract_lets +onlyGivenNames v2
  clear_value v2
  extract_lets +onlyGivenNames v3
  clear_value v3
  extract_lets +onlyGivenNames v4
  clear_value v4
  with_reducible refine Res.bindK ?_ ?_
  · with_reducible exact readRec_keeps (by assumption)
  · intro _ _
    intro _
    extract_lets +onlyGivenNames v5
    clear_value v5
    extract_lets +onlyGivenNames v6
    clear_value v6
    with_reducible refine Res.iteK ?_ ?_
    · with_reducible exact keyOrder_keeps (by assumption)
    · with_reducible refine Res.bindK ?_ ?_
      · with_reducible exact pairedIn_keeps (by assumption)
      · intro _ _
        intro _
        extract_lets +onlyGivenNames v7
        clear_value v7
        with_reducible refine Res.iteK ?_ ?_
        · with_reducible exact Res.okI (feedA_keeps (by assumption))
        · with_reducible refine Res.bindK ?_ ?_
          · with_reducible exact recPlaces_keeps (by assumption)
          · intro _ _
            intro _
            extract_lets +onlyGivenNames v8
            have k8 : Keeps z (v8) := by
              dsimp only [v8]
              with_reducible exact putRec_keeps (by assumption)
            clear_value v8
            with_reducible exact Res.okI (feedB_keeps (feedA_keeps (by assumption)))

theorem reconcileTurn_keeps {z : State} {x1 s} (h2 : Keeps z (s)) : Turn.all (Keeps z) (reconcileTurn x1 s) := by
  unfold reconcileTurn
  extract_lets +onlyGivenNames v1
  clear_value v1
  extract_lets +onlyGivenNames v2
  clear_value v2
  extract_lets +onlyGivenNames v3
  clear_value v3
  with_reducible refine Turn.iteK ?_ ?_
  · with_reducible apply turnOf_keeps
    with_reducible refine Res.bindK ?_ ?_
    · with_reducible exact readRec_keeps (by assumption)
    · intro _ _
      intro _
      extract_lets +onlyGivenNames v4
      clear_value v4
      with_reducible refine Res.iteK ?_ ?_
      · with_reducible exact keyOrder_keeps (by assumption)
      · with_reducible refine Res.iteK ?_ ?_
        · with_reducible refine Res.bindK ?_ ?_
          · with_reducible exact readRec_keeps (by assumption)
          · intro _ _
            intro _
            with_reducible refine Res.iteK ?_ ?_
            · with_reducible exact reconcileB_keeps (by assumption)
            · with_reducible exact reconcileA_keeps (by assumption)
        · with_reducible exact reconcileA_keeps (by assumption)
  · with_reducible exact turnOf_keeps (reconcileB_keeps (by assumption))

theorem hostPages_keeps {z : State} {x1 x2 x3 x4 x5 x6 x7 x8 s} (h9 : Keeps z (s)) : Res.all (Keeps z) (hostPages x1 x2 x3 x4 x5 x6 x7 x8 s) := by
  induction x8 generalizing x1 x2 x3 x4 x5 x6 x7 s
  · unfold hostPages
    with_reducible exact Res.okI (by assumption)
  · rename_i n ih
    unfold hostPages
    split
    · with_reducible refine Res.stallI ?_
      with_reducible refine HostXl.waitK (by assumption) ?_
      with_reducible exact hostXl_keeps (by assumption)
    · with_reducible refine Res.trapI ?_
      with_reducible refine HostXl.failK (by assumption) ?_
      with_reducible exact hostXl_keeps (by assumption)
    · with_reducible refine Res.bindK ?_ ?_
      · with_reducible apply ih
        with_reducible assumption
      · intro _ _
        intro _
        with_reducible exact Res.okI (by assumption)

theorem convertRec_keeps {z : State} {x1 x2 s} (h3 : Keeps z (s)) : Pair.all (Keeps z) (convertRec x1 x2 s) := by
  unfold convertRec
  extract_lets +onlyGivenNames v1
  clear_value v1
  extract_lets +onlyGivenNames v2
  clear_value v2
  extract_lets +onlyGivenNames v3
  clear_value v3
  extract_lets +onlyGivenNames v4
  clear_value v4
  extract_lets +onlyGivenNames v5
  clear_value v5
  extract_lets +onlyGivenNames v6
  clear_value v6
  extract_lets +onlyGivenNames v7
  clear_value v7
  extract_lets +onlyGivenNames v8
  clear_value v8
  extract_lets +onlyGivenNames v9
  clear_value v9
  extract_lets +onlyGivenNames v10
  clear_value v10
  extract_lets +onlyGivenNames v11
  clear_value v11
  split
  · with_reducible refine Pair.mkI ?_
    with_reducible refine Res.stallK (by assumption) ?_
    with_reducible exact hostPages_keeps (by assumption)
  · with_reducible refine Pair.mkI ?_
    with_reducible refine Res.trapK (by assumption) ?_
    with_reducible exact hostPages_keeps (by assumption)
  · split
    · with_reducible refine Pair.mkI ?_
      with_reducible refine Res.stallK (by assumption) ?_
      with_reducible apply xlate_keeps
      with_reducible refine Res.okK (by assumption) ?_
      with_reducible exact hostPages_keeps (by assumption)
    · with_reducible refine Pair.mkI ?_
      with_reducible refine Res.trapK (by assumption) ?_
      with_reducible apply xlate_keeps
      with_reducible refine Res.okK (by assumption) ?_
      with_reducible exact hostPages_keeps (by assumption)
    · with_reducible refine Pair.iteK ?_ ?_
      · split
        · with_reducible refine Pair.mkI ?_
          with_reducible refine Res.stallK (by assumption) ?_
          with_reducible apply readPlaces_keeps
          with_reducible refine Res.okK (by assumption) ?_
          with_reducible apply xlate_keeps
          with_reducible refine Res.okK (by assumption) ?_
          with_reducible exact hostPages_keeps (by assumption)
        · with_reducible refine Pair.mkI ?_
          with_reducible refine Res.trapK (by assumption) ?_
          with_reducible apply readPlaces_keeps
          with_reducible refine Res.okK (by assumption) ?_
          with_reducible apply xlate_keeps
          with_reducible refine Res.okK (by assumption) ?_
          with_reducible exact hostPages_keeps (by assumption)
        · split
          · with_reducible refine Pair.mkI ?_
            with_reducible refine Res.okK (by assumption) ?_
            with_reducible apply readPlaces_keeps
            with_reducible refine Res.okK (by assumption) ?_
            with_reducible apply xlate_keeps
            with_reducible refine Res.okK (by assumption) ?_
            with_reducible exact hostPages_keeps (by assumption)
          · extract_lets +onlyGivenNames v12
            clear_value v12
            extract_lets +onlyGivenNames v13
            have k13 : Keeps z (v13) := by
              dsimp only [v13]
              with_reducible apply relaxed_keeps
              with_reducible refine Keeps.foldl ?_ _ ?_
              · intro _ _
                intro _
                with_reducible exact putHost_keeps (by assumption)
              · with_reducible refine Res.okK (by assumption) ?_
                with_reducible apply readPlaces_keeps
                with_reducible refine Res.okK (by assumption) ?_
                with_reducible apply xlate_keeps
                with_reducible refine Res.okK (by assumption) ?_
                with_reducible exact hostPages_keeps (by assumption)
            clear_value v13
            with_reducible refine Pair.mkI ?_
            split
            · with_reducible exact feedA_keeps (by assumption)
            · with_reducible assumption
      · split
        · with_reducible refine Pair.mkI ?_
          with_reducible refine Keeps.upd ?_ rfl rfl rfl rfl
          with_reducible refine Res.okK (by assumption) ?_
          with_reducible apply xlate_keeps
          with_reducible refine Res.okK (by assumption) ?_
          with_reducible exact hostPages_keeps (by assumption)
        · split
          · with_reducible refine Pair.mkI ?_
            with_reducible refine Res.okK (by assumption) ?_
            with_reducible apply xlate_keeps
            with_reducible refine Res.okK (by assumption) ?_
            with_reducible exact hostPages_keeps (by assumption)
          · extract_lets +onlyGivenNames v14
            clear_value v14
            extract_lets +onlyGivenNames v15
            have k15 : Keeps z (v15) := by
              dsimp only [v15]
              with_reducible apply writePlaces_keeps
              with_reducible refine Res.okK (by assumption) ?_
              with_reducible apply xlate_keeps
              with_reducible refine Res.okK (by assumption) ?_
              with_reducible exact hostPages_keeps (by assumption)
            clear_value v15
            with_reducible refine Pair.mkI ?_
            split
            · with_reducible exact feedA_keeps (by assumption)
            · with_reducible assumption

theorem convertBeyond_keeps {z : State} {x1 x2 x3 x4 s} (h5 : Keeps z (s)) : Keeps z (convertBeyond x1 x2 x3 x4 s) := by
  induction x4 generalizing x1 x2 x3 s
  · unfold convertBeyond
    with_reducible assumption
  · rename_i n ih
    unfold convertBeyond
    extract_lets +onlyGivenNames v1
    have k1 : Keeps z (v1) := by
      dsimp only [v1]
      with_reducible refine Keeps.iteK ?_ ?_
      · with_reducible exact Pair.sndI (convertRec_keeps (by assumption))
      · with_reducible assumption
    clear_value v1
    with_reducible apply ih
    with_reducible assumption

theorem convertTurn_keeps {z : State} {x1 s} (h2 : Keeps z (s)) : Turn.all (Keeps z) (convertTurn x1 s) := by
  unfold convertTurn
  extract_lets +onlyGivenNames v1
  clear_value v1
  split
  · extract_lets +onlyGivenNames v2
    clear_value v2
    with_reducible refine Turn.goI ?_
    with_reducible refine Pair.sndK (by assumption) ?_
    with_reducible exact convertRec_keeps (by assumption)
  · with_reducible refine Turn.stallI ?_
    with_reducible refine Pair.sndK (by assumption) ?_
    with_reducible exact convertRec_keeps (by assumption)
  · with_reducible refine Turn.failI ?_
    with_reducible apply State_drawn_keeps
    with_reducible apply convertBeyond_keeps
    with_reducible refine Pair.sndK (by assumption) ?_
    with_reducible exact convertRec_keeps (by assumption)

theorem zeroTurn_keeps {z : State} {x1 s} (h2 : Keeps z (s)) : Turn.all (Keeps z) (zeroTurn x1 s) := by
  unfold zeroTurn
  extract_lets +onlyGivenNames v1
  clear_value v1
  extract_lets +onlyGivenNames v2
  clear_value v2
  split
  · with_reducible exact Turn.goI (by assumption)
  · with_reducible refine Turn.iteK ?_ ?_
    · split
      · with_reducible refine Turn.stallI ?_
        with_reducible refine Res.stallK (by assumption) ?_
        with_reducible exact xlate_keeps (by assumption)
      · with_reducible refine Turn.failI ?_
        with_reducible apply State_drawn_keeps
        with_reducible refine Res.trapK (by assumption) ?_
        with_reducible exact xlate_keeps (by assumption)
      · extract_lets +onlyGivenNames v3
        have k3 : Keeps z (v3) := by
          dsimp only [v3]
          split
          · with_reducible refine Keeps.iteK ?_ ?_
            · with_reducible apply zeroPage_keeps
              with_reducible refine Res.okK (by assumption) ?_
              with_reducible exact xlate_keeps (by assumption)
            · with_reducible refine Res.okK (by assumption) ?_
              with_reducible exact xlate_keeps (by assumption)
          · with_reducible refine Res.okK (by assumption) ?_
            with_reducible exact xlate_keeps (by assumption)
        clear_value v3
        with_reducible exact Turn.goI (by assumption)
    · extract_lets +onlyGivenNames v4
      clear_value v4
      extract_lets +onlyGivenNames v5
      have k5 : Keeps z (v5) := by
        dsimp only [v5]
        with_reducible refine Keeps.iteK ?_ ?_
        · with_reducible exact zeroTracts_keeps (dropLeaves_keeps (by assumption))
        · with_reducible assumption
      clear_value v5
      with_reducible exact Turn.goI (by assumption)

theorem serviceTurn_keeps {z : State} {x1 s} (h2 : Keeps z (s)) : Turn.all (Keeps z) (serviceTurn x1 s) := by
  unfold serviceTurn
  split
  · with_reducible exact sortTurn_keeps (by assumption)
  · with_reducible exact postTurn_keeps (by assumption)
  · with_reducible exact accrueTurn_keeps (by assumption)
  · with_reducible exact reconcileTurn_keeps (by assumption)
  · with_reducible exact convertTurn_keeps (by assumption)
  · with_reducible exact zeroTurn_keeps (by assumption)

theorem runService_keeps {z : State} {x1 x2 x3 s} (h4 : Keeps z (s)) : Keeps z (runService x1 x2 x3 s) := by
  induction x3 generalizing x1 x2 s
  · unfold runService
    with_reducible assumption
  · rename_i n ih
    unfold runService
    split
    · with_reducible assumption
    · with_reducible refine Keeps.iteK ?_ ?_
      · with_reducible assumption
      · with_reducible refine Keeps.iteK ?_ ?_
        · with_reducible exact completeRun_keeps (by assumption)
        · split
          · with_reducible refine Turn.stallK (by assumption) ?_
            with_reducible exact serviceTurn_keeps (by assumption)
          · with_reducible apply finishJob_keeps
            with_reducible refine Turn.failK (by assumption) ?_
            with_reducible exact serviceTurn_keeps (by assumption)
          · extract_lets +onlyGivenNames v1
            clear_value v1
            extract_lets +onlyGivenNames v2
            have k2 : Keeps z (v2) := by
              dsimp only [v2]
              with_reducible apply State_setJob_keeps
              with_reducible refine Turn.goK (by assumption) ?_
              with_reducible exact serviceTurn_keeps (by assumption)
            clear_value v2
            with_reducible refine Keeps.iteK ?_ ?_
            · with_reducible refine Keeps.iteK ?_ ?_
              · with_reducible exact writeUnit_keeps (by assumption)
              · with_reducible apply ih
                with_reducible exact writeUnit_keeps (by assumption)
            · with_reducible apply ih
              with_reducible assumption

theorem logPort_keeps {z : State} {x1 x2 s} (h3 : Keeps z (s)) : Keeps z (logPort x1 x2 s) := by
  unfold logPort
  extract_lets +onlyGivenNames v1
  clear_value v1
  extract_lets +onlyGivenNames v2
  have k2 : Keeps z (v2) := by
    dsimp only [v2]
    with_reducible exact logErr_keeps (countErr_keeps (by assumption))
  clear_value v2
  with_reducible refine Keeps.iteK ?_ ?_
  · with_reducible exact logErr_keeps (by assumption)
  · with_reducible assumption

theorem poisonRecord_keeps {z : State} {x1 x2 s} (h3 : Keeps z (s)) : Keeps z (poisonRecord x1 x2 s) := by
  unfold poisonRecord
  split
  · with_reducible refine Keeps.iteK ?_ ?_
    · with_reducible apply setPoison_keeps
      with_reducible refine Res.okK (by assumption) ?_
      with_reducible exact xlate_keeps (by assumption)
    · with_reducible refine Res.okK (by assumption) ?_
      with_reducible exact xlate_keeps (by assumption)
  · with_reducible assumption

theorem portLost_keeps {z : State} {x1 x2 s} (h3 : Keeps z (s)) : Keeps z (portLost x1 x2 s) := by
  unfold portLost
  extract_lets +onlyGivenNames v1
  clear_value v1
  split
  · with_reducible refine Keeps.iteK ?_ ?_
    · with_reducible exact finishJob_keeps (by assumption)
    · with_reducible exact poisonRecord_keeps (runService_keeps (by assumption))
  · with_reducible exact runService_keeps (by assumption)
  · with_reducible exact finishJob_keeps (State_drawn_keeps (by assumption))

theorem runWith_keeps {z : State} {x1 x2 x3 s} (h4 : Keeps z (s)) : Keeps z (runWith x1 x2 x3 s) := by
  unfold runWith
  with_reducible refine Keeps.iteK ?_ ?_
  · with_reducible exact runService_keeps (by assumption)
  · extract_lets +onlyGivenNames v1
    have k1 : Keeps z (v1) := by
      dsimp only [v1]
      with_reducible exact logPort_keeps (by assumption)
    clear_value v1
    with_reducible refine Keeps.iteK ?_ ?_
    · with_reducible exact portLost_keeps (by assumption)
    · with_reducible exact runService_keeps (by assumption)

theorem serviceRow_keeps {z : State} {x1 x2 s} (h3 : Keeps z (s)) : Keeps z (serviceRow x1 x2 s) := by
  unfold serviceRow
  split
  · extract_lets +onlyGivenNames v1
    clear_value v1
    with_reducible refine Keeps.iteK ?_ ?_
    · with_reducible exact fetchJob_keeps (by assumption)
    · with_reducible assumption
  · split
    · with_reducible exact runWith_keeps (by assumption)
    · with_reducible assumption

theorem execReconcile_keeps {z : State} {x1 s} (h2 : Keeps z (s)) : outcomeAll (Keeps z) (execReconcile x1 s) := by
  unfold execReconcile
  with_reducible exact outcomeAll_next (serviceRow_keeps (by assumption))

theorem execAccrue_keeps {z : State} {x1 s} (h2 : Keeps z (s)) : outcomeAll (Keeps z) (execAccrue x1 s) := by
  unfold execAccrue
  with_reducible exact outcomeAll_next (serviceRow_keeps (by assumption))

theorem execSort_keeps {z : State} {x1 s} (h2 : Keeps z (s)) : outcomeAll (Keeps z) (execSort x1 s) := by
  unfold execSort
  with_reducible exact outcomeAll_next (serviceRow_keeps (by assumption))

theorem execConvert_keeps {z : State} {x1 s} (h2 : Keeps z (s)) : outcomeAll (Keeps z) (execConvert x1 s) := by
  unfold execConvert
  with_reducible exact outcomeAll_next (serviceRow_keeps (by assumption))

theorem execCommitPoint_keeps {z : State} {x1 s} (h2 : Keeps z (s)) : outcomeAll (Keeps z) (execCommitPoint x1 s) := by
  unfold execCommitPoint
  split
  · with_reducible refine outcomeAll_ite ?_ ?_
    · with_reducible exact outcomeAll_next (runService_keeps (by assumption))
    · with_reducible exact outcomeAll_next (by assumption)
  · with_reducible exact outcomeAll_next (by assumption)

theorem execPost_keeps {z : State} {x1 s} (h2 : Keeps z (s)) : outcomeAll (Keeps z) (execPost x1 s) := by
  unfold execPost
  with_reducible exact outcomeAll_next (serviceRow_keeps (by assumption))

theorem execZero_keeps {z : State} {x1 s} (h2 : Keeps z (s)) : outcomeAll (Keeps z) (execZero x1 s) := by
  unfold execZero
  with_reducible exact outcomeAll_next (serviceRow_keeps (by assumption))

/-! ### JobStart -/

theorem jobBytes_keeps {z : State} {x1 x2 x3 x4 x5 s} (h6 : Keeps z (s)) : Ready.all (Keeps z) (jobBytes x1 x2 x3 x4 x5 s) := by
  unfold jobBytes
  with_reducible refine Ready.iteK ?_ ?_
  · with_reducible exact Ready.okI (by assumption)
  · split
    · with_reducible refine Ready.waitI ?_
      with_reducible refine HostXl.waitK (by assumption) ?_
      with_reducible exact hostXl_keeps (by assumption)
    · with_reducible refine Ready.failI ?_
      with_reducible refine HostXl.failK (by assumption) ?_
      with_reducible exact hostXl_keeps (by assumption)
    · split
      · with_reducible refine Ready.failI ?_
        with_reducible refine Pair.sndK (by assumption) ?_
        with_reducible exact takeHostBad_keeps (by assumption)
      · with_reducible refine Ready.okI ?_
        with_reducible refine Pair.sndK (by assumption) ?_
        with_reducible exact takeHostBad_keeps (by assumption)

theorem savePages_keeps {z : State} {x1 x2 x3 x4 x5 s} (h6 : Keeps z (s)) : Ready.all (Keeps z) (savePages x1 x2 x3 x4 x5 s) := by
  induction x5 generalizing x1 x2 x3 x4 s
  · unfold savePages
    with_reducible exact Ready.okI (by assumption)
  · rename_i n ih
    unfold savePages
    with_reducible refine Ready.iteK ?_ ?_
    · with_reducible exact Ready.failI (by assumption)
    · split
      · with_reducible refine Ready.waitI ?_
        with_reducible refine Res.stallK (by assumption) ?_
        with_reducible exact xlate_keeps (by assumption)
      · with_reducible refine Ready.failI ?_
        with_reducible refine Res.trapK (by assumption) ?_
        with_reducible exact xlate_keeps (by assumption)
      · extract_lets +onlyGivenNames v1
        clear_value v1
        with_reducible refine Ready.bindK ?_ ?_
        · with_reducible apply ih
          with_reducible refine Res.okK (by assumption) ?_
          with_reducible exact xlate_keeps (by assumption)
        · intro _ _
          intro _
          with_reducible exact Ready.okI (by assumption)

theorem chooseQueue_fresh_keeps {z : State} {x1 x2 s} (h3 : Keeps z (s)) : Pair.all (Keeps z) (chooseQueue.fresh x1 x2 s) := by
  unfold chooseQueue.fresh
  extract_lets +onlyGivenNames v1
  clear_value v1
  with_reducible refine Pair.iteK ?_ ?_
  · extract_lets +onlyGivenNames v2
    clear_value v2
    extract_lets +onlyGivenNames v3
    have k3 : Keeps z (v3) := by
      dsimp only [v3]
      with_reducible exact Keeps.upd (by assumption) rfl rfl rfl rfl
    clear_value v3
    with_reducible exact Pair.mkI (by assumption)
  · with_reducible exact Pair.mkI (by assumption)

theorem chooseQueue_keeps {z : State} {s} (h1 : Keeps z (s)) : Pair.all (Keeps z) (chooseQueue s) := by
  unfold chooseQueue
  extract_lets +onlyGivenNames v1
  clear_value v1
  extract_lets +onlyGivenNames v2
  clear_value v2
  extract_lets +onlyGivenNames v3
  clear_value v3
  extract_lets +onlyGivenNames v4
  clear_value v4
  split
  · with_reducible refine Pair.iteK ?_ ?_
    · with_reducible exact Pair.mkI (by assumption)
    · with_reducible exact chooseQueue_fresh_keeps (by assumption)
  · with_reducible exact chooseQueue_fresh_keeps (by assumption)

theorem startChain_keeps {z : State} {x1 x2 x3 s} (h4 : Keeps z (s)) : Ready.all (Keeps z) (startChain x1 x2 x3 s) := by
  unfold startChain
  with_reducible refine Ready.bindK ?_ ?_
  · with_reducible exact jobBytes_keeps (by assumption)
  · intro _ _
    intro _
    extract_lets +onlyGivenNames v1
    clear_value v1
    with_reducible refine Ready.iteK ?_ ?_
    · with_reducible exact Ready.failI (by assumption)
    · with_reducible exact Ready.okI (by assumption)

theorem startShare_keeps {z : State} {x1 x2 x3 x4 x5 x6 x7 x8 s} (h9 : Keeps z (s)) : Keeps z (startShare x1 x2 x3 x4 x5 x6 x7 x8 s) := by
  unfold startShare
  extract_lets +onlyGivenNames v1
  clear_value v1
  extract_lets +onlyGivenNames v2
  clear_value v2
  extract_lets +onlyGivenNames v3
  extract_lets +onlyGivenNames v4
  have k4 : Keeps z (v4) := by
    dsimp only [v4]
    with_reducible exact resetSignals_keeps (by assumption)
  clear_value v4
  extract_lets +onlyGivenNames v5
  have k5 : Keeps z (v5) := by
    dsimp only [v5]
    with_reducible exact State_setBent_keeps (by assumption)
  clear_value v5
  with_reducible exact State_setCore_keeps (State_setCore_keeps (by assumption))

theorem takeDescriptor_keeps {z : State} {x1 x2 s} (h3 : Keeps z (s)) : Keeps z (takeDescriptor x1 x2 s) := by
  unfold takeDescriptor
  with_reducible exact unreserve_keeps (State_setSq_keeps (by assumption))

theorem refuseJob_keeps {z : State} {x1 x2 x3 x4 s} (h5 : Keeps z (s)) : Keeps z (refuseJob x1 x2 x3 x4 s) := by
  unfold refuseJob
  with_reducible exact holdEntry_keeps (takeDescriptor_keeps (by assumption))

theorem reserveFor_keeps {z : State} {x1 s} (h2 : Keeps z (s)) : Keeps z (reserveFor x1 s) := by
  unfold reserveFor
  with_reducible exact Keeps.upd (by assumption) rfl rfl rfl rfl

theorem productTable_keeps {z : State} {x1 x2 x3 x4 s} (h5 : Keeps z (s)) : Ready.all (Keeps z) (productTable x1 x2 x3 x4 s) := by
  unfold productTable
  extract_lets +onlyGivenNames v1
  clear_value v1
  split
  · with_reducible refine Ready.waitI ?_
    with_reducible refine Res.stallK (by assumption) ?_
    with_reducible exact readMem_keeps (by assumption)
  · with_reducible refine Ready.failI ?_
    with_reducible refine Res.trapK (by assumption) ?_
    with_reducible exact readMem_keeps (by assumption)
  · with_reducible refine Ready.iteK ?_ ?_
    · with_reducible refine Ready.failI ?_
      with_reducible refine Res.okK (by assumption) ?_
      with_reducible exact readMem_keeps (by assumption)
    · with_reducible refine Ready.okI ?_
      with_reducible refine Res.okK (by assumption) ?_
      with_reducible exact readMem_keeps (by assumption)

theorem startParam_keeps {z : State} {x1 x2 x3 s} (h4 : Keeps z (s)) : Ready.all (Keeps z) (startParam x1 x2 x3 s) := by
  unfold startParam
  extract_lets +onlyGivenNames v1
  clear_value v1
  with_reducible refine Ready.bindK ?_ ?_
  · with_reducible exact jobBytes_keeps (by assumption)
  · intro _ _
    intro _
    with_reducible refine Ready.iteK ?_ ?_
    · with_reducible refine Ready.iteK ?_ ?_
      · with_reducible exact Ready.failI (by assumption)
      · with_reducible exact Ready.okI (by assumption)
    · split
      · with_reducible exact Ready.failI (by assumption)
      · split
        · with_reducible exact Ready.failI (by assumption)
        · with_reducible refine Ready.iteK ?_ ?_
          · with_reducible refine Ready.bindK ?_ ?_
            · with_reducible exact productTable_keeps (by assumption)
            · intro _ _
              intro _
              with_reducible exact Ready.okI (by assumption)
          · with_reducible exact Ready.okI (by assumption)

theorem startShares_keeps {z : State} {x1 x2 x3 x4 x5 x6 x7 x8 s} (h9 : Keeps z (s)) : Keeps z (startShares x1 x2 x3 x4 x5 x6 x7 x8 s) := by
  induction x8 generalizing x1 x2 x3 x4 x5 x6 x7 s
  · unfold startShares
    with_reducible assumption
  · rename_i e l ih
    unfold startShares
    with_reducible apply ih
    with_reducible exact startShare_keeps (by assumption)

theorem startJob_keeps {z : State} {x1 x2 x3 x4 x5 x6 x7 x8 x9 s} (h10 : Keeps z (s)) : Keeps z (startJob x1 x2 x3 x4 x5 x6 x7 x8 x9 s) := by
  unfold startJob
  extract_lets +onlyGivenNames v1
  clear_value v1
  extract_lets +onlyGivenNames v2
  clear_value v2
  extract_lets +onlyGivenNames v3
  clear_value v3
  extract_lets +onlyGivenNames v4
  clear_value v4
  extract_lets +onlyGivenNames v5
  clear_value v5
  extract_lets +onlyGivenNames v6
  clear_value v6
  extract_lets +onlyGivenNames v7
  have k7 : Keeps z (v7) := by
    dsimp only [v7]
    with_reducible exact takeDescriptor_keeps (by assumption)
  clear_value v7
  extract_lets +onlyGivenNames v8
  clear_value v8
  extract_lets +onlyGivenNames v9
  have k9 : Keeps z (v9) := by
    dsimp only [v9]
    with_reducible exact Keeps.upd (by assumption) rfl rfl rfl rfl
  clear_value v9
  extract_lets +onlyGivenNames v10
  clear_value v10
  extract_lets +onlyGivenNames v11
  extract_lets +onlyGivenNames v12
  have k12 : Keeps z (v12) := by
    dsimp only [v12]
    with_reducible refine Keeps.iteK ?_ ?_
    · with_reducible exact Keeps.upd (by assumption) rfl rfl rfl rfl
    · with_reducible assumption
  clear_value v12
  extract_lets +onlyGivenNames v13
  have k13 : Keeps z (v13) := by
    dsimp only [v13]
    with_reducible exact State_setJob_keeps (by assumption)
  clear_value v13
  with_reducible refine Keeps.iteK ?_ ?_
  · with_reducible exact finishJob_keeps (by assumption)
  · extract_lets +onlyGivenNames v14
    have k14 : Keeps z (v14) := by
      dsimp only [v14]
      with_reducible exact startShares_keeps (by assumption)
    clear_value v14
    split
    · with_reducible exact finishJob_keeps (by assumption)
    · with_reducible exact State_setCore_keeps (by assumption)
    · with_reducible assumption

theorem tryStart_keeps {z : State} {x1 x2 x3 s} (h4 : Keeps z (s)) : Keeps z (tryStart x1 x2 x3 s) := by
  unfold tryStart
  split
  · with_reducible exact refuseJob_keeps (by assumption)
  · with_reducible refine Keeps.iteK ?_ ?_
    · with_reducible exact refuseJob_keeps (by assumption)
    · split
      · with_reducible assumption
      · extract_lets +onlyGivenNames v1
        clear_value v1
        extract_lets +onlyGivenNames v2
        clear_value v2
        with_reducible refine Keeps.iteK ?_ ?_
        · with_reducible exact reserveFor_keeps (by assumption)
        · extract_lets +onlyGivenNames v3
          clear_value v3
          extract_lets +onlyGivenNames v4
          have k4 : Ready.all (Keeps z) (v4) := by
            dsimp only [v4]
            with_reducible refine Ready.bindK ?_ ?_
            · with_reducible exact startParam_keeps (by assumption)
            · intro _ _
              intro _
              with_reducible refine Ready.bindK ?_ ?_
              · with_reducible exact startChain_keeps (by assumption)
              · intro _ _
                intro _
                with_reducible refine Ready.iteK ?_ ?_
                · with_reducible exact Ready.okI (by assumption)
                · with_reducible refine Ready.bindK ?_ ?_
                  · with_reducible exact savePages_keeps (by assumption)
                  · intro _ _
                    intro _
                    with_reducible exact Ready.okI (by assumption)
          clear_value v4
          split
          · with_reducible exact reserveFor_keeps (Ready.waitE (by assumption))
          · with_reducible exact refuseJob_keeps (Ready.failE (by assumption))
          · with_reducible refine Keeps.iteK ?_ ?_
            · with_reducible exact startJob_keeps (Ready.okE (by assumption))
            · split
              · with_reducible apply reserveFor_keeps
                with_reducible refine Pair.sndK (by assumption) ?_
                with_reducible exact takeBents_keeps (Ready.okE (by assumption))
              · with_reducible apply startJob_keeps
                with_reducible refine Pair.sndK (by assumption) ?_
                with_reducible exact takeBents_keeps (Ready.okE (by assumption))

theorem execJobStart_keeps {z : State} {s} (h1 : Keeps z (s)) : outcomeAll (Keeps z) (execJobStart s) := by
  unfold execJobStart
  with_reducible refine outcomeAll_ite ?_ ?_
  · with_reducible exact outcomeAll_next (by assumption)
  · split
    · with_reducible refine outcomeAll_next ?_
      with_reducible refine Pair.sndK (by assumption) ?_
      with_reducible exact chooseQueue_keeps (by assumption)
    · with_reducible refine outcomeAll_ite ?_ ?_
      · with_reducible refine outcomeAll_next ?_
        with_reducible refine Pair.sndK (by assumption) ?_
        with_reducible exact chooseQueue_keeps (by assumption)
      · with_reducible refine outcomeAll_next ?_
        with_reducible apply tryStart_keeps
        with_reducible refine Pair.sndK (by assumption) ?_
        with_reducible exact chooseQueue_keeps (by assumption)

end Sys2Proof.Machine
end

