-- ==== Sys2Proof/Laws/KeepsModule.lean ====
section
/-! SUPPORT. Keeps of the host interface, links, power, firmware, management and registers: one lemma a function. -/

namespace Sys2Proof.Machine

/-! ### Pcie -/

theorem enablesReset_keeps {z : State} {s} (h1 : Keeps z (s)) : Keeps z (enablesReset s) := by
  unfold enablesReset
  with_reducible exact Keeps.upd (by assumption) rfl rfl rfl rfl

theorem configReset_keeps {z : State} {s} (h1 : Keeps z (s)) : Keeps z (configReset s) := by
  unfold configReset
  extract_lets +onlyGivenNames v1
  clear_value v1
  extract_lets +onlyGivenNames v2
  have k2 : Keeps z (v2) := by
    dsimp only [v2]
    with_reducible exact enablesReset_keeps (State_setFn_keeps (by assumption))
  clear_value v2
  with_reducible exact Keeps.upd (by assumption) rfl rfl rfl rfl

theorem resetPfBlocks_keeps {z : State} {s} (h1 : Keeps z (s)) : Keeps z (resetPfBlocks s) := by
  unfold resetPfBlocks
  with_reducible exact Keeps.upd (by assumption) rfl rfl rfl rfl

theorem resetFunc_keeps {z : State} {x1 s x3} (h2 : Keeps z (s)) : Keeps z (resetFunc x1 s x3) := by
  unfold resetFunc
  with_reducible exact State_setFn_keeps (by assumption)

theorem dropQueues_keeps {z : State} {x1 x2 s} (h3 : Keeps z (s)) : Keeps z (dropQueues x1 x2 s) := by
  unfold dropQueues
  extract_lets +onlyGivenNames v1
  have k1 : Keeps z (v1) := by
    dsimp only [v1]
    with_reducible exact dropTlb_keeps (by assumption)
  clear_value v1
  extract_lets +onlyGivenNames v2
  clear_value v2
  with_reducible exact Keeps.upd (by assumption) rfl rfl rfl rfl

theorem dropRegions_keeps {z : State} {x1 x2 s} (h3 : Keeps z (s)) : Keeps z (dropRegions x1 x2 s) := by
  unfold dropRegions
  extract_lets +onlyGivenNames v1
  clear_value v1
  extract_lets +onlyGivenNames v2
  clear_value v2
  extract_lets +onlyGivenNames v3
  clear_value v3
  refine Keeps.updM ?_ ?_ ?_ ?_ ?_ ?_
  · with_reducible assumption
  · with_reducible exact id
  · exact fun h => by dsimp only; exact twf_tdrop _ h
  · with_reducible exact id
  · with_reducible exact id
  · with_reducible exact Nat.le_refl _

theorem dropJobs_keeps {z : State} {x1 s} (h2 : Keeps z (s)) : Keeps z (dropJobs x1 s) := by
  unfold dropJobs
  extract_lets +onlyGivenNames v1
  clear_value v1
  extract_lets +onlyGivenNames v2
  have k2 : Keeps z (v2) := by
    dsimp only [v2]
    with_reducible refine Keeps.foldl ?_ _ ?_
    · intro _ _
      intro _
      with_reducible exact State_setJob_keeps (endShares_keeps (by assumption))
    · with_reducible assumption
  clear_value v2
  with_reducible exact Keeps.upd (by assumption) rfl rfl rfl rfl

theorem resetScope_keeps {z : State} {x1 x2 s} (h3 : Keeps z (s)) : Keeps z (resetScope x1 x2 s) := by
  unfold resetScope
  extract_lets +onlyGivenNames v1
  clear_value v1
  with_reducible refine Keeps.foldl ?_ _ ?_
  · intro _ _
    intro _
    with_reducible exact resetFunc_keeps (by assumption)
  · with_reducible exact dropQueues_keeps (dropRegions_keeps (dropJobs_keeps (by assumption)))

theorem pfReset_keeps {z : State} {s} (h1 : Keeps z (s)) : Keeps z (pfReset s) := by
  unfold pfReset
  extract_lets +onlyGivenNames v1
  have k1 : Keeps z (v1) := by
    dsimp only [v1]
    with_reducible exact enablesReset_keeps (resetPfBlocks_keeps (resetScope_keeps (by assumption)))
  clear_value v1
  with_reducible exact Keeps.upd (by assumption) rfl rfl rfl rfl

theorem execHotReset_keeps {z : State} {s} (h1 : Keeps z (s)) : outcomeAll (Keeps z) (execHotReset s) := by
  unfold execHotReset
  with_reducible refine outcomeAll_ite ?_ ?_
  · with_reducible exact outcomeAll_next (configReset_keeps (pfReset_keeps (by assumption)))
  · with_reducible exact outcomeAll_next (by assumption)

theorem execUnsupportedAccess_keeps {z : State} {x1 x2 x3 s} (h4 : Keeps z (s)) : outcomeAll (Keeps z) (execUnsupportedAccess x1 x2 x3 s) := by
  unfold execUnsupportedAccess
  with_reducible refine outcomeAll_ite ?_ ?_
  · with_reducible exact outcomeAll_next (by assumption)
  · with_reducible exact outcomeAll_next (unsupported_keeps (by assumption))

theorem failRead_keeps {z : State} {x1 x2 x3 x4 x5 s} (h6 : Keeps z (s)) : Keeps z (failRead x1 x2 x3 x4 x5 s) := by
  unfold failRead
  extract_lets +onlyGivenNames v1
  have k1 : Keeps z (v1) := by
    dsimp only [v1]
    with_reducible exact countAer_keeps (logErr_keeps (by assumption))
  clear_value v1
  with_reducible exact Keeps.upd (by assumption) rfl rfl rfl rfl

theorem winFault_keeps {z : State} {x1 s} (h2 : Keeps z (s)) : Keeps z (winFault x1 s) := by
  unfold winFault
  with_reducible exact State_setFn_keeps (by assumption)

theorem logApt_keeps {z : State} {x1 x2 x3 x4 x5 s} (h6 : Keeps z (s)) : Keeps z (logApt x1 x2 x3 x4 x5 s) := by
  unfold logApt
  with_reducible exact logErr_keeps (by assumption)

theorem writeGlobal_keeps {z : State} {x1 x2 x3 s} (h4 : Keeps z (s)) : Keeps z (writeGlobal x1 x2 x3 s) := by
  unfold writeGlobal
  with_reducible refine Keeps.iteK ?_ ?_
  · with_reducible exact winFault_keeps (logApt_keeps (by assumption))
  · with_reducible refine Keeps.iteK ?_ ?_
    · with_reducible assumption
    · with_reducible refine Keeps.iteK ?_ ?_
      · with_reducible exact winFault_keeps (logApt_keeps (by assumption))
      · with_reducible exact blkWrite_keeps (by assumption)

theorem latchVector_keeps {z : State} {x1 x2 s} (h3 : Keeps z (s)) : Keeps z (latchVector x1 x2 s) := by
  unfold latchVector
  extract_lets +onlyGivenNames v1
  clear_value v1
  extract_lets +onlyGivenNames v2
  clear_value v2
  with_reducible refine Keeps.iteK ?_ ?_
  · with_reducible assumption
  · extract_lets +onlyGivenNames v3
    have k3 : Keeps z (v3) := by
      dsimp only [v3]
      with_reducible exact State_setFn_keeps (by assumption)
    clear_value v3
    with_reducible refine Keeps.iteK ?_ ?_
    · with_reducible exact sendVec_keeps (by assumption)
    · with_reducible assumption

theorem setMask_keeps {z : State} {x1 x2 x3 s} (h4 : Keeps z (s)) : Keeps z (setMask x1 x2 x3 s) := by
  unfold setMask
  extract_lets +onlyGivenNames v1
  clear_value v1
  extract_lets +onlyGivenNames v2
  clear_value v2
  extract_lets +onlyGivenNames v3
  have k3 : Keeps z (v3) := by
    dsimp only [v3]
    with_reducible exact State_setFn_keeps (by assumption)
  clear_value v3
  with_reducible refine Keeps.iteK ?_ ?_
  · with_reducible exact latchVector_keeps (by assumption)
  · with_reducible assumption

theorem writeMsix_keeps {z : State} {x1 x2 x3 s} (h4 : Keeps z (s)) : Keeps z (writeMsix x1 x2 x3 s) := by
  unfold writeMsix
  extract_lets +onlyGivenNames v1
  clear_value v1
  with_reducible refine Keeps.iteK ?_ ?_
  · with_reducible assumption
  · extract_lets +onlyGivenNames v2
    clear_value v2
    extract_lets +onlyGivenNames v3
    clear_value v3
    extract_lets +onlyGivenNames v4
    have k4 : ∀ y1, Keeps z (v4 y1) := by
      intro _
      dsimp only [v4]
      with_reducible exact State_setFn_keeps (by assumption)
    clear_value v4
    split
    · with_reducible apply k4
    · with_reducible apply k4
    · with_reducible apply k4
    · with_reducible exact setMask_keeps (by assumption)

theorem zeroOwned_keeps {z : State} {x1 s} (h2 : Keeps z (s)) : Keeps z (zeroOwned x1 s) := by
  unfold zeroOwned
  with_reducible refine Keeps.foldl ?_ _ ?_
  · intro _ _
    intro _
    with_reducible exact zeroTracts_keeps (by assumption)
  · with_reducible assumption

theorem execResetComplete_keeps {z : State} {x1 s} (h2 : Keeps z (s)) : outcomeAll (Keeps z) (execResetComplete x1 s) := by
  unfold execResetComplete
  extract_lets +onlyGivenNames v1
  clear_value v1
  with_reducible refine outcomeAll_ite ?_ ?_
  · with_reducible exact outcomeAll_next (by assumption)
  · with_reducible refine outcomeAll_ite ?_ ?_
    · with_reducible refine outcomeAll_ite ?_ ?_
      · with_reducible exact outcomeAll_next (by assumption)
      · extract_lets +onlyGivenNames v2
        have k2 : Keeps z (v2) := by
          dsimp only [v2]
          with_reducible refine Keeps.iteK ?_ ?_
          · with_reducible exact finishTracts_keeps (by assumption)
          · with_reducible assumption
        clear_value v2
        with_reducible refine outcomeAll_next ?_
        extract_lets +onlyGivenNames v3
        clear_value v3
        extract_lets +onlyGivenNames v4
        have k4 : Keeps z (v4) := by
          dsimp only [v4]
          with_reducible exact State_setFn_keeps (by assumption)
        clear_value v4
        with_reducible exact Keeps.upd (by assumption) rfl rfl rfl rfl
    · extract_lets +onlyGivenNames v5
      have k5 : Keeps z (v5) := by
        dsimp only [v5]
        with_reducible exact zeroOwned_keeps (by assumption)
      clear_value v5
      with_reducible exact outcomeAll_next (State_setFn_keeps (by assumption))

theorem execPcieLinkDown_keeps {z : State} {s} (h1 : Keeps z (s)) : outcomeAll (Keeps z) (execPcieLinkDown s) := by
  unfold execPcieLinkDown
  extract_lets +onlyGivenNames v1
  have k1 : ∀ y1, Keeps z (y1) → Keeps z (v1 y1) := by
    intro _ _
    dsimp only [v1]
    with_reducible exact Keeps.upd (by assumption) rfl rfl rfl rfl
  clear_value v1
  with_reducible refine outcomeAll_next ?_
  with_reducible apply k1
  with_reducible apply configReset_keeps
  with_reducible refine Keeps.iteK ?_ ?_
  · with_reducible exact pfReset_keeps (by assumption)
  · with_reducible assumption

theorem answer_keeps {z : State} {x1 x2 s} (h3 : Keeps z (s)) : Keeps z (answer x1 x2 s) := by
  unfold answer
  with_reducible exact Keeps.upd (by assumption) rfl rfl rfl rfl

theorem readGlobal_keeps {z : State} {x1 x2 x3 s} (h4 : Keeps z (s)) : Keeps z (readGlobal x1 x2 x3 s) := by
  unfold readGlobal
  with_reducible refine Keeps.iteK ?_ ?_
  · with_reducible exact answer_keeps (winFault_keeps (logApt_keeps (by assumption)))
  · with_reducible refine Keeps.iteK ?_ ?_
    · with_reducible refine Keeps.iteK ?_ ?_
      · with_reducible exact answer_keeps (logApt_keeps (State_drawn_keeps (by assumption)))
      · with_reducible exact answer_keeps (State_drawn_keeps (by assumption))
    · with_reducible refine Keeps.iteK ?_ ?_
      · with_reducible exact answer_keeps (logApt_keeps (by assumption))
      · split
        · with_reducible apply answer_keeps
          with_reducible refine Pair.sndK (by assumption) ?_
          with_reducible exact blkRead_keeps (by assumption)
        · with_reducible apply answer_keeps
          with_reducible apply logApt_keeps
          with_reducible refine Pair.sndK (by assumption) ?_
          with_reducible exact blkRead_keeps (by assumption)

theorem finishClaims_keeps {z : State} {s} (h1 : Keeps z (s)) : Keeps z (finishClaims s) := by
  unfold finishClaims
  with_reducible refine Keeps.foldl ?_ _ ?_
  · intro _ _
    intro _
    with_reducible exact finishClaim_keeps (by assumption)
  · with_reducible assumption

theorem winXlate_keeps {z : State} {x1 x2 x3 x4 s} (h5 : Keeps z (s)) : Res.all (Keeps z) (winXlate x1 x2 x3 x4 s) := by
  unfold winXlate
  split
  · with_reducible exact Res.trapI (by assumption)
  · with_reducible refine Res.iteK ?_ ?_
    · with_reducible exact Res.trapI (by assumption)
    · split
      · with_reducible apply xlateWord_keeps
        with_reducible apply finishClaims_keeps
        with_reducible refine Res.stallK (by assumption) ?_
        with_reducible exact xlateWord_keeps (by assumption)
      · with_reducible exact xlateWord_keeps (by assumption)

theorem aptRead_keeps {z : State} {x1 x2 s} (h3 : Keeps z (s)) : Keeps z (aptRead x1 x2 s) := by
  unfold aptRead
  extract_lets +onlyGivenNames v1
  clear_value v1
  extract_lets +onlyGivenNames v2
  clear_value v2
  split
  · with_reducible exact readGlobal_keeps (by assumption)
  · with_reducible refine Keeps.iteK ?_ ?_
    · with_reducible exact answer_keeps (by assumption)
    · with_reducible refine Keeps.iteK ?_ ?_
      · with_reducible exact answer_keeps (winFault_keeps (logApt_keeps (by assumption)))
      · split
        · with_reducible apply answer_keeps
          with_reducible refine Pair.sndK (by assumption) ?_
          with_reducible apply sramRead_keeps
          · intro _ _
            with_reducible exact healYard_keeps (by assumption)
          · with_reducible assumption
        · with_reducible apply answer_keeps
          with_reducible apply logApt_keeps
          with_reducible refine Pair.sndK (by assumption) ?_
          with_reducible apply sramRead_keeps
          · intro _ _
            with_reducible exact healYard_keeps (by assumption)
          · with_reducible assumption
  · split
    · with_reducible apply readGlobal_keeps
      with_reducible refine Res.okK (by assumption) ?_
      with_reducible exact winXlate_keeps (by assumption)
    · with_reducible apply answer_keeps
      with_reducible refine Res.okK (by assumption) ?_
      with_reducible exact winXlate_keeps (by assumption)
    · with_reducible refine Res.stallK (by assumption) ?_
      with_reducible exact winXlate_keeps (by assumption)
    · with_reducible refine Keeps.iteK ?_ ?_
      · with_reducible apply answer_keeps
        with_reducible apply logApt_keeps
        with_reducible refine Res.trapK (by assumption) ?_
        with_reducible exact winXlate_keeps (by assumption)
      · with_reducible apply answer_keeps
        with_reducible apply winFault_keeps
        with_reducible apply logApt_keeps
        with_reducible refine Res.trapK (by assumption) ?_
        with_reducible exact winXlate_keeps (by assumption)
  · with_reducible exact answer_keeps (by assumption)

theorem execPfFlr_keeps {z : State} {s} (h1 : Keeps z (s)) : outcomeAll (Keeps z) (execPfFlr s) := by
  unfold execPfFlr
  with_reducible refine outcomeAll_ite ?_ ?_
  · with_reducible exact outcomeAll_next (pfReset_keeps (by assumption))
  · with_reducible exact outcomeAll_next (by assumption)

theorem aptPut_keeps {z : State} {x1 x2 x3 s} (h4 : Keeps z (s)) : Keeps z (aptPut x1 x2 x3 s) := by
  unfold aptPut
  extract_lets +onlyGivenNames v1
  clear_value v1
  extract_lets +onlyGivenNames v2
  clear_value v2
  split
  · with_reducible exact writeGlobal_keeps (by assumption)
  · with_reducible refine Keeps.iteK ?_ ?_
    · with_reducible exact winFault_keeps (by assumption)
    · with_reducible refine Keeps.iteK ?_ ?_
      · with_reducible exact winFault_keeps (logApt_keeps (by assumption))
      · refine Keeps.updM ?_ ?_ ?_ ?_ ?_ ?_
        · with_reducible assumption
        · with_reducible exact id
        · with_reducible exact fun h => twf_tset _ _ h
        · with_reducible exact id
        · with_reducible exact id
        · with_reducible exact Nat.le_refl _
  · split
    · with_reducible apply writeGlobal_keeps
      with_reducible refine Res.okK (by assumption) ?_
      with_reducible exact winXlate_keeps (by assumption)
    · with_reducible refine Res.okK (by assumption) ?_
      with_reducible exact winXlate_keeps (by assumption)
    · with_reducible refine Res.stallK (by assumption) ?_
      with_reducible exact winXlate_keeps (by assumption)
    · with_reducible apply winFault_keeps
      with_reducible apply logApt_keeps
      with_reducible refine Res.trapK (by assumption) ?_
      with_reducible exact winXlate_keeps (by assumption)
  · with_reducible assumption

theorem aptWrite_keeps {z : State} {x1 x2 x3 x4 x5 s} (h6 : Keeps z (s)) : Keeps z (aptWrite x1 x2 x3 x4 x5 s) := by
  unfold aptWrite
  extract_lets +onlyGivenNames v1
  clear_value v1
  extract_lets +onlyGivenNames v2
  clear_value v2
  extract_lets +onlyGivenNames v3
  clear_value v3
  with_reducible refine Keeps.iteK ?_ ?_
  · with_reducible apply countAer_keeps
    with_reducible apply logApt_keeps
    with_reducible refine Keeps.iteK ?_ ?_
    · with_reducible assumption
    · with_reducible exact winFault_keeps (by assumption)
  · with_reducible refine Keeps.iteK ?_ ?_
    · with_reducible assumption
    · with_reducible refine Keeps.iteK ?_ ?_
      · with_reducible exact logApt_keeps (winFault_keeps (by assumption))
      · with_reducible exact aptPut_keeps (by assumption)

theorem execBar2Write_keeps {z : State} {x1 x2 x3 x4 x5 s} (h6 : Keeps z (s)) : outcomeAll (Keeps z) (execBar2Write x1 x2 x3 x4 x5 s) := by
  unfold execBar2Write
  with_reducible refine outcomeAll_ite ?_ ?_
  · with_reducible exact outcomeAll_next (by assumption)
  · with_reducible refine outcomeAll_ite ?_ ?_
    · with_reducible exact outcomeAll_next (aptWrite_keeps (by assumption))
    · with_reducible exact outcomeAll_next (unsupported_keeps (by assumption))

theorem resumeBus_keeps {z : State} {x1 s} (h2 : Keeps z (s)) : Keeps z (resumeBus x1 s) := by
  unfold resumeBus
  extract_lets +onlyGivenNames v1
  clear_value v1
  extract_lets +onlyGivenNames v2
  clear_value v2
  extract_lets +onlyGivenNames v3
  have k3 : Keeps z (v3) := by
    dsimp only [v3]
    with_reducible exact State_setFn_keeps (by assumption)
  clear_value v3
  with_reducible refine Keeps.foldl ?_ _ ?_
  · intro _ _
    intro _
    with_reducible exact sendVec_keeps (by assumption)
  · with_reducible exact Keeps.upd (by assumption) rfl rfl rfl rfl

theorem execMalformedTlp_keeps {z : State} {s} (h1 : Keeps z (s)) : outcomeAll (Keeps z) (execMalformedTlp s) := by
  unfold execMalformedTlp
  with_reducible exact outcomeAll_next (countAer_keeps (by assumption))

theorem execReadCompletion_keeps {z : State} {x1 x2 x3 s} (h4 : Keeps z (s)) : outcomeAll (Keeps z) (execReadCompletion x1 x2 x3 s) := by
  unfold execReadCompletion
  extract_lets +onlyGivenNames v1
  clear_value v1
  extract_lets +onlyGivenNames v2
  clear_value v2
  with_reducible refine outcomeAll_next ?_
  with_reducible refine Keeps.foldl ?_ _ ?_
  · intro _ _
    intro _
    with_reducible exact putHost_keeps (by assumption)
  · with_reducible exact Keeps.upd (by assumption) rfl rfl rfl rfl

theorem execCompletionTimeout_keeps {z : State} {x1 x2 x3 x4 s} (h5 : Keeps z (s)) : outcomeAll (Keeps z) (execCompletionTimeout x1 x2 x3 x4 s) := by
  unfold execCompletionTimeout
  with_reducible refine outcomeAll_ite ?_ ?_
  · with_reducible exact outcomeAll_next (by assumption)
  · with_reducible exact outcomeAll_next (failRead_keeps (by assumption))

theorem execAspmL1Entry_keeps {z : State} {s} (h1 : Keeps z (s)) : outcomeAll (Keeps z) (execAspmL1Entry s) := by
  unfold execAspmL1Entry
  with_reducible refine outcomeAll_ite ?_ ?_
  · with_reducible exact outcomeAll_next (Keeps.upd (by assumption) rfl rfl rfl rfl)
  · with_reducible exact outcomeAll_next (by assumption)

theorem execUnexpectedCompletion_keeps {z : State} {s} (h1 : Keeps z (s)) : outcomeAll (Keeps z) (execUnexpectedCompletion s) := by
  unfold execUnexpectedCompletion
  with_reducible exact outcomeAll_next (countAer_keeps (by assumption))

theorem commitWin_keeps {z : State} {x1 s} (h2 : Keeps z (s)) : Keeps z (commitWin x1 s) := by
  unfold commitWin
  extract_lets +onlyGivenNames v1
  clear_value v1
  extract_lets +onlyGivenNames v2
  clear_value v2
  with_reducible refine Keeps.iteK ?_ ?_
  · with_reducible assumption
  · with_reducible refine Keeps.iteK ?_ ?_
    · with_reducible exact State_setFn_keeps (by assumption)
    · with_reducible exact State_setFn_keeps (by assumption)

theorem writeWinctl_keeps {z : State} {x1 x2 s} (h3 : Keeps z (s)) : Keeps z (writeWinctl x1 x2 s) := by
  unfold writeWinctl
  extract_lets +onlyGivenNames v1
  clear_value v1
  extract_lets +onlyGivenNames v2
  clear_value v2
  extract_lets +onlyGivenNames v3
  have k3 : Keeps z (v3) := by
    dsimp only [v3]
    with_reducible exact State_setFn_keeps (by assumption)
  clear_value v3
  with_reducible refine Keeps.iteK ?_ ?_
  · with_reducible exact commitWin_keeps (by assumption)
  · with_reducible assumption

theorem clearFmask_keeps {z : State} {x1 s} (h2 : Keeps z (s)) : Keeps z (clearFmask x1 s) := by
  unfold clearFmask
  extract_lets +onlyGivenNames v1
  clear_value v1
  extract_lets +onlyGivenNames v2
  have k2 : Keeps z (v2) := by
    dsimp only [v2]
    with_reducible exact State_setFn_keeps (by assumption)
  clear_value v2
  with_reducible refine Keeps.foldl ?_ _ ?_
  · intro _ _
    intro _
    with_reducible exact latchVector_keeps (by assumption)
  · with_reducible assumption

theorem execPoisonedTlpReceived_keeps {z : State} {x1 x2 x3 x4 s} (h5 : Keeps z (s)) : outcomeAll (Keeps z) (execPoisonedTlpReceived x1 x2 x3 x4 s) := by
  unfold execPoisonedTlpReceived
  with_reducible exact outcomeAll_next (failRead_keeps (by assumption))

theorem execBusMasterEnable_keeps {z : State} {x1 s} (h2 : Keeps z (s)) : outcomeAll (Keeps z) (execBusMasterEnable x1 s) := by
  unfold execBusMasterEnable
  with_reducible refine outcomeAll_ite ?_ ?_
  · with_reducible exact outcomeAll_next (resumeBus_keeps (by assumption))
  · with_reducible exact outcomeAll_next (by assumption)

theorem execVectorUnmask_keeps {z : State} {x1 x2 s} (h3 : Keeps z (s)) : outcomeAll (Keeps z) (execVectorUnmask x1 x2 s) := by
  unfold execVectorUnmask
  with_reducible refine outcomeAll_next ?_
  with_reducible apply hostWrite_keeps
  · intro _ _
    with_reducible refine Keeps.iteK ?_ ?_
    · with_reducible exact setMask_keeps (by assumption)
    · with_reducible assumption
  · with_reducible assumption

theorem execVfFlr_keeps {z : State} {x1 s} (h2 : Keeps z (s)) : outcomeAll (Keeps z) (execVfFlr x1 s) := by
  unfold execVfFlr
  with_reducible refine outcomeAll_ite ?_ ?_
  · with_reducible exact outcomeAll_next (by assumption)
  · with_reducible exact outcomeAll_next (resetScope_keeps (by assumption))

theorem execWindowCommit_keeps {z : State} {x1 x2 s} (h3 : Keeps z (s)) : outcomeAll (Keeps z) (execWindowCommit x1 x2 s) := by
  unfold execWindowCommit
  with_reducible refine outcomeAll_next ?_
  with_reducible apply hostWrite_keeps
  · intro _ _
    with_reducible exact writeWinctl_keeps (by assumption)
  · with_reducible assumption

theorem writeWin_keeps {z : State} {x1 x2 x3 s} (h4 : Keeps z (s)) : Keeps z (writeWin x1 x2 x3 s) := by
  unfold writeWin
  extract_lets +onlyGivenNames v1
  clear_value v1
  split
  · with_reducible exact State_setFn_keeps (by assumption)
  · with_reducible exact State_setFn_keeps (by assumption)
  · with_reducible exact writeWinctl_keeps (by assumption)
  · with_reducible assumption

theorem execBar2Read_keeps {z : State} {x1 x2 s} (h3 : Keeps z (s)) : outcomeAll (Keeps z) (execBar2Read x1 x2 s) := by
  unfold execBar2Read
  with_reducible refine outcomeAll_ite ?_ ?_
  · with_reducible exact outcomeAll_next (answer_keeps (by assumption))
  · with_reducible refine outcomeAll_ite ?_ ?_
    · with_reducible exact outcomeAll_next (aptRead_keeps (by assumption))
    · with_reducible exact outcomeAll_next (unsupported_keeps (by assumption))

theorem execEcrcError_keeps {z : State} {s} (h1 : Keeps z (s)) : outcomeAll (Keeps z) (execEcrcError s) := by
  unfold execEcrcError
  with_reducible refine outcomeAll_ite ?_ ?_
  · with_reducible exact outcomeAll_next (countAer_keeps (by assumption))
  · with_reducible exact outcomeAll_next (by assumption)

theorem execReceiverError_keeps {z : State} {s} (h1 : Keeps z (s)) : outcomeAll (Keeps z) (execReceiverError s) := by
  unfold execReceiverError
  with_reducible exact outcomeAll_next (countAer_keeps (by assumption))

theorem execPcieLinkUp_keeps {z : State} {s} (h1 : Keeps z (s)) : outcomeAll (Keeps z) (execPcieLinkUp s) := by
  unfold execPcieLinkUp
  extract_lets +onlyGivenNames v1
  clear_value v1
  with_reducible refine outcomeAll_next ?_
  extract_lets +onlyGivenNames v2
  have k2 : Keeps z (v2) := by
    dsimp only [v2]
    with_reducible exact State_drawn_keeps (by assumption)
  clear_value v2
  with_reducible exact Keeps.upd (by assumption) rfl rfl rfl rfl

/-! ### Scarf -/

theorem changeLink_keeps {z : State} {x1 x2 s} (h3 : Keeps z (s)) : Keeps z (changeLink x1 x2 s) := by
  unfold changeLink
  extract_lets +onlyGivenNames v1
  clear_value v1
  extract_lets +onlyGivenNames v2
  have k2 : Keeps z (v2) := by
    dsimp only [v2]
    with_reducible exact State_setLink_keeps (by assumption)
  clear_value v2
  with_reducible refine Keeps.iteK ?_ ?_
  · with_reducible assumption
  · with_reducible exact fireSrc_keeps (by assumption)

theorem logLink_keeps {z : State} {x1 x2 s} (h3 : Keeps z (s)) : Keeps z (logLink x1 x2 s) := by
  unfold logLink
  with_reducible exact logErr_keeps (by assumption)

theorem retrain_keeps {z : State} {x1 s} (h2 : Keeps z (s)) : Keeps z (retrain x1 s) := by
  unfold retrain
  extract_lets +onlyGivenNames v1
  clear_value v1
  with_reducible refine Keeps.iteK ?_ ?_
  · with_reducible assumption
  · with_reducible exact changeLink_keeps (logLink_keeps (by assumption))

theorem commitLink_keeps {z : State} {x1 s} (h2 : Keeps z (s)) : Keeps z (commitLink x1 s) := by
  unfold commitLink
  extract_lets +onlyGivenNames v1
  clear_value v1
  with_reducible refine Keeps.iteK ?_ ?_
  · with_reducible assumption
  · with_reducible refine Keeps.iteK ?_ ?_
    · with_reducible exact State_setLink_keeps (by assumption)
    · extract_lets +onlyGivenNames v2
      have k2 : Keeps z (v2) := by
        dsimp only [v2]
        with_reducible exact State_setLink_keeps (by assumption)
      clear_value v2
      with_reducible refine Keeps.iteK ?_ ?_
      · with_reducible exact retrain_keeps (by assumption)
      · with_reducible exact changeLink_keeps (by assumption)

theorem writeLinkcfg_keeps {z : State} {x1 x2 s} (h3 : Keeps z (s)) : Keeps z (writeLinkcfg x1 x2 s) := by
  unfold writeLinkcfg
  with_reducible refine Keeps.iteK ?_ ?_
  · with_reducible assumption
  · extract_lets +onlyGivenNames v1
    clear_value v1
    extract_lets +onlyGivenNames v2
    have k2 : Keeps z (v2) := by
      dsimp only [v2]
      with_reducible exact State_setLink_keeps (by assumption)
    clear_value v2
    extract_lets +onlyGivenNames v3
    have k3 : Keeps z (v3) := by
      dsimp only [v3]
      with_reducible refine Keeps.iteK ?_ ?_
      · with_reducible exact commitLink_keeps (by assumption)
      · with_reducible assumption
    clear_value v3
    with_reducible refine Keeps.iteK ?_ ?_
    · with_reducible exact retrain_keeps (by assumption)
    · with_reducible assumption

theorem reroute_keeps {z : State} {x1 s} (h2 : Keeps z (s)) : Keeps z (reroute x1 s) := by
  unfold reroute
  extract_lets +onlyGivenNames v1
  clear_value v1
  with_reducible exact Keeps.upd (by assumption) rfl rfl rfl rfl

theorem formCascade_keeps {z : State} {x1 x2 s} (h3 : Keeps z (s)) : Keeps z (formCascade x1 x2 s) := by
  unfold formCascade
  extract_lets +onlyGivenNames v1
  have k1 : Keeps z (v1) := by
    dsimp only [v1]
    with_reducible exact reroute_keeps (by assumption)
  clear_value v1
  extract_lets +onlyGivenNames v2
  clear_value v2
  extract_lets +onlyGivenNames v3
  clear_value v3
  extract_lets +onlyGivenNames v4
  clear_value v4
  extract_lets +onlyGivenNames v5
  have k5 : Keeps z (v5) := by
    dsimp only [v5]
    with_reducible exact Keeps.upd (by assumption) rfl rfl rfl rfl
  clear_value v5
  with_reducible refine Keeps.foldl ?_ _ ?_
  · intro _ _
    intro _
    with_reducible refine Keeps.iteK ?_ ?_
    · with_reducible exact State_setFn_keeps (by assumption)
    · with_reducible assumption
  · with_reducible assumption

theorem execNak_keeps {z : State} {x1 x2 s} (h3 : Keeps z (s)) : outcomeAll (Keeps z) (execNak x1 x2 s) := by
  unfold execNak
  with_reducible refine outcomeAll_ite ?_ ?_
  · exact trivial
  · extract_lets +onlyGivenNames v1
    clear_value v1
    with_reducible refine outcomeAll_ite ?_ ?_
    · with_reducible exact outcomeAll_next (by assumption)
    · extract_lets +onlyGivenNames v2
      clear_value v2
      extract_lets +onlyGivenNames v3
      have k3 : Keeps z (v3) := by
        dsimp only [v3]
        with_reducible exact State_setLink_keeps (by assumption)
      clear_value v3
      with_reducible refine outcomeAll_next ?_
      with_reducible refine Keeps.iteK ?_ ?_
      · with_reducible exact retrain_keeps (by assumption)
      · with_reducible assumption

theorem refuseCascade_keeps {z : State} {x1 x2 s} (h3 : Keeps z (s)) : Keeps z (refuseCascade x1 x2 s) := by
  unfold refuseCascade
  with_reducible apply logErr_keeps
  with_reducible refine Keeps.foldl ?_ _ ?_
  · intro _ _
    intro _
    with_reducible exact changeLink_keeps (by assumption)
  · with_reducible assumption

theorem execModuleJoined_keeps {z : State} {x1 x2 s} (h3 : Keeps z (s)) : outcomeAll (Keeps z) (execModuleJoined x1 x2 s) := by
  unfold execModuleJoined
  with_reducible refine outcomeAll_ite ?_ ?_
  · with_reducible exact outcomeAll_next (by assumption)
  · with_reducible refine outcomeAll_ite ?_ ?_
    · with_reducible exact outcomeAll_next (refuseCascade_keeps (by assumption))
    · with_reducible refine outcomeAll_ite ?_ ?_
      · with_reducible exact outcomeAll_next (by assumption)
      · extract_lets +onlyGivenNames v1
        have k1 : Keeps z (v1) := by
          dsimp only [v1]
          with_reducible exact reroute_keeps (by assumption)
        clear_value v1
        extract_lets +onlyGivenNames v2
        clear_value v2
        extract_lets +onlyGivenNames v3
        have k3 : Keeps z (v3) := by
          dsimp only [v3]
          with_reducible exact Keeps.upd (by assumption) rfl rfl rfl rfl
        clear_value v3
        with_reducible exact outcomeAll_next (fireSrc_keeps (logErr_keeps (by assumption)))

theorem loseHead_keeps {z : State} {s} (h1 : Keeps z (s)) : Keeps z (loseHead s) := by
  unfold loseHead
  extract_lets +onlyGivenNames v1
  have k1 : Keeps z (v1) := by
    dsimp only [v1]
    with_reducible refine Keeps.foldl ?_ _ ?_
    · intro _ _
      intro _
      with_reducible exact State_setJob_keeps (endShares_keeps (by assumption))
    · with_reducible assumption
  clear_value v1
  with_reducible exact Keeps.upd (by assumption) rfl rfl rfl rfl

theorem loseStores_keeps {z : State} {x1 x2 s} (h3 : Keeps z (s)) : Keeps z (loseStores x1 x2 s) := by
  unfold loseStores
  split
  · extract_lets +onlyGivenNames v1
    clear_value v1
    extract_lets +onlyGivenNames v2
    clear_value v2
    extract_lets +onlyGivenNames v3
    have k3 : Keeps z (v3) := by
      dsimp only [v3]
      with_reducible exact State_setCore_keeps (by assumption)
    clear_value v3
    with_reducible exact finishJob_keeps (logErr_keeps (by assumption))
  · with_reducible assumption

theorem loseJobs_keeps {z : State} {x1 s} (h2 : Keeps z (s)) : Keeps z (loseJobs x1 s) := by
  unfold loseJobs
  with_reducible refine Keeps.foldl ?_ _ ?_
  · intro _ _
    intro _
    with_reducible refine Keeps.iteK ?_ ?_
    · with_reducible exact recordEnd_keeps (endShares_keeps (by assumption))
    · with_reducible assumption
  · with_reducible assumption

theorem execModuleLost_keeps {z : State} {x1 s} (h2 : Keeps z (s)) : outcomeAll (Keeps z) (execModuleLost x1 s) := by
  unfold execModuleLost
  with_reducible refine outcomeAll_ite ?_ ?_
  · with_reducible exact outcomeAll_next (by assumption)
  · extract_lets +onlyGivenNames v1
    clear_value v1
    extract_lets +onlyGivenNames v2
    clear_value v2
    extract_lets +onlyGivenNames v3
    have k3 : Keeps z (v3) := by
      dsimp only [v3]
      with_reducible exact Keeps.upd (by assumption) rfl rfl rfl rfl
    clear_value v3
    extract_lets +onlyGivenNames v4
    have k4 : Keeps z (v4) := by
      dsimp only [v4]
      with_reducible exact fireSrc_keeps (logErr_keeps (by assumption))
    clear_value v4
    with_reducible refine outcomeAll_ite ?_ ?_
    · with_reducible exact outcomeAll_next (loseHead_keeps (by assumption))
    · with_reducible refine outcomeAll_next ?_
      with_reducible refine Keeps.foldl ?_ _ ?_
      · intro _ _
        intro _
        with_reducible exact loseStores_keeps (by assumption)
      · with_reducible exact loseJobs_keeps (by assumption)

theorem execFormationWindowClose_keeps {z : State} {x1 x2 s} (h3 : Keeps z (s)) : outcomeAll (Keeps z) (execFormationWindowClose x1 x2 s) := by
  unfold execFormationWindowClose
  extract_lets +onlyGivenNames v1
  extract_lets +onlyGivenNames v2
  extract_lets +onlyGivenNames v3
  clear_value v3
  with_reducible refine outcomeAll_ite ?_ ?_
  · with_reducible exact outcomeAll_next (by assumption)
  · with_reducible refine outcomeAll_ite ?_ ?_
    · with_reducible exact outcomeAll_next (refuseCascade_keeps (by assumption))
    · with_reducible refine outcomeAll_ite ?_ ?_
      · with_reducible exact outcomeAll_next (by assumption)
      · with_reducible exact outcomeAll_next (formCascade_keeps (by assumption))

theorem startLinks_keeps {z : State} {s} (h1 : Keeps z (s)) : Keeps z (startLinks s) := by
  unfold startLinks
  with_reducible refine Keeps.foldl ?_ _ ?_
  · intro _ _
    intro _
    with_reducible refine Keeps.iteK ?_ ?_
    · with_reducible exact changeLink_keeps (by assumption)
    · with_reducible assumption
  · with_reducible assumption

theorem execFlitReceive_keeps {z : State} {x1 x2 x3 s} (h4 : Keeps z (s)) : outcomeAll (Keeps z) (execFlitReceive x1 x2 x3 s) := by
  unfold execFlitReceive
  with_reducible refine outcomeAll_ite ?_ ?_
  · exact trivial
  · extract_lets +onlyGivenNames v1
    clear_value v1
    with_reducible refine outcomeAll_ite ?_ ?_
    · with_reducible exact outcomeAll_next (by assumption)
    · with_reducible refine outcomeAll_ite ?_ ?_
      · extract_lets +onlyGivenNames v2
        clear_value v2
        with_reducible exact outcomeAll_next (State_drawn_keeps (State_setLink_keeps (by assumption)))
      · with_reducible exact outcomeAll_next (State_drawn_keeps (State_setLink_keeps (by assumption)))

theorem linkDown_keeps {z : State} {x1 s} (h2 : Keeps z (s)) : Keeps z (linkDown x1 s) := by
  unfold linkDown
  with_reducible exact changeLink_keeps (logLink_keeps (by assumption))

theorem linkUp_keeps {z : State} {x1 x2 x3 s} (h4 : Keeps z (s)) : Keeps z (linkUp x1 x2 x3 s) := by
  unfold linkUp
  extract_lets +onlyGivenNames v1
  clear_value v1
  extract_lets +onlyGivenNames v2
  clear_value v2
  extract_lets +onlyGivenNames v3
  have k3 : Keeps z (v3) := by
    dsimp only [v3]
    with_reducible refine Keeps.iteK ?_ ?_
    · with_reducible assumption
    · with_reducible exact logLink_keeps (by assumption)
  clear_value v3
  with_reducible exact changeLink_keeps (by assumption)

theorem execRouteChange_keeps {z : State} {x1 x2 s} (h3 : Keeps z (s)) : outcomeAll (Keeps z) (execRouteChange x1 x2 s) := by
  unfold execRouteChange
  with_reducible refine outcomeAll_ite ?_ ?_
  · with_reducible exact outcomeAll_next (fireSrc_keeps (logLink_keeps (reroute_keeps (by assumption))))
  · with_reducible exact outcomeAll_next (by assumption)

theorem execLinkConfigCommit_keeps {z : State} {x1 x2 s} (h3 : Keeps z (s)) : outcomeAll (Keeps z) (execLinkConfigCommit x1 x2 s) := by
  unfold execLinkConfigCommit
  with_reducible refine outcomeAll_ite ?_ ?_
  · exact trivial
  · with_reducible refine outcomeAll_next ?_
    with_reducible apply hostWrite_keeps
    · intro _ _
      with_reducible exact writeLinkcfg_keeps (by assumption)
    · with_reducible assumption

theorem idleLinks_keeps {z : State} {s} (h1 : Keeps z (s)) : Keeps z (idleLinks s) := by
  unfold idleLinks
  with_reducible refine Keeps.foldl ?_ _ ?_
  · intro _ _
    intro _
    with_reducible refine Keeps.iteK ?_ ?_
    · with_reducible exact changeLink_keeps (by assumption)
    · with_reducible assumption
  · with_reducible assumption

theorem execLinkRetrain_keeps {z : State} {x1 s} (h2 : Keeps z (s)) : outcomeAll (Keeps z) (execLinkRetrain x1 s) := by
  unfold execLinkRetrain
  with_reducible refine outcomeAll_ite ?_ ?_
  · exact trivial
  · with_reducible refine outcomeAll_next ?_
    with_reducible apply hostWrite_keeps
    · intro _ _
      with_reducible refine Keeps.iteK ?_ ?_
      · with_reducible exact retrain_keeps (by assumption)
      · with_reducible assumption
    · with_reducible assumption

theorem execLaneLockLoss_keeps {z : State} {x1 x2 s} (h3 : Keeps z (s)) : outcomeAll (Keeps z) (execLaneLockLoss x1 x2 s) := by
  unfold execLaneLockLoss
  with_reducible refine outcomeAll_ite ?_ ?_
  · exact trivial
  · extract_lets +onlyGivenNames v1
    clear_value v1
    with_reducible refine outcomeAll_ite ?_ ?_
    · with_reducible exact outcomeAll_next (by assumption)
    · extract_lets +onlyGivenNames v2
      clear_value v2
      extract_lets +onlyGivenNames v3
      clear_value v3
      extract_lets +onlyGivenNames v4
      have k4 : Keeps z (v4) := by
        dsimp only [v4]
        with_reducible exact State_setLink_keeps (by assumption)
      clear_value v4
      with_reducible refine outcomeAll_next ?_
      with_reducible refine Keeps.iteK ?_ ?_
      · with_reducible assumption
      · with_reducible exact retrain_keeps (by assumption)

theorem serveRemote_keeps {z : State} {x1 x2 s} (h3 : Keeps z (s)) : Pair.all (Keeps z) (serveRemote x1 x2 s) := by
  unfold serveRemote
  extract_lets +onlyGivenNames v1
  clear_value v1
  extract_lets +onlyGivenNames v2
  clear_value v2
  with_reducible refine Pair.iteK ?_ ?_
  · with_reducible exact Pair.mkI (logErr_keeps (by assumption))
  · split
    · split
      · with_reducible refine Pair.mkI ?_
        with_reducible refine Pair.sndK (by assumption) ?_
        with_reducible exact blkRead_keeps (by assumption)
      · with_reducible refine Pair.mkI ?_
        with_reducible refine Pair.sndK (by assumption) ?_
        with_reducible exact blkRead_keeps (by assumption)
    · with_reducible exact Pair.mkI (blkWrite_keeps (by assumption))
    · split
      · with_reducible refine Pair.mkI ?_
        with_reducible apply closeFetch_keeps
        with_reducible apply lockedEnd_keeps
        with_reducible refine Pair.sndK (by assumption) ?_
        with_reducible exact blkRead_keeps (openFetch_keeps (by assumption))
      · with_reducible refine Pair.mkI ?_
        with_reducible apply closeFetch_keeps
        with_reducible apply lockedEnd_keeps
        with_reducible refine Pair.sndK (by assumption) ?_
        with_reducible exact blkRead_keeps (openFetch_keeps (by assumption))

theorem execRemoteRequest_keeps {z : State} {x1 x2 x3 x4 s} (h5 : Keeps z (s)) : outcomeAll (Keeps z) (execRemoteRequest x1 x2 x3 x4 s) := by
  unfold execRemoteRequest
  with_reducible refine outcomeAll_ite ?_ ?_
  · exact trivial
  · extract_lets +onlyGivenNames v1
    clear_value v1
    extract_lets +onlyGivenNames v2
    clear_value v2
    with_reducible refine outcomeAll_ite ?_ ?_
    · with_reducible exact outcomeAll_next (by assumption)
    · split
      extract_lets +onlyGivenNames v3
      clear_value v3
      with_reducible refine outcomeAll_next ?_
      with_reducible refine Keeps.upd ?_ rfl rfl rfl rfl
      with_reducible refine Pair.sndK (by assumption) ?_
      with_reducible exact serveRemote_keeps (by assumption)

theorem execLinkRetry_keeps {z : State} {x1 s} (h2 : Keeps z (s)) : outcomeAll (Keeps z) (execLinkRetry x1 s) := by
  unfold execLinkRetry
  with_reducible refine outcomeAll_ite ?_ ?_
  · exact trivial
  · with_reducible refine outcomeAll_ite ?_ ?_
    · with_reducible exact outcomeAll_next (by assumption)
    · with_reducible exact outcomeAll_next (changeLink_keeps (by assumption))

theorem execLinkTrainingComplete_keeps {z : State} {x1 x2 x3 s} (h4 : Keeps z (s)) : outcomeAll (Keeps z) (execLinkTrainingComplete x1 x2 x3 s) := by
  unfold execLinkTrainingComplete
  with_reducible refine outcomeAll_ite ?_ ?_
  · exact trivial
  · with_reducible refine outcomeAll_ite ?_ ?_
    · with_reducible exact outcomeAll_next (by assumption)
    · extract_lets +onlyGivenNames v1
      clear_value v1
      with_reducible refine outcomeAll_ite ?_ ?_
      · with_reducible exact outcomeAll_next (linkDown_keeps (State_setLink_keeps (by assumption)))
      · with_reducible refine outcomeAll_ite ?_ ?_
        · with_reducible exact outcomeAll_next (refuseCascade_keeps (State_setLink_keeps (by assumption)))
        · with_reducible exact outcomeAll_next (linkUp_keeps (by assumption))

theorem wakeLinks_keeps {z : State} {s} (h1 : Keeps z (s)) : Keeps z (wakeLinks s) := by
  unfold wakeLinks
  with_reducible refine Keeps.foldl ?_ _ ?_
  · intro _ _
    intro _
    with_reducible refine Keeps.iteK ?_ ?_
    · with_reducible exact changeLink_keeps (by assumption)
    · with_reducible assumption
  · with_reducible assumption

/-! ### Firmware -/

theorem freeLock_keeps {z : State} {s} (h1 : Keeps z (s)) : Keeps z (freeLock s) := by
  unfold freeLock
  with_reducible exact Keeps.upd (by assumption) rfl rfl rfl rfl

theorem eraseInactive_keeps {z : State} {s} (h1 : Keeps z (s)) : Keeps z (eraseInactive s) := by
  unfold eraseInactive
  extract_lets +onlyGivenNames v1
  clear_value v1
  with_reducible exact Keeps.upd (by assumption) rfl rfl rfl rfl

theorem failUpdate_keeps {z : State} {s} (h1 : Keeps z (s)) : Keeps z (failUpdate s) := by
  unfold failUpdate
  with_reducible apply freeLock_keeps
  with_reducible refine Keeps.iteK ?_ ?_
  · with_reducible exact eraseInactive_keeps (by assumption)
  · with_reducible assumption

theorem activateSlot_keeps {z : State} {x1 x2 s} (h3 : Keeps z (s)) : Pair.all (Keeps z) (activateSlot x1 x2 s) := by
  unfold activateSlot
  with_reducible refine Pair.iteK ?_ ?_
  · with_reducible exact Pair.mkI (by assumption)
  · with_reducible refine Pair.iteK ?_ ?_
    · with_reducible exact Pair.mkI (logErr_keeps (failUpdate_keeps (by assumption)))
    · extract_lets +onlyGivenNames v1
      clear_value v1
      with_reducible refine Pair.iteK ?_ ?_
      · with_reducible exact Pair.mkI (freeLock_keeps (by assumption))
      · with_reducible refine Pair.iteK ?_ ?_
        · with_reducible exact Pair.mkI (failUpdate_keeps (by assumption))
        · with_reducible exact Pair.mkI (freeLock_keeps (Keeps.upd (by assumption) rfl rfl rfl rfl))

theorem takeLock_keeps {z : State} {x1 s} (h2 : Keeps z (s)) : Keeps z (takeLock x1 s) := by
  unfold takeLock
  with_reducible exact Keeps.upd (by assumption) rfl rfl rfl rfl

theorem setPhase_keeps {z : State} {x1 s} (h2 : Keeps z (s)) : Keeps z (setPhase x1 s) := by
  unfold setPhase
  extract_lets +onlyGivenNames v1
  clear_value v1
  extract_lets +onlyGivenNames v2
  have k2 : Keeps z (v2) := by
    dsimp only [v2]
    with_reducible exact Keeps.upd (by assumption) rfl rfl rfl rfl
  clear_value v2
  with_reducible refine Keeps.iteK ?_ ?_
  · with_reducible assumption
  · with_reducible exact queueEvent_keeps (by assumption)

theorem commitSvn_keeps {z : State} {x1 s} (h2 : Keeps z (s)) : Pair.all (Keeps z) (commitSvn x1 s) := by
  unfold commitSvn
  dsimp only
  split
  · exact Pair.mkI h2
  · split
    · exact Pair.mkI (logErr_keeps h2)
    · split
      · exact Pair.mkI h2
      · split
        · exact Pair.mkI h2
        · exact Pair.mkI (logErr_keeps (Keeps.updM h2 id id id id (Nat.le_of_not_le (by assumption))))

theorem logSigFail_keeps {z : State} {x1 s} (h2 : Keeps z (s)) : Keeps z (logSigFail x1 s) := by
  unfold logSigFail
  with_reducible exact logErr_keeps (by assumption)

theorem writeSlot_keeps {z : State} {x1 x2 s} (h3 : Keeps z (s)) : Keeps z (writeSlot x1 x2 s) := by
  unfold writeSlot
  extract_lets +onlyGivenNames v1
  have k1 : Keeps z (v1) := by
    dsimp only [v1]
    with_reducible refine Keeps.iteK ?_ ?_
    · with_reducible assumption
    · with_reducible exact eraseInactive_keeps (by assumption)
  clear_value v1
  extract_lets +onlyGivenNames v2
  clear_value v2
  with_reducible exact Keeps.upd (by assumption) rfl rfl rfl rfl

theorem flashChunk_keeps {z : State} {x1 x2 x3 x4 s} (h5 : Keeps z (s)) : Pair.all (Keeps z) (flashChunk x1 x2 x3 x4 s) := by
  unfold flashChunk
  with_reducible refine Pair.iteK ?_ ?_
  · with_reducible exact Pair.mkI (by assumption)
  · with_reducible refine Pair.iteK ?_ ?_
    · with_reducible exact Pair.mkI (logErr_keeps (failUpdate_keeps (takeLock_keeps (by assumption))))
    · with_reducible refine Pair.iteK ?_ ?_
      · with_reducible exact Pair.mkI (failUpdate_keeps (takeLock_keeps (writeSlot_keeps (by assumption))))
      · with_reducible exact Pair.mkI (writeSlot_keeps (takeLock_keeps (by assumption)))

theorem enterRecovery_keeps {z : State} {s} (h1 : Keeps z (s)) : Keeps z (enterRecovery s) := by
  unfold enterRecovery
  extract_lets +onlyGivenNames v1
  have k1 : Keeps z (v1) := by
    dsimp only [v1]
    with_reducible exact setPhase_keeps (by assumption)
  clear_value v1
  with_reducible exact Keeps.upd (by assumption) rfl rfl rfl rfl

theorem bootRom_keeps {z : State} {s} (h1 : Keeps z (s)) : Keeps z (bootRom s) := by
  unfold bootRom
  extract_lets +onlyGivenNames v1
  clear_value v1
  extract_lets +onlyGivenNames v2
  have k2 : ∀ y1 y2, Keeps z (y2) → Keeps z (v2 y1 y2) := by
    intro _ _
    intro _
    dsimp only [v2]
    with_reducible exact Keeps.upd (by assumption) rfl rfl rfl rfl
  clear_value v2
  with_reducible refine Keeps.iteK ?_ ?_
  · with_reducible apply k2
    with_reducible assumption
  · with_reducible refine Keeps.iteK ?_ ?_
    · with_reducible apply k2
      with_reducible exact logErr_keeps (logSigFail_keeps (by assumption))
    · with_reducible apply enterRecovery_keeps
      with_reducible apply k2
      with_reducible exact logSigFail_keeps (logSigFail_keeps (by assumption))

/-! ### Power -/

theorem execPowerLoop_keeps {z : State} {x1 s} (h2 : Keeps z (s)) : outcomeAll (Keeps z) (execPowerLoop x1 s) := by
  unfold execPowerLoop
  with_reducible refine outcomeAll_ite ?_ ?_
  · with_reducible exact outcomeAll_next (by assumption)
  · extract_lets +onlyGivenNames v1
    clear_value v1
    extract_lets +onlyGivenNames v2
    clear_value v2
    extract_lets +onlyGivenNames v3
    clear_value v3
    extract_lets +onlyGivenNames v4
    clear_value v4
    with_reducible exact outcomeAll_next (Keeps.upd (by assumption) rfl rfl rfl rfl)

theorem applyPair_keeps {z : State} {x1 x2 x3 s} (h4 : Keeps z (s)) : Keeps z (applyPair x1 x2 x3 s) := by
  unfold applyPair
  with_reducible exact State_setIsland_keeps (by assumption)

theorem commitIsland_keeps {z : State} {x1 s} (h2 : Keeps z (s)) : Keeps z (commitIsland x1 s) := by
  unfold commitIsland
  extract_lets +onlyGivenNames v1
  clear_value v1
  with_reducible refine Keeps.iteK ?_ ?_
  · with_reducible assumption
  · with_reducible refine Keeps.iteK ?_ ?_
    · with_reducible exact Keeps.upd (by assumption) rfl rfl rfl rfl
    · extract_lets +onlyGivenNames v2
      clear_value v2
      extract_lets +onlyGivenNames v3
      clear_value v3
      extract_lets +onlyGivenNames v4
      have k4 : Keeps z (v4) := by
        dsimp only [v4]
        with_reducible exact Keeps.upd (by assumption) rfl rfl rfl rfl
      clear_value v4
      with_reducible refine Keeps.iteK ?_ ?_
      · with_reducible exact applyPair_keeps (by assumption)
      · with_reducible exact State_setIsland_keeps (by assumption)

theorem writeIslclk_keeps {z : State} {x1 x2 s} (h3 : Keeps z (s)) : Keeps z (writeIslclk x1 x2 s) := by
  unfold writeIslclk
  extract_lets +onlyGivenNames v1
  clear_value v1
  extract_lets +onlyGivenNames v2
  clear_value v2
  extract_lets +onlyGivenNames v3
  clear_value v3
  extract_lets +onlyGivenNames v4
  have k4 : Keeps z (v4) := by
    dsimp only [v4]
    with_reducible refine Keeps.iteK ?_ ?_
    · with_reducible exact State_setIsland_keeps (by assumption)
    · with_reducible assumption
  clear_value v4
  extract_lets +onlyGivenNames v5
  clear_value v5
  extract_lets +onlyGivenNames v6
  have k6 : Keeps z (v6) := by
    dsimp only [v6]
    with_reducible exact Keeps.upd (by assumption) rfl rfl rfl rfl
  clear_value v6
  with_reducible refine Keeps.iteK ?_ ?_
  · with_reducible exact commitIsland_keeps (by assumption)
  · with_reducible assumption

theorem execIslandClockSwitch_keeps {z : State} {x1 x2 s} (h3 : Keeps z (s)) : outcomeAll (Keeps z) (execIslandClockSwitch x1 x2 s) := by
  unfold execIslandClockSwitch
  with_reducible refine outcomeAll_next ?_
  with_reducible apply hostWrite_keeps
  · intro _ _
    with_reducible exact writeIslclk_keeps (by assumption)
  · with_reducible assumption

theorem loseMain_keeps {z : State} {s} (h1 : Keeps z (s)) : Keeps z (loseMain s) := by
  have k := failUpdate_keeps h1
  have w := k.wf
  exact ⟨k.variant, k.pending, k.minSvn, fun x => by
    have := w x
    simp only [Memory.wf, Bool.and_eq_true] at this ⊢
    exact ⟨⟨⟨rfl, rfl⟩, this.1.2⟩, this.2⟩⟩

theorem stopModule_keeps {z : State} {x1 s} (h2 : Keeps z (s)) : Keeps z (stopModule x1 s) := by
  unfold stopModule
  extract_lets +onlyGivenNames v1
  clear_value v1
  extract_lets +onlyGivenNames v2
  have k2 : Keeps z (v2) := by
    dsimp only [v2]
    with_reducible exact setPhase_keeps (loseMain_keeps (queueEvent_keeps (copyEntry_keeps (by assumption))))
  clear_value v2
  with_reducible exact Keeps.upd (by assumption) rfl rfl rfl rfl

theorem execOvervoltageStop_keeps {z : State} {s} (h1 : Keeps z (s)) : outcomeAll (Keeps z) (execOvervoltageStop s) := by
  unfold execOvervoltageStop
  extract_lets +onlyGivenNames v1
  have k1 : ∀ y1, Keeps z (y1) → Keeps z (v1 y1) := by
    intro _ _
    dsimp only [v1]
    with_reducible exact Keeps.upd (by assumption) rfl rfl rfl rfl
  clear_value v1
  with_reducible refine outcomeAll_ite ?_ ?_
  · with_reducible refine outcomeAll_next ?_
    with_reducible apply k1
    with_reducible exact stopModule_keeps (by assumption)
  · with_reducible refine outcomeAll_next ?_
    with_reducible apply k1
    with_reducible assumption

theorem drainJobs_keeps {z : State} {s} (h1 : Keeps z (s)) : Keeps z (drainJobs s) := by
  unfold drainJobs
  extract_lets +onlyGivenNames v1
  clear_value v1
  extract_lets +onlyGivenNames v2
  have k2 : Keeps z (v2) := by
    dsimp only [v2]
    with_reducible exact Keeps.upd (by assumption) rfl rfl rfl rfl
  clear_value v2
  extract_lets +onlyGivenNames v3
  have k3 : Keeps z (v3) := by
    dsimp only [v3]
    with_reducible refine Keeps.foldl ?_ _ ?_
    · intro _ _
      intro _
      with_reducible refine Keeps.iteK ?_ ?_
      · with_reducible assumption
      · with_reducible exact preemptJob_keeps (by assumption)
    · with_reducible assumption
  clear_value v3
  extract_lets +onlyGivenNames v4
  clear_value v4
  with_reducible apply flushMerge_keeps
  with_reducible apply serveAll_keeps
  with_reducible refine Keeps.foldl ?_ _ ?_
  · intro _ _
    intro _
    with_reducible exact sendModerated_keeps (by assumption)
  · with_reducible assumption

theorem powerMain_keeps {z : State} {x1 s} (h2 : Keeps z (s)) : Keeps z (powerMain x1 s) := by
  unfold powerMain
  with_reducible refine Keeps.foldl ?_ _ ?_
  · intro _ _
    intro _
    extract_lets +onlyGivenNames v1
    clear_value v1
    split
    with_reducible exact State_setIsland_keeps (by assumption)
  · with_reducible assumption

theorem enterDormant_keeps {z : State} {s} (h1 : Keeps z (s)) : Keeps z (enterDormant s) := by
  unfold enterDormant
  extract_lets +onlyGivenNames v1
  have k1 : Keeps z (v1) := by
    dsimp only [v1]
    with_reducible exact powerMain_keeps (idleLinks_keeps (by assumption))
  clear_value v1
  with_reducible exact setPhase_keeps (Keeps.upd (by assumption) rfl rfl rfl rfl)

theorem goDormant_keeps {z : State} {s} (h1 : Keeps z (s)) : Keeps z (goDormant s) := by
  unfold goDormant
  extract_lets +onlyGivenNames v1
  have k1 : Keeps z (v1) := by
    dsimp only [v1]
    with_reducible exact drainJobs_keeps (by assumption)
  clear_value v1
  with_reducible refine Keeps.iteK ?_ ?_
  · with_reducible exact enterDormant_keeps (by assumption)
  · with_reducible assumption

theorem toD3hot_keeps {z : State} {s} (h1 : Keeps z (s)) : Keeps z (toD3hot s) := by
  unfold toD3hot
  with_reducible refine Keeps.iteK ?_ ?_
  · with_reducible assumption
  · extract_lets +onlyGivenNames v1
    clear_value v1
    extract_lets +onlyGivenNames v2
    have k2 : Keeps z (v2) := by
      dsimp only [v2]
      with_reducible exact Keeps.upd (by assumption) rfl rfl rfl rfl
    clear_value v2
    with_reducible refine Keeps.iteK ?_ ?_
    · with_reducible assumption
    · with_reducible exact goDormant_keeps (by assumption)

theorem execReserveCharged_keeps {z : State} {s} (h1 : Keeps z (s)) : outcomeAll (Keeps z) (execReserveCharged s) := by
  unfold execReserveCharged
  with_reducible refine outcomeAll_ite ?_ ?_
  · with_reducible exact outcomeAll_next (by assumption)
  · with_reducible exact outcomeAll_next (Keeps.upd (by assumption) rfl rfl rfl rfl)

theorem setClkreq_keeps {z : State} {s} (h1 : Keeps z (s)) : Keeps z (setClkreq s) := by
  unfold setClkreq
  with_reducible exact Keeps.upd (by assumption) rfl rfl rfl rfl

theorem execBoot_keeps {z : State} {x1 s} (h2 : Keeps z (s)) : outcomeAll (Keeps z) (execBoot x1 s) := by
  unfold execBoot
  with_reducible refine outcomeAll_ite ?_ ?_
  · with_reducible exact outcomeAll_next (by assumption)
  · extract_lets +onlyGivenNames v1
    clear_value v1
    extract_lets +onlyGivenNames v2
    extract_lets +onlyGivenNames v3
    have k3 : Keeps z (v3) := by
      dsimp only [v3]
      with_reducible exact Keeps.upd (by assumption) rfl rfl rfl rfl
    clear_value v3
    with_reducible exact outcomeAll_next (setClkreq_keeps (bootRom_keeps (by assumption)))

theorem logPower_keeps {z : State} {x1 x2 x3 s} (h4 : Keeps z (s)) : Keeps z (logPower x1 x2 x3 s) := by
  unfold logPower
  with_reducible exact logErr_keeps (by assumption)

theorem clearBents_keeps {z : State} {s} (h1 : Keeps z (s)) : Keeps z (clearBents s) := by
  unfold clearBents
  with_reducible refine Keeps.foldl ?_ _ ?_
  · intro _ _
    intro _
    with_reducible exact readyBent_keeps (by assumption)
  · with_reducible assumption

theorem wake_keeps {z : State} {s} (h1 : Keeps z (s)) : Keeps z (wake s) := by
  unfold wake
  extract_lets +onlyGivenNames v1
  have k1 : Keeps z (v1) := by
    dsimp only [v1]
    with_reducible exact setPhase_keeps (by assumption)
  clear_value v1
  extract_lets +onlyGivenNames v2
  extract_lets +onlyGivenNames v3
  have k3 : Keeps z (v3) := by
    dsimp only [v3]
    refine Keeps.updM ?_ ?_ ?_ ?_ ?_ ?_
    · with_reducible assumption
    · with_reducible exact id
    · exact fun _ => rfl
    · with_reducible exact id
    · with_reducible exact id
    · with_reducible exact Nat.le_refl _
  clear_value v3
  extract_lets +onlyGivenNames v4
  have k4 : Keeps z (v4) := by
    dsimp only [v4]
    with_reducible exact actAllHeld_keeps (wakeLinks_keeps (clearBents_keeps (powerMain_keeps (by assumption))))
  clear_value v4
  extract_lets +onlyGivenNames v5
  clear_value v5
  with_reducible exact Keeps.upd (by assumption) rfl rfl rfl rfl

theorem toD0_keeps {z : State} {s} (h1 : Keeps z (s)) : Keeps z (toD0 s) := by
  unfold toD0
  extract_lets +onlyGivenNames v1
  clear_value v1
  extract_lets +onlyGivenNames v2
  have k2 : Keeps z (v2) := by
    dsimp only [v2]
    with_reducible refine Keeps.iteK ?_ ?_
    · with_reducible exact Keeps.upd (by assumption) rfl rfl rfl rfl
    · with_reducible assumption
  clear_value v2
  with_reducible refine Keeps.iteK ?_ ?_
  · with_reducible assumption
  · with_reducible refine Keeps.iteK ?_ ?_
    · with_reducible exact wake_keeps (by assumption)
    · with_reducible refine Keeps.iteK ?_ ?_
      · with_reducible exact Keeps.upd (by assumption) rfl rfl rfl rfl
      · with_reducible assumption

theorem execPowerstateD0_keeps {z : State} {s} (h1 : Keeps z (s)) : outcomeAll (Keeps z) (execPowerstateD0 s) := by
  unfold execPowerstateD0
  with_reducible exact outcomeAll_next (toD0_keeps (by assumption))

theorem throttleStep_keeps {z : State} {x1 s} (h2 : Keeps z (s)) : Keeps z (throttleStep x1 s) := by
  unfold throttleStep
  extract_lets +onlyGivenNames v1
  clear_value v1
  extract_lets +onlyGivenNames v2
  clear_value v2
  extract_lets +onlyGivenNames v3
  clear_value v3
  with_reducible refine Keeps.iteK ?_ ?_
  · with_reducible refine Keeps.iteK ?_ ?_
    · with_reducible exact Keeps.upd (by assumption) rfl rfl rfl rfl
    · with_reducible refine Keeps.iteK ?_ ?_
      · extract_lets +onlyGivenNames v4
        clear_value v4
        extract_lets +onlyGivenNames v5
        have k5 : Keeps z (v5) := by
          dsimp only [v5]
          with_reducible exact Keeps.upd (by assumption) rfl rfl rfl rfl
        clear_value v5
        with_reducible refine Keeps.iteK ?_ ?_
        · with_reducible exact fireSrc_keeps (by assumption)
        · with_reducible assumption
      · with_reducible assumption
  · with_reducible refine Keeps.iteK ?_ ?_
    · with_reducible exact fireModule_keeps (logPower_keeps (Keeps.upd (by assumption) rfl rfl rfl rfl))
    · with_reducible assumption

theorem noteSensor_keeps {z : State} {s s2} (h1 : Keeps z (s)) (h2 : Keeps z (s2)) : Keeps z (noteSensor s s2) := by
  unfold noteSensor
  with_reducible refine Keeps.iteK ?_ ?_
  · with_reducible assumption
  · with_reducible exact queueEvent_keeps (by assumption)

theorem execSupplyWarning_keeps {z : State} {x1 x2 s} (h3 : Keeps z (s)) : outcomeAll (Keeps z) (execSupplyWarning x1 x2 s) := by
  unfold execSupplyWarning
  with_reducible refine outcomeAll_ite ?_ ?_
  · with_reducible exact outcomeAll_next (by assumption)
  · extract_lets +onlyGivenNames v1
    clear_value v1
    extract_lets +onlyGivenNames v2
    have k2 : Keeps z (v2) := by
      dsimp only [v2]
      with_reducible exact Keeps.upd (by assumption) rfl rfl rfl rfl
    clear_value v2
    with_reducible refine outcomeAll_ite ?_ ?_
    · with_reducible exact outcomeAll_next (by assumption)
    · with_reducible refine outcomeAll_next ?_
      with_reducible apply noteSensor_keeps
      · with_reducible assumption
      · with_reducible exact fireModule_keeps (logPower_keeps (Keeps.upd (by assumption) rfl rfl rfl rfl))

theorem execCascadeWakeRequest_keeps {z : State} {s} (h1 : Keeps z (s)) : outcomeAll (Keeps z) (execCascadeWakeRequest s) := by
  unfold execCascadeWakeRequest
  with_reducible refine outcomeAll_ite ?_ ?_
  · with_reducible exact outcomeAll_next (by assumption)
  · with_reducible refine outcomeAll_ite ?_ ?_
    · with_reducible exact outcomeAll_next (wake_keeps (by assumption))
    · with_reducible refine outcomeAll_ite ?_ ?_
      · with_reducible exact outcomeAll_next (Keeps.upd (by assumption) rfl rfl rfl rfl)
      · with_reducible exact outcomeAll_next (by assumption)

theorem trimClock_keeps {z : State} {s} (h1 : Keeps z (s)) : Keeps z (trimClock s) := by
  unfold trimClock
  extract_lets +onlyGivenNames v1
  clear_value v1
  with_reducible exact Keeps.upd (by assumption) rfl rfl rfl rfl

theorem powerDown_keeps {z : State} {x1 s} (h2 : Keeps z (s)) : Keeps z (powerDown x1 s) := by
  unfold powerDown
  split
  · with_reducible refine Keeps.iteK ?_ ?_
    · with_reducible assumption
    · with_reducible exact State_setIsland_keeps (by assumption)
  · with_reducible assumption

theorem mapBents_keeps {z : State} {x1 s} (h2 : Keeps z (s)) : Keeps z (mapBents x1 s) := by
  unfold mapBents
  extract_lets +onlyGivenNames v1
  clear_value v1
  extract_lets +onlyGivenNames v2
  have k2 : Keeps z (v2) := by
    dsimp only [v2]
    with_reducible refine Keeps.foldl ?_ _ ?_
    · intro _ _
      intro _
      with_reducible exact markRetired_keeps (by assumption)
    · with_reducible assumption
  clear_value v2
  with_reducible exact Keeps.upd (by assumption) rfl rfl rfl rfl

theorem raise_keeps {z : State} {x1 x2 x3 s} (h4 : Keeps z (s)) : Keeps z (raise x1 x2 x3 s) := by
  unfold raise
  extract_lets +onlyGivenNames v1
  clear_value v1
  extract_lets +onlyGivenNames v2
  have k2 : Keeps z (v2) := by
    dsimp only [v2]
    with_reducible exact Keeps.upd (by assumption) rfl rfl rfl rfl
  clear_value v2
  extract_lets +onlyGivenNames v3
  have k3 : Keeps z (v3) := by
    dsimp only [v3]
    with_reducible refine Keeps.iteK ?_ ?_
    · with_reducible exact startLinks_keeps (by assumption)
    · with_reducible assumption
  clear_value v3
  extract_lets +onlyGivenNames v4
  have k4 : Keeps z (v4) := by
    dsimp only [v4]
    with_reducible refine Keeps.iteK ?_ ?_
    · with_reducible exact trimClock_keeps (by assumption)
    · with_reducible assumption
  clear_value v4
  extract_lets +onlyGivenNames v5
  clear_value v5
  extract_lets +onlyGivenNames v6
  have k6 : Keeps z (v6) := by
    dsimp only [v6]
    with_reducible refine Keeps.iteK ?_ ?_
    · with_reducible exact Keeps.upd (by assumption) rfl rfl rfl rfl
    · with_reducible assumption
  clear_value v6
  extract_lets +onlyGivenNames v7
  have k7 : Keeps z (v7) := by
    dsimp only [v7]
    with_reducible refine Keeps.iteK ?_ ?_
    · with_reducible exact mapBents_keeps (by assumption)
    · with_reducible assumption
  clear_value v7
  extract_lets +onlyGivenNames v8
  have k8 : Keeps z (v8) := by
    dsimp only [v8]
    with_reducible refine Keeps.iteK ?_ ?_
    · with_reducible exact clearBents_keeps (by assumption)
    · with_reducible assumption
  clear_value v8
  extract_lets +onlyGivenNames v9
  have k9 : Keeps z (v9) := by
    dsimp only [v9]
    with_reducible refine Keeps.iteK ?_ ?_
    · with_reducible exact setPhase_keeps (by assumption)
    · with_reducible assumption
  clear_value v9
  with_reducible refine Keeps.iteK ?_ ?_
  · with_reducible assumption
  · extract_lets +onlyGivenNames v10
    have k10 : Keeps z (v10) := by
      dsimp only [v10]
      with_reducible exact logErr_keeps (by assumption)
    clear_value v10
    with_reducible exact Keeps.upd (by assumption) rfl rfl rfl rfl

theorem execIslandClockStop_keeps {z : State} {x1 s} (h2 : Keeps z (s)) : outcomeAll (Keeps z) (execIslandClockStop x1 s) := by
  unfold execIslandClockStop
  with_reducible refine outcomeAll_ite ?_ ?_
  · with_reducible exact outcomeAll_next (State_setIsland_keeps (by assumption))
  · with_reducible exact outcomeAll_next (by assumption)

theorem execThermalSample_keeps {z : State} {x1 x2 x3 s} (h4 : Keeps z (s)) : outcomeAll (Keeps z) (execThermalSample x1 x2 x3 s) := by
  unfold execThermalSample
  with_reducible refine outcomeAll_ite ?_ ?_
  · with_reducible exact outcomeAll_next (by assumption)
  · extract_lets +onlyGivenNames v1
    clear_value v1
    extract_lets +onlyGivenNames v2
    have k2 : Keeps z (v2) := by
      dsimp only [v2]
      with_reducible exact Keeps.upd (by assumption) rfl rfl rfl rfl
    clear_value v2
    with_reducible refine outcomeAll_ite ?_ ?_
    · with_reducible exact outcomeAll_next (stopModule_keeps (by assumption))
    · with_reducible refine outcomeAll_next ?_
      with_reducible apply noteSensor_keeps
      · with_reducible assumption
      · with_reducible exact throttleStep_keeps (by assumption)

theorem execBentPowerDown_keeps {z : State} {x1 s} (h2 : Keeps z (s)) : outcomeAll (Keeps z) (execBentPowerDown x1 s) := by
  unfold execBentPowerDown
  with_reducible refine outcomeAll_ite ?_ ?_
  · exact trivial
  · extract_lets +onlyGivenNames v1
    clear_value v1
    extract_lets +onlyGivenNames v2
    with_reducible refine outcomeAll_ite ?_ ?_
    · with_reducible exact outcomeAll_next (Keeps.upd (by assumption) rfl rfl rfl rfl)
    · with_reducible exact outcomeAll_next (by assumption)

theorem execTrimHold_keeps {z : State} {x1 x2 s} (h3 : Keeps z (s)) : outcomeAll (Keeps z) (execTrimHold x1 x2 s) := by
  unfold execTrimHold
  with_reducible refine outcomeAll_ite ?_ ?_
  · with_reducible exact outcomeAll_next (by assumption)
  · extract_lets +onlyGivenNames v1
    clear_value v1
    with_reducible exact outcomeAll_next (logPower_keeps (Keeps.upd (by assumption) rfl rfl rfl rfl))

theorem execJournalWriteComplete_keeps {z : State} {s} (h1 : Keeps z (s)) : outcomeAll (Keeps z) (execJournalWriteComplete s) := by
  unfold execJournalWriteComplete
  with_reducible refine outcomeAll_ite ?_ ?_
  · with_reducible exact outcomeAll_next (by assumption)
  · with_reducible exact outcomeAll_next (fireModule_keeps (Keeps.upd (by assumption) rfl rfl rfl rfl))

theorem powerUp_keeps {z : State} {x1 s} (h2 : Keeps z (s)) : Keeps z (powerUp x1 s) := by
  unfold powerUp
  extract_lets +onlyGivenNames v1
  clear_value v1
  split
  extract_lets +onlyGivenNames v2
  have k2 : Keeps z (v2) := by
    dsimp only [v2]
    with_reducible exact State_setIsland_keeps (by assumption)
  clear_value v2
  split
  · with_reducible refine Keeps.iteK ?_ ?_
    · with_reducible exact readyBent_keeps (by assumption)
    · with_reducible assumption
  · with_reducible assumption

theorem execPowerstateD3hot_keeps {z : State} {s} (h1 : Keeps z (s)) : outcomeAll (Keeps z) (execPowerstateD3hot s) := by
  unfold execPowerstateD3hot
  with_reducible exact outcomeAll_next (toD3hot_keeps (by assumption))

theorem inputGone_keeps {z : State} {s} (h1 : Keeps z (s)) : Keeps z (inputGone s) := by
  unfold inputGone
  with_reducible exact setClkreq_keeps (Keeps.upd (by assumption) rfl rfl rfl rfl)

theorem execPerstAssert_keeps {z : State} {s} (h1 : Keeps z (s)) : outcomeAll (Keeps z) (execPerstAssert s) := by
  unfold execPerstAssert
  with_reducible refine outcomeAll_ite ?_ ?_
  · with_reducible exact outcomeAll_next (by assumption)
  · extract_lets +onlyGivenNames v1
    have k1 : Keeps z (v1) := by
      dsimp only [v1]
      with_reducible exact loseMain_keeps (by assumption)
    clear_value v1
    extract_lets +onlyGivenNames v2
    have k2 : Keeps z (v2) := by
      dsimp only [v2]
      with_reducible exact setPhase_keeps (by assumption)
    clear_value v2
    with_reducible exact outcomeAll_next (Keeps.upd (by assumption) rfl rfl rfl rfl)

theorem execPowerBrakeRelease_keeps {z : State} {s} (h1 : Keeps z (s)) : outcomeAll (Keeps z) (execPowerBrakeRelease s) := by
  unfold execPowerBrakeRelease
  with_reducible refine outcomeAll_ite ?_ ?_
  · with_reducible exact outcomeAll_next (by assumption)
  · with_reducible refine outcomeAll_next ?_
    with_reducible apply noteSensor_keeps
    · with_reducible assumption
    · with_reducible exact fireSrc_keeps (Keeps.upd (by assumption) rfl rfl rfl rfl)

theorem execSequencerAdmission_keeps {z : State} {s} (h1 : Keeps z (s)) : outcomeAll (Keeps z) (execSequencerAdmission s) := by
  unfold execSequencerAdmission
  split
  · with_reducible exact outcomeAll_next (by assumption)
  · extract_lets +onlyGivenNames v1
    clear_value v1
    extract_lets +onlyGivenNames v2
    have k2 : Keeps z (v2) := by
      dsimp only [v2]
      with_reducible exact Keeps.upd (by assumption) rfl rfl rfl rfl
    clear_value v2
    with_reducible refine outcomeAll_next ?_
    with_reducible refine Keeps.iteK ?_ ?_
    · with_reducible exact powerUp_keeps (by assumption)
    · with_reducible exact powerDown_keeps (by assumption)

theorem execVauxLoss_keeps {z : State} {s} (h1 : Keeps z (s)) : outcomeAll (Keeps z) (execVauxLoss s) := by
  unfold execVauxLoss
  extract_lets +onlyGivenNames v1
  have k1 : Keeps z (v1) := by
    dsimp only [v1]
    with_reducible exact loseMain_keeps (by assumption)
  clear_value v1
  with_reducible exact outcomeAll_next (setClkreq_keeps (Keeps.upd (by assumption) rfl rfl rfl rfl))

theorem execPrecharge_keeps {z : State} {x1 s} (h2 : Keeps z (s)) : outcomeAll (Keeps z) (execPrecharge x1 s) := by
  unfold execPrecharge
  extract_lets +onlyGivenNames v1
  extract_lets +onlyGivenNames v2
  have k2 : Keeps z (v2) := by
    dsimp only [v2]
    with_reducible exact Keeps.upd (by assumption) rfl rfl rfl rfl
  extract_lets +onlyGivenNames v3
  have k3 : Keeps z (v3) := by
    dsimp only [v3]
    with_reducible exact setPhase_keeps (by assumption)
  clear_value v3
  extract_lets +onlyGivenNames v4
  clear_value v4
  extract_lets +onlyGivenNames v5
  have k5 : Keeps z (v5) := by
    dsimp only [v5]
    with_reducible refine Keeps.iteK ?_ ?_
    · with_reducible exact Keeps.upd (by assumption) rfl rfl rfl rfl
    · with_reducible assumption
  clear_value v5
  with_reducible exact outcomeAll_next (setClkreq_keeps (by assumption))

theorem bootIfNeeded_keeps {z : State} {s} (h1 : Keeps z (s)) : Keeps z (bootIfNeeded s) := by
  unfold bootIfNeeded
  with_reducible refine Keeps.iteK ?_ ?_
  · with_reducible exact bootRom_keeps (by assumption)
  · with_reducible assumption

theorem execSupplyWarningEnd_keeps {z : State} {s} (h1 : Keeps z (s)) : outcomeAll (Keeps z) (execSupplyWarningEnd s) := by
  unfold execSupplyWarningEnd
  with_reducible refine outcomeAll_ite ?_ ?_
  · with_reducible exact outcomeAll_next (by assumption)
  · extract_lets +onlyGivenNames v1
    clear_value v1
    extract_lets +onlyGivenNames v2
    have k2 : Keeps z (v2) := by
      dsimp only [v2]
      with_reducible exact Keeps.upd (by assumption) rfl rfl rfl rfl
    clear_value v2
    with_reducible refine outcomeAll_next ?_
    with_reducible apply noteSensor_keeps
    · with_reducible assumption
    · with_reducible exact fireSrc_keeps (by assumption)

theorem execPowerBrake_keeps {z : State} {s} (h1 : Keeps z (s)) : outcomeAll (Keeps z) (execPowerBrake s) := by
  unfold execPowerBrake
  with_reducible refine outcomeAll_ite ?_ ?_
  · with_reducible exact outcomeAll_next (by assumption)
  · with_reducible refine outcomeAll_next ?_
    with_reducible apply noteSensor_keeps
    · with_reducible assumption
    · with_reducible exact fireModule_keeps (logPower_keeps (Keeps.upd (by assumption) rfl rfl rfl rfl))

theorem execSafeStop_keeps {z : State} {s} (h1 : Keeps z (s)) : outcomeAll (Keeps z) (execSafeStop s) := by
  unfold execSafeStop
  with_reducible refine outcomeAll_ite ?_ ?_
  · with_reducible exact outcomeAll_next (inputGone_keeps (stopModule_keeps (by assumption)))
  · with_reducible exact outcomeAll_next (inputGone_keeps (by assumption))

theorem execClkswForced_keeps {z : State} {x1 s} (h2 : Keeps z (s)) : outcomeAll (Keeps z) (execClkswForced x1 s) := by
  unfold execClkswForced
  split
  · with_reducible refine outcomeAll_ite ?_ ?_
    · extract_lets +onlyGivenNames v1
      have k1 : Keeps z (v1) := by
        dsimp only [v1]
        with_reducible exact applyPair_keeps (by assumption)
      clear_value v1
      with_reducible exact outcomeAll_next (fireModule_keeps (logPower_keeps (Keeps.upd (by assumption) rfl rfl rfl rfl)))
    · with_reducible exact outcomeAll_next (by assumption)
  · with_reducible exact outcomeAll_next (by assumption)

theorem execRaising_keeps {z : State} {x1 x2 x3 s} (h4 : Keeps z (s)) : outcomeAll (Keeps z) (execRaising x1 x2 x3 s) := by
  unfold execRaising
  extract_lets +onlyGivenNames v1
  clear_value v1
  extract_lets +onlyGivenNames v2
  with_reducible refine outcomeAll_ite ?_ ?_
  · with_reducible exact outcomeAll_next (by assumption)
  · extract_lets +onlyGivenNames v3
    have k3 : Keeps z (v3) := by
      dsimp only [v3]
      with_reducible exact bootIfNeeded_keeps (by assumption)
    clear_value v3
    with_reducible refine outcomeAll_ite ?_ ?_
    · with_reducible exact outcomeAll_next (by assumption)
    · with_reducible exact outcomeAll_next (raise_keeps (by assumption))

theorem execCascadeDormantRequest_keeps {z : State} {s} (h1 : Keeps z (s)) : outcomeAll (Keeps z) (execCascadeDormantRequest s) := by
  unfold execCascadeDormantRequest
  with_reducible refine outcomeAll_ite ?_ ?_
  · with_reducible exact outcomeAll_next (goDormant_keeps (by assumption))
  · with_reducible exact outcomeAll_next (by assumption)

/-! ### Mailbox -/

theorem mbEnd_keeps {z : State} {x1 s} (h2 : Keeps z (s)) : Keeps z (mbEnd x1 s) := by
  unfold mbEnd
  with_reducible exact Keeps.upd (by assumption) rfl rfl rfl rfl

theorem withBuffer_keeps {z : State} {x1 x2 x3 x4 s} (hf4 : ∀ y1 y2, Keeps z (y2) → Keeps z (x4 y1 y2)) (h5 : Keeps z (s)) : Keeps z (withBuffer x1 x2 x3 x4 s) := by
  unfold withBuffer
  with_reducible refine Keeps.iteK ?_ ?_
  · with_reducible apply hf4
    with_reducible assumption
  · split
    · with_reducible refine HostXl.waitK (by assumption) ?_
      with_reducible exact hostXl_keeps (by assumption)
    · with_reducible apply mbEnd_keeps
      with_reducible refine HostXl.failK (by assumption) ?_
      with_reducible exact hostXl_keeps (by assumption)
    · with_reducible refine Keeps.iteK ?_ ?_
      · with_reducible apply hf4
        with_reducible assumption
      · split
        · with_reducible apply mbEnd_keeps
          with_reducible refine Pair.sndK (by assumption) ?_
          with_reducible exact takeHostBad_keeps (by assumption)
        · with_reducible apply hf4
          with_reducible refine Pair.sndK (by assumption) ?_
          with_reducible exact takeHostBad_keeps (by assumption)

theorem putBytes_keeps {z : State} {x1 x2 s} (h3 : Keeps z (s)) : Keeps z (putBytes x1 x2 s) := by
  unfold putBytes
  with_reducible apply ordered_keeps
  with_reducible refine Keeps.foldl ?_ _ ?_
  · intro _ _
    intro _
    with_reducible exact putHost_keeps (by assumption)
  · with_reducible assumption

theorem jread_keeps {z : State} {s} (h1 : Keeps z (s)) : Keeps z (jread s) := by
  unfold jread
  extract_lets +onlyGivenNames v1
  clear_value v1
  with_reducible refine Keeps.iteK ?_ ?_
  · with_reducible exact mbEnd_keeps (by assumption)
  · with_reducible apply withBuffer_keeps
    · intro _ _
      intro _
      with_reducible exact mbEnd_keeps (putBytes_keeps (by assumption))
    · with_reducible assumption

theorem fwWrite_keeps {z : State} {x1 s} (h2 : Keeps z (s)) : Keeps z (fwWrite x1 s) := by
  unfold fwWrite
  extract_lets +onlyGivenNames v1
  clear_value v1
  with_reducible refine Keeps.iteK ?_ ?_
  · with_reducible exact mbEnd_keeps (by assumption)
  · with_reducible apply withBuffer_keeps
    · intro _ _
      intro _
      split
      with_reducible apply mbEnd_keeps
      with_reducible refine Pair.sndK (by assumption) ?_
      with_reducible exact flashChunk_keeps (by assumption)
    · with_reducible assumption

theorem mbRes_keeps {z : State} {x1 x2 x3 s} (h4 : Keeps z (s)) : Keeps z (mbRes x1 x2 x3 s) := by
  unfold mbRes
  with_reducible exact Keeps.upd (by assumption) rfl rfl rfl rfl

theorem fwVerify_keeps {z : State} {s} (h1 : Keeps z (s)) : Keeps z (fwVerify s) := by
  unfold fwVerify
  with_reducible refine Keeps.iteK ?_ ?_
  · with_reducible exact mbEnd_keeps (by assumption)
  · extract_lets +onlyGivenNames v1
    clear_value v1
    extract_lets +onlyGivenNames v2
    clear_value v2
    with_reducible exact mbRes_keeps (by assumption)

theorem mailboxGo_keeps {z : State} {s} (h1 : Keeps z (s)) : Keeps z (mailboxGo s) := by
  unfold mailboxGo
  extract_lets +onlyGivenNames v1
  clear_value v1
  with_reducible refine Keeps.iteK ?_ ?_
  · with_reducible assumption
  · with_reducible exact fireModule_keeps (Keeps.upd (by assumption) rfl rfl rfl rfl)

theorem execMailboxComplete_keeps {z : State} {s} (h1 : Keeps z (s)) : outcomeAll (Keeps z) (execMailboxComplete s) := by
  unfold execMailboxComplete
  extract_lets +onlyGivenNames v1
  clear_value v1
  extract_lets +onlyGivenNames v2
  have k2 : ∀ y1, Keeps z (v2 y1) := by
    intro _
    dsimp only [v2]
    with_reducible refine Keeps.iteK ?_ ?_
    · with_reducible exact sendVec_keeps (Keeps.upd (by assumption) rfl rfl rfl rfl)
    · with_reducible exact Keeps.upd (by assumption) rfl rfl rfl rfl
  clear_value v2
  with_reducible refine outcomeAll_ite ?_ ?_
  · with_reducible exact outcomeAll_next (by assumption)
  · split
    · with_reducible refine outcomeAll_next ?_
      with_reducible apply k2
    · with_reducible refine outcomeAll_ite ?_ ?_
      · with_reducible exact outcomeAll_next (by assumption)
      · with_reducible refine outcomeAll_next ?_
        with_reducible apply k2

theorem jwriteUnit_keeps {z : State} {s} (h1 : Keeps z (s)) : Keeps z (jwriteUnit s) := by
  unfold jwriteUnit
  extract_lets +onlyGivenNames v1
  clear_value v1
  with_reducible apply withBuffer_keeps
  · intro _ _
    intro _
    extract_lets +onlyGivenNames v2
    clear_value v2
    extract_lets +onlyGivenNames v3
    extract_lets +onlyGivenNames v4
    have k4 : Keeps z (v4) := by
      dsimp only [v4]
      refine Keeps.updM ?_ ?_ ?_ ?_ ?_ ?_
      · with_reducible assumption
      · with_reducible exact id
      · with_reducible exact id
      · with_reducible exact id
      · with_reducible exact fun h => twf_foldl _ (fun _ _ h => twf_tset _ _ h) _ h
      · with_reducible exact Nat.le_refl _
    clear_value v4
    with_reducible refine Keeps.iteK ?_ ?_
    · with_reducible exact mbEnd_keeps (by assumption)
    · with_reducible assumption
  · with_reducible assumption

theorem jwrite_keeps {z : State} {s} (h1 : Keeps z (s)) : Keeps z (jwrite s) := by
  unfold jwrite
  extract_lets +onlyGivenNames v1
  clear_value v1
  with_reducible refine Keeps.iteK ?_ ?_
  · with_reducible exact mbEnd_keeps (by assumption)
  · with_reducible refine Keeps.iteK ?_ ?_
    · with_reducible exact mbEnd_keeps (logRefused_keeps (by assumption))
    · with_reducible refine Keeps.iteK ?_ ?_
      · with_reducible exact mbEnd_keeps (by assumption)
      · with_reducible exact jwriteUnit_keeps (by assumption)

theorem mailbox_keeps {z : State} {x1 x2 s} (hf2 : ∀ y1, Keeps z (y1) → Keeps z (x2 y1)) (h3 : Keeps z (s)) : Keeps z (mailbox x1 x2 s) := by
  unfold mailbox
  with_reducible refine Keeps.iteK ?_ ?_
  · with_reducible apply hf2
    with_reducible assumption
  · with_reducible assumption

theorem execSvnCommit_keeps {z : State} {x1 s} (h2 : Keeps z (s)) : outcomeAll (Keeps z) (execSvnCommit x1 s) := by
  unfold execSvnCommit
  with_reducible refine outcomeAll_next ?_
  with_reducible apply mailbox_keeps
  · intro _ _
    split
    with_reducible apply mbRes_keeps
    with_reducible refine Pair.sndK (by assumption) ?_
    with_reducible exact commitSvn_keeps (by assumption)
  · with_reducible assumption

theorem journalWrite_keeps {z : State} {x1 s} (hf1 : ∀ y1, Keeps z (y1) → Keeps z (x1 y1)) (h2 : Keeps z (s)) : Keeps z (journalWrite x1 s) := by
  unfold journalWrite
  with_reducible refine Keeps.iteK ?_ ?_
  · with_reducible exact mbEnd_keeps (logRefused_keeps (by assumption))
  · with_reducible apply mbEnd_keeps
    with_reducible apply hf1
    with_reducible exact Keeps.upd (by assumption) rfl rfl rfl rfl

theorem clearRetired_keeps {z : State} {s} (h1 : Keeps z (s)) : Keeps z (clearRetired s) := by
  unfold clearRetired
  extract_lets +onlyGivenNames v1
  clear_value v1
  with_reducible refine Keeps.iteK ?_ ?_
  · with_reducible apply journalWrite_keeps
    · intro _ _
      with_reducible exact Keeps.upd (by assumption) rfl rfl rfl rfl
    · with_reducible assumption
  · with_reducible refine Keeps.iteK ?_ ?_
    · with_reducible exact mbEnd_keeps (by assumption)
    · with_reducible apply journalWrite_keeps
      · intro _ _
        with_reducible exact Keeps.upd (by assumption) rfl rfl rfl rfl
      · with_reducible assumption

theorem execFwWrite_keeps {z : State} {x1 s} (h2 : Keeps z (s)) : outcomeAll (Keeps z) (execFwWrite x1 s) := by
  unfold execFwWrite
  with_reducible refine outcomeAll_next ?_
  with_reducible apply mailbox_keeps
  · intro _ _
    with_reducible exact fwWrite_keeps (by assumption)
  · with_reducible assumption

theorem sensors_keeps {z : State} {s} (h1 : Keeps z (s)) : Keeps z (sensors s) := by
  unfold sensors
  extract_lets +onlyGivenNames v1
  clear_value v1
  with_reducible refine Keeps.iteK ?_ ?_
  · with_reducible exact mbEnd_keeps (by assumption)
  · extract_lets +onlyGivenNames v2
    clear_value v2
    with_reducible apply withBuffer_keeps
    · intro _ _
      intro _
      with_reducible exact mbEnd_keeps (putBytes_keeps (State_drawn_keeps (by assumption)))
    · with_reducible assumption

theorem execFwVerify_keeps {z : State} {s} (h1 : Keeps z (s)) : outcomeAll (Keeps z) (execFwVerify s) := by
  unfold execFwVerify
  with_reducible refine outcomeAll_next ?_
  with_reducible apply mailbox_keeps
  · intro _ _
    with_reducible exact fwVerify_keeps (by assumption)
  · with_reducible assumption

theorem logRead_keeps {z : State} {s} (h1 : Keeps z (s)) : Keeps z (logRead s) := by
  unfold logRead
  extract_lets +onlyGivenNames v1
  clear_value v1
  with_reducible refine Keeps.iteK ?_ ?_
  · with_reducible exact mbEnd_keeps (by assumption)
  · extract_lets +onlyGivenNames v2
    clear_value v2
    with_reducible apply withBuffer_keeps
    · intro _ _
      intro _
      with_reducible exact mbRes_keeps (putBytes_keeps (by assumption))
    · with_reducible assumption

theorem execLogRead_keeps {z : State} {s} (h1 : Keeps z (s)) : outcomeAll (Keeps z) (execLogRead s) := by
  unfold execLogRead
  with_reducible refine outcomeAll_next ?_
  with_reducible apply mailbox_keeps
  · intro _ _
    with_reducible exact logRead_keeps (by assumption)
  · with_reducible assumption

theorem execJread_keeps {z : State} {s} (h1 : Keeps z (s)) : outcomeAll (Keeps z) (execJread s) := by
  unfold execJread
  with_reducible refine outcomeAll_next ?_
  with_reducible apply mailbox_keeps
  · intro _ _
    with_reducible exact jread_keeps (by assumption)
  · with_reducible assumption

theorem execFwActivate_keeps {z : State} {x1 s} (h2 : Keeps z (s)) : outcomeAll (Keeps z) (execFwActivate x1 s) := by
  unfold execFwActivate
  with_reducible refine outcomeAll_next ?_
  with_reducible apply mailbox_keeps
  · intro _ _
    split
    with_reducible apply mbEnd_keeps
    with_reducible refine Pair.sndK (by assumption) ?_
    with_reducible exact activateSlot_keeps (by assumption)
  · with_reducible assumption

theorem execClearRetired_keeps {z : State} {s} (h1 : Keeps z (s)) : outcomeAll (Keeps z) (execClearRetired s) := by
  unfold execClearRetired
  with_reducible refine outcomeAll_next ?_
  with_reducible apply mailbox_keeps
  · intro _ _
    with_reducible exact clearRetired_keeps (by assumption)
  · with_reducible assumption

theorem runDiscard_keeps {z : State} {s} (h1 : Keeps z (s)) : Keeps z (runDiscard s) := by
  unfold runDiscard
  extract_lets +onlyGivenNames v1
  clear_value v1
  with_reducible refine Keeps.iteK ?_ ?_
  · with_reducible exact mbEnd_keeps (by assumption)
  · with_reducible apply journalWrite_keeps
    · intro _ _
      with_reducible exact Keeps.upd (by assumption) rfl rfl rfl rfl
    · with_reducible assumption

theorem execRunDiscard_keeps {z : State} {s} (h1 : Keeps z (s)) : outcomeAll (Keeps z) (execRunDiscard s) := by
  unfold execRunDiscard
  with_reducible refine outcomeAll_next ?_
  with_reducible apply mailbox_keeps
  · intro _ _
    with_reducible exact runDiscard_keeps (by assumption)
  · with_reducible assumption

theorem execJwrite_keeps {z : State} {s} (h1 : Keeps z (s)) : outcomeAll (Keeps z) (execJwrite s) := by
  unfold execJwrite
  with_reducible refine outcomeAll_next ?_
  with_reducible apply mailbox_keeps
  · intro _ _
    with_reducible exact jwrite_keeps (by assumption)
  · with_reducible assumption

theorem execSetSleep_keeps {z : State} {s} (h1 : Keeps z (s)) : outcomeAll (Keeps z) (execSetSleep s) := by
  unfold execSetSleep
  with_reducible refine outcomeAll_next ?_
  with_reducible apply mailbox_keeps
  · intro _ _
    with_reducible exact mbEnd_keeps (Keeps.upd (by assumption) rfl rfl rfl rfl)
  · with_reducible assumption

theorem writeStwd_keeps {z : State} {x1 x2 s} (h3 : Keeps z (s)) : Keeps z (writeStwd x1 x2 s) := by
  unfold writeStwd
  extract_lets +onlyGivenNames v1
  clear_value v1
  extract_lets +onlyGivenNames v2
  have k2 : ∀ y1, Keeps z (v2 y1) := by
    intro _
    dsimp only [v2]
    with_reducible exact Keeps.upd (by assumption) rfl rfl rfl rfl
  clear_value v2
  split
  · extract_lets +onlyGivenNames v3
    have k3 : Keeps z (v3) := by
      dsimp only [v3]
      with_reducible apply k2
    clear_value v3
    with_reducible refine Keeps.iteK ?_ ?_
    · with_reducible exact mailboxGo_keeps (by assumption)
    · with_reducible assumption
  · with_reducible apply k2
  · with_reducible apply k2
  · with_reducible apply k2
  · with_reducible apply k2
  · with_reducible apply k2
  · with_reducible apply k2
  · with_reducible assumption

theorem execSensors_keeps {z : State} {s} (h1 : Keeps z (s)) : outcomeAll (Keeps z) (execSensors s) := by
  unfold execSensors
  with_reducible refine outcomeAll_next ?_
  with_reducible apply mailbox_keeps
  · intro _ _
    with_reducible exact sensors_keeps (by assumption)
  · with_reducible assumption

/-! ### Manage -/

theorem request_keeps {z : State} {x1 s} (hf1 : ∀ y1, Keeps z (y1) → Keeps z (x1 y1)) (h2 : Keeps z (s)) : Keeps z (request x1 s) := by
  unfold request
  with_reducible refine Keeps.iteK ?_ ?_
  · with_reducible assumption
  · with_reducible apply hf1
    with_reducible exact fireModule_keeps (by assumption)

theorem respond_keeps {z : State} {x1 x2 s} (h3 : Keeps z (s)) : Keeps z (respond x1 x2 s) := by
  unfold respond
  with_reducible exact Keeps.upd (by assumption) rfl rfl rfl rfl

theorem monitor_keeps {z : State} {x1 s} (hf1 : ∀ y1, Keeps z (y1) → Keeps z (x1 y1)) (h2 : Keeps z (s)) : Keeps z (monitor x1 s) := by
  unfold monitor
  with_reducible apply request_keeps
  · intro _ _
    with_reducible refine Keeps.iteK ?_ ?_
    · with_reducible exact respond_keeps (by assumption)
    · with_reducible apply hf1
      with_reducible assumption
  · with_reducible assumption

theorem execGetpdr_keeps {z : State} {x1 s} (h2 : Keeps z (s)) : outcomeAll (Keeps z) (execGetpdr x1 s) := by
  unfold execGetpdr
  split
  · with_reducible refine outcomeAll_next ?_
    with_reducible apply monitor_keeps
    · intro _ _
      with_reducible exact respond_keeps (by assumption)
    · with_reducible assumption
  · with_reducible refine outcomeAll_next ?_
    with_reducible apply monitor_keeps
    · intro _ _
      with_reducible exact respond_keeps (by assumption)
    · with_reducible assumption

theorem setUpdate_keeps {z : State} {x1 s} (h2 : Keeps z (s)) : Keeps z (setUpdate x1 s) := by
  unfold setUpdate
  with_reducible exact Keeps.upd (by assumption) rfl rfl rfl rfl

theorem verifyStep_keeps {z : State} {x1 s} (h2 : Keeps z (s)) : Keeps z (verifyStep x1 s) := by
  unfold verifyStep
  extract_lets +onlyGivenNames v1
  clear_value v1
  with_reducible refine Keeps.iteK ?_ ?_
  · with_reducible exact respond_keeps (setUpdate_keeps (by assumption))
  · with_reducible exact respond_keeps (setUpdate_keeps (freeLock_keeps (by assumption)))

theorem inUpdate_keeps {z : State} {x1 x2 s} (hf2 : ∀ y1, Keeps z (y1) → Keeps z (x2 y1)) (h3 : Keeps z (s)) : Keeps z (inUpdate x1 x2 s) := by
  unfold inUpdate
  with_reducible apply request_keeps
  · intro _ _
    with_reducible refine Keeps.iteK ?_ ?_
    · with_reducible apply hf2
      with_reducible assumption
    · with_reducible exact respond_keeps (by assumption)
  · with_reducible assumption

theorem execUpdatecomponent_keeps {z : State} {s} (h1 : Keeps z (s)) : outcomeAll (Keeps z) (execUpdatecomponent s) := by
  unfold execUpdatecomponent
  with_reducible refine outcomeAll_next ?_
  with_reducible apply inUpdate_keeps
  · intro _ _
    with_reducible exact respond_keeps (setUpdate_keeps (by assumption))
  · with_reducible assumption

theorem beginUpdate_keeps {z : State} {s} (h1 : Keeps z (s)) : Keeps z (beginUpdate s) := by
  unfold beginUpdate
  with_reducible refine Keeps.iteK ?_ ?_
  · with_reducible exact respond_keeps (by assumption)
  · with_reducible refine Keeps.iteK ?_ ?_
    · with_reducible exact respond_keeps (by assumption)
    · with_reducible exact respond_keeps (setUpdate_keeps (takeLock_keeps (by assumption)))

theorem execRequestupdate_keeps {z : State} {s} (h1 : Keeps z (s)) : outcomeAll (Keeps z) (execRequestupdate s) := by
  unfold execRequestupdate
  with_reducible refine outcomeAll_next ?_
  with_reducible apply request_keeps
  · intro _ _
    with_reducible exact beginUpdate_keeps (by assumption)
  · with_reducible assumption

theorem execSetBrakecapEffecter_keeps {z : State} {x1 s} (h2 : Keeps z (s)) : outcomeAll (Keeps z) (execSetBrakecapEffecter x1 s) := by
  unfold execSetBrakecapEffecter
  with_reducible refine outcomeAll_next ?_
  with_reducible apply monitor_keeps
  · intro _ _
    with_reducible refine Keeps.iteK ?_ ?_
    · with_reducible exact respond_keeps (Keeps.upd (by assumption) rfl rfl rfl rfl)
    · with_reducible exact respond_keeps (by assumption)
  · with_reducible assumption

theorem takeData_keeps {z : State} {x1 x2 x3 s} (h4 : Keeps z (s)) : Keeps z (takeData x1 x2 x3 s) := by
  unfold takeData
  with_reducible refine Keeps.iteK ?_ ?_
  · with_reducible exact respond_keeps (by assumption)
  · split
    with_reducible refine Keeps.iteK ?_ ?_
    · with_reducible apply respond_keeps
      with_reducible refine Pair.sndK (by assumption) ?_
      with_reducible exact flashChunk_keeps (by assumption)
    · with_reducible apply respond_keeps
      with_reducible apply setUpdate_keeps
      with_reducible refine Pair.sndK (by assumption) ?_
      with_reducible exact flashChunk_keeps (by assumption)

theorem execGetEndpointId_keeps {z : State} {s} (h1 : Keeps z (s)) : outcomeAll (Keeps z) (execGetEndpointId s) := by
  unfold execGetEndpointId
  with_reducible refine outcomeAll_next ?_
  with_reducible apply request_keeps
  · intro _ _
    with_reducible exact respond_keeps (by assumption)
  · with_reducible assumption

theorem execGetpldmtypes_keeps {z : State} {s} (h1 : Keeps z (s)) : outcomeAll (Keeps z) (execGetpldmtypes s) := by
  unfold execGetpldmtypes
  with_reducible refine outcomeAll_next ?_
  with_reducible apply request_keeps
  · intro _ _
    with_reducible exact respond_keeps (by assumption)
  · with_reducible assumption

theorem execQuerydeviceidentifiers_keeps {z : State} {s} (h1 : Keeps z (s)) : outcomeAll (Keeps z) (execQuerydeviceidentifiers s) := by
  unfold execQuerydeviceidentifiers
  with_reducible refine outcomeAll_next ?_
  with_reducible apply request_keeps
  · intro _ _
    with_reducible exact respond_keeps (by assumption)
  · with_reducible assumption

theorem readNumeric_keeps {z : State} {x1 s} (h2 : Keeps z (s)) : Keeps z (readNumeric x1 s) := by
  unfold readNumeric
  with_reducible refine Keeps.iteK ?_ ?_
  · with_reducible exact respond_keeps (by assumption)
  · split
    · with_reducible exact respond_keeps (State_drawn_keeps (by assumption))
    · with_reducible exact respond_keeps (by assumption)

theorem execGetsensorreading_keeps {z : State} {x1 s} (h2 : Keeps z (s)) : outcomeAll (Keeps z) (execGetsensorreading x1 s) := by
  unfold execGetsensorreading
  with_reducible refine outcomeAll_next ?_
  with_reducible apply monitor_keeps
  · intro _ _
    with_reducible exact readNumeric_keeps (by assumption)
  · with_reducible assumption

theorem execSettid_keeps {z : State} {x1 s} (h2 : Keeps z (s)) : outcomeAll (Keeps z) (execSettid x1 s) := by
  unfold execSettid
  with_reducible refine outcomeAll_next ?_
  with_reducible apply request_keeps
  · intro _ _
    with_reducible refine Keeps.iteK ?_ ?_
    · with_reducible exact respond_keeps (by assumption)
    · with_reducible exact respond_keeps (Keeps.upd (by assumption) rfl rfl rfl rfl)
  · with_reducible assumption

theorem execGettid_keeps {z : State} {s} (h1 : Keeps z (s)) : outcomeAll (Keeps z) (execGettid s) := by
  unfold execGettid
  with_reducible refine outcomeAll_next ?_
  with_reducible apply request_keeps
  · intro _ _
    with_reducible exact respond_keeps (by assumption)
  · with_reducible assumption

theorem execActivatefirmware_keeps {z : State} {x1 s} (h2 : Keeps z (s)) : outcomeAll (Keeps z) (execActivatefirmware x1 s) := by
  unfold execActivatefirmware
  with_reducible refine outcomeAll_next ?_
  with_reducible apply inUpdate_keeps
  · intro _ _
    split
    with_reducible refine Keeps.iteK ?_ ?_
    · with_reducible apply respond_keeps
      with_reducible apply setUpdate_keeps
      with_reducible refine Pair.sndK (by assumption) ?_
      with_reducible exact activateSlot_keeps (by assumption)
    · with_reducible apply respond_keeps
      with_reducible apply setUpdate_keeps
      with_reducible refine Pair.sndK (by assumption) ?_
      with_reducible exact activateSlot_keeps (by assumption)
  · with_reducible assumption

theorem execSetCapEffecter_keeps {z : State} {x1 s} (h2 : Keeps z (s)) : outcomeAll (Keeps z) (execSetCapEffecter x1 s) := by
  unfold execSetCapEffecter
  with_reducible refine outcomeAll_next ?_
  with_reducible apply monitor_keeps
  · intro _ _
    with_reducible refine Keeps.iteK ?_ ?_
    · with_reducible exact respond_keeps (Keeps.upd (by assumption) rfl rfl rfl rfl)
    · with_reducible exact respond_keeps (by assumption)
  · with_reducible assumption

theorem setEid_keeps {z : State} {x1 s} (h2 : Keeps z (s)) : Keeps z (setEid x1 s) := by
  unfold setEid
  with_reducible refine Keeps.iteK ?_ ?_
  · with_reducible exact respond_keeps (by assumption)
  · with_reducible exact respond_keeps (Keeps.upd (by assumption) rfl rfl rfl rfl)

theorem execSetEndpointId_keeps {z : State} {x1 s} (h2 : Keeps z (s)) : outcomeAll (Keeps z) (execSetEndpointId x1 s) := by
  unfold execSetEndpointId
  with_reducible refine outcomeAll_next ?_
  with_reducible apply request_keeps
  · intro _ _
    with_reducible exact setEid_keeps (by assumption)
  · with_reducible assumption

theorem execCancelupdatecomponent_keeps {z : State} {s} (h1 : Keeps z (s)) : outcomeAll (Keeps z) (execCancelupdatecomponent s) := by
  unfold execCancelupdatecomponent
  with_reducible refine outcomeAll_next ?_
  with_reducible apply inUpdate_keeps
  · intro _ _
    extract_lets +onlyGivenNames v1
    have k1 : Keeps z (v1) := by
      dsimp only [v1]
      with_reducible refine Keeps.iteK ?_ ?_
      · with_reducible exact eraseInactive_keeps (by assumption)
      · with_reducible assumption
    clear_value v1
    with_reducible exact respond_keeps (setUpdate_keeps (Keeps.upd (by assumption) rfl rfl rfl rfl))
  · with_reducible assumption

theorem execGetstatesensorreadings_keeps {z : State} {x1 s} (h2 : Keeps z (s)) : outcomeAll (Keeps z) (execGetstatesensorreadings x1 s) := by
  unfold execGetstatesensorreadings
  with_reducible refine outcomeAll_next ?_
  with_reducible apply monitor_keeps
  · intro _ _
    with_reducible refine Keeps.iteK ?_ ?_
    · with_reducible exact respond_keeps (by assumption)
    · with_reducible exact respond_keeps (by assumption)
  · with_reducible assumption

theorem execSvnCommitEffecter_keeps {z : State} {x1 x2 s} (h3 : Keeps z (s)) : outcomeAll (Keeps z) (execSvnCommitEffecter x1 x2 s) := by
  unfold execSvnCommitEffecter
  with_reducible refine outcomeAll_next ?_
  with_reducible apply monitor_keeps
  · intro _ _
    with_reducible refine Keeps.iteK ?_ ?_
    · split
      with_reducible apply respond_keeps
      with_reducible refine Pair.sndK (by assumption) ?_
      with_reducible exact commitSvn_keeps (by assumption)
    · with_reducible exact respond_keeps (by assumption)
  · with_reducible assumption

theorem execPasscomponenttable_keeps {z : State} {s} (h1 : Keeps z (s)) : outcomeAll (Keeps z) (execPasscomponenttable s) := by
  unfold execPasscomponenttable
  with_reducible refine outcomeAll_next ?_
  with_reducible apply inUpdate_keeps
  · intro _ _
    with_reducible exact respond_keeps (setUpdate_keeps (by assumption))
  · with_reducible assumption

theorem execRequestfirmwaredata_keeps {z : State} {x1 x2 x3 s} (h4 : Keeps z (s)) : outcomeAll (Keeps z) (execRequestfirmwaredata x1 x2 x3 s) := by
  unfold execRequestfirmwaredata
  with_reducible refine outcomeAll_next ?_
  with_reducible apply inUpdate_keeps
  · intro _ _
    with_reducible exact takeData_keeps (by assumption)
  · with_reducible assumption

theorem execVerifycomplete_keeps {z : State} {s} (h1 : Keeps z (s)) : outcomeAll (Keeps z) (execVerifycomplete s) := by
  unfold execVerifycomplete
  with_reducible refine outcomeAll_next ?_
  with_reducible apply inUpdate_keeps
  · intro _ _
    with_reducible exact verifyStep_keeps (by assumption)
  · with_reducible assumption

theorem execGetfirmwareparameters_keeps {z : State} {s} (h1 : Keeps z (s)) : outcomeAll (Keeps z) (execGetfirmwareparameters s) := by
  unfold execGetfirmwareparameters
  with_reducible refine outcomeAll_next ?_
  with_reducible apply request_keeps
  · intro _ _
    with_reducible exact respond_keeps (by assumption)
  · with_reducible assumption

theorem execGetpdrrepositoryinfo_keeps {z : State} {s} (h1 : Keeps z (s)) : outcomeAll (Keeps z) (execGetpdrrepositoryinfo s) := by
  unfold execGetpdrrepositoryinfo
  with_reducible refine outcomeAll_next ?_
  with_reducible apply monitor_keeps
  · intro _ _
    with_reducible exact respond_keeps (by assumption)
  · with_reducible assumption

theorem execTransfercomplete_keeps {z : State} {s} (h1 : Keeps z (s)) : outcomeAll (Keeps z) (execTransfercomplete s) := by
  unfold execTransfercomplete
  with_reducible refine outcomeAll_next ?_
  with_reducible apply inUpdate_keeps
  · intro _ _
    with_reducible exact respond_keeps (setUpdate_keeps (by assumption))
  · with_reducible assumption

theorem execGetMctpVersionSupport_keeps {z : State} {x1 s} (h2 : Keeps z (s)) : outcomeAll (Keeps z) (execGetMctpVersionSupport x1 s) := by
  unfold execGetMctpVersionSupport
  with_reducible refine outcomeAll_next ?_
  with_reducible apply request_keeps
  · intro _ _
    split
    · with_reducible exact respond_keeps (by assumption)
    · with_reducible exact respond_keeps (by assumption)
  · with_reducible assumption

theorem poll_keeps {z : State} {x1 s} (h2 : Keeps z (s)) : Keeps z (poll x1 s) := by
  unfold poll
  extract_lets +onlyGivenNames v1
  clear_value v1
  with_reducible exact respond_keeps (Keeps.upd (by assumption) rfl rfl rfl rfl)

theorem execGetnumericeffectervalue_keeps {z : State} {x1 s} (h2 : Keeps z (s)) : outcomeAll (Keeps z) (execGetnumericeffectervalue x1 s) := by
  unfold execGetnumericeffectervalue
  with_reducible refine outcomeAll_next ?_
  with_reducible apply monitor_keeps
  · intro _ _
    with_reducible refine Keeps.iteK ?_ ?_
    · with_reducible exact respond_keeps (by assumption)
    · with_reducible refine Keeps.iteK ?_ ?_
      · with_reducible exact respond_keeps (by assumption)
      · with_reducible refine Keeps.iteK ?_ ?_
        · with_reducible exact respond_keeps (by assumption)
        · with_reducible exact respond_keeps (by assumption)
  · with_reducible assumption

theorem execGetstatus_keeps {z : State} {s} (h1 : Keeps z (s)) : outcomeAll (Keeps z) (execGetstatus s) := by
  unfold execGetstatus
  with_reducible refine outcomeAll_next ?_
  with_reducible apply request_keeps
  · intro _ _
    with_reducible exact respond_keeps (by assumption)
  · with_reducible assumption

theorem execGetEndpointUuid_keeps {z : State} {s} (h1 : Keeps z (s)) : outcomeAll (Keeps z) (execGetEndpointUuid s) := by
  unfold execGetEndpointUuid
  with_reducible refine outcomeAll_next ?_
  with_reducible apply request_keeps
  · intro _ _
    with_reducible exact respond_keeps (by assumption)
  · with_reducible assumption

theorem execGetpldmversion_keeps {z : State} {x1 s} (h2 : Keeps z (s)) : outcomeAll (Keeps z) (execGetpldmversion x1 s) := by
  unfold execGetpldmversion
  with_reducible refine outcomeAll_next ?_
  with_reducible apply request_keeps
  · intro _ _
    with_reducible refine Keeps.iteK ?_ ?_
    · with_reducible exact respond_keeps (by assumption)
    · with_reducible exact respond_keeps (by assumption)
  · with_reducible assumption

theorem execCancelupdate_keeps {z : State} {s} (h1 : Keeps z (s)) : outcomeAll (Keeps z) (execCancelupdate s) := by
  unfold execCancelupdate
  with_reducible refine outcomeAll_next ?_
  with_reducible apply inUpdate_keeps
  · intro _ _
    with_reducible exact respond_keeps (setUpdate_keeps (failUpdate_keeps (by assumption)))
  · with_reducible assumption

theorem execGetMessageTypeSupport_keeps {z : State} {s} (h1 : Keeps z (s)) : outcomeAll (Keeps z) (execGetMessageTypeSupport s) := by
  unfold execGetMessageTypeSupport
  with_reducible refine outcomeAll_next ?_
  with_reducible apply request_keeps
  · intro _ _
    with_reducible exact respond_keeps (by assumption)
  · with_reducible assumption

theorem execGetpldmcommands_keeps {z : State} {x1 s} (h2 : Keeps z (s)) : outcomeAll (Keeps z) (execGetpldmcommands x1 s) := by
  unfold execGetpldmcommands
  with_reducible refine outcomeAll_next ?_
  with_reducible apply request_keeps
  · intro _ _
    with_reducible refine Keeps.iteK ?_ ?_
    · with_reducible exact respond_keeps (by assumption)
    · with_reducible exact respond_keeps (by assumption)
  · with_reducible assumption

theorem execPollforplatformeventmessage_keeps {z : State} {x1 s} (h2 : Keeps z (s)) : outcomeAll (Keeps z) (execPollforplatformeventmessage x1 s) := by
  unfold execPollforplatformeventmessage
  with_reducible refine outcomeAll_next ?_
  with_reducible apply monitor_keeps
  · intro _ _
    with_reducible exact poll_keeps (by assumption)
  · with_reducible assumption

theorem execApplycomplete_keeps {z : State} {s} (h1 : Keeps z (s)) : outcomeAll (Keeps z) (execApplycomplete s) := by
  unfold execApplycomplete
  with_reducible refine outcomeAll_next ?_
  with_reducible apply inUpdate_keeps
  · intro _ _
    with_reducible exact verifyStep_keeps (by assumption)
  · with_reducible assumption

theorem execWakeRequest_keeps {z : State} {x1 s} (h2 : Keeps z (s)) : outcomeAll (Keeps z) (execWakeRequest x1 s) := by
  unfold execWakeRequest
  with_reducible refine outcomeAll_next ?_
  with_reducible apply monitor_keeps
  · intro _ _
    with_reducible refine Keeps.iteK ?_ ?_
    · with_reducible exact respond_keeps (requestWake_keeps (by assumption))
    · with_reducible exact respond_keeps (by assumption)
  · with_reducible assumption

/-! ### Registers -/

theorem writeGctl_keeps {z : State} {x1 x2 s} (h3 : Keeps z (s)) : Keeps z (writeGctl x1 x2 s) := by
  unfold writeGctl
  split
  · with_reducible exact Keeps.upd (by assumption) rfl rfl rfl rfl
  · with_reducible exact Keeps.upd (by assumption) rfl rfl rfl rfl
  · with_reducible assumption

theorem writeMsixControl_keeps {z : State} {x1 x2 s} (h3 : Keeps z (s)) : Keeps z (writeMsixControl x1 x2 s) := by
  unfold writeMsixControl
  extract_lets +onlyGivenNames v1
  clear_value v1
  extract_lets +onlyGivenNames v2
  have k2 : Keeps z (v2) := by
    dsimp only [v2]
    with_reducible exact State_setFn_keeps (by assumption)
  clear_value v2
  with_reducible refine Keeps.iteK ?_ ?_
  · with_reducible exact State_setFn_keeps (by assumption)
  · with_reducible refine Keeps.iteK ?_ ?_
    · with_reducible exact clearFmask_keeps (by assumption)
    · with_reducible assumption

theorem writePwrcap_keeps {z : State} {x1 s} (h2 : Keeps z (s)) : Keeps z (writePwrcap x1 s) := by
  unfold writePwrcap
  extract_lets +onlyGivenNames v1
  clear_value v1
  with_reducible exact Keeps.upd (by assumption) rfl rfl rfl rfl

theorem writeRefctl_keeps {z : State} {x1 s} (h2 : Keeps z (s)) : Keeps z (writeRefctl x1 s) := by
  unfold writeRefctl
  with_reducible refine Keeps.iteK ?_ ?_
  · with_reducible assumption
  · with_reducible exact trimClock_keeps (Keeps.upd (by assumption) rfl rfl rfl rfl)

theorem writePair_keeps {z : State} {x1 x2 s} (h3 : Keeps z (s)) : Keeps z (writePair x1 x2 s) := by
  unfold writePair
  split
  · extract_lets +onlyGivenNames v1
    clear_value v1
    extract_lets +onlyGivenNames v2
    have k2 : Keeps z (v2) := by
      dsimp only [v2]
      with_reducible exact Keeps.upd (by assumption) rfl rfl rfl rfl
    clear_value v2
    with_reducible refine Keeps.iteK ?_ ?_
    · with_reducible exact clearPairCounters_keeps (by assumption)
    · with_reducible assumption
  · with_reducible exact writeCmptest_keeps (by assumption)
  · with_reducible assumption

theorem writeCommand_keeps {z : State} {x1 x2 s} (h3 : Keeps z (s)) : Keeps z (writeCommand x1 x2 s) := by
  unfold writeCommand
  with_reducible refine Keeps.iteK ?_ ?_
  · with_reducible exact resumeBus_keeps (by assumption)
  · with_reducible exact State_setFn_keeps (by assumption)

theorem writeScrf_keeps {z : State} {x1 x2 s} (h3 : Keeps z (s)) : Keeps z (writeScrf x1 x2 s) := by
  unfold writeScrf
  with_reducible refine Keeps.iteK ?_ ?_
  · with_reducible exact Keeps.upd (by assumption) rfl rfl rfl rfl
  · with_reducible refine Keeps.iteK ?_ ?_
    · with_reducible exact writeLinkcfg_keeps (by assumption)
    · with_reducible assumption

theorem writeVfEnable_keeps {z : State} {x1 s} (h2 : Keeps z (s)) : Keeps z (writeVfEnable x1 s) := by
  unfold writeVfEnable
  with_reducible refine Keeps.iteK ?_ ?_
  · with_reducible assumption
  · with_reducible refine Keeps.iteK ?_ ?_
    · extract_lets +onlyGivenNames v1
      extract_lets +onlyGivenNames v2
      have k2 : Keeps z (v2) := by
        dsimp only [v2]
        with_reducible exact Keeps.upd (by assumption) rfl rfl rfl rfl
      with_reducible refine Keeps.foldl ?_ _ ?_
      · intro _ _
        intro _
        with_reducible exact State_setFn_keeps (by assumption)
      · with_reducible assumption
    · extract_lets +onlyGivenNames v3
      clear_value v3
      extract_lets +onlyGivenNames v4
      have k4 : Keeps z (v4) := by
        dsimp only [v4]
        with_reducible exact Keeps.upd (by assumption) rfl rfl rfl rfl
      clear_value v4
      with_reducible exact resetScope_keeps (by assumption)

theorem writeMemc_keeps {z : State} {x1 x2 s} (h3 : Keeps z (s)) : Keeps z (writeMemc x1 x2 s) := by
  unfold writeMemc
  extract_lets +onlyGivenNames v1
  clear_value v1
  extract_lets +onlyGivenNames v2
  clear_value v2
  extract_lets +onlyGivenNames v3
  extract_lets +onlyGivenNames v4
  have k4 : ∀ y1, Keeps z (v4 y1) := by
    intro _
    dsimp only [v4]
    with_reducible exact Keeps.upd (by assumption) rfl rfl rfl rfl
  clear_value v4
  extract_lets +onlyGivenNames v5
  have k5 : ∀ y1, Keeps z (v5 y1) := by
    intro _
    dsimp only [v5]
    with_reducible exact Keeps.upd (by assumption) rfl rfl rfl rfl
  clear_value v5
  split
  · with_reducible apply k4
  · with_reducible apply k4
  · with_reducible exact writeTrctl_keeps (by assumption)
  · with_reducible apply k5
  · with_reducible apply k5
  · with_reducible apply k5
  · with_reducible apply k5
  · with_reducible exact writeEccctl_keeps (by assumption)
  · extract_lets +onlyGivenNames v6
    clear_value v6
    extract_lets +onlyGivenNames v7
    clear_value v7
    extract_lets +onlyGivenNames v8
    clear_value v8
    with_reducible refine Keeps.iteK ?_ ?_
    · with_reducible assumption
    · split
      · with_reducible exact State_setRegion_keeps (by assumption)
      · with_reducible exact State_setRegion_keeps (by assumption)
      · with_reducible exact hostYrattr_keeps (by assumption)
      · with_reducible assumption

theorem writeErrl_keeps {z : State} {x1 x2 s} (h3 : Keeps z (s)) : Keeps z (writeErrl x1 x2 s) := by
  unfold writeErrl
  split
  · with_reducible exact Keeps.upd (by assumption) rfl rfl rfl rfl
  · extract_lets +onlyGivenNames v1
    have k1 : Keeps z (v1) := by
      dsimp only [v1]
      with_reducible refine Keeps.iteK ?_ ?_
      · with_reducible exact clearErrl_keeps (by assumption)
      · with_reducible assumption
    clear_value v1
    with_reducible refine Keeps.iteK ?_ ?_
    · with_reducible exact popErrl_keeps (by assumption)
    · with_reducible assumption
  · with_reducible exact Keeps.upd (by assumption) rfl rfl rfl rfl
  · with_reducible assumption

theorem writePwevt_keeps {z : State} {x1 s} (h2 : Keeps z (s)) : Keeps z (writePwevt x1 s) := by
  unfold writePwevt
  extract_lets +onlyGivenNames v1
  clear_value v1
  with_reducible exact Keeps.upd (by assumption) rfl rfl rfl rfl

theorem writePwck_keeps {z : State} {x1 x2 s} (h3 : Keeps z (s)) : Keeps z (writePwck x1 x2 s) := by
  unfold writePwck
  split
  · with_reducible exact writePwrcap_keeps (by assumption)
  · extract_lets +onlyGivenNames v1
    clear_value v1
    with_reducible refine Keeps.iteK ?_ ?_
    · with_reducible exact Keeps.upd (by assumption) rfl rfl rfl rfl
    · with_reducible assumption
  · with_reducible exact writePwevt_keeps (by assumption)
  · with_reducible exact writeRefctl_keeps (by assumption)
  · with_reducible exact Keeps.upd (by assumption) rfl rfl rfl rfl
  · with_reducible exact writeIslclk_keeps (by assumption)
  · with_reducible assumption

theorem writeKnock_keeps {z : State} {x1 x2 x3 s} (h4 : Keeps z (s)) : Keeps z (writeKnock x1 x2 x3 s) := by
  unfold writeKnock
  with_reducible refine Keeps.iteK ?_ ?_
  · with_reducible exact knock_keeps (by assumption)
  · with_reducible assumption

theorem writeVfBlock_keeps {z : State} {x1 x2 x3 s} (h4 : Keeps z (s)) : Keeps z (writeVfBlock x1 x2 x3 s) := by
  unfold writeVfBlock
  with_reducible refine Keeps.iteK ?_ ?_
  · with_reducible exact writeAdmq_keeps (by assumption)
  · with_reducible refine Keeps.iteK ?_ ?_
    · with_reducible exact writeDbpg_keeps (by assumption)
    · with_reducible refine Keeps.iteK ?_ ?_
      · with_reducible exact writeKnock_keeps (by assumption)
      · with_reducible refine Keeps.iteK ?_ ?_
        · with_reducible exact writeWin_keeps (by assumption)
        · with_reducible assumption

theorem writePfBlock_keeps {z : State} {x1 x2 s} (h3 : Keeps z (s)) : Keeps z (writePfBlock x1 x2 s) := by
  unfold writePfBlock
  with_reducible refine Keeps.iteK ?_ ?_
  · with_reducible exact writeGctl_keeps (by assumption)
  · with_reducible refine Keeps.iteK ?_ ?_
    · with_reducible exact writeMemc_keeps (by assumption)
    · with_reducible refine Keeps.iteK ?_ ?_
      · with_reducible exact writeErrl_keeps (by assumption)
      · with_reducible refine Keeps.iteK ?_ ?_
        · with_reducible exact writePwck_keeps (by assumption)
        · with_reducible refine Keeps.iteK ?_ ?_
          · with_reducible exact writeScrf_keeps (by assumption)
          · with_reducible refine Keeps.iteK ?_ ?_
            · with_reducible exact writePair_keeps (by assumption)
            · with_reducible refine Keeps.iteK ?_ ?_
              · with_reducible exact writeStwd_keeps (by assumption)
              · with_reducible exact writeVfBlock_keeps (by assumption)

theorem writeBar0_keeps {z : State} {x1 x2 x3 s} (h4 : Keeps z (s)) : Keeps z (writeBar0 x1 x2 x3 s) := by
  unfold writeBar0
  with_reducible refine Keeps.iteK ?_ ?_
  · with_reducible refine Keeps.iteK ?_ ?_
    · with_reducible exact writeStwd_keeps (by assumption)
    · with_reducible assumption
  · with_reducible apply hostWrite_keeps
    · intro _ _
      split
      · with_reducible exact writePfBlock_keeps (by assumption)
      · with_reducible exact writeVfBlock_keeps (by assumption)
    · with_reducible assumption

theorem writePmcsr_keeps {z : State} {x1 s} (h2 : Keeps z (s)) : Keeps z (writePmcsr x1 s) := by
  unfold writePmcsr
  extract_lets +onlyGivenNames v1
  clear_value v1
  extract_lets +onlyGivenNames v2
  have k2 : Keeps z (v2) := by
    dsimp only [v2]
    with_reducible apply putCfg_keeps
    with_reducible refine Keeps.iteK ?_ ?_
    · with_reducible exact Keeps.upd (by assumption) rfl rfl rfl rfl
    · with_reducible assumption
  clear_value v2
  with_reducible refine Keeps.iteK ?_ ?_
  · with_reducible exact toD3hot_keeps (by assumption)
  · with_reducible refine Keeps.iteK ?_ ?_
    · with_reducible refine Keeps.iteK ?_ ?_
      · with_reducible exact toD0_keeps (by assumption)
      · with_reducible assumption
    · with_reducible assumption

theorem writePfConfig_keeps {z : State} {x1 x2 s} (h3 : Keeps z (s)) : Keeps z (writePfConfig x1 x2 s) := by
  unfold writePfConfig
  split
  · with_reducible exact writePmcsr_keeps (by assumption)
  · with_reducible exact Keeps.upd (by assumption) rfl rfl rfl rfl
  · with_reducible exact clearAer_keeps (by assumption)
  · with_reducible exact clearAer_keeps (by assumption)
  · with_reducible exact writeVfEnable_keeps (putCfg_keeps (by assumption))
  · extract_lets +onlyGivenNames v1
    clear_value v1
    with_reducible refine Keeps.iteK ?_ ?_
    · with_reducible assumption
    · with_reducible exact Keeps.upd (by assumption) rfl rfl rfl rfl
  · with_reducible exact Keeps.upd (by assumption) rfl rfl rfl rfl
  · with_reducible exact Keeps.upd (by assumption) rfl rfl rfl rfl
  · with_reducible exact Keeps.upd (by assumption) rfl rfl rfl rfl
  · with_reducible exact putCfg_keeps (by assumption)

theorem writeConfig_keeps {z : State} {x1 x2 x3 s} (h4 : Keeps z (s)) : Keeps z (writeConfig x1 x2 x3 s) := by
  unfold writeConfig
  with_reducible refine Keeps.iteK ?_ ?_
  · with_reducible assumption
  · split
    · with_reducible exact writeCommand_keeps (putCfg_keeps (by assumption))
    · with_reducible exact writeMsixControl_keeps (by assumption)
    · with_reducible refine Keeps.iteK ?_ ?_
      · with_reducible exact writePfConfig_keeps (by assumption)
      · with_reducible exact putCfg_keeps (by assumption)

theorem execRegisterWrite_keeps {z : State} {x1 x2 x3 x4 s} (h5 : Keeps z (s)) : outcomeAll (Keeps z) (execRegisterWrite x1 x2 x3 x4 s) := by
  unfold execRegisterWrite
  extract_lets +onlyGivenNames v1
  clear_value v1
  with_reducible refine outcomeAll_ite ?_ ?_
  · with_reducible refine outcomeAll_next ?_
    with_reducible refine Keeps.iteK ?_ ?_
    · with_reducible exact unsupported_keeps (by assumption)
    · with_reducible assumption
  · split
    · with_reducible exact outcomeAll_next (writeBar0_keeps (by assumption))
    · with_reducible refine outcomeAll_next ?_
      with_reducible apply hostWrite_keeps
      · intro _ _
        with_reducible exact writeMsix_keeps (by assumption)
      · with_reducible assumption
    · with_reducible exact outcomeAll_next (writeConfig_keeps (by assumption))

end Sys2Proof.Machine
end

