-- ==== Sys2Proof/Laws/Load.lean ====
section
/-! SUPPORT. What a load of one word leaves of the core that makes it, and when it answers the word in memory. -/
namespace Sys2Proof.Machine
/-- From s to t core k's registers stay, its count and buffer do not grow, and nothing that holds or stops it moves. -/
structure Steady (k : Nat) (s t : State) : Prop where
  arch : t.arch k = s.arch k
  stop : (t.core k).stop = (s.core k).stop
  split : t.split k = s.split k
  since : (t.core k).since ≤ (s.core k).since
  stores : (t.core k).stores.length ≤ (s.core k).stores.length
  pair : t.pair = s.pair
  replay : (s.core k).replay = [] → (t.core k).replay = []

variable {k : Nat} {s t u : State}

theorem Steady.refl (s : State) : Steady k s s := ⟨rfl, rfl, rfl, Nat.le_refl _, Nat.le_refl _, rfl, id⟩
theorem Steady.trans (h : Steady k s t) (g : Steady k t u) : Steady k s u :=
  ⟨g.arch.trans h.arch, g.stop.trans h.stop, g.split.trans h.split, Nat.le_trans g.since h.since, Nat.le_trans g.stores h.stores,
   g.pair.trans h.pair, fun e => g.replay (h.replay e)⟩
theorem Steady.of_quiet (q : Quiet s t) : Steady k s t := by
  have h := q.core_eq k
  exact ⟨by unfold State.arch; rw [h], by rw [h], q.split_eq k, Nat.le_of_eq (by rw [h]), Nat.le_of_eq (by rw [h]), q.pair, fun e => by rw [h]; exact e⟩
theorem Steady.calm (h : Steady k s t) (C : Calm k s) : Calm k t :=
  ⟨by rw [h.arch]; exact C.flight, by rw [h.arch]; exact C.shadow, by rw [h.arch]; exact C.loop,
   by have := h.since; have := h.stores; rw [h.split]; rcases C.ckpt with h | h
      · exact .inl h
      · exact .inr ⟨by omega, by omega⟩,
   by rw [h.stop]; exact C.stop, h.replay C.replay⟩
theorem Steady.tested (h : Steady k s t) : testArmed k t = testArmed k s := by
  unfold testArmed State.physOf; rw [h.pair, h.split]

theorem setHost_steady {v} : Steady k s { s with host := v } := ⟨rfl, rfl, rfl, Nat.le_refl _, Nat.le_refl _, rfl, id⟩
theorem putHost_steady (a v n : Nat) : ∀ s, Steady k s (putHost a v n s) := by
  induction n generalizing a v with
  | zero => exact fun s => Steady.refl s
  | succ n ih => exact fun s => setHost_steady.trans (ih _ _ _)
theorem setBent_steady {l b} (h : b.split = (s.bent l).split) : Steady k s (s.setBent l b) := by
  refine ⟨rfl, rfl, ?_, Nat.le_refl _, Nat.le_refl _, rfl, id⟩
  unfold State.split State.bent State.setBent
  by_cases e : k / 2 = l
  · subst e; simp [h, State.bent]
  · simp [tget_tset, e]
theorem writeSmall_steady (b p w) : Steady k s (writeSmall b p w s) := by
  cases p with
  | dev a => exact Steady.refl s
  | yard a => exact ⟨rfl, rfl, rfl, Nat.le_refl _, Nat.le_refl _, rfl, id⟩
  | bench a => exact setBent_steady rfl
  | host a => exact (putHost_steady _ _ _ _).trans ⟨rfl, rfl, rfl, Nat.le_refl _, Nat.le_refl _, rfl, id⟩
theorem foldl_steady {α : Type} {f : State → α → State} (h : ∀ s x, Steady k s (f s x)) (l : List α) : ∀ s, Steady k s (l.foldl f s) := by
  induction l with
  | nil => exact fun s => Steady.refl s
  | cons x l ih => exact fun s => (h s x).trans (ih _)
theorem writePlaces_steady (b : Nat) (ws : List (Place × Word)) (s : State) : Steady k s (writePlaces b ws s) := by
  unfold writePlaces
  refine Steady.trans (foldl_steady (fun s x => ?_) _ _) (foldl_steady (fun s x => writeSmall_steady _ _ _) _ _)
  split
  · exact Steady.of_quiet (blkWrite_quiet (Quiet.refl _))
  · exact Steady.refl _
theorem lineUpdate_steady (l : Nat) (ws : List (Place × Word)) : ∀ s, Steady k s (lineUpdate l ws s) := by
  induction ws with
  | nil => exact fun s => Steady.refl s
  | cons x ws ih =>
    intro s
    obtain ⟨p, w⟩ := x
    cases p with
    | dev a =>
      simp only [lineUpdate]
      split
      · exact ih _
      · refine Steady.trans ?_ (ih _)
        exact setBent_steady rfl
    | yard a => exact ih _
    | bench a => exact ih _
    | host a => exact ih _
theorem performEntry_steady (e : StoreEntry) (s : State) : Steady k s (performEntry k e s) :=
  (writePlaces_steady _ _ _).trans (lineUpdate_steady _ _ _)

/-- A checkpoint at which no test is armed and nothing is in a shadow. -/
theorem checkpoint_steady (C : (s.arch k).shadow = []) (T : testArmed k s = false) : Steady k s (checkpoint k s) := by
  unfold checkpoint
  split
  · exact Steady.refl s
  · rw [T]
    have C' : (s.core k).arch.shadow = [] := C
    simp only [Bool.false_and, Bool.false_eq_true, if_false, C', ne_eq, not_true]
    exact ⟨by simp [State.arch], by simp, rfl, by simp, by simp, rfl, fun _ => by simp⟩

theorem setStores_steady {es} (h : es.length ≤ (s.core k).stores.length) : Steady k s (s.setCore k { s.core k with stores := es }) :=
  ⟨by simp [State.arch], by simp, rfl, by simp, by simpa using h, rfl, fun e => by simpa using e⟩
theorem drainAll_steady (C : (s.arch k).shadow = []) (T : testArmed k s = false) : Steady k s (drainAll k s) := by
  unfold drainAll
  refine (checkpoint_steady C T).trans ?_
  exact (setStores_steady (by simp)).trans (foldl_steady (fun s x => performEntry_steady x s) _ _)
theorem drainTo_steady (ps : List Place) (n : Nat) : ∀ s, Steady k s (drainTo k ps n s) := by
  induction n with
  | zero => exact fun s => Steady.refl s
  | succ n ih =>
    intro s
    simp only [drainTo]
    split
    · exact Steady.refl s
    · rename_i e es h
      split
      · exact ((setStores_steady (by rw [h]; simp)).trans (performEntry_steady e _)).trans (ih _)
      · exact Steady.refl s
theorem drainFor_steady (ps : List Place) (C : (s.arch k).shadow = []) (T : testArmed k s = false) : Steady k s (drainFor k ps s) := by
  unfold drainFor
  split
  · exact drainTo_steady _ _ _
  · exact drainAll_steady C T
theorem setArch_steady {a : Arch} (h : a = s.arch k) : Steady k s (s.setArch k a) := by
  subst h
  exact ⟨by simp, by simp, rfl, by simp, by simp, rfl, fun e => by simpa using e⟩
theorem noteAccess_calm {v n : Nat} (h : (s.arch k).inflight = []) : noteAccess k v n s = s := by
  simp [noteAccess, exactHeld_calm h]

theorem Res.bind_ok {α β : Type} {r : Res α} {f : α → State → Res β} {v : β} (h : r.bind f = .ok v t) : ∃ a m, r = .ok a m ∧ f a m = .ok v t := by
  cases r with
  | ok a m => exact ⟨a, m, rfl, h⟩
  | trap _ _ => cases h
  | stall _ => cases h

theorem xlate_steady {who xl acc v n ps} (h : xlate who xl acc v n s = .ok ps t) : Steady k s t :=
  Steady.of_quiet (Res.okK h (xlate_quiet (Quiet.refl s)))
theorem loadFrom_steady {n v ps ws} (h : loadFrom k n v ps s = .ok ws t) : Steady k s t :=
  Steady.of_quiet (Res.okK h (loadFrom_quiet (Quiet.refl s)))

/-- A load leaves the core calm. -/
theorem load_steady {x n r} (C : Calm k s) (T : testArmed k s = false) (h : load k x n s = .ok r t) : Steady k s t := by
  unfold load loadAt at h
  extract_lets v at h
  rw [noteAccess_calm C.flight] at h
  obtain ⟨ps, m, h1, h2⟩ := Res.bind_ok h
  have S : Steady k s m := xlate_steady h1
  dsimp only at h2
  split at h2
  · split at h2
    · cases h2; exact S
    · obtain ⟨ws, m2, h3, h4⟩ := Res.bind_ok h2
      cases h4
      exact (S.trans (drainFor_steady ps (S.calm C).shadow (S.tested.trans T))).trans (loadFrom_steady h3)
  · obtain ⟨ws, m2, h3, h4⟩ := Res.bind_ok h2
    cases h4
    exact S.trans (loadFrom_steady h3)

theorem Issues.untested1 {len : Nat} {s1 : State} (I : Issues k len s s1) : testArmed k s1 = false := by
  have q : Quiet (notePlumb k s) s1 := Res.okK I.fetched (fetchInstr_quiet (Quiet.refl _))
  have h : testArmed k s1 = testArmed k (notePlumb k s) := by
    unfold testArmed State.physOf; rw [q.pair, q.split_eq k]
  rw [h, ← I.untested]
  unfold testArmed State.physOf
  rw [notePlumb_split]
  have : (notePlumb k s).pair = s.pair := by unfold notePlumb; dsimp only; split <;> rfl
  rw [this]

/-- An instruction whose body leaves the core with registers a on a state that the core reached steadily. -/
theorem issue_steady {len : Nat} {s1 s2 : State} {body : State → Res (Option W40)} {a : Arch} (I : Issues k len s s1) (C : Calm k s)
    (hb : body s1 = .ok none (s2.setArch k a)) (S : Steady k s1 s2) (hs : a.shadow = []) (hl : a.ld = (s.arch k).ld) (hle : a.le = (s.arch k).le) :
    issueAny false .no k len body s = ended k { a with pc := nextPc (s.arch k) len, inflight := tickInflight a.inflight } s2 := by
  have C1 := I.calm C
  have C2 := S.calm C1
  rw [issueAny_ok I C.flight ((State.setArch_pair s2 k a).trans S.pair) hb, retire_next (here := (s.arch k).pc) (next := nextPc (s.arch k) len)]
  · rw [dueStop_none]
    · simp [ended]
    · show ((State.setCore _ _ _).core k).stop = 0
      simpa using C2.stop
  · simpa using hs
  · simpa [hl, hle] using C.loop
  · rcases C2.ckpt with h | h
    · exact .inl h
    · refine .inr ?_
      simp only [State.setArch_core]
      omega
end Sys2Proof.Machine
end

