-- ==== Sys2Proof/WellFormed.lean ====
section
/-! DEFINITION. A command names units the module has: bents, links, spares, channels, banks, masters and blocks within the
largest numbers the spec gives (R21, R22, R54, R58, R82, R446), bytes within the host address space (R4). -/

namespace Sys2Proof

/-- A command names only units that exist. -/
def Instr.wf : Instr → Bool
  | .spareCheckComplete p _ => decide (p < 34)
  | .pageWaitPreempt l => decide (l < 32)
  | .unsupportedAccess _ _ bytes => decide (0 < bytes)
  | .controllerRead blk _ => decide (blk < 2 ^ 31)
  | .controllerWrite blk words _ => decide (blk < 2 ^ 31 ∧ ∀ w ∈ words, w.1 < 64)
  | .mergeRetire blk => decide (blk < 2 ^ 31)
  | .requestAging ch => decide (ch < 256)
  | .yardAccess bank turn => decide (bank < 32 ∧ ∀ m ∈ turn.masters, m < 50)
  | .atsInvalidateRequest _ _ _ pages => decide (0 < pages)
  | .raising _ failed _ => decide (∀ p ∈ failed, p < 34)
  | .bentPowerDown l => decide (l < 32)
  | .linkConfigCommit l _ => decide (l < 4)
  | .linkRetrain l => decide (l < 4)
  | .laneLockLoss l _ => decide (l < 4)
  | .linkTrainingComplete l _ _ => decide (l < 4)
  | .linkRetry l => decide (l < 4)
  | .flitReceive l _ _ => decide (l < 4)
  | .nak l _ => decide (l < 4)
  | .routeChange _ edges => decide (∀ e ∈ edges, e.a ≠ e.b)
  | .remoteRequest l _ _ _ => decide (l < 4)
  | .formationWindowClose _ edges => decide (∀ e ∈ edges, e.a ≠ e.b)
  | .moduleJoined _ edges => decide (∀ e ∈ edges, e.a ≠ e.b)
  | .dramRefresh ch => decide (ch < 256)
  | .readCompletion _ addr data => decide (addr.toNat + data.length ≤ 2 ^ 64)
  | .add _ _ _ | .sub _ _ _ | .and _ _ _ | .or _ _ _ | .xor _ _ _ | .andn _ _ _ | .shl _ _ _ | .shr _ _ _
  | .sar _ _ _ | .mov _ _ _ | .neg _ _ _ | .not _ _ _ | .cc _ _ _ _ | .addi _ _ _ | .ldi _ _ _ | .lui _ _ _
  | .andi _ _ _ | .ori _ _ _ | .xori _ _ _ | .shli _ _ _ | .shri _ _ _ | .sari _ _ _ | .ldi20 _ _ _ _ _ | .cmpi _ _ _ _ _
  | .cmp _ _ _ _ _ | .mul _ _ _ | .mulwu _ _ _ | .mulws _ _ _ | .macu _ _ _ _ | .macs _ _ _ _ | .ac5 _ _ _ _ | .ladc _ _ _
  | .lsbb _ _ _ | .ladz _ _ _ | .ladzs _ _ _ | .ltop _ _ _ | .ltopb _ _ _ | .lnrm _ _ _ | .pdadd _ _ _ | .pdsub _ _ _
  | .acz _ _ _ _ _ | .acmov _ _ _ _ _ | .acneg _ _ _ _ _ | .aclq _ _ _ _ _ | .acsq _ _ _ _ _ | .acscl _ _ _ _ _ | .adiv _ _ _ _ _ | .accmp _ _ _ _ _
  | .aadd _ _ _ | .asub _ _ _ | .aadds _ _ _ | .amov _ _ _ | .adw _ _ _ | .dwa _ _ _ | .smov _ _ _ | .sdw _ _ _
  | .dws _ _ _ | .aaddd _ _ _ | .sneg _ _ _ | .aaddi _ _ _ | .lai _ _ _ _ _ | .lahi _ _ _ _ _ | .sai _ _ _ _ _ | .aaddl _ _ _ _ _
  | .cmpa _ _ _ _ _ | .ld _ _ _ _ | .st _ _ _ _ | .ld2 _ _ _ _ | .st2 _ _ _ _ | .lda _ _ _ _ | .sta _ _ _ _ | .ldl _ _ _ _ _
  | .stl _ _ _ _ _ | .ld2l _ _ _ _ _ | .st2l _ _ _ _ _ | .ldal _ _ _ _ _ | .stal _ _ _ _ _ | .ldx _ _ _ _ _ | .stx _ _ _ _ _ | .push _ _ _
  | .pop _ _ _ | .pusha _ _ _ | .popa _ _ _ | .push2 _ _ _ | .pop2 _ _ _ | .lxadd _ _ _ _ _ | .lxchg _ _ _ _ _ | .lcas _ _ _ _ _
  | .lqadd _ _ _ _ _ | .bz _ _ _ | .bnz _ _ _ | .br _ _ | .call _ _ | .bzl _ _ _ _ _ | .bnzl _ _ _ _ _ | .brl _ _ _ _ _
  | .calll _ _ _ _ _ | .ret _ _ | .jr _ _ | .callr _ _ | .loop _ _ _ | .loopl _ _ _ _ _ | .lexit _ _ | .bchk _ _ _ _
  | .movc _ _ _ _ _ | .xlcommit _ _ | .dinv _ _ | .iinv _ _ | .tickcmpWrite _ _ _ | .nop _ _ | .trap _ _ | .brk _ _
  | .rete _ _ | .wait _ _ | .waitEnd _ | .fence _ _ | .fenceComplete _ | .split _ _ | .join _ _ | .xinvPage _ _
  | .xinvContext _ _ | .xinvFunction _ _ | .sealchk _ _ | .sealchkMerged _ _ | .sealBarrierRelease _ | .sealclr _ _ | .vsetc _ _ | .jend _ _
  | .evclm _ _ | .evcmp _ _ | .evrd _ _ | .evwr _ _ | .evset _ _ | .sadd _ _ _ _ _ | .ssub _ _ _ _ _ | .sladd _ _ _ _ _
  | .snorm _ _ _ _ _ | .scmp _ _ _ _ _ | .slogAnd _ _ _ _ _ | .slogOr _ _ _ _ _ | .slogXor _ _ _ _ _ | .slogAndn _ _ _ _ _ | .slogNot _ _ _ _ _ | .scvtPepixoIn _ _ _ _ _
  | .scvtPepixoOut _ _ _ _ _ | .scvtWordToAmount _ _ _ _ _ | .scvtAmountToWord _ _ _ _ _ | .smove _ _ _ _ _ | .smul _ _ _ _ _ | .smac _ _ _ _ _ | .sscale _ _ _ _ _ | .sdiv _ _ _ _ _
  | .smitreLeft _ _ _ _ _ | .smitreInner _ _ _ _ _ | .smitreAnti _ _ _ _ _ | .ssegCompact _ _ _ _ _ | .ssegRunning _ _ _ _ _ | .ssegMark _ _ _ _ _ | .ssortForm _ _ _ _ _ | .ssortMerge _ _ _ _ _
  | .skcmp _ _ _ _ _ | .skcmpOrder _ _ _ _ _ | .streamStart _ | .elementGroup _ _ | .streamFinish _ | .streamStop _ | .vld _ _ _ _ _ | .vst _ _ _ _ _
  | .vgath _ _ _ _ _ | .vscat _ _ _ _ _ | .vadd _ _ _ _ _ | .vsub _ _ _ _ _ | .vcmp _ _ _ _ _ | .vlog _ _ _ _ _ | .vnorm _ _ _ _ _ | .vnormAdd _ _ _ _ _
  | .vmul _ _ _ _ _ | .vmac _ _ _ _ _ | .vkcmp _ _ _ _ _ | .psetn _ _ _ _ _ | .pand _ _ _ _ _ | .por _ _ _ _ _ | .pandn _ _ _ _ _ | .pnot _ _ _ _ _
  | .pld _ _ _ _ _ | .pst _ _ _ _ _ | .pcnt _ _ _ _ _ | .vredSum _ _ _ _ _ | .vredMin _ _ _ _ _ | .vredMax _ _ _ _ _ | .vredSealAdd _ _ _ _ _ | .vredSealSubtract _ _ _ _ _
  | .vtbl _ _ _ _ _ | .vectorStart _ | .vectorFinish _ | .vectorStop _ | .trapEntry _ _ | .timer _ | .storeDrain _ | .checkpoint _
  | .rollback _ _ | .eventPresentation _ | .setp _ | .targetCommit _ _ | .preemption | .preemptNoticeTimeout _ | .shareRestore _ | .registerWrite _ _ _ _
  | .tractRecode _ | .tractZero _ | .tractOperationDone | .yardRegionCommit _ _ _ | .eccflipArm _ | .eccflipDisarm | .errlPop | .errlClrcnt
  | .windowCommit _ _ | .doorbellPageCommit _ _ | .knockGroup _ _ | .knockAll _ | .groupRead _ _ | .doorbellReadRetry _ _ _ | .poll | .adminQueueCommit _ _
  | .moderationCommit _ _ | .createCq _ _ | .deleteCq _ _ | .createSq _ _ | .deleteSq _ _ | .setContext _ _ | .deleteContext _ _ | .abort _ _
  | .scrub _ _ | .scrubDone | .assignTracts _ _ | .jobNop _ _ | .native _ _ | .sort _ | .post _ | .accrue _
  | .reconcile _ | .convert _ | .zero _ | .jobStart | .commitPoint _ | .completionEntryWrite _ | .cqHeadRecheck _ | .cqWriteRetry _ _
  | .moderationTimer _ | .firstTouchZeroingDone _ | .zbRewalk _ | .zbTakeover _ _ _ _ | .translationCompletion _ _ _ _ | .responseSuccess _ _ _ | .responseInvalidRequest _ _ _ | .responseFailure _ _ _
  | .priTimeout _ _ _ | .invalidateCompletion | .bar2Read _ _ | .bar2Write _ _ _ _ _ | .powerstateD3hot | .powerstateD0 | .cascadeDormantRequest | .cascadeWakeRequest
  | .aspmL1Entry | .busMasterEnable _ | .vectorUnmask _ _ | .pfFlr | .vfFlr _ | .hotReset | .pcieLinkDown | .completionTimeout _ _ _ _
  | .poisonedTlpReceived _ _ _ _ | .unexpectedCompletion | .ecrcError | .malformedTlp | .receiverError | .precharge _ | .boot _ | .perstAssert
  | .vauxLoss | .supplyWarning _ _ | .supplyWarningEnd | .safeStop | .overvoltageStop | .thermalSample _ _ _ | .powerBrake | .powerBrakeRelease
  | .sequencerAdmission | .islandClockStop _ | .islandClockSwitch _ _ | .clkswForced _ | .trimHold _ _ | .journalWriteComplete | .pairClrcnt | .cmptestArm _
  | .cmptestDisarm | .moduleLost _ | .fwWrite _ | .fwVerify | .fwActivate _ | .svnCommit _ | .jread | .jwrite
  | .logRead | .setSleep | .clearRetired | .runDiscard | .sensors | .mailboxComplete | .setEndpointId _ | .getEndpointId
  | .getEndpointUuid | .getMctpVersionSupport _ | .getMessageTypeSupport | .gettid | .settid _ | .getpldmversion _ | .getpldmtypes | .getpldmcommands _
  | .getpdrrepositoryinfo | .getpdr _ | .getsensorreading _ | .getstatesensorreadings _ | .setCapEffecter _ | .setBrakecapEffecter _ | .wakeRequest _ | .svnCommitEffecter _ _
  | .getnumericeffectervalue _ | .pollforplatformeventmessage _ | .querydeviceidentifiers | .getfirmwareparameters | .requestupdate | .passcomponenttable | .updatecomponent | .requestfirmwaredata _ _ _
  | .transfercomplete | .verifycomplete | .applycomplete | .activatefirmware _ | .getstatus | .cancelupdatecomponent | .cancelupdate | .powerLoop _
  | .reserveCharged | .pcieLinkUp | .resetComplete _ => true

end Sys2Proof
end

