-- ==== Sys2Proof/Tests/Slice0.lean ====
section
/-! SUPPORT. Tests of the model: for each statement with hypotheses a state and operands that meet them all, the ill-formed
commands each well-formedness check refuses, and worked examples taken from the specification's own text. -/
namespace Sys2Proof
open Sys2Proof.Machine
/-! ### Small states and readers -/

/-- The next state meets p. -/
def nextIs (o : Host.Outcome State Fault Refusal) (p : State → Bool) : Bool := match o with | .next t => p t | _ => false
/-- The outcome is the fault. -/
def isFault (o : Host.Outcome State Fault Refusal) : Bool := match o with | .fault _ => true | _ => false
/-- The state an operation answers. -/
def okState {α : Type} (r : Res α) : State := match r with | .ok _ t => t | .trap _ t => t | .stall t => t
/-- The value an operation answers. -/
def okVal {α : Type} (r : Res α) (v : α) : α := match r with | .ok w _ => w | _ => v
/-- The operation succeeds. -/
def isOk {α : Type} (r : Res α) : Bool := match r with | .ok _ _ => true | _ => false
theorem isOk_eq {α : Type} (r : Res α) (v : α) (h : isOk r = true) : r = .ok (okVal r v) (okState r) := by
  cases r <;> first | rfl | cases h
/-- The trap an operation answers. -/
def trapCause {α : Type} (r : Res α) : Nat := match r with | .trap t _ => t.cause | _ => 0
/-- The operation waits. -/
def stalls {α : Type} (r : Res α) : Bool := match r with | .stall _ => true | _ => false

/-- Core 0 of bent 0 runs with registers a. -/
def testOn (a : Arch) : State :=
  { State.reset with
    cores := [(0, { Core.reset with run := .running, arch := a })]
    bents := [(0, { Bent.reset with service := some false })] }
/-- The same with core 0 changed. -/
def testCore (f : Core → Core) (s : State) : State := s.setCore 0 (f (s.core 0))
/-- The same with bent 0 changed. -/
def testBent (f : Bent → Bent) (s : State) : State := s.setBent 0 (f (s.bent 0))
/-- At service level. -/
def testRun : State := testOn { Arch.reset with d := [(1, 5), (2, 7)] }
/-- At supervisor level, with its words in the bench. -/
def testSup : State := testOn { Arch.reset with pl := 1, pc := 0xFFFFF80000 }
/-- At user level. -/
def testUser : State := testOn { Arch.reset with pl := 0, pc := 0xFFFFF80000 }


/-! ### Witnesses: a state and operands that meet each statement's hypotheses, clause by clause -/

theorem test_run_issues : Issues 0 1 testRun testRun ∧ Issues 0 2 testRun testRun ∧ Calm 0 testRun :=
  ⟨⟨by decide, by decide, by decide, by decide, by rfl⟩, ⟨by decide, by decide, by decide, by decide, by rfl⟩, ⟨by decide, by decide, by decide, by decide, by decide, by decide⟩⟩

theorem test_sup_issues : Issues 0 1 testSup testSup ∧ Issues 0 2 testSup testSup ∧ Calm 0 testSup :=
  ⟨⟨by decide, by decide, by decide, by decide, by rfl⟩, ⟨by decide, by decide, by decide, by decide, by rfl⟩, ⟨by decide, by decide, by decide, by decide, by decide, by decide⟩⟩

theorem test_user_issues : Issues 0 1 testUser testUser ∧ Calm 0 testUser :=
  ⟨⟨by decide, by decide, by decide, by decide, by rfl⟩, ⟨by decide, by decide, by decide, by decide, by decide, by decide⟩⟩

theorem test_hyps_StepRunsFront : ({ State.reset with pending := [.poll] } : State).pending = .poll :: [] ∧ State.reset.pending = [] ∧ State.reset.power.phase = .aux :=
  ⟨rfl, rfl, rfl⟩

theorem test_hyps_StepKeepsMemoryForm : State.Inv State.reset ∧ step State.reset = .next State.reset := ⟨(rfl : Memory.wf State.reset = true), rfl⟩

theorem test_hyps_FusesNeverFall : exec .poll State.reset = .next State.reset := rfl

/-- A page table that is absent: the fetch traps; and a service bent without its firmware: it waits. -/
theorem test_hyps_FetchAndIssue :
    (testRun.arch 0).pl = 2 ∧ (testRun.arch 0).inflight = [] ∧ ready 0 State.reset = false ∧
    (let s := testOn { Arch.reset with pl := 1, pc := 4096 }
     ready 0 s = true ∧ testArmed 0 s = false ∧ (s.core 0).chain = [] ∧ (trapCause (fetchInstr 0 1 (notePlumb 0 s)) = 8)) ∧
    stalls (fetchInstr 0 1 (notePlumb 0 (testBent (fun b => { b with service := none }) testRun))) = true ∧
    ((testCore (fun c => { c with chain := [({ lop := 0x30, fn := 0, dst := .slot 0, b := .slot 0, c := .slot 0, fd := .word, fb := .word, fc := .word, sealNo := 0, sub := false, xl := coreXl 0 2 testRun }, 0)] }) testRun).core 0).chain ≠ [] ∧
    (let s := testCore (fun c => { c with timer := true, arch := c.arch.setMask false }) testRun
     ready 0 s = true ∧ (readyCause 0 s).isSome = true) := by
  decide

theorem test_hyps_AluForms : (5 : BitVec 10).toNat < 32 ∧ (31 : BitVec 10).toNat < 32 ∧ Issues 0 2 testRun testRun ∧ Calm 0 testRun := ⟨by decide, by decide, test_run_issues.2.1, test_run_issues.2.2⟩

/-- Each condition of the long compares on D1 = 5 and D2 = 7, A1, A2 and AC0. -/
theorem test_hyps_CompareForms :
    condHolds (2 : Reg).toNat ((testRun.arch 0).regD 1) 7 = some true ∧ condHolds (3 : Word).toNat ((testRun.arch 0).regD 2) ((testRun.arch 0).regD 1) = some false ∧
    (addrCond ((9 : Word).toNat % 16) = true ∧ condHolds ((9 : Word).toNat % 16) ((testRun.arch 0).regA 1) ((testRun.arch 0).regA 2) = some true) ∧
    ((3 : Reg).toNat < 4 ∧ condHolds ((0 : Word).toNat % 16) ((testRun.arch 0).regAC 3) 0 = some true) := by decide

/-- Accumulators at both ends of their range. -/
def testAcc : State := testOn { Arch.reset with d := [(1, 5), (2, 7), (4, 3)], ac := [(0, BitVec.ofInt 80 (2 ^ 79 - 1)), (1, BitVec.ofInt 80 (-(2 ^ 79)))] }
theorem test_acc_issues : Issues 0 1 testAcc testAcc ∧ Issues 0 2 testAcc testAcc ∧ Calm 0 testAcc :=
  ⟨⟨by decide, by decide, by decide, by decide, by rfl⟩, ⟨by decide, by decide, by decide, by decide, by rfl⟩, ⟨by decide, by decide, by decide, by decide, by decide, by decide⟩⟩
theorem test_hyps_MultiplyGroup :
    (2 : Reg).toNat % 2 = 0 ∧ (1 : Reg).toNat % 2 = 1 ∧ ((0 : Reg) ≠ 0 ∨ (1 : Reg) ≠ 0) ∧
    accFits (((testAcc.arch 0).regAC 2).toInt + ((testAcc.arch 0).regD 1).toNat * ((testAcc.arch 0).regD 2).toNat) ∧
    ¬ accFits (((testAcc.arch 0).regAC 0).toInt + ((testAcc.arch 0).regD 1).toNat * ((testAcc.arch 0).regD 2).toNat) ∧
    accFits (((testAcc.arch 0).regAC 1).toInt + ((testAcc.arch 0).regD 1).toInt * ((testAcc.arch 0).regD 2).toInt) ∧
    ¬ accFits (((testAcc.arch 0).regAC 0).toInt + ((testAcc.arch 0).regD 1).toInt * ((testAcc.arch 0).regD 2).toInt) ∧
    accFits (((testAcc.arch 0).regAC 3).toInt * 100000) ∧ ¬ accFits (((testAcc.arch 0).regAC 1).toInt * 100000) := by
  unfold accFits; decide
theorem test_hyps_LongAccumulators :
    (3 : Reg).toNat < 4 ∧ accFits (-(((testAcc.arch 0).regAC 0).toInt)) ∧ ¬ accFits (-(((testAcc.arch 0).regAC 1).toInt)) ∧
    (let imm : Word := 0x1806; -24 ≤ (imm.extractLsb' 8 6).toInt ∧ (imm.extractLsb' 8 6).toInt ≤ 24 ∧ imm.toNat % 8 ≠ 7 ∧ accFits (scaleBy ((testAcc.arch 0).regAC 2).toInt (imm.extractLsb' 8 6).toInt (imm.toNat % 8))) ∧
    (let imm : Word := 0x2807; -24 ≤ (imm.extractLsb' 8 6).toInt ∧ imm.toNat % 8 = 7) ∧
    (let imm : Word := 0x1900; ¬ (-24 ≤ (imm.extractLsb' 8 6).toInt ∧ (imm.extractLsb' 8 6).toInt ≤ 24)) ∧
    ((4 : Reg).toNat % 2 = 0 ∧ ((testAcc.arch 0).pair 4).toInt ≠ 0 ∧ accFits (roundQuot ((testAcc.arch 0).regAC 0).toInt ((testAcc.arch 0).pair 4).toInt 0)) ∧
    ((6 : Reg).toNat % 2 = 0 ∧ ((testAcc.arch 0).pair 6).toInt = 0) := by
  unfold accFits; decide

/-- D0 and D4 hold limbs near the ends of the forms' ranges, D8 packed digits, D9 a borrow, D10 a word with a nibble above 9. -/
def testLimb : State := testOn { Arch.reset with d := [(0, 1048575), (2, 99999), (4, 524287), (6, 1), (8, 0x12345), (9, 1), (10, 0x0000A)] }
theorem test_limb_issues : Issues 0 1 testLimb testLimb ∧ Calm 0 testLimb :=
  ⟨⟨by decide, by decide, by decide, by decide, by rfl⟩, ⟨by decide, by decide, by decide, by decide, by decide, by decide⟩⟩
theorem test_hyps_LimbsAndDigits :
    let d := fun n => (testLimb.arch 0).regD n
    (d 0).toNat + (d 7).toNat ≤ 1048575 ∧ 1048575 < (d 0).toNat + (d 6).toNat ∧ (d 4).toInt + (d 0).toInt ≤ 524287 ∧ -524288 ≤ (d 4).toInt + (d 0).toInt ∧
      ¬ (-524288 ≤ (d 4).toInt + (d 6).toInt ∧ (d 4).toInt + (d 6).toInt ≤ 524287) ∧ (-100000 ≤ (d 2).toInt + (d 7).toInt + (d 3).toInt ∧ (d 2).toInt + (d 7).toInt + (d 3).toInt ≤ 99999) ∧
      ¬ (-100000 ≤ (d 2).toInt + (d 6).toInt + (d 3).toInt ∧ (d 2).toInt + (d 6).toInt + (d 3).toInt ≤ 99999) ∧ ¬ (-100000 ≤ (d 2).toInt - (d 0).toInt + (d 3).toInt ∧ (d 2).toInt - (d 0).toInt + (d 3).toInt ≤ 99999) ∧
      packed5 (d 8) = some 12345 ∧ packed5 (d 6) = some 1 ∧ packed5 (d 10) = none ∧ (9 : Reg).toNat % 2 = 1 := by decide

theorem test_hyps_AddressForms : (2 : Reg).toNat % 2 = 0 := by decide

/-- D1 = 5 stands within D2 to D3 = 7 to 0 unsigned on no side, and within D4 to D5 = 0 to 9. -/
def testBounds : State := testOn { Arch.reset with d := [(1, 5), (2, 7), (5, 9), (6, 5), (7, 5)] }
theorem test_hyps_BoundsCheck : Issues 0 1 testBounds testBounds ∧ Calm 0 testBounds ∧
    (let d := fun n => (testBounds.arch 0).regD n
     ((d 6).toInt ≤ (d 1).toInt ∧ (d 1).toInt ≤ (d 7).toInt) ∧ ¬ ((d 2).toInt ≤ (d 1).toInt ∧ (d 1).toInt ≤ (d 3).toInt) ∧ ((d 4).toNat ≤ (d 1).toNat ∧ (d 1).toNat ≤ (d 5).toNat) ∧ ¬ ((d 2).toNat ≤ (d 1).toNat ∧ (d 1).toNat ≤ (d 3).toNat)) :=
  ⟨⟨by decide, by decide, by decide, by decide, by rfl⟩, ⟨by decide, by decide, by decide, by decide, by decide, by decide⟩, by decide⟩

/-- A2 points into the bench, at an even and at an odd word, and A15 above SILL. -/
def testMem : State := testOn { Arch.reset with pl := 1, pc := 0xFFFFF80000, a := [(2, 0xFFFFF80100), (3, 0xFFFFF80101), (15, 0xFFFFF80200)], d := [(4, 1)], sill := 0xFFFFF801FE }
theorem test_mem_issues : Issues 0 1 testMem testMem ∧ Issues 0 2 testMem testMem ∧ Calm 0 testMem :=
  ⟨⟨by decide, by decide, by decide, by decide, by rfl⟩, ⟨by decide, by decide, by decide, by decide, by rfl⟩, ⟨by decide, by decide, by decide, by decide, by decide, by decide⟩⟩
theorem test_hyps_LoadInstructions :
    (let a : W40 := (testMem.arch 0).regA 2 + (63 : BitVec 6).setWidth 40; load 0 a 1 testMem = .ok (okVal (load 0 a 1 testMem) ⟨[], 0⟩) (okState (load 0 a 1 testMem))) ∧
    (let a : W40 := (testMem.arch 0).regA 2 + (0 : BitVec 6).setWidth 40; a.toNat % 2 = 0 ∧ load 0 a 2 testMem = .ok (okVal (load 0 a 2 testMem) ⟨[], 0⟩) (okState (load 0 a 2 testMem))) ∧
    ((testMem.arch 0).regA 3 + (0 : BitVec 6).setWidth 40 : W40).toNat % 2 = 1 ∧ ((testMem.arch 0).regA 3 + (0 : Word).signExtend 40 : W40).toNat % 2 = 1 ∧
    (let imm : Word := 0xFFFC5
     let a : W40 := (testMem.arch 0).regA 2 + BitVec.ofNat 40 (((testMem.arch 0).regD 4).toNat * (imm.toNat % 64)) + (imm.extractLsb' 6 14).signExtend 40
     imm.toNat % 64 ≠ 0 ∧ load 0 a 1 testMem = .ok (okVal (load 0 a 1 testMem) ⟨[], 0⟩) (okState (load 0 a 1 testMem))) :=
  ⟨rfl, ⟨by decide, rfl⟩, by decide, by decide, ⟨by decide, rfl⟩⟩
theorem test_hyps_StoreInstructions :
    (let a : W40 := (testMem.arch 0).regA 2 + (63 : BitVec 6).setWidth 40; store 0 a [(testMem.arch 0).regD 1] testMem = .ok () (okState (store 0 a [(testMem.arch 0).regD 1] testMem))) ∧
    (let a : W40 := (testMem.arch 0).regA 2 + (0 : BitVec 6).setWidth 40; a.toNat % 2 = 0 ∧ store 0 a [1, 2] testMem = .ok () (okState (store 0 a [1, 2] testMem))) :=
  ⟨rfl, ⟨by decide, rfl⟩⟩
/-- The words at A2 can be read and written, A15's words pushed and popped. -/
theorem test_bench_accesses :
    benchReads 0 ((testMem.arch 0).regA 2) 2 testMem ∧ benchWrites 0 ((testMem.arch 0).regA 2) [1, 2] testMem ∧ benchReads 0 ((testMem.arch 0).regA 15) 2 testMem ∧
    benchWrites 0 ((testMem.arch 0).regA 15 - 2) [1, 0] testMem ∧ (testMem.arch 0).sill.toNat ≤ ((testMem.arch 0).regA 15 - 2).toNat ∧
    benchReads 0 ((testMem.arch 0).regA 2 + (63 : BitVec 6).setWidth 40) 1 testMem ∧ benchWrites 0 ((testMem.arch 0).regA 2 + (63 : BitVec 6).setWidth 40) [5] testMem := by
  unfold benchReads benchWrites onBench; decide
/-- A word stored and not yet drained. -/
def testStored : State := okState (store 0 (0xFFFFF80100 : W40) [9] testMem)
/-- With a word in the buffer the load at its place sees it; elsewhere it sees the bench; the buffer has room, and that of a core alone with 16 entries has none. -/
theorem test_hyps_StoreBufferAndLoads :
    (testStored.arch 0).inflight = [] ∧ (testStored.arch 0).compat = false ∧
    (∃ ps e, xlate (.core 0) (coreXl 0 (testStored.arch 0).pl.toNat testStored) .read ((testStored.arch 0).map (0xFFFFF80100 : W40)).toNat 1 testStored = .ok ps testStored ∧
      youngest (testStored.core 0).stores ps = some e ∧ e.at_ = ps) ∧
    benchReads 0 (0xFFFFF80140 : W40) 1 testStored ∧ benchWrites 0 (0xFFFFF80140 : W40) [5] testStored ∧
    (∃ ps, xlate (.core 0) (coreXl 0 (testStored.arch 0).pl.toNat testStored) .write ((testStored.arch 0).map (0xFFFFF80140 : W40)).toNat 1 testStored = .ok ps testStored ∧
      (testStored.core 0).stores.length + (entriesOf (coreXl 0 (testStored.arch 0).pl.toNat testStored).func (testStored.split 0) ps [5]).length ≤ (if testStored.split 0 then 16 else 32)) :=
  ⟨by decide, by decide, ⟨[.bench 0x100], { at_ := [.bench 0x100], words := [9], func := 0, released := false }, rfl, by decide, rfl⟩, by unfold benchReads onBench; decide, by unfold benchWrites onBench; decide, ⟨_, rfl, by decide⟩⟩
/-- The store buffer of a core that runs alone is full. -/
def testFull : State :=
  testCore (fun c => { c with stores := List.replicate 16 { at_ := [.bench 0], words := [1], func := 0, released := false } }) (testBent (fun b => { b with split := true }) testMem)
theorem test_hyps_StoreBufferFull :
    ∃ ps, xlate (.core 0) (coreXl 0 (testFull.arch 0).pl.toNat testFull) .write ((testFull.arch 0).map (0xFFFFF80140 : W40)).toNat 1 testFull = .ok ps testFull ∧
      (if testFull.split 0 then 16 else 32) < (testFull.core 0).stores.length + (entriesOf (coreXl 0 (testFull.arch 0).pl.toNat testFull).func (testFull.split 0) ps [5]).length :=
  ⟨_, rfl, by decide⟩
theorem test_hyps_StackForms :
    push 0 [5] testMem = .ok () (okState (push 0 [5] testMem)) ∧ pop 0 2 testMem = .ok (okVal (pop 0 2 testMem) ⟨[], 0⟩) (okState (pop 0 2 testMem)) ∧ (14 : Reg) ≠ 15 ∧
    ((testMem.arch 0).regA 15 - BitVec.ofNat 40 ([0, 0, (0 : Word)]).length).toNat < (testMem.arch 0).sill.toNat ∧
    ((testMem.arch 0).sill.toNat ≤ ((testMem.arch 0).regA 15 - BitVec.ofNat 40 ([0, (0 : Word)]).length).toNat ∧
      ∃ ps, xlate (.core 0) (coreXl 0 (testMem.arch 0).pl.toNat testMem) .write ((testMem.arch 0).regA 15 - BitVec.ofNat 40 1).toNat 1 testMem = .ok ps testMem ∧
        bufferStore 0 (coreXl 0 (testMem.arch 0).pl.toNat testMem).func ps [5] testMem = .ok () (okState (bufferStore 0 (coreXl 0 (testMem.arch 0).pl.toNat testMem).func ps [5] testMem))) :=
  ⟨rfl, rfl, by decide, by decide, by decide, _, rfl, rfl⟩

/-- AC0 holds 5, AC1 the largest value, and A2 points at words of the bench. -/
def testAccMem : State := testOn { Arch.reset with pl := 1, pc := 0xFFFFF80000, a := [(2, 0xFFFFF80100)], ac := [(0, 5), (1, BitVec.ofInt 80 (2 ^ 79 - 1))] }
theorem test_hyps_AccumulatorMemory :
    Issues 0 2 testAccMem testAccMem ∧ Calm 0 testAccMem ∧ (1 : Reg).toNat < 4 ∧ (0x00008 : Word).toNat % 16 = 8 ∧
    load 0 ((testAccMem.arch 0).regA 2) 8 testAccMem = .ok { words := [0, 0, 0, 0, 0, 0, 0, 0], dist := 2 } testAccMem ∧ accFits (qValue [0, 0, 0, 0, 0, 0, 0, 0]) ∧
    (∃ ps, xlate (.core 0) (coreXl 0 (testAccMem.arch 0).pl.toNat testAccMem) .write ((testAccMem.arch 0).map ((testAccMem.arch 0).regA 2)).toNat 1 testAccMem = .ok ps testAccMem) ∧
    ¬ (-(100000 ^ 1 : Int) ≤ ((testAccMem.arch 0).regAC 1).toInt ∧ ((testAccMem.arch 0).regAC 1).toInt ≤ 100000 ^ 1 - 1) ∧
    benchReads 0 ((testAccMem.arch 0).regA 2) 8 testAccMem ∧ benchWrites 0 ((testAccMem.arch 0).regA 2) (limbsOf 1 5) testAccMem ∧
    (-(100000 ^ 1 : Int) ≤ ((testAccMem.arch 0).regAC 0).toInt ∧ ((testAccMem.arch 0).regAC 0).toInt ≤ 100000 ^ 1 - 1 ∧ (testAccMem.core 0).stores.length + 1 ≤ 23 ∧
      store 0 ((testAccMem.arch 0).regA 2) (limbsOf 1 5) testAccMem = .ok () (okState (store 0 ((testAccMem.arch 0).regA 2) (limbsOf 1 5) testAccMem))) :=
  ⟨⟨by decide, by decide, by decide, by decide, by rfl⟩, ⟨by decide, by decide, by decide, by decide, by decide, by decide⟩, by decide, by decide, by rfl, by unfold accFits; decide, ⟨_, rfl⟩, by decide,
    by unfold benchReads onBench; decide, by unfold benchWrites onBench; decide, by decide, by decide, by decide, rfl⟩

/-- A2 points at word 64 of a large page of tract 0, which the root maps; requests as given wait at its pseudo-channel. -/
def testPaged (waits : Tbl (List Waiting)) : State :=
  testBent (fun b => { b with ptroot := 131072 })
    { testOn { Arch.reset with pl := 1, pc := 0xFFFFF80000, a := [(2, 64)] } with mem := { Mem.reset with words := [(64, 3), (131073, 0x1270)], waits := waits } }
/-- A2 points into the yard, whose region of bent 0 allows it. -/
def testYard : State :=
  { testOn { Arch.reset with pl := 1, pc := 0xFFFFF80000, a := [(2, 0xFFFC000000)], d := [(4, 3), (5, 9)] } with
    mem := { Mem.reset with yard := [(0, 3)], region := [(0, { Region.reset with lim := 63, en := true, anyctx := true, w := true, rd := true })] } }
def testYardPlaces : List Place := [.yard 0]
theorem test_hyps_LockedInstructions :
    Issues 0 2 testYard testYard ∧ Calm 0 testYard ∧ (4 : Reg).toNat % 2 = 0 ∧
    (let v := ((testYard.arch 0).map ((testYard.arch 0).regA 2)).toNat
     let d := drainAll 0 (checkpoint 0 testYard)
     v = 0xFFFC000000 ∧ (v < 0xF000000000 ∨ 0xF800000000 ≤ v) ∧ xlate (.core 0) (coreXl 0 (testYard.arch 0).pl.toNat d) .locked v 1 d = .ok testYardPlaces (okState (xlate (.core 0) (coreXl 0 (testYard.arch 0).pl.toNat d) .locked v 1 d)) ∧
     lockWaits d testYardPlaces = false ∧ okVal (readPlaces (.core 0) .locked v testYardPlaces (openFetch d)) [] = [3] ∧
     (-(100000 ^ 1 : Int) ≤ qValue [3] + qValue [(testYard.arch 0).regD 4] ∧ qValue [3] + qValue [(testYard.arch 0).regD 4] ≤ 100000 ^ 1 - 1)) :=
  ⟨⟨by decide, by decide, by decide, by decide, by rfl⟩, ⟨by decide, by decide, by decide, by decide, by decide, by decide⟩, by decide, by decide, by decide, by rfl, by decide, by rfl, by decide⟩
/-- A class-1 request waits where the sequence would run; a word of the bench with nothing in the buffer; one limb and four that fit. -/
theorem test_hyps_LockedInstructions_more :
    (let s := testPaged [(channelOf .kl8x256 1, [{ cls := 1, aged := false, req := .read 1 none }])]
     let d := drainAll 0 (checkpoint 0 s)
     xlate (.core 0) (coreXl 0 1 d) .locked 64 1 d = .ok (okVal (xlate (.core 0) (coreXl 0 1 d) .locked 64 1 d) []) (okState (xlate (.core 0) (coreXl 0 1 d) .locked 64 1 d)) ∧
       lockWaits (okState (xlate (.core 0) (coreXl 0 1 d) .locked 64 1 d)) (okVal (xlate (.core 0) (coreXl 0 1 d) .locked 64 1 d) []) = true) ∧
    ((testMem.core 0).stores = [] ∧ benchReads 0 ((testMem.arch 0).regA 2) 4 testMem ∧ ((testMem.arch 0).map ((testMem.arch 0).regA 2)).toNat % 4 = 0 ∧
      (let sum := qValue (benchHolds 0 ((testMem.arch 0).regA 2) 4 testMem) + qValue [1, 0, 0, 0]; -(100000 ^ 4 : Int) ≤ sum ∧ sum ≤ 100000 ^ 4 - 1)) ∧
    ((testMem.arch 0).map ((testMem.arch 0).regA 3)).toNat % 2 ≠ 0 ∧ ¬ (qValue [99999] + qValue [1] ≤ 100000 ^ 1 - 1) :=
  ⟨⟨isOk_eq _ _ (by decide +kernel), by decide +kernel⟩, ⟨by decide, by unfold benchReads onBench; decide, by decide, by decide⟩, by decide, by decide⟩

theorem test_hyps_Branches : Issues 0 1 testRun testRun ∧ Issues 0 2 testRun testRun ∧ Calm 0 testRun := test_run_issues
/-- The bench: test_bench_accesses. -/
theorem test_hyps_CallsAndReturn : push 0 [1, 0] testMem = .ok () (okState (push 0 [1, 0] testMem)) ∧ pop 0 2 testMem = .ok (okVal (pop 0 2 testMem) ⟨[], 0⟩) (okState (pop 0 2 testMem)) := ⟨rfl, rfl⟩

/-- One level of loop is open over the instruction at pc; three are open; none closes here. -/
def testLoop (n : W40) (ld : BitVec 2) : State := testOn { Arch.reset with ls := [(0, 4)], le := [(0, 0)], lc := [(0, n)], ld := ld, d := [(1, 5)], a := [(1, 5)] }
theorem test_hyps_HardwareLoops :
    ((1 : BitVec 10).toInt = 1 ∧ (testRun.arch 0).ld.toNat < 3 ∧ (testRun.arch 0).regD 1 ≠ 0 ∧ (testRun.arch 0).map ((testRun.arch 0).pc + (1 : BitVec 10).signExtend 40) ≠ (testRun.arch 0).pc) ∧
    ((2 : Word).toInt = 2 ∧ ((testLoop 2 0).arch 0).regA 1 ≠ 0 ∧ ((testLoop 2 0).arch 0).map (((testLoop 2 0).arch 0).pc + (2 : Word).signExtend 40) ≠ ((testLoop 2 0).arch 0).pc) ∧
    (let s := testOn { Arch.reset with ld := 3, le := [(2, 9)] }; (s.arch 0).ld.toNat = 3 ∧ tget 0 (s.arch 0).le 2 ≠ (s.arch 0).pc) ∧
    (let s := testOn { Arch.reset with ld := 2, le := [(0, 8), (1, 9)] }; 0 < (s.arch 0).ld.toNat ∧ tget 0 (s.arch 0).le ((s.arch 0).ld.toNat - 2) ≠ (s.arch 0).pc ∧ tget 0 (s.arch 0).le ((s.arch 0).ld.toNat - 1) ≠ (s.arch 0).pc) ∧
    (∀ n : Fin 2, let s := testLoop (BitVec.ofNat 40 (n + 1)) 1
      ready 0 s = true ∧ testArmed 0 s = false ∧ (s.core 0).chain = [] ∧ (s.arch 0).inflight = [] ∧ (s.arch 0).shadow = [] ∧ (s.core 0).stop = 0 ∧ (s.core 0).since < 255 ∧ (s.core 0).stores.length < 24 ∧ readyCause 0 s = none ∧ (s.arch 0).ld ≠ 0 ∧
        tget 0 (s.arch 0).le ((s.arch 0).ld.toNat - 1) = (s.arch 0).pc) ∧ tget 0 ((testLoop 1 1).arch 0).lc 0 = 1 ∧ tget 0 ((testLoop 2 1).arch 0).lc 0 ≠ 1 := by
  decide
theorem test_loop_fetch : fetchInstr 0 1 (notePlumb 0 (testLoop 1 1)) = .ok () (testLoop 1 1) ∧ fetchInstr 0 1 (notePlumb 0 (testLoop 2 1)) = .ok () (testLoop 2 1) := ⟨rfl, rfl⟩

theorem test_hyps_ControlRegisterMoves :
    ctlRead 0 0x050 testSup = .ok 0 testSup ∧ ctlWidth 0x050 = some 40 ∧ ctlRead 0 0x012 testSup = .ok 0 testSup ∧ ctlWidth 0x012 = some 20 ∧ ctlWidth 0x3FF = none ∧
    (ctlCommits 0x012 = false ∧ (testSup.arch 0).compat = false ∧ ctlLevel 0x012 = some 0 ∧ ctlLevel 0x010 = some 0 ∧ ctlWidth 0x010 = some 40) ∧
    (ctlWidth 0x002 = some 20 ∧ ctlLevel 0x002 = none ∧ ctlCommits 0x002 = false) ∧ (ctlWidth 0x100 = some 20 ∧ ctlLevel 0x100 = some 2 ∧ (testSup.arch 0).pl.toNat < 2 ∧ ctlCommits 0x100 = false) :=
  ⟨rfl, by decide, rfl, by decide, by decide, by decide, by decide, by decide⟩

/-- A job of the PF that holds one share, on bent 0. -/
def testJob : Job :=
  { func := 0, sq := 64, desc := 0, prio := 3, others := [], shares := [.on 0], preempted := false, param := [], prog := { pos := 0, pos2 := 0, out := 0, out2 := 0, counts := [], keyA := none, keyB := none, commits := 0, resumed := 0 },
    started := 0, startedAt := 0, chain := [], save := [], awaits := [], ending := none }
/-- Job 7 holds bent 0. -/
def testHeld (j : Job) (s : State) : State := testBent (fun b => { b with share := some (7, 0) }) { s with disp := { s.disp with jobs := [(7, some j)] } }
def testCtx : Ctx := { func := 0, supv := true, htrap := false, prien := false, pasid := 0, ptroot := 0, hostBase := 0, saveVa := 0 }
/-- A staged pair of a context of the job's function with a good table root. -/
def testStaged : State := testBent (fun b => { b with staged := true, stCtxid := 5, stPtroot := 131072 }) (testHeld testJob { testSup with ctxs := [(5, some testCtx)] })
/-- A MOVC write of register idx stands at the end of its shadow. -/
def testShadow (ws : List CtlWrite) : State := testOn { Arch.reset with shadow := ws }
theorem test_hyps_ShadowedWrites :
    Issues 0 2 testStaged testStaged ∧ Calm 0 testStaged ∧ (testStaged.arch 0).compat = false ∧ 1 ≤ (testStaged.arch 0).pl.toNat ∧ (testStaged.bent 0).staged = true ∧
    rootBad testStaged (testStaged.bent 0).stPtroot.toNat = false ∧ ctxOfJob 0 testStaged = true ∧
    (let s := testShadow [{ idx := 0x040, val := 5, left := 1 }, { idx := 0x041, val := 8192, left := 1 }]
     ready 0 s = true ∧ testArmed 0 s = false ∧ (s.core 0).chain = [] ∧ (s.arch 0).inflight = [] ∧ (s.core 0).stop = 0 ∧ (s.arch 0).ld = 0 ∧ (s.core 0).since < 255 ∧ (s.core 0).stores.length < 24) ∧
    (fetchInstr 0 1 (notePlumb 0 (testShadow [{ idx := 0x004, val := 3, left := 1 }])) = .ok () (testShadow [{ idx := 0x004, val := 3, left := 1 }])) ∧
    (fetchInstr 0 1 (notePlumb 0 (testShadow [{ idx := 0x051, val := 9, left := 1 }])) = .ok () (testShadow [{ idx := 0x051, val := 9, left := 1 }])) :=
  ⟨⟨by decide, by decide, by decide, by decide, by rfl⟩, ⟨by decide, by decide, by decide, by decide, by decide, by decide⟩, by decide, by decide, by decide, by decide, by decide, by decide, rfl, rfl⟩

/-- Core 0 stands at a FENCE of a scope, or waits. -/
def testFenced (scope : BitVec 4) (ops : List StreamOp) : State := testCore (fun c => { c with run := .fenced scope, ops := ops }) (testBent (fun b => { b with split := true }) testSup)
def testWaiting (timer : Bool) : State := testCore (fun c => { c with run := .waiting, timer := timer }) testSup
/-- A stream operation of one element, a word move. -/
def testOp (st : OpState) : StreamOp :=
  { members := [{ lop := 0x30, fn := 0, dst := .mem 0xFFFFF80100 1, b := .mem 0xFFFFF80100 1, c := .mem 0xFFFFF80100 1, fd := .word, fb := .word, fc := .word, sealNo := 0, sub := false, xl := coreXl 0 1 testSup }],
    sln := 1, key := none, prog := 0, done := 0, ks := KeyState.start, st := st, trap := none, frame := none, olds := [], left := false }
theorem test_hyps_WaitsAndFences :
    (1 ≤ (testSup.arch 0).pl.toNat ∧ beingPreempted 0 testSup = false ∧ (testSup.core 0).timer = false ∧ eventWaits (checkpoint 0 testSup) 0 = false) ∧
    ((testCore (fun c => { c with timer := true }) testSup).core 0).timer = true ∧ (testUser.arch 0).pl.toNat = 0 ∧ 0 < (15 : BitVec 10).toNat ∧ (15 : BitVec 10).toNat < 16 ∧
    (let s := testFenced 1 [testOp .queued]; (s.core 0).run = .fenced 1 ∧ bitAt (1 : BitVec 4) 0 = true ∧ unfinished (s.core 0) = true) ∧
    (let s := testFenced 8 []; (s.core 0).run = .fenced 8 ∧ (s.arch 0).inflight = [] ∧ (s.arch 0).shadow = [] ∧ (s.arch 0).ld = 0 ∧ (s.core 0).stop = 0 ∧ (s.core 0).since < 255 ∧ (s.core 0).stores = [] ∧ s.split 0 = true) ∧
    (let s := testWaiting true; (s.core 0).run = .waiting ∧ (s.core 0).timer = true ∧ (s.arch 0).masked = true ∧ unreported (s.core 0) = (none, none)) ∧
    (let s := testWaiting false; (s.core 0).timer = false ∧ eventWaits s 0 = false) := by decide

/-- A supervisor in Pepixo mode whose handlers and stack lie in the bench. -/
def testPepixo : State :=
  { testOn { Arch.reset with pl := 1, pc := 0x00100, corecfg := 2, pxbase := 0xFFFFF80000, a := [(15, 0x00200)] } with ctxs := [(0, some testCtx)] }
def testSettled : State := (settle 0 testPepixo).setCore 0 { (settle 0 testPepixo).core 0 with run := .running, chain := [], chainKey := none }
def testFramePlaces : List Place := okVal (xlate (.core 0) (coreXl 0 1 testPepixo) .write 0xFFFFF801F8 8 testSettled) []
theorem test_hyps_TrapEntry :
    Issues 0 1 testPepixo testPepixo ∧ Calm 0 testPepixo ∧ (testPepixo.arch 0).pl ≠ 2 ∧ (coreXl 0 (testPepixo.arch 0).pl.toNat testPepixo).supv = true ∧ 8 ≤ ((testPepixo.arch 0).regA 15).toNat ∧
    (let base := (testPepixo.arch 0).wrapA ((testPepixo.arch 0).regA 15 - 8)
     (testPepixo.arch 0).sill.toNat ≤ base.toNat ∧ ((testPepixo.arch 0).map base).toNat = 0xFFFFF801F8) ∧
    xlate (.core 0) (coreXl 0 1 testPepixo) .write 0xFFFFF801F8 8 testSettled = .ok testFramePlaces testSettled ∧ testFramePlaces.length = 8 ∧
    (let e := handlerState 0 10 0x001F8 0 testFramePlaces [0x101, 0, 5, 0x30A, 0, 0, 3, 0] testSettled
     fetchWord 0 1 ((e.arch 0).map (handlerPc (testPepixo.arch 0) 10)).toNat e = .ok () (okState (fetchWord 0 1 ((e.arch 0).map (handlerPc (testPepixo.arch 0) 10)).toNat e))) :=
  ⟨⟨by decide, by decide, by decide, by decide, by rfl⟩, ⟨by decide, by decide, by decide, by decide, by decide, by decide⟩, by decide, by decide, by decide, by decide, by rfl, by decide, by rfl⟩

/-- A frame in the bench: it names level pl. -/
def testFrame (pl : Word) : State := testBent (fun b => { b with bench := [(0x100, 0x10), (0x102, pl)] }) (testOn { Arch.reset with pl := 1, pc := 0xFFFFF80000, a := [(15, 0xFFFFF80100)] })
theorem test_hyps_TrapReturn :
    Issues 0 1 (testFrame 0) (testFrame 0) ∧ Calm 0 (testFrame 0) ∧ ((testFrame 0).arch 0).pl = 1 ∧
    (let r := loadPairs 0 (((testFrame 0).arch 0).regA 15) 4 (testFrame 0); r = .ok (okVal r []) (okState r)) ∧ okVal (loadPairs 0 (((testFrame 0).arch 0).regA 15) 4 (testFrame 0)) [] = [0x10, 0, 0, 0, 0, 0, 0, 0] ∧ ((testFrame 0).core 0).vops = [] ∧ ((testFrame 0).core 0).ops = [] ∧
    (let r := loadPairs 0 (((testFrame 2).arch 0).regA 15) 4 (testFrame 2); r = .ok (okVal r []) (okState r)) ∧ okVal (loadPairs 0 (((testFrame 2).arch 0).regA 15) 4 (testFrame 2)) [] = [0x10, 0, 2, 0, 0, 0, 0, 0] ∧ 2 ≤ (2 : Word).toNat % 4 :=
  ⟨⟨by decide, by decide, by decide, by decide, by rfl⟩, ⟨by decide, by decide, by decide, by decide, by decide, by decide⟩, by decide, by rfl, by decide, by decide, by decide, by rfl, by decide, by decide⟩

theorem test_hyps_IllegalForms :
    32 ≤ (32 : BitVec 10).toNat ∧ 10 ≤ (15 : Reg).toNat ∧ (15 : Reg).toNat % 2 = 1 ∧ 2 ≤ (2 : BitVec 6).toNat ∧ (0 : BitVec 10).toInt ≤ 0 ∧ (testRun.arch 0).ld = 0 ∧ (testUser.arch 0).pl = 0 ∧
    10 ≤ (16 : Word).toNat ∧ addrCond ((2 : Word).toNat % 16) = false ∧ 4 ≤ (4 : Reg).toNat ∧ (64 : Word).toNat % 64 = 0 ∧ 16 < (15 : Reg).toNat + (2 : Word).toNat := by decide

/-- D2 names signal 0 (1007) or module event 5, D3 is 0; sources 64 and 5 as given. -/
def testEv (d2 : Word) (srcs : Tbl Src) : State := { testOn { Arch.reset with pl := 1, pc := 0xFFFFF80000, d := [(2, d2), (3, 1)] } with srcs := srcs }
def testSrc : Src := { Src.reset with prio := 5, pend := true, pres := some 0 }
theorem test_hyps_EventInstructions :
    Issues 0 1 (testEv 1007 [(64, testSrc)]) (testEv 1007 [(64, testSrc)]) ∧ Calm 0 (testEv 1007 [(64, testSrc)]) ∧ (2 : BitVec 10).toNat < 16 ∧ 1 ≤ ((testEv 1007 [(64, testSrc)]).arch 0).pl.toNat ∧
    presentedAt (checkpoint 0 (testEv 1007 [(64, testSrc)])) 0 = some (64, testSrc) ∧ presentedAt (checkpoint 0 testSup) 0 = none ∧ eventKey 0 1007 = some 64 ∧ eventKey 0 63 = some 63 ∧
    (let s := checkpoint 0 (testEv 1007 [(64, { Src.reset with insv := some 0 })]); (s.src 64).insv = some 0 ∧ (s.src 64).stat = 0) ∧
    (let s := checkpoint 0 (testEv 1007 [(64, { Src.reset with insv := some 0, stat := 3 })]); (s.src 64).insv = some 0 ∧ (s.src 64).stat ≠ 0) ∧
    ((checkpoint 0 testSup).src 64).insv ≠ some 0 ∧
    (evReg testSup 0 (8 * 1007) = some (.src 64 0) ∧ evReach 0 (8 * 1007) false = true ∧ evReach 0 (8 * 1007) true = true) ∧
    (evReg (checkpoint 0 testSup) 0 0x1FF8 = some .cfg ∧ evReach 0 0x1FF8 true = false ∧ (testSup.arch 0).pl = 1) ∧ bitAt (0x3FF : Word) 9 = true :=
  ⟨⟨by decide, by decide, by decide, by decide, by rfl⟩, ⟨by decide, by decide, by decide, by decide, by decide, by decide⟩, by decide +kernel⟩

/-- A pending source routed to core 0, whose bent is in service. -/
def testPending : State := testHeld testJob (testEv 0 [(64, { Src.reset with prio := 5, pend := true })])
theorem test_hyps_EventSourcesAndPresentation :
    keyOf (.module 9) < 10 ∧ 10 ≤ keyOf (.module 10) ∧ keyOf (.module 10) < 64 ∧ 64 ≤ keyOf (.signal 0 0) ∧
    (goodCode (BitVec.ofNat 7 (((0x00104 : Word) ||| 1).toNat / 4 % 128)) && goodCode (BitVec.ofNat 7 (((0x00104 : Word) ||| 1).toNat / 512 % 128))) = false ∧
    goodCode (BitVec.ofNat 7 (((0x08004 : Word) ||| 1).toNat / 4 % 128)) = true ∧ goodCode (BitVec.ofNat 7 (((0x08004 : Word) ||| 1).toNat / 512 % 128)) = true ∧
    twf Src.reset testPending.srcs = true ∧ (bestFor (withdraw testPending) 0).isSome = true := by decide

/-- Seals 1 and 8 stand at 0 and -2; the core is a pair's. -/
def testSeals : State := testCore (fun c => { c with seals := [(8, -2)] }) testSup
/-- Core 0 of job 7 waits at the merged test of seal 1. -/
def testBarrier : State := testCore (fun c => { c with run := .barrier 1 }) (testHeld testJob testSup)
theorem test_hyps_SealsBarrierAndXinv :
    Issues 0 1 testSeals testSeals ∧ Calm 0 testSeals ∧ (255 : BitVec 10).toNat < 256 ∧ sealsSettled (testSeals.core 0) = true ∧ nonzeroSeals (1 % 256) (testSeals.core 0).sealAt = 0 ∧
    nonzeroSeals (128 % 256) (testSeals.core 0).sealAt ≠ 0 ∧ testSeals.split 0 = false ∧ 1 ≤ (testSeals.arch 0).pl.toNat ∧ (testRun.arch 0).pl = 2 ∧ (testSup.arch 0).pl = 1 ∧
    testBarrier.job 7 = some testJob ∧ (testJob.shares.all (arrived (testHeld testJob testSup))) = false ∧ testJob.shares = [.on 0] ∧ (testBarrier.core 0).run = .barrier 1 ∧ (testBarrier.arch 0).inflight = [] ∧
    (testBarrier.arch 0).shadow = [] ∧ (testBarrier.arch 0).ld = 0 ∧ (testBarrier.core 0).stop = 0 ∧ testArmed 0 testBarrier = false ∧ nonzeroSeals 1 (fun i => mergedSeal testBarrier testJob i) = 0 :=
  ⟨⟨by decide, by decide, by decide, by decide, by rfl⟩, ⟨by decide, by decide, by decide, by decide, by decide, by decide⟩, by decide +kernel⟩

/-- A paired core's bench is translated word by word. -/
theorem test_bench_xlate (k : Nat) (xl : Xl) (acc : Acc) (s : State) (b : Nat) (hb : b = 0xFFFFF80000) (off : Nat) (ho : off = if (s.bent (k / 2)).split then k % 2 * 262144 else 0) : ∀ (n v : Nat) (prev : Option Place),
    (∀ p, prev = some p → ∃ w, p = .bench w) → b ≤ v → v + n ≤ 2 ^ 40 → ((s.bent (k / 2)).split = true → v + n ≤ b + 262144) →
    xlateFrom (.core k) xl acc n v prev s = .ok ((List.range n).map fun i => .bench (off + (v - b) + i)) s := by
  intro n
  induction n with
  | zero => intro v prev _ _ _ _; rfl
  | succ n ih =>
    intro v prev hp hv hn hl
    have hm : v % 2 ^ 40 = v := Nat.mod_eq_of_lt (by omega)
    have hw : xlateWord (.core k) xl acc v (n + 1) s = .ok (.bench (off + (v - b))) s := by
      unfold xlateWord
      subst hb
      rw [if_neg (by omega), if_neg (by omega), if_neg (by omega), if_pos hv]
      subst ho
      by_cases hs : (s.bent (k / 2)).split = true
      · have := hl hs
        simp [hs, show v - 1099511103488 < 262144 by omega]
      · simp [hs]
    have hone : xlateFrom (.core k) xl acc (n + 1) v prev s =
        (xlateFrom (.core k) xl acc n (v + 1) (some (.bench (off + (v - b)))) s).bind fun ps s => .ok (.bench (off + (v - b)) :: ps) s := by
      cases prev with
      | none => simp only [xlateFrom, hm, hw, Res.bind]
      | some p => obtain ⟨w, rfl⟩ := hp p rfl; simp only [xlateFrom, samePage, Bool.false_eq_true, if_false, hm, hw, Res.bind]
    refine hone.trans ?_
    rw [ih (v + 1) (some (.bench (off + (v - b)))) (fun p h => by cases h; exact ⟨_, rfl⟩) (by omega) (by omega) (fun h => by have := hl h; omega)]
    simp only [Res.bind, List.range_succ_eq_map, List.map_cons, List.map_map]
    congr 2
    apply List.map_congr_left
    intro i _
    simp only [Function.comp]
    congr 1
    omega
/-- Good words of a bench are read as they stand. -/
theorem test_bench_read (k : Nat) (acc : Acc) (s : State) (hb : (s.bent (k / 2)).bad = []) : ∀ (ws : List Nat) (v fuel : Nat), ws.length ≤ fuel →
    readFromQ (.core k) acc fuel v (ws.map .bench) s = .ok (ws.map fun w => tget 0 (s.bent (k / 2)).bench w, none) s := by
  intro ws
  induction ws with
  | nil => intro v fuel _; cases fuel <;> rfl
  | cons w ws ih =>
    intro v fuel hf
    cases fuel with
    | zero => simp at hf
    | succ fuel =>
      have : readSmallQ (.core k) acc (v % 2 ^ 40) (.bench w) s = .ok (tget 0 (s.bent (k / 2)).bench w, none) s := by
        simp [readSmallQ, sramRead, benchWord, Who.bent, hb, tget]
      simp only [List.map_cons, readFromQ, this, Res.bind]
      rw [ih (v + 1) fuel (by simpa using hf)]
      rfl
/-- A read of a good paired bench. -/
theorem test_bench_readMem (k : Nat) (xl : Xl) (s : State) (n v : Nat) (hs : (s.bent (k / 2)).split = false) (hb : (s.bent (k / 2)).bad = []) (hv : 0xFFFFF80000 ≤ v) (hn : v + n ≤ 2 ^ 40) :
    readMem (.core k) xl v n s = .ok ((List.range n).map fun i => tget 0 (s.bent (k / 2)).bench (v - 0xFFFFF80000 + i)) s := by
  unfold readMem readMemQ xlate
  rw [test_bench_xlate k xl .read s _ rfl 0 (by simp [hs]) n v none (fun p h => by cases h) hv hn (fun h => by simp [hs] at h)]
  simp only [Res.bind, readPlacesQ, Res.raise]
  have := test_bench_read k .read s hb ((List.range n).map fun i => 0 + (v - 0xFFFFF80000) + i) v ((List.range n).map fun i => Place.bench (0 + (v - 0xFFFFF80000) + i)).length (by simp)
  simp only [List.map_map, List.length_map, List.length_range, Nat.zero_add, Function.comp_def] at this ⊢
  rw [this]
/-- Bent 0 holds a share of job 7; VGRP names 8 registers. -/
def testShare : State := testHeld testJob (testOn { Arch.reset with pl := 1, pc := 0xFFFFF80000, d := [(1, 2000)], a := [(2, 0xFFFFF81000)], vgrp := 3 })
/-- A pair in split execution whose shadow has stopped. -/
def testSplit : State := (testBent (fun b => { b with split := true }) testShare).setCore 1 { Core.reset with run := .stopped, seals := [(2, 3)] }
/-- Word 6 of the block at A2 asks for more than the version names. -/
def testBadBlock : State := testBent (fun b => { b with bench := [(0x1006, 2)] }) testShare
theorem test_hyps_VsetcJendSplitJoin :
    Issues 0 1 testShare testShare ∧ Calm 0 testShare ∧ (511 : BitVec 10).toNat < 512 ∧ (testShare.arch 0).compat = false ∧ testShare.split 0 = false ∧ (testShare.core 0).ops = [] ∧ (testShare.core 0).vops = [] ∧
    (testSup.bent 0).share = none ∧ (testShare.bent 0).share = some (7, 0) ∧ testShare.job 7 = some testJob ∧ testJob.shares[0]? = some (.on 0) ∧ 1 ≤ (testShare.arch 0).pl.toNat ∧ testShare.pair.nosplit = false ∧
    ((testShare.arch 0).map ((testShare.arch 0).regA 2)).toNat = 0xFFFFF81000 ∧ testSplit.split 0 = true ∧ ready 0 testSplit = true ∧ ((checkpoint 0 testSplit).core 1).run = .stopped ∧
    ({ testShare with pair := { testShare.pair with nosplit := true } } : State).pair.nosplit = true :=
  ⟨⟨by decide, by decide, by decide, by decide, by rfl⟩, ⟨by decide, by decide, by decide, by decide, by decide, by decide⟩, by decide +kernel⟩
theorem test_wordAt (f : Nat → Word) (n i : Nat) (h : i < n) : wordAt ((List.range n).map f) i = f i := by simp [wordAt, h]
theorem test_block_good (ws : List Word) (a : wordAt ws 2 = 0) (b : wordAt ws 6 = 0) : blockBad ws = false := by simp [blockBad, a, b, bitsOf, bitAt]
theorem test_block_bad (ws : List Word) (b : wordAt ws 6 = 2) : blockBad ws = true := by simp [blockBad, b]
/-- The block at A2 is good, or asks for a form that no version names; the shadow's block can be written. -/
theorem test_hyps_SplitBlocks :
    (∃ ws, readMem (.core 0) (coreXl 0 1 (checkpoint 0 testShare)) 0xFFFFF81000 4096 (checkpoint 0 testShare) = .ok ws (checkpoint 0 testShare) ∧ blockBad ws = false) ∧
    (∃ ws, readMem (.core 0) (coreXl 0 1 (checkpoint 0 testBadBlock)) 0xFFFFF81000 4096 (checkpoint 0 testBadBlock) = .ok ws (checkpoint 0 testBadBlock) ∧ blockBad ws = true) ∧
    ∃ ps, xlate (.core 0) (coreXl 0 1 (checkpoint 0 testSplit)) .write 0xFFFFF81000 4096 (checkpoint 0 testSplit) = .ok ps (checkpoint 0 testSplit) := by
  have h1 : ((checkpoint 0 testShare).bent 0).bench = [] := by decide +kernel
  have h2 : ((checkpoint 0 testBadBlock).bent 0).bench = [(0x1006, 2)] := by decide +kernel
  refine ⟨⟨_, test_bench_readMem 0 _ _ _ _ (by decide +kernel) (by decide +kernel) (by decide) (by decide), ?_⟩, ⟨_, test_bench_readMem 0 _ _ _ _ (by decide +kernel) (by decide +kernel) (by decide) (by decide), ?_⟩,
    ⟨_, test_bench_xlate 0 _ _ _ _ rfl _ rfl _ _ none (fun _ h => by cases h) (by decide) (by decide) (fun _ => by decide)⟩⟩
  · exact test_block_good _ (by rw [test_wordAt _ _ _ (by decide), h1]; rfl) (by rw [test_wordAt _ _ _ (by decide), h1]; rfl)
  · exact test_block_bad _ (by rw [test_wordAt _ _ _ (by decide), h2]; rfl)

/-- SLN and VGRP as given, and A1, A2, A3 in the bench: D14 and D15 name amounts of two limbs and scale 2. -/
def testStream (n : W40) (f : Core → Core) : State :=
  testCore f (testOn { Arch.reset with pl := 1, pc := 0xFFFFF80000, sln := n, vgrp := 1537, a := [(1, 0xFFFFF80100), (2, 0xFFFFF80110), (3, 0xFFFFF80121), (12, 0xFFFFF80200)], d := [(14, 146), (15, 146)], s := [(1, 2), (2, 2), (3, 2)] })
/-- A queue of four operations. -/
def testQueued : State := testStream 3 (fun c => { c with ops := List.replicate 4 (testOp .queued) })
theorem test_stream_ready : ready 0 (testStream 3 id) = true ∧ readyCause 0 (testStream 3 id) = none ∧ readyCause 0 testQueued = none ∧ testArmed 0 (testStream 3 id) = false ∧ Calm 0 (testStream 3 id) ∧ Issues 0 2 (testStream 3 id) (testStream 3 id) ∧
    fetchInstr 0 2 (notePlumb 0 (testStream 3 id)) = .ok () (testStream 3 id) ∧ ready 0 testQueued = true ∧ testArmed 0 testQueued = false ∧ Calm 0 testQueued ∧ fetchInstr 0 2 (notePlumb 0 testQueued) = .ok () testQueued :=
  ⟨by decide, by decide, by decide, by decide, ⟨by decide, by decide, by decide, by decide, by decide, by decide⟩, ⟨by decide, by decide, by decide, by decide, by rfl⟩, rfl, by decide, by decide, ⟨by decide, by decide, by decide, by decide, by decide, by decide⟩, rfl⟩
/-- SADD of amounts closes a chain in memory and leaves it open in a slot; TYPE 0 with a non-zero rest is illegal; keys are no sum; SMUL with mode 7; and four operations fill the queue. -/
theorem test_hyps_StreamIssue :
    let c := checkpoint 0 (testStream 3 id)
    let i := readIssue 0 0x30 0 1 2 3 146 c
    let open_ := readIssue 0 0x30 0 1 2 3 0x80092 c
    issueIllegal 0 (readIssue 0 0x30 0 1 2 3 18 c) (parseFmt 0 18 c) 1 2 3 c = true ∧ issueIllegal 0 i (parseFmt 0 146 c) 1 2 3 c = false ∧ configFault 0 i (parseFmt 0 146 c) c = none ∧
    configFault 0 (readIssue 0 0x30 0 1 2 3 0x110 c) (parseFmt 0 0x110 c) c = some 2 ∧
    (let m := readIssue 0 0x38 7 1 2 3 3730 c; issueIllegal 0 m (parseFmt 0 146 c) 1 2 3 c = false ∧ configFault 0 m (parseFmt 0 146 c) c = none ∧ pipeClass 0x38 = 1) ∧
    closes [] i.m = true ∧ ((testStream 3 id).core 0).ops.length < queueRoom 0 (testStream 3 id) ∧ queueRoom 0 testQueued ≤ (testQueued.core 0).ops.length ∧
    issueIllegal 0 open_ (parseFmt 0 146 c) 1 2 3 c = false ∧ configFault 0 open_ (parseFmt 0 146 c) c = none ∧ closes [] open_.m = false := by
  decide +kernel

/-- A word move within the bench, as a running operation. -/
def testMove : Member := { lop := 0x37, fn := 0, dst := .mem 0xFFFFF80100 1, b := .mem 0xFFFFF80101 1, c := .none, fd := .word, fb := .word, fc := .word, sealNo := 0, sub := false, xl := coreXl 0 1 testSup }
def testHead (o : StreamOp) : State := testCore (fun c => { c with ops := [o] }) testSup
def testMoving : StreamOp := { testOp .running with members := [testMove] }
theorem test_hyps_StreamProgress :
    ((testOp .queued).st = .queued ∧ ((testHead (testOp .queued)).core 0).run ≠ .stopped ∧ pipesFree (testOp .queued) (heldPipes 0 (testHead (testOp .queued))) = true ∧ othersTurn 0 (testHead (testOp .queued)) = false ∧ (testOp .queued).ported = false ∧ (testOp .queued).sln ≠ 0) ∧
    (({ testOp .queued with sln := 0 } : StreamOp).sln + 63) / 64 ≤ ({ testOp .queued with sln := 0 } : StreamOp).prog ∧ ({ testOp .running with trap := some (trapOf 6 0 0) } : StreamOp).trap = some (trapOf 6 0 0) ∧
    testMove.reads = [] ∧ testMove.receives 0 = false ∧ testMove.receives 1 = false ∧ gather (testHead testMoving) 256 [0] { cores := [], hold := false, broken := false } = { cores := [0], hold := false, broken := false } ∧
    (∃ y s2, simpleMember 0 testMoving testMove 0 [] { slots := [], ports := [], writes := [], seals := [], ks := testMoving.ks } (fetchFor 0 (openFetch (testHead testMoving).drawn)) = .ok y s2 ∧ y.seals = []) ∧
    testMoving.prog < testMoving.groups ∧ unequal (testHead testMoving) [0] = false ∧
    ((testOp .running).sln = 1 ∧ ((testHead (testOp .running)).core 0).past = [] ∧ benchIndex 0 0x100 (testHead (testOp .running)) < 262144 ∧ tget .good ((testHead (testOp .running)).bent 0).bad (benchIndex 0 0x100 (testHead (testOp .running))) = .good) :=
  ⟨by decide, by decide, by decide, by decide, by decide, by decide, rfl, ⟨_, _, rfl, rfl⟩, by decide, by decide +kernel, by decide⟩

/-- A member of the instruction over amounts of one limb. -/
def testDecimal (lop : Nat) : Member := { testMove with lop := lop, c := .mem 0xFFFFF80102 1, fd := .amount 1 2, fb := .amount 1 2, fc := .amount 1 2 }
theorem test_hyps_DecimalResults :
    (testDecimal 0x30).fd = .amount 1 2 ∧ (1 : Nat) ≤ 16 ∧ (-(100000 ^ 1 : Int) ≤ qValue [99998] + qValue [1] ∧ qValue [99998] + qValue [1] ≤ 100000 ^ 1 - 1) ∧ (100000 ^ 1 - 1 : Int) < qValue [99999] + qValue [1] ∧
    qValue [0xE7960] + qValue [0xFFFFF] < -(100000 ^ 1 : Int) ∧ qValue [0] = 0 ∧ qValue [3] ≠ 0 := by decide
theorem test_hyps_RoundingModes : 0 < 2 ∧ (2 : Nat) * ((5 : Int) - roundDiv 5 2 0 * 2).natAbs = 2 ∧ ((2 : Nat) : Int) ∣ 6 ∧ 6 < 7 := by decide

/-- Four queued vector instructions; a running one over words that adds groups 1 and 2 into group 0; one whose load meets a closed region. -/
def testVec : VecOp := (readVec 0 0x24 0 0 2 4 0 (testStream 3 id)).op
def testVecs (o : List VecOp) : State := testStream 3 (fun c => { c with vops := o })
def testVadd : VecOp := { testVec with st := .running }
def testVhole : VecOp := { testVadd with lop := 0x20, base := 0xFFFC000000, stride := 1, vcnt := 1 }
/-- VADD of groups of two registers runs; an odd group is STREAM_CONFIG; TYPE 0 with a rest is illegal; VMUL mode 7; PST at an odd address; PCNT with and without a writer of its predicate. -/
theorem test_hyps_VectorIssue :
    let c := checkpoint 0 (testStream 3 id)
    let holds := fun lop fn (xa xb xc : Reg) w1 => (List.range 21).find? (vecHolds 0 (readVec 0 lop fn xa xb xc w1 c) xa xb xc c)
    vecIllegal 0 (readVec 0 0x24 0 0 2 4 5 c) 4 c = true ∧ vecIllegal 0 (readVec 0 0x24 0 0 2 4 0 c) 4 c = false ∧ holds 0x24 0 0 2 4 0 = none ∧ holds 0x24 0 0 1 4 0 = some 17 ∧
    vecIllegal 0 (readVec 0 0x29 7 0 2 4 3730 c) 4 c = false ∧ holds 0x29 7 0 2 4 3730 = none ∧ vecIllegal 0 (readVec 0 0x2C 6 0 3 0 3072 c) 0 c = false ∧ holds 0x2C 6 0 3 0 3072 = none ∧
      (readVec 0 0x2C 6 0 3 0 3072 c).op.base.toNat % 2 = 1 ∧ holds 0x2C 7 5 1 0 3584 = none ∧ vecIllegal 0 (readVec 0 0x2C 7 5 1 0 3584 c) 0 c = false ∧
      queueRoom 0 (testVecs [testVec, testVec, testVec, testVec]) ≤ ((testVecs [testVec, testVec, testVec, testVec]).core 0).vops.length ∧ ({ testVec with lop := 0x26, xa := 1 } : VecOp).pdst.contains 1 = true ∧
    ((testVecs [testVec]).core 0).vops.any (fun o => decide (o.st = .queued)) = true := by
  decide +kernel
theorem test_hyps_VectorProgress :
    nextQueued ((testVecs [testVec]).core 0).vops = some ([], testVec, []) ∧ ((testVecs [testVec]).core 0).run ≠ .stopped ∧ vecPipeFree 0 (vecClass testVec.lop) (testVecs [testVec]) = true ∧ vecOthersTurn 0 (testVecs [testVec]) = false ∧ vecChecked 0 (testVecs [testVadd]) = true ∧
    (runVec 0 testVadd (testVecs [testVadd]).drawn).fault = none ∧ (runVec 0 testVadd (testVecs [testVadd]).drawn).stall = none ∧ (runVec 0 testVhole (testVecs [testVhole]).drawn).fault.isSome = true ∧
    (testVadd.lop = 0x24 ∧ testVadd.fd = .word ∧ testVadd.fb = .word ∧ testVadd.fc = .word ∧ testVadd.pm = false ∧ testVadd.start = 0 ∧ testVadd.done = 0 ∧ 1 ≤ testVadd.g ∧ testVadd.vcnt ≤ 128 * testVadd.g ∧
      testVadd.xa + testVadd.g ≤ testVadd.xb ∧ testVadd.xa + testVadd.g ≤ testVadd.xc) ∧ ((testVecs [testVadd]).bent 0).vBad = [] ∧
    (let z := replays 0 2 (testVecs [testVadd]); (runVec 0 testVadd z.drawn).fault = none ∧ (runVec 0 testVadd z.drawn).stall = none) := by
  decide +kernel

/-- M is 0, at a boundary; a notice, a TIMER latch, an event, or none. -/
def testCalm (s : State) : State := s.setArch 0 ((s.arch 0).setMask false)
/-- Job 7 of a priority holds bent 0; bent 1 is free; a descriptor for a gang waits with priority 2. -/
def testReserve (prio gang : Nat) : State :=
  { testHeld { testJob with prio := prio } (testCalm testSup) with
    bents := [(0, { Bent.reset with service := some false, share := some (7, 0) }), (1, { Bent.reset with service := some false })]
    disp := { State.reset.disp with jobs := [(7, some { testJob with prio := prio })], fetching := true, reserve := some 64, sq := [(64, some { func := 0, base := 0, size := 4, cq := 64, prio := 2, weight := 1, head := 0, tail := 0, disabled := false, fetched := [BitVec.ofNat _ (gang * 2 ^ 48)], deleting := none, passes := 0 })], cq := [(64, some (Cq.new 0 0xA000 16 2 true 0 0))] } }
/-- Bent 0's context waits for host page 5. -/
def testPaging (s : State) : State := { s with ats := { s.ats with reqs := [{ func := 0, pasid := pasidOf s (coreXl 0 0 s), page := 5, round := 0, sent := true, waiters := [{ who := .core 0, write := false, prien := true, ctx := 0, addr := 0 }] }] } }
/-- Job 7 is saved, and bent 0 free. -/
def testSaved : Job := { testJob with preempted := true, shares := [.saved Bent.reset { Core.reset with run := .running } Core.reset [] []] }
def testRestore (free : Bool) : State :=
  { testCalm testSup with disp := { State.reset.disp with jobs := [(7, some testSaved)], fetching := true }, bents := [(0, { Bent.reset with service := if free then some false else none })], power := { State.reset.power with phase := .ready } }
theorem test_hyps_BoundaryTraps :
    (let s := testCalm testSup; atBoundary 0 s = true ∧ unreported (s.core 0) = (none, none) ∧ (s.core 0).arch.masked = false ∧ (s.core 0).chain = [] ∧ (s.core 0).notice = none ∧ (s.core 0).timer = false ∧ eventReady s 0 = false ∧
      refusedWord 0 0x2C000 0 s = true ∧ instrLen 0x2C000 = 1 ∧ (s.core 0).run ≠ .idle ∧ reservation s = none ∧ beingPreempted 0 s = false) ∧
    eventReady { testCalm testSup with srcs := [(64, testSrc)] } 0 = true ∧ ((testCore (fun c => { c with notice := some 5, timer := true }) (testCalm testSup)).core 0).notice = some 5 ∧
    (reservation (testReserve 9 2) = some (2, 2) ∧ (liveJobs (testReserve 9 2)).map Prod.fst = [7] ∧ movingJob (testReserve 9 2) 7 = false ∧ (freeBents (testReserve 9 2)).length = 1 ∧ (bentsOf testJob).length = 1 ∧ reservation (testReserve 1 1) = some (1, 2)) ∧
    beingPreempted 0 (testHeld { testJob with preempted := true } testSup) = true ∧
    (let s := testPaging (testReserve 9 2); (s.bent 0).share = some (7, 0) ∧ (s.job 7).map Job.preempted = some false ∧ pageWaits 0 s ≠ [] ∧ workReady s 9 = true ∧ pageWaits 0 (testReserve 9 2) = [] ∧ workReady s 1 = false) ∧
    (let s := testRestore true; s.job 7 = some testSaved ∧ testSaved.ending = none ∧ bentsOf testSaved = [] ∧ awaited s testSaved = false ∧ outranked s testSaved.prio = false ∧ takeBents (savedShares testSaved).length s = (some [0], s.drawn)) ∧
    takeBents (savedShares testSaved).length (testRestore false) = (none, testRestore false) := by
  decide +kernel
theorem test_word_issues : Issues 0 (instrLen 0x2C000) (testCalm testSup) (testCalm testSup) := ⟨by decide, by decide, by decide, by decide, by rfl⟩

/-- The checkpoint of core 0 stands elsewhere, one of two buffered stores is released, and rolls rollbacks lie behind. -/
def testRolled (rolls : Nat) : State :=
  testCore (fun c => { c with rolls := rolls, stores := [{ at_ := [.bench 5], words := [9], func := 0, released := true }, { at_ := [.bench 6], words := [7], func := 0, released := false }], ckpt := { c.arch with pc := 77 } }) testShare
/-- The PF of a raised module answers. -/
def testOpen (s : State) : State := { s with power := { s.power with phase := .ready }, funcs := [(0, { Func.reset 0 with ready := true, bme := true })] }
theorem test_hyps_PairCommands :
    (let s := testRolled 2; s.split 0 = false ∧ (s.core 0).run ≠ .idle ∧ testArmed 0 s = false ∧ (s.core 0).arch.shadow = [] ∧ (s.bent 0).share ≠ none ∧ 2 ≤ (s.core 0).rolls ∧ (s.core 0).checkerRolls = 0 ∧ ((testRolled 1).core 0).rolls < 2) ∧
    ([{ lbent := 3, spare := 33, share := none }] : List Takeover).find? (fun t => decide (t.spare = 33)) = some { lbent := 3, spare := 33, share := none } ∧ hostOpen 0 (testOpen testSup) = true ∧
    ((testOpen testSup).phys ((0x30004 : W32).toNat / 65536 % 64)).state = 1 ∧ (0x30004 : W32).toNat / 4 % 4 ≠ 3 ∧ (0x3000C : W32).toNat / 4 % 4 = 3 ∧
    (∃ e es, ((testRolled 2).core 0).stores = e :: es ∧ e.released = true ∧ e.at_ = [.bench 5] ∧ e.words = [9] ∧ (∀ a, .dev a ∉ e.at_)) ∧
    (∃ e, ((testCore (fun c => { c with stores := c.stores.drop 1 }) (testRolled 2)).core 0).stores = [e] ∧ e.released = false) :=
  ⟨by decide +kernel, by decide, by decide, by decide, by decide, by decide, ⟨_, _, rfl, rfl, rfl, rfl, fun a h => by cases h with | tail _ h => cases h⟩, ⟨_, rfl, rfl⟩⟩

/-- A scrub of tracts 2 to 5 whose page 2 is translated. -/
def testScrub : State :=
  { testOpen testSup with mem := { Mem.reset with scrub := [{ func := 0, cid := 7, module := 0, first := 2, last := 5, rewrite := true, addr := 8192, lanes := 0 }] }, ats := { State.reset.ats with atc := [{ func := 0, pasid := none, page := 2, dest := 9, span := 1, read := true, write := true }] } }
theorem test_hyps_ControllerCommands :
    (let s := testOpen testSup; isHole s (64 * 70) = false ∧ poisoned s 70 = false ∧ tget [] s.mem.flips 70 = [] ∧ tget 0 s.mem.dead (channelOf s.variant 70) = 0 ∧ s.mem.merge = [] ∧ s.mem.ecc.armed = false ∧ savedDraw s 70 = none ∧ eccOf s 70 = .clean ∧ s.mem.fetched = none ∧ s.mem.waits = [] ∧
      isHole s (64 * 2 ^ 31) = true ∧ 0 < s.variant.channels ∧ yardRank 3 40 < yardRank 3 2 ∧ yardLosses s 3 2 < 16 ∧ s.mem.scrub = []) ∧
    testScrub.mem.scrub.length = 1 ∧ (8192 % 4096 ≤ 3904) ∧
    hostXl .dispatcher 0 none true (0, 0) 8192 (false, true) testScrub = .at 36864 ∧ hostXl .dispatcher 0 none true (0, 0) 8383 (false, true) testScrub = .at 37055 := by
  refine ⟨by decide +kernel, rfl, by decide, rfl, rfl⟩

/-- TRFIRST and TRLAST, and whether a tract operation runs. -/
def testTract (lo hi : BitVec 17) (busy : Bool) : State := { testOpen testSup with mem := { Mem.reset with memc := { Memc.reset with trfirst := lo.setWidth _, trlast := hi.setWidth _, busy := busy, staged := true, curLast := 1 } } }
/-- A region is staged. -/
def testRegion (lo hi : Nat) : State := (testOpen testSup).setRegion 2 3 { Region.reset with stBase := BitVec.ofNat _ lo, stLim := BitVec.ofNat _ hi, staged := true }
theorem test_hyps_RegisterCommits :
    hostOpen 0 (testTract 5 6 false) = true ∧ (testTract 5 6 false).mem.memc.trfirst.toNat = 5 ∧ (testTract 5 6 false).mem.memc.trlast.toNat < (testTract 5 6 false).variant.tracts ∧ (testTract 6 5 false).mem.memc.trlast.toNat < (testTract 6 5 false).mem.memc.trfirst.toNat ∧
    (testTract 5 6 true).mem.memc.busy = true ∧ hostOpen 0 (testTract 5 6 true) = true ∧ hostOpen 0 (testRegion 3 5) = true ∧ ((testRegion 3 5).region 2 3).staged = true ∧ ((testRegion 3 5).region 2 3).stBase.toNat ≤ ((testRegion 3 5).region 2 3).stLim.toNat ∧
    ((testRegion 6 5).region 2 3).stLim.toNat < ((testRegion 6 5).region 2 3).stBase.toNat ∧ isHole (testOpen testSup) 0 = false ∧ (0x34 : W32).getLsbD 6 = false ∧ (0x32 : W32).toNat / 2 % 32 ≤ 25 ∧
    isHole { testOpen testSup with mem := { Mem.reset with ecc := { Mem.reset.ecc with addr := -1 } } } ({ Mem.reset.ecc with addr := -1 } : EccFlip).addr.toNat = true := by
  decide +kernel

/-- A phase of the module, with configuration space served. -/
def testPhase (p : Phase) : State := { State.reset with power := { State.reset.power with phase := p }, port := { State.reset.port with cfg := true }, funcs := [(0, { Func.reset 0 with ready := true })] }
theorem test_hyps_RegisterWrites :
    (2 : BitVec 26).toNat % 4 ≠ 0 ∧ (testPhase .dormant).power.phase = .dormant ∧ State.reset.port.cfg = false ∧ (testPhase .raised).power.phase = .raised ∧ (testPhase .raised).port.cfg = true ∧ hostOpen 0 (testPhase .ready) = true ∧
    (0x1000 - 4 : Nat) < 0x1000 ∧ (80 ≤ (100 : W32).toNat % 256 ∧ (100 : W32).toNat % 256 ≤ 100) ∧ (79 : W32).toNat % 256 < 80 ∧ (1 : W32).getLsbD 1 = false ∧ ((testPhase .ready).fn 0).enabled = true ∧ (4 : W32).getLsbD 2 = true ∧
    (testPhase .ready).port.vfEn = false ∧ isMember (testPhase .ready) = false ∧ (63 : W32).toNat % 65536 ≤ 63 := by
  decide +kernel

/-- The window of function 0 of an answering module. -/
def testWin (w : Win) : State := { testOpen testSup with funcs := [(0, { Func.reset 0 with ready := true, bme := true, win := w })] }
/-- A yard region for the aperture. -/
def testWinYard : State := (testWin { Win.reset 0 with space := 1 }).setRegion 49 0 { Region.reset with lim := 63, en := true, anyctx := true, w := true, rd := true }
theorem test_hyps_Aperture :
    (hostOpen 0 (testWin (Win.reset 0)) = true ∧ isMember (testWin (Win.reset 0)) = false ∧ inCascade (testWin (Win.reset 0)) 0 = true ∧ (testWin (Win.reset 0)).ctx 5 = none) ∧
    (let s := testWin (Win.reset 0); let w := (s.fn 0).win
     s.power.phase = .ready ∧ (s.fn 0).enabled = true ∧ w.space = 0 ∧ isLocal s (winTarget w 40) = true ∧ isHole s (localOf (winTarget w 40)) = false ∧ poisoned s (localOf (winTarget w 40) / 64) = false ∧
      tget [] s.mem.flips (localOf (winTarget w 40) / 64) = [] ∧ tget 0 s.mem.dead (channelOf s.variant (localOf (winTarget w 40) / 64)) = 0 ∧ s.mem.merge = [] ∧ s.mem.ecc.armed = false) ∧
    (let s := testWinYard; let w := (s.fn 0).win
     w.space = 1 ∧ winTarget w 40 < 2 ^ 25 ∧ yardAllows s 49 0 (winTarget w 40) 1 .write = true ∧ yardAllows s 49 0 (winTarget w 40) 1 .read = true ∧ tget .good s.mem.yardBad (winTarget w 40) = .good ∧ yardAllows s 49 0 (winTarget w 400) 1 .write = false) ∧
    (0xFFFFF : W32).toNat < 2 ^ 20 ∧ 2 ^ 20 ≤ (0x100000 : W32).toNat ∧ (40 : BitVec 26).toNat % 4 = 0 ∧ (41 : BitVec 26).toNat % 4 ≠ 0 := by
  decide +kernel

/-- Vector 3 of function 0, and messages that wait. -/
def testVector (mask pba fm : Bool) (waits : List (Nat × Nat)) : State :=
  let s := testOpen testSup
  { s with funcs := [(0, { Func.reset 0 with ready := true, bme := true, msixEn := true, fmask := fm, vec := [(3, { Vector.reset with mask := mask, pba := pba, addr := 77 })] })], port := { s.port with waits := waits, up := true, aspm := true } }
theorem test_hyps_PortEvents :
    (let s := testVector true true false []; let e := tget Vector.reset (s.fn 0).vec 3
     hostOpen 0 s = true ∧ (3 : BitVec 11).toNat < vectorCount 0 ∧ e.mask = true ∧ (s.fn 0).fmask = false ∧ e.pba = true ∧ (s.fn 0).msixEn = true ∧ (s.fn 0).bme = true) ∧
    (tget Vector.reset ((testVector true false false []).fn 0).vec 3).pba = false ∧ ((testVector true true true []).fn 0).fmask = true ∧
    (let s := testVector false false false [(0, 3)]; s.port.waits = [(0, 3)] ∧ (tget Vector.reset (s.fn 0).vec 3).mask = false ∧ (s.fn 0).enabled = true ∧ s.port.up = true ∧ s.port.aspm = true ∧ s.ats.asked = []) ∧
    ((testOpen testSup).fn 5).enabled = false ∧ (testOpen testSup).port.up = false ∧ (testOpen testSup).errl.ring.length < 1024 := by
  decide +kernel

/-- VF 3 is enabled, runs job 7 and has context 6; tract 4 is its. -/
def testVf : State :=
  { testHeld { testJob with func := 3 } (testOpen testSup) with
    funcs := [(0, { Func.reset 0 with ready := true, bme := true }), (3, { Func.reset 3 with enabled := true, ready := true })], ctxs := [(5, some testCtx), (6, some { testCtx with func := 3 })], power := { State.reset.power with phase := .ready },
    port := { State.reset.port with up := true, vfEn := true, numVfs := 4 }, mem := { Mem.reset with tcmap := [(4, false)], owner := [(4, 3)], words := [(8388615, 9)] } }
def testResetting (f : Nat) : State := { testVf with funcs := [(f, { Func.reset f with enabled := true, resetting := true })] }
theorem test_hyps_Resets :
    testVf.power.phase = .ready ∧ State.reset.power.phase ≠ .ready ∧ State.reset.power.phase ≠ .dormant ∧ twf none testVf.disp.jobs = true ∧ twf none testVf.ctxs = true ∧ (testVf.fn 3).enabled = true ∧ (testVf.fn 9).enabled = false ∧
    ((testResetting 3).fn 3).resetting = true ∧ (testResetting 3).port.up = true ∧ (testResetting 3).power.phase = .ready ∧ (4, 3) ∈ (testResetting 3).mem.owner ∧ ((testResetting 0).fn 0).resetting = true ∧ (testResetting 0).stwd.busy = false ∧
    ({ testResetting 0 with stwd := { Stwd.reset with busy := true } } : State).stwd.busy = true := by
  decide +kernel

/-- A Translation Request for page 5 and a Page Request of a round are outstanding. -/
def testWaiter (prien : Bool) : Waiter := { who := .core 0, write := false, prien := prien, ctx := 0, addr := 0 }
def testAsked (ps : List Bool) : Asked := { func := 0, pasid := none, page := 5, waiters := ps.map testWaiter }
def testReq (round : Nat) : PageReq := { func := 0, pasid := none, page := 5, round := round, sent := true, waiters := [testWaiter true] }
def testAts (as : List Asked) (rs : List PageReq) : State := { testOpen testSup with port := { State.reset.port with priEn := true }, ats := { State.reset.ats with opra := 4, asked := as, reqs := rs } }
/-- Pages 5 and 6 are stalled, and a store of core 0 to host page 9 is buffered. -/
def testStalled (dests : List (Nat × Nat)) : State :=
  { testCore (fun c => { c with stores := [{ at_ := [.host 36864], words := [1], func := 0, released := false }] }) (testAts [] []) with
    ats := { (testAts [] []).ats with stalled := [{ func := 0, pasid := none, page := 5, pages := 2, dests := dests }] } }
theorem test_hyps_HostPages_stalled :
    (testAts [] []).ats.stalled = [] ∧ (∃ e es, (testStalled [(8, 1)]).ats.stalled = e :: es ∧ e.dests = [(8, 1)]) ∧
    (∃ x a, x ∈ ((testStalled [(9, 1)]).core 0).stores ∧ x.func = 0 ∧ .host a ∈ x.at_ ∧ (9 ≤ a / 4096 ∧ a / 4096 < 9 + 1) ∧ ¬ (8 ≤ a / 4096 ∧ a / 4096 < 8 + 1)) :=
  ⟨by rfl, ⟨_, _, rfl, rfl⟩, ⟨_, 36864, List.Mem.head _, rfl, List.Mem.head _, by decide, by decide⟩⟩
theorem test_hyps_HostPages :
    (testAts [] []).ats.asked.find? (fun a => a.on 0 none 5) = none ∧ (testAts [testAsked [true]] []).ats.asked.find? (fun a => a.on 0 none 5) = some (testAsked [true]) ∧ stalledPage (testAts [testAsked [true]] []) 0 none 5 = false ∧
    (testAts [testAsked [true]] []).ats.reqs = [] ∧ (testAsked [true]).waiters ≠ [] ∧ (∀ w ∈ (testAsked [true]).waiters, w.prien = true) ∧ (testAts [testAsked [true]] []).ats.asked = [testAsked [true]] ∧
    (testAts [testAsked [true]] []).port.priEn = true ∧ 0 < (testAts [testAsked [true]] []).ats.opra ∧ (testAsked [true, false]).waiters.filter (fun w => !w.prien) = [testWaiter false] ∧ stalledPage (testStalled []) 0 none 6 = true ∧
    (testAts [testAsked [true]] [testReq 4]).ats.reqs.find? (fun r => r.on 0 none 5) = some (testReq 4) ∧ (testReq 3).round < 4 ∧ (testAts [] [testReq 1]).ats.reqs.find? (fun r => r.on 0 none 5 && r.sent) = some (testReq 1) ∧
    (testAts [] [testReq 1]).power.phase ≠ .dormant ∧ (testAts [] [testReq 1]).errl.ring.length < 1024 ∧ tget none (testAts [] []).mem.claims 8 = none := by
  decide +kernel
/-- The entry at word 64 holds Z and ZB, and that at 128 neither. -/
def testZeroing : State := { testOpen testSup with mem := { Mem.reset with words := [(64, 0), (65, 0xC00)] } }
theorem test_hyps_HostPages_takeover : ∃ s1 s2, readEntry (128 / 2) testZeroing = (some (0xC0000000 : W40), s1) ∧ readEntry (256 / 2) testZeroing = (some (0 : W40), s2) ∧ (0xC0000000 : W40).getLsbD 30 = true ∧ (0xC0000000 : W40).getLsbD 31 = true ∧ (0 : W40).getLsbD 30 = false :=
  ⟨testZeroing, testZeroing, by rfl, by rfl, by decide, by decide, by decide⟩

/-- Host pages 0 to 511 are translated to themselves for function 0, whose doorbell page lies at 0x100000. -/
def testHost (en : Bool) (host : List (Nat × Option Byte)) : State :=
  { testOpen testSup with
    power := { State.reset.power with phase := .ready, poll := 5 }, host := host, ats := { State.reset.ats with atc := [{ func := 0, pasid := none, page := 0, dest := 0, span := 512, read := true, write := true }] },
    funcs := [(0, { Func.reset 0 with ready := true, bme := true, dbpg := { Dbpg.reset with base := 0x100000, en := en, stBase := 0x100000 }, admq := { (Func.reset 0).admq with cur := { (Func.reset 0).admq.cur with en := true }, cqmsel := 70 } })] }
def testGroupIs (g : Group) (s : State) : State := s.setGroup 0 2 g
/-- Bytes of a host word. -/
def testBytes (a v : Nat) : List (Nat × Option Byte) := [(a, some (BitVec.ofNat 8 v)), (a + 1, some (BitVec.ofNat 8 (v / 256))), (a + 2, some (BitVec.ofNat 8 (v / 65536))), (a + 3, some 0)]
/-- Group 2 is being read: its bitmap word is w and the first of its words v. -/
def testDoor (w v : Nat) : State :=
  (testGroupIs { Group.reset with reading := true } (testHost true (testBytes 0x120008 w ++ testBytes 0x100100 v))).setSq 64 (some (Sq.new 0 0x8000 16 70 3 1))
/-- The doorbell page's enable is staged at address 0. -/
def testStagedDb (s : State) : State := (testOpen s).setFn 0 { (testOpen s).fn 0 with dbpg := { Dbpg.reset with stEn := true, staged := true } }
theorem test_hyps_Doorbells :
    (let s := testHost true []; hostOpen 0 s = true ∧ (s.fn 0).dbpg.en = true ∧ isMember s = false ∧ s.power.poll ≠ 0 ∧ s.power.phase = .ready ∧ (s.fn 0).dbpg.stBase ≠ 0) ∧ ((testHost false []).fn 0).dbpg.en = false ∧ ((testOpen testSup).fn 0).dbpg.stBase = 0 ∧ ((testOpen testSup).fn 0).dbpg.staged = false ∧ ((testStagedDb testSup).fn 0).dbpg.staged = true ∧ ((testStagedDb testSup).fn 0).dbpg.stBase = 0 ∧ hostOpen 0 (testStagedDb testSup) = true ∧
    (let s := testDoor 0 0; ((s.group 0 2).reading = true ∧ (s.group 0 2).failed = false ∧ (s.group 0 2).again = false) ∧ hostNat s (0x120008) 4 = 0 ∧ s.hostBad = []) ∧
    (let s := testDoor 1 15; hostNat s 0x120008 4 = 2 ^ 0 ∧ hostNat s 0x100100 4 % 65536 < 16 ∧ s.sq 64 = some (Sq.new 0 0x8000 16 70 3 1) ∧ ownsSq 0 64 s = true ∧ s.cq 64 = none) ∧ 16 ≤ hostNat (testDoor 1 16) 0x100100 4 % 65536 ∧
    ((testGroupIs { Group.reset with reading := true, failed := true } (testHost true [])).group 0 2).failed = true := by
  decide +kernel
theorem test_hyps_Doorbells_places : hostXl .dispatcher 0 none true (0, 0) (0x100000 + 0x20000 + 4 * 2) (true, false) (testDoor 1 15) = .at 0x120008 ∧ hostXl .dispatcher 0 none true (0, 0) (0x100000 + 128 * 2) (true, false) (testDoor 1 15) = .at 0x100100 := ⟨rfl, rfl⟩

/-- A descriptor by its fields: byte and value. -/
def testDesc (fs : List (Nat × Nat)) : Descriptor := fs.foldl (fun d x => d ||| (BitVec.ofNat _ x.2 <<< (8 * x.1))) 0
/-- Three admin commands wait; CQ 70 and SQ 65 are function 0's; and jobs run. -/
def testAdmin (jobs : Tbl (Option Job)) : State :=
  { testHost true [] with
    disp := { State.reset.disp with jobs := jobs, fetching := true, sq := [(0, some { Sq.new 0 0x8000 16 0 0 1 with tail := 3 }), (65, some (Sq.new 0 0x20000 32 70 3 9))], cq := [(0, some (Cq.new 0 0x9000 16 1 true 0 0)), (70, some (Cq.new 0 0xA000 16 2 true 0 0)), (71, some (Cq.new 0 0xB000 16 2 true 0 0))] } }
def testFetched (d : Descriptor) (s : State) : State := (fetchSlot 0 d s).2
def testAdminIs (opc : Nat) (named : List (Nat × Nat)) (d : Descriptor) : Bool :=
  decide (dByte d 0 = opc) && (List.range 64).all fun i => ((0, 1) :: (2, 2) :: named).any (fun x => decide (x.1 ≤ i) && decide (i < x.1 + x.2)) || decide (dByte d i = 0)
theorem test_hyps_AdminCommands_queues :
    (let d := testDesc [(0, 0x80), (2, 7), (16, 0x10000), (24, 32), (28, 64), (30, 32773), (32, 3), (34, 9)]; let s := testAdmin []
     (fetchSlot 0 d s).1 = true ∧ testAdminIs 0x80 [(16, 8), (24, 4), (28, 2), (30, 2), (32, 1), (34, 2)] d = true ∧ dNat d 16 8 ≠ 0 ∧ dNat d 16 8 % 4096 = 0 ∧ 64 ≤ dNat d 28 2 ∧ (testFetched d s).cq (dNat d 28 2) = none ∧ dNat d 30 2 / 2048 % 16 = 0 ∧
      dNat d 30 2 % 2048 < vectorCount 0 ∧ dNat d 34 2 ≠ 0 ∧ ringSize (dNat d 24 4) = true) ∧ ringSize 33 = false ∧
    (let d := testDesc [(0, 0x81), (2, 7), (28, 71)]; testAdminIs 0x81 [(28, 2)] d = true ∧ ownsCq 0 71 (testFetched d (testAdmin [])) = true ∧ ownsCq 0 72 (testFetched d (testAdmin [])) = false ∧ (testFetched d (testAdmin [])).disp.sq.all (fun x => x.2.elim true (fun q => decide (q.cq ≠ 71))) = true) ∧
    (let d := testDesc [(0, 0x82), (2, 7), (16, 0x10000), (24, 32), (28, 66), (30, 70), (32, 7), (33, 16)]
     testAdminIs 0x82 [(16, 8), (24, 4), (28, 2), (30, 2), (32, 1), (33, 1)] d = true ∧ (testFetched d (testAdmin [])).sq 66 = none ∧ ownsCq 0 (dNat d 30 2) (testFetched d (testAdmin [])) = true ∧ dByte d 32 < 8 ∧ dByte d 33 ≤ 16) ∧
    (let d := testDesc [(0, 0x83), (2, 7), (28, 65)]; let s := testFetched d (testAdmin [])
     testAdminIs 0x83 [(28, 2)] d = true ∧ dNat d 28 2 = 65 ∧ ownsSq 0 65 s = true ∧ s.sq 65 = some (Sq.new 0 0x20000 32 70 3 9) ∧ s.disp.jobs = [] ∧ holdsFor 65 70 s = false ∧ ownsSq 0 99 s = false ∧ (testFetched d (testAdmin [(7, some { testJob with sq := 65 })])).disp.jobs = [(7, some { testJob with sq := 65 })]) ∧
    (let d := testDesc [(0, 0x86), (2, 7), (28, 65), (30, 9)]; let s := testFetched d (testAdmin [])
     testAdminIs 0x86 [(28, 2), (30, 2)] d = true ∧ ownsSq 0 65 s = true ∧ startedJob 65 9 s = none ∧ startedJob 65 0 (testFetched d (testAdmin [(7, some { testJob with sq := 65 })])) = some 7) := by
  decide +kernel
theorem test_hyps_AdminCommands_contexts :
    (let d := testDesc [(0, 0x84), (2, 7), (16, 5), (18, 7), (20, 9), (24, 131072), (32, 4096), (40, 65536)]; let s := testFetched d (testAdmin [])
     testAdminIs 0x84 [(16, 32)] d = true ∧ dNat d 16 2 < 4096 ∧ ctxInUse (dNat d 16 2) s = false ∧ s.ctx 5 = none ∧ dNat d 18 2 < 8 ∧ dNat d 18 2 % 4 ≠ 2 ∧ dNat d 20 4 < 2 ^ 20 ∧ dNat d 24 8 < 2 ^ 40 ∧ rootBad s (dNat d 24 8) = false ∧ dNat d 32 8 % 4096 = 0 ∧ dNat d 40 8 < 0xF000000000 ∧ dNat d 40 8 % 65536 = 0) ∧
    (let d := testDesc [(0, 0x85), (2, 7), (16, 5)]; let s := testFetched d { testAdmin [] with ctxs := [(5, some testCtx)] }
     testAdminIs 0x85 [(16, 2)] d = true ∧ ctxInUse (dNat d 16 2) s = false ∧ windowUses 0 (dNat d 16 2) s = false ∧ s.ctx 5 = some testCtx) ∧
    (let d := testDesc [(0, 0x87), (2, 7), (20, 4), (24, 5), (28, 1), (32, 0x20000)]; let s := testFetched d (testAdmin [])
     testAdminIs 0x87 [(16, 1), (20, 4), (24, 4), (28, 1), (32, 8)] d = true ∧ dByte d 28 < 2 ∧ dByte d 16 < 8 ∧ inCascade s (dByte d 16) = true ∧ dNat d 20 4 ≤ dNat d 24 4 ∧ dNat d 24 4 < tractsOf s (dByte d 16)) ∧
    (let d := testDesc [(0, 0x88), (2, 7), (16, 63), (20, 4), (24, 5)]; let s := testFetched d (testAdmin [])
     testAdminIs 0x88 [(16, 1), (20, 4), (24, 4), (28, 1)] d = true ∧ dByte d 16 < 64 ∧ dByte d 28 = s.straps.modId.toNat ∧ dNat d 20 4 ≤ dNat d 24 4 ∧ dNat d 24 4 < tractsOf s (dByte d 28)) := by
  decide +kernel

/-- CQ 70 as given. -/
def testCq (c : Cq) (host : List (Nat × Option Byte)) : State :=
  let s := { testAdmin [] with host := host }
  { s.setCq 70 (some c) with funcs := [(0, { s.fn 0 with msixEn := true, vec := [(2, { Vector.reset with mask := false })] })] }
def testEntry : Cq := { Cq.new 0 0xA000 16 2 true 0 0 with held := [plainEntry 9 70 3 44] }
/-- Values of ACTL and CQMOD are staged. -/
def testStagedCq (s : State) : State := s.setFn 0 { s.fn 0 with admq := { (s.fn 0).admq with staged := true, modStaged := true } }
theorem test_hyps_CompletionQueues :
    (let s := testCq { testEntry with n := 2, timer := some 5 } []; let c := { testEntry with n := 2, timer := some 5 }
     s.cq 70 = some c ∧ c.timer.isSome = true ∧ 0 < c.n ∧ (s.fn c.func).msixEn = true ∧ c.vec.toNat < vectorCount c.func ∧ (s.fn c.func).fmask = false ∧ (tget Vector.reset (s.fn c.func).vec c.vec.toNat).mask = false ∧ (s.fn c.func).bme = true) ∧ testEntry.timer = none ∧
    (let s := testCq testEntry []; s.funcs.all (fun e => decide (e.2.admq.due = none)) = true ∧ (Func.reset 9).admq.due = none ∧ s.disp.sq.all (fun e => e.2.elim true (fun x => decide (x.deleting = none))) = true ∧ s.power.phase = .ready ∧ retryEnding 70 s = s ∧
      testEntry.held = [plainEntry 9 70 3 44] ∧ testEntry.disabled = false ∧ testEntry.retry = false ∧ (testEntry.tail + 1) % testEntry.size ≠ testEntry.head) ∧ (15 + 1) % testEntry.size = testEntry.head ∧
    (let s := testCq { testEntry with tail := 15 } (testBytes 0x100118 0x50000); (s.fn 0).dbpg.en = true ∧ ownsCq 0 70 s = true ∧ s.hostBad = [] ∧ hostNat s 0x100118 4 / 65536 < 16) ∧
    (let s := testCq testEntry []; hostOpen 0 s = true ∧ (s.fn 0).admq.cqmsel.toNat = 70 ∧ testEntry.n = 0 ∧ (0x03001000 : W32).toNat / 4096 % 4096 ≠ 0 ∧ (0x03000000 : W32).toNat / 4096 % 4096 = 0 ∧ cqLive 70 testEntry s = true ∧ cqLive 0 testEntry { s with funcs := [] } = false ∧ (s.fn 0).admq.modStaged = false ∧ (s.fn 0).admq.shownStaged = false ∧ (2 : W32).getLsbD 1 = true ∧ (s.fn 0).admq.st.asq = 0 ∧ adminBusy 0 s = false ∧
      (({ s with disp := { s.disp with sq := [] } } : State).sq 0) = none) ∧
    (let s := testStagedCq (testCq testEntry []); hostOpen 0 s = true ∧ (s.fn 0).admq.modStaged = true ∧ (s.fn 0).admq.shownStaged = true ∧ (s.fn 0).admq.cqmsel.toNat = 70 ∧ ownsCq 0 70 s = true ∧ (s.fn 0).admq.st.asq = 0 ∧ adminBusy 0 s = false ∧
      ({ s with disp := { s.disp with sq := [] } } : State).sq 0 = none) := by
  decide +kernel
theorem test_hyps_CompletionQueues_places :
    hostXl .dispatcher 0 none true (0, 0) (0xA000 + 32 * 0) (false, true) (testCq testEntry []) = .at 0xA000 ∧ hostXl .dispatcher 0 none true (0, 0) (0x100000 + 4 * 70) (true, false) (testCq { testEntry with tail := 15 } (testBytes 0x100118 0x50000)) = .at 0x100118 := ⟨rfl, rfl⟩

/-- A context whose one large page maps the first 16 M words to tracts 16 to 31. -/
def testTable : List (Nat × Word) := [(131072, 0x200), (131073, 0x1270)]
/-- The descriptor d waits in SQ 70; bent 0 is free. -/
def testStart (d : Descriptor) : State :=
  { testCq testEntry [] with
    ctxs := [(5, some { testCtx with ptroot := 131072, saveVa := 65536 })], bents := [(0, { Bent.reset with service := some false })], mem := { Mem.reset with words := testTable },
    disp := { State.reset.disp with fetching := true, sq := [(70, some { Sq.new 0 0x8000 16 70 3 1 with fetched := [d] })], cq := [(70, some testEntry)] } }
def testNative : Descriptor := testDesc [(0, 1), (2, 7), (4, 5), (6, 1), (32, 0x1234)]
theorem test_hyps_JobStarts_choice :
    chooseQueue (testStart testNative) = (some (70, { Sq.new 0 0x8000 16 70 3 1 with fetched := [testNative] }, testNative), testStart testNative) ∧
    chooseQueue (testStart 0) = (some (70, { Sq.new 0 0x8000 16 70 3 1 with fetched := [0] }, 0), testStart 0) ∧
    (match savePages 70 testNative (jobXl 0 testNative (testStart testNative)) 65536 16 (testStart testNative) with | .ok _ s3 => decide ((takeBents 1 s3).1 = some [0]) | _ => false) = true := by
  decide +kernel
theorem test_hyps_JobStarts :
    (let d := testDesc [(0, 2), (8, 6)]; let s := { testAdmin [] with disp := { (testAdmin []).disp with sq := [(65, some { Sq.new 0 0x20000 32 70 3 9 with tail := 3 })] } }; 64 ≤ 65 ∧ (fetchSlot 65 d s).1 = true ∧ (testFetched d s).sq 65 ≠ none ∧ dByte d 0 = 2 ∧ dByte d 8 = 6) ∧
    State.reset.power.phase ≠ .ready ∧ (testStart testNative).power.phase = .ready ∧ (testStart testNative).disp.fetching = true ∧ restoreFirst 3 (testStart testNative) = false ∧
    jobFault 0 testNative (testStart testNative) = none ∧ (jobFault 0 (testDesc [(0, 9)]) (testStart (testDesc [(0, 9)]))).isSome = true ∧ jobFault 0 0 (testStart 0) = none ∧
    (dByte testNative 0 = 1 ∧ dByte testNative 6 = 1 ∧ dByte testNative 7 = 0 ∧ dNat testNative 16 8 = 0 ∧ dNat testNative 40 8 = 0 ∧ (testStart testNative).ctx 5 = some { testCtx with ptroot := 131072, saveVa := 65536 } ∧ freeBents (testStart testNative) ≠ []) := by
  decide +kernel
theorem test_hyps_JobStarts_none : ∃ s2, chooseQueue (testAdmin []) = (none, s2) := ⟨_, rfl⟩

/-- Job 7 runs a service with its parameters on bent 0. -/
def testService (n : Nat) (ps : List Byte) : Job := { testJob with desc := testDesc [(0, 2), (2, 7), (4, 5), (6, 1), (8, n)], param := ps }
def testServing (job : Job) : State :=
  { testStart testNative with disp := { (testStart testNative).disp with jobs := [(7, some job)] }, bents := [(0, { Bent.reset with service := some false, share := some (7, 0), ctxid := 5, ptroot := 131072 })] }
/-- ZERO of one page at 65536. -/
def testZero : Job := testService 6 (List.replicate 33 0 ++ [1] ++ List.replicate 6 0 ++ [0, 0, 1, 0, 0, 0, 0, 0, 1] ++ List.replicate 10 0)
/-- A journalled SORT of no records: its first pass ends at a commit point. -/
def testJournal : Job := testService 1 [0, 1]
theorem test_hyps_ServiceRuns :
    (serviceRuns 1 7 (testServing (testService 1 [])) = some (testService 1 []) ∧ pJournal (testService 1 []).param = false ∧ serviceOver (testService 1 []) = false ∧ 1 < serviceFuel (testService 1 [])) ∧
    serviceOver { testService 1 [] with prog := { (testService 1 []).prog with pos2 := 2 } } = true ∧
    (serviceRuns 0 7 (testServing testJournal) = some testJournal ∧ pJournal testJournal.param = true ∧ serviceOver testJournal = false) ∧
    (serviceRuns 6 7 (testServing testZero) = some testZero ∧ testZero.shares = [.on 0] ∧ zeroSteps testZero.param = [1] ∧ testZero.prog.pos = 0 ∧ pNat testZero.param 32 1 = 0 ∧ pJournal testZero.param = false ∧ (zeroRange testZero.param 0).1 = 65536) := by
  decide +kernel
theorem test_hyps_ServiceRuns_turns :
    (match serviceTurn testJournal (testServing testJournal) with | .go p s2 => commitDue testJournal testJournal.prog p && !serviceOver { testJournal with prog := p } && !s2.power.warn | _ => false) = true ∧
    (match xlate (.core 0) (coreXl 0 2 (testServing testZero)) .write 65536 1 (testServing testZero) with | .ok [.dev 33619968] s2 => decide ((s2.core 0).stores = [] ∧ (s2.core 1).stores = []) && isLocal s2 33619968 | _ => false) = true := by
  decide +kernel

/-- A module in a phase. -/
def testIn (p : Phase) (s : State) : State := { s with power := { s.power with phase := p } }
/-- A slot that verifies cannot be shown, since the signature check has no value here: the two clauses on it are met wherever the checks accept the slot. The other clauses: two erased slots; every phase. -/
theorem test_hyps_ComingUpAndDown :
    (let s := testIn .off { State.reset with flash := { State.reset.flash with erased := [(0, true), (1, true)] } }; s.power.phase = .off ∧ verifySlot s s.flash.active ≠ 0 ∧ verifySlot s (!s.flash.active) ≠ 0) ∧
    (testIn .stopped State.reset).power.phase = .stopped ∧ 44000 ≤ 54000 ∧ State.reset.power.phase ≠ .off ∧
    (let s := State.reset; s.power.phase = .aux ∧ s.power.fault = false ∧ s.power.precharged = true ∧ s.power.reserve = true ∧ 44000 ≤ s.power.vin ∧ s.steward.recovery = false ∧ s.flash.active = s.flash.running ∧ 3 < s.variant.physBents ∧ tget false s.pair.retiredList 3 = false) ∧
    (testOpen testSup).power.phase = .ready := by
  decide +kernel
theorem test_hyps_ComingUpAndDown_slots (s : State) (a : authentic s false = true) (v : (slotVariants s false).testBit s.variant.bit = true) (n : s.flash.minSvn ≤ slotSvn s false) : verifySlot s false = 0 := by
  simp [verifySlot, a, v, Nat.not_lt.mpr n]

/-- Module 2 is a member of a cascade that module 0 heads. -/
def testMember (s : State) : State := { s with straps := { Straps.alone with modId := 2, head := false }, scarf := { s.scarf with formed := true, present := 5 } }
def testSeq (q : List (Bool × Nat)) (s : State) : State := { s with power := { s.power with seqQueue := q } }
theorem test_hyps_PowerStates :
    (let s := testOpen testSup; s.power.phase = .ready ∧ isMember s = false ∧ drained (drainJobs { s with port := { s.port with d3hot := true } }) = true ∧ s.power.seqQueue = [] ∧ s.power.idle ≠ 0 ∧ (inService s).contains 4 = true ∧ (s.bent 4).share = none ∧ takingOver s 4 = false ∧ (s.island (s.physOf 4)).powered = true) ∧
    isMember (testMember (testOpen testSup)) = true ∧ (testMember (testOpen testSup)).power.phase = .ready ∧ (testIn .dormant (testMember (testOpen testSup))).power.phase = .dormant ∧
    (let s := testSeq [(true, 3), (false, 4)] (testOpen testShare); logicalOf 3 s = some 3 ∧ (s.bent 3).share = none ∧ takingOver s 3 = false ∧ logicalOf 0 s = some 0 ∧ (s.bent 0).share ≠ none) := by
  decide +kernel

/-- Island 7 with a pair held. -/
def testIsland (p : Option (Bool × BitVec 2)) : State := let s := testOpen testSup; { s with power := { s.power with islsel := 7, refuse := 1 } }.setIsland 7 { s.island 7 with heldPair := p }
theorem test_hyps_ClocksAndSupply :
    (let s := testIsland none; hostOpen 0 s = true ∧ hasIsland 7 s = true ∧ (s.island 7).powered = true ∧ islandBusy 7 s = false ∧ islandBusy 44 s = true ∧ (s.island 7).heldPair = none ∧ s.power.islsel.toNat = 7 ∧ (2 : W32).getLsbD 1 = true ∧ islandRuns 7 s = true ∧ s.power.refuse.toNat = 1 ∧ s.power.refsel = 0 ∧
      s.power.warn = false ∧ s.power.therm = false ∧ s.power.ttrip.toNat ≤ 110 ∧ s.power.tthr.toNat ≤ 95 ∧ s.power.brake = false ∧ s.power.samples = [] ∧ s.steward.writes = 0) ∧
    ((testIsland (some (true, 1))).island 7).heldPair = some (true, 1) ∧ ((testIsland (some (true, 1))).island 7).powered = true ∧ (testIsland none).power.refuse.toNat ≠ 2 ∧
    (let s := { testOpen testSup with power := { (testOpen testSup).power with therm := true, throt := 15, warn := true, brake := true }, steward := { Steward.reset with writes := 1 } }
     s.power.therm = true ∧ 92 + 2 < s.power.tthr.toNat ∧ s.power.throt = 15 ∧ s.power.warn = true ∧ s.power.brake = true ∧ s.steward.writes ≠ 0 ∧ s.power.phase = .ready) ∧ ((14 : BitVec 5).toNat < 15) := by
  decide +kernel

/-- Link 0 as given, on a module alone. -/
def testLink (k : Link) : State := (testOpen testSup).setLink 0 k
def testPeer : Sys2Proof.Peer := { mod := 3, link := 1, head := false, clocksAgree := true }
theorem test_hyps_ScarfLinks :
    (4 : Nat) ≤ 4 ∧ (let s := testLink Link.reset; hasLink 0 s = true ∧ hostOpen 0 s = true ∧ (s.link 0).en = true ∧ (s.link 0).heldDown = false ∧ onlyRoute 0 s = false ∧ (s.link 0).state = 0 ∧ (s.link 0).maxw = false ∧ s.power.phase = .ready ∧ refusedPeer testPeer s = false ∧ refusedPeer { testPeer with head := true } s = true) ∧
    (let s := { testLink { Link.reset with state := 2, width := 8, peerMod := 3, laneOk := 255 } with scarf := { (testLink { Link.reset with state := 2, width := 8, peerMod := 3, laneOk := 255 }).scarf with formed := true, present := 9 } }; (s.link 0).state = 2 ∧ (s.link 0).width = 8 ∧ onlyRoute 0 s = true ∧ (s.link 0).replayed = none) ∧
    ((testLink { Link.reset with state := 1 }).link 0).state = 1 ∧ ((testLink { Link.reset with state := 3, width := 4, laneOk := 15 }).link 0).laneOk &&& 15 = 15 ∧ ((16 : BitVec 8) &&& 15 = 0) ∧ ((15 : BitVec 8) ≠ 255) ∧ ((14 : BitVec 8) &&& 15 ≠ 15 ∧ (14 : BitVec 8) &&& 240 ≠ 240) ∧
    ((testLink { Link.reset with state := 2, replayed := some (9, 7) }).link 0).replayed = some (9, 7) := by
  decide +kernel

/-- Module 0 heads a cascade with module 3 on link 0. -/
def testCascade (present : BitVec 8) : State := let s := testLink { Link.reset with state := 2, width := 8, peerMod := 3, laneOk := 255 }; { s with scarf := { s.scarf with formed := true, present := present } }
theorem test_hyps_Cascades :
    State.reset.scarf.formed = false ∧ (testCascade 9).scarf.formed = true ∧
    (let s := testIn .raised (testLink { Link.reset with state := 2, width := 8, peerMod := 3 }); s.power.phase = .raised ∧ s.power.fault = false ∧ (within (topology [] s) 0 8).contains 0 = true ∧ s.straps.head = true ∧ s.straps.modId = 0 ∧ (within (topology [] s) 0 8).contains 7 = false ∧ (s.fn 0).enabled = true) ∧
    (let s := testCascade 9; (s.link 0).state = 2 ∧ s.power.phase = .ready ∧ isLocal s 64 = true ∧ keptFor 3 5 s = none ∧ isHole s (localOf 64) = false ∧ (3 : BitVec 3) ≠ s.straps.modId ∧ s.scarf.present.getLsbD 3 = true) ∧
    (let s := testCascade 1; s.scarf.present.getLsbD 3 = false ∧ (within (topology [] s) 0 8).contains 3 = true) ∧
    (keptFor 3 5 { testCascade 9 with scarf := { (testCascade 9).scarf with kept := [{ origin := 3, tag := 5, word := 0, poisoned := false, at_ := 0 }] } }).isSome = true := by
  decide +kernel
theorem test_hyps_Cascades_reads : ∃ s2, blkRead (testCascade 9) (localOf 64 / 64) [localOf 64 % 64] = (some [0], s2) := ⟨_, rfl⟩

/-- The mailbox runs a command with its argument, length and result; slot B is erased; host bytes as given. -/
def testBox (opc : BitVec 8) (arg len : Nat) (result : Option (BitVec 16)) (host : List (Nat × Option Byte)) : State :=
  { testHost true host with stwd := { Stwd.reset with busy := true, cOpc := opc, cArg0 := arg, cLen := len, cAddr := 0x4000, result := result }, flash := { Flash.reset with erased := [(1, true)] } }
/-- A run of function 0 in the journal. -/
def testUnit : Unit_ := { runid := 5, func := 0, service := 2, seq := 0, paramCrc := 0, inPos := 0, inPos2 := 0, outCount := 0, outCount2 := 0, sealA := 0, sealB := 0, counts := [], complete := false, status := 0, good := true }
/-- FW_WRITE at both ends of a page, FW_VERIFY and FW_ACTIVATE of a slot that fails; with an update lock; the journal, the log, the retired list and the sensors; a result, and no command. A slot that verifies: test_hyps_ComingUpAndDown_slots. -/
theorem test_hyps_MailboxCommands :
    State.reset.stwd.busy = false ∧ State.reset.steward.recovery = false ∧ (4097 % 4096 ≠ 0) ∧
    (let s := testBox 1 4096 4096 none []; s.stwd.busy = true ∧ s.stwd.result = none ∧ s.stwd.cOpc.toNat = 1 ∧ s.stwd.cArg0 % 4096 = 0 ∧ s.stwd.cArg0 < 8388608 ∧ s.stwd.cLen ≤ 4096 ∧ s.flash.lock ≠ some true ∧ s.power.warn = false ∧ s.hostBad = [] ∧ verifySlot s true ≠ 0) ∧
    (let s := testBox 5 16777215 1 none []; s.stwd.cArg0 + s.stwd.cLen ≤ 16777216) ∧ (let s := testBox 6 256 256 none []; s.stwd.cArg0 % 256 = 0 ∧ s.stwd.cLen % 256 = 0 ∧ 256 ≤ s.stwd.cLen ∧ s.stwd.cPos = 0) ∧
    (let s := { testBox 7 0 16 none [] with steward := { Steward.reset with log := [{ code := 1, kind := 2, unit := 3, addr := 4, detail := 5, ctx := 6, time := 7, ue := true }] } }; s.stwd.cArg0 < s.steward.log.length) ∧
    (33 < State.reset.variant.physBents) ∧ (testBox 10 5 0 none []).steward.runs.any (isRun 0 5) = false ∧ isRun 0 5 (testUnit, none) = true ∧ (sensor 22 State.reset).isSome = true ∧ (testBox 10 5 0 (some 3) []).stwd.result = some 3 ∧ 12 ≤ (12 : BitVec 8).toNat := by
  decide +kernel
theorem test_hyps_MailboxCommands_buffer : hostXl .steward 0 none true (0, 0) 0x4000 (false, true) (testBox 1 4096 4096 none []) = .at 0x4000 ∧ hostXl .steward 0 none true (0, 0) 0x4000 (true, false) (testBox 1 4096 4096 none []) = .at 0x4000 := ⟨rfl, rfl⟩

theorem test_hyps_ManagementRequests :
    (testIn .off State.reset).power.phase = .off ∧ (254 : Byte) ≠ 0 ∧ (254 : Byte) ≠ 255 ∧ 1 < (2 : Byte).toNat ∧ (let s := testOpen testSup; s.power.phase ≠ .off ∧ s.steward.recovery = false ∧ (sensor 20 s).isSome = true ∧ s.power.warn = false) ∧
    (testIn .dormant State.reset).power.phase = .dormant ∧ ({ State.reset with steward := { Steward.reset with recovery := true } } : State).steward.recovery = true ∧ ({ State.reset with power := { Power.reset with warn := true } } : State).power.warn = true := by
  decide +kernel

/-- An update stands at u, with its lock; slot B is erased. -/
def testUpdate (u : Update) (lock : Option Bool) : State := { testOpen testSup with steward := { Steward.reset with update := u }, flash := { Flash.reset with erased := [(1, true)], lock := lock, begun := decide (lock = some true) } }
theorem test_hyps_FirmwareUpdate :
    (testUpdate .idle none).power.phase ≠ .off ∧ (testUpdate .idle none).flash.lock = none ∧ (testUpdate .idle (some false)).flash.lock = some false ∧ (testUpdate .download (some true)).flash.lock ≠ some false ∧ 8388607 + ([1] : List Byte).length ≤ 8388608 ∧
      8388608 < 8388608 + ([1] : List Byte).length ∧ (testUpdate .verify (some true)).steward.update = .verify ∧ verifySlot (testUpdate .verify (some true)) true ≠ 0 ∧ (testUpdate .ready (some true)).power.warn = false ∧ (testUpdate .apply (some true)).flash.begun = true ∧
      (Update.apply ≠ .idle ∧ Update.apply ≠ .activate) := by
  decide +kernel

/-! ### Further witnesses: clauses of the statements above on a second state -/

/-- Bent 0 runs a job, and an event of priority 5 is pending for its core 0, not yet presented. -/
def testWaking (s : State) : State := { testHeld testJob s with srcs := [(64, { testSrc with pres := none })] }
theorem test_hyps_WaitsAndFences_more :
    (let s := testWaking (testCalm testSup); Issues 0 1 s s ∧ eventWaits s 0 = true ∧ (s.arch 0).masked = false ∧ eventReady (present 0 s) 0 = true) ∧
    (let s := testWaking testSup; Issues 0 1 s s ∧ eventWaits s 0 = true ∧ (s.arch 0).masked = true) ∧
    beingPreempted 0 (testHeld { testJob with preempted := true } testSup) = true ∧ Issues 0 1 (testHeld { testJob with preempted := true } testSup) (testHeld { testJob with preempted := true } testSup) ∧
    (let s := testFenced 8 []; (s.fn (coreXl 0 0 s).func).bme = false) ∧ (let s := testOpen (testFenced 12 []); (s.fn (coreXl 0 0 s).func).bme = true ∧ (s.core 0).run = .fenced 12 ∧ bitAt (12 : BitVec 4) 0 = false) ∧
    (let s := testCalm (testWaiting true); (s.core 0).run = .waiting ∧ (s.core 0).timer = true ∧ (s.arch 0).masked = false ∧ unreported (s.core 0) = (none, none) ∧ (s.core 0).chain = [] ∧ (s.core 0).notice = none) ∧
    (let s := testWaking (testWaiting false); (s.core 0).run = .waiting ∧ eventWaits s 0 = true ∧ (s.arch 0).masked = true ∧ readyCause 0 (s.setCore 0 { s.core 0 with run := .running }) = none) :=
  ⟨⟨⟨by decide, by decide, by decide, by decide, by rfl⟩, by decide, by decide, by decide⟩, ⟨⟨by decide, by decide, by decide, by decide, by rfl⟩, by decide, by decide⟩, by decide, ⟨by decide, by decide, by decide, by decide, by rfl⟩, by decide, by decide, by decide, by decide⟩
theorem test_hyps_TrapEntry_bench : onBench 0 0x1F8 8 testSettled ∧ (testSettled.arch 0).compat = true := by unfold onBench; decide
/-- A service-level core with one emergency frame of a level. -/
def testEmerg (pl : Word) : State := testOn { Arch.reset with emerg := [[0x10, 0, pl, 0, 0, 0, 0, 0]] }
theorem test_hyps_TrapReturn_more :
    (((testFrame 0).arch 0).compat = false ∧ benchReads 0 (((testFrame 0).arch 0).regA 15) 8 (testFrame 0)) ∧
    (Issues 0 1 (testEmerg 2) (testEmerg 2) ∧ Calm 0 (testEmerg 2) ∧ ((testEmerg 2).arch 0).pl = 2 ∧ ((testEmerg 2).arch 0).emerg = [0x10, 0, 2, 0, 0, 0, 0, 0] :: [] ∧ ((testEmerg 2).core 0).ops = [] ∧ ((testEmerg 2).core 0).vops = []) ∧
    ((2 : Word).toNat % 4 ≤ 2 ∧ 3 = (3 : Word).toNat % 4 ∧ Issues 0 1 (testEmerg 3) (testEmerg 3)) :=
  ⟨⟨by decide, by unfold benchReads onBench; decide⟩, ⟨⟨by decide, by decide, by decide, by decide, by rfl⟩, ⟨by decide, by decide, by decide, by decide, by decide, by decide⟩, by decide, by decide, by decide, by decide⟩,
    by decide, by decide, ⟨by decide, by decide, by decide, by decide, by rfl⟩⟩
theorem test_hyps_IllegalForms_more : (1 : BitVec 10) ≠ 0 ∧ 16 ≤ (16 : BitVec 10).toNat ∧ 256 ≤ (256 : BitVec 10).toNat ∧ 512 ≤ (512 : BitVec 10).toNat ∧ (testPepixo.arch 0).compat = true ∧ illegalWord 0x2C000 0 = true := by decide +kernel
/-- EVSET's operand names the own bent, and shares 0 and 1 of job 7, which has one share. -/
theorem test_hyps_EventInstructions_set :
    bitAt (0x203 : Word) 9 = true ∧ bitAt (0x003 : Word) 9 = false ∧ ((testEv 3 []).bent 0).share = none ∧
    (let s := testHeld testJob (testEv 3 []); Issues 0 1 s s ∧ Calm 0 s ∧ (s.bent 0).share = some (7, 0) ∧ s.job 7 = some testJob) ∧ testJob.shares[(0x003 : Word).toNat / 16 % 32]? = some (.on 0) ∧ testJob.shares[(0x013 : Word).toNat / 16 % 32]? = none :=
  ⟨by decide, by decide, by decide, ⟨⟨by decide, by decide, by decide, by decide, by rfl⟩, ⟨by decide, by decide, by decide, by decide, by decide, by decide⟩, by decide, by rfl⟩, by decide, by decide⟩
/-- An element group of core 0 under context 0 is in hand; its bent's cache holds page 0 of that context. -/
def testInHand : State := testBent (fun b => { b with tlb := [(tlbKey 0 0 false, some 0)] }) (testCore (fun c => { c with ops := [{ testOp .running with done := 1 }] }) testSup)
theorem test_hyps_XinvInHand :
    groupInHand (fun n => decide (n / 2 ^ 25 = 0)) testInHand = true ∧ groupInHand (fun n => decide (n / 2 ^ 25 = 1)) testInHand = false ∧ Issues 0 1 testInHand testInHand := by
  refine ⟨by decide, by decide, by decide, by decide, by decide, by decide, by rfl⟩
/-- JEND where the function's requests may be sent. -/
def testEnding : State := { testShare with funcs := [(0, { Func.reset 0 with ready := true, bme := true })] }
theorem test_hyps_Jend : Issues 0 1 testEnding testEnding ∧ Calm 0 testEnding ∧ testEnding.split 0 = false ∧ (testEnding.core 0).ops = [] ∧ (testEnding.fn (coreXl 0 0 testEnding).func).bme = true :=
  ⟨⟨by decide, by decide, by decide, by decide, by rfl⟩, ⟨by decide, by decide, by decide, by decide, by decide, by decide⟩, by decide, by decide, by decide⟩
/-- Two requests wait at pseudo-channel 0, the older of class 1. -/
def testLined : State := { testOpen testSup with mem := { Mem.reset with waits := [(0, [{ cls := 1, aged := false, req := .read 1 none }, { cls := 3, aged := false, req := .read 2 none }])] } }
theorem test_hyps_ControllerCommands_waits :
    tget [] testLined.mem.waits 0 = [{ cls := 1, aged := false, req := .read 1 none }] ++ { cls := 3, aged := false, req := .read 2 none } :: [] ∧
    (∀ u ∈ [({ cls := 1, aged := false, req := .read 1 none } : Waiting)], u.cls < 2 ∨ u.aged = true) := by decide
theorem test_hyps_RegisterCommits_staged :
    (testTract 5 6 false).mem.memc.staged = true ∧ (testTract 6 5 false).mem.memc.staged = true ∧ (testOpen testSup).mem.memc.staged = false ∧ (testTract 5 6 true).power.phase ≠ .dormant := by decide
/-- Functions 8 and up answer configuration accesses only with ARI. -/
theorem test_hyps_RegisterWrites_reached : reached 0 State.reset = true ∧ reached 9 State.reset = false := by decide
/-- A register of configuration space written over. -/
def testCfg (off : Nat) (v : W32) : State := (testOpen testSup).setFn 0 { (testOpen testSup).fn 0 with cfg := [(off, v)] }
theorem test_hyps_PortEvents_more :
    ecrcChecked (testOpen testSup) = false ∧ ecrcChecked (testCfg 0x118 0x100) = true ∧ timeoutOff (testOpen testSup) = false ∧ timeoutOff (testCfg 0x88 0x10) = true ∧ (testWin (Win.reset 0)).mem.fetched = none := by decide +kernel
/-- A pair for ISLCLK is staged. -/
def testPairStaged (src : Bool) (i : BitVec 6) : State := let s := testIsland none; { s with power := { s.power with islStaged := true, stSrc := src, islsel := i } }
theorem test_hyps_ClocksAndSupply_staged :
    (testIsland none).power.islStaged = false ∧ (let s := testPairStaged true 7; hostOpen 0 s = true ∧ s.power.islStaged = true ∧ hasIsland 7 s = true ∧ (s.island 7).powered = true) ∧
    (testPairStaged true 44).power.islsel = 44 ∧ hasIsland 63 (testPairStaged true 63) = false := by decide
/-- LINKCFG of link 0 is staged, on a module alone and on one whose only route it is. -/
def testLinkStaged (present : Bool) : State :=
  let s := testLink { Link.reset with state := 2, width := 8, peerMod := 3, laneOk := 255, staged := true }
  { s with scarf := { s.scarf with formed := present, present := if present then 9 else 1 } }
theorem test_hyps_ScarfLinks_staged :
    ((testLink Link.reset).link 0).staged = false ∧ (let s := testLinkStaged false; (s.link 0).staged = true ∧ onlyRoute 0 s = false ∧ hostOpen 0 s = true ∧ (s.link 0).heldDown = false) ∧ onlyRoute 0 (testLinkStaged true) = true := by decide
theorem test_hyps_Cascades_locked :
    (let s := testCascade 9; s.mem.waits = [] ∧ s.mem.poison = [] ∧ s.mem.flips = [] ∧ s.mem.dead = [] ∧ s.mem.merge = [] ∧ s.mem.saved = [] ∧ s.mem.fetched = none ∧ s.mem.ecc.armed = false) ∧
    lockBarred { testCascade 9 with mem := { Mem.reset with waits := [(channelOf .kl8x256 1, [{ cls := 1, aged := false, req := .read 1 none }])] } } (localOf 64 / 64) = true := by decide +kernel

/-! ### An ill-formed command for each check of Instr.wf -/

theorem test_ill_formed :
    (Instr.spareCheckComplete 34 true).wf = false ∧ (Instr.pageWaitPreempt 32).wf = false ∧ (Instr.unsupportedAccess 0 0 0).wf = false ∧ (Instr.controllerRead (2 ^ 31) { lane := none, cls := 1, waits := false }).wf = false ∧
    (Instr.controllerWrite 0 [(64, 1)] { parity := 0, cls := 1, waits := false }).wf = false ∧ (Instr.controllerWrite (2 ^ 31) [] { parity := 0, cls := 1, waits := false }).wf = false ∧ (Instr.mergeRetire (2 ^ 31)).wf = false ∧ (Instr.requestAging 256).wf = false ∧ (Instr.dramRefresh 256).wf = false ∧
    (Instr.yardAccess 32 { masters := [], hit := none }).wf = false ∧ (Instr.yardAccess 0 { masters := [50], hit := none }).wf = false ∧ (Instr.atsInvalidateRequest 0 none 0 0).wf = false ∧ (Instr.raising Straps.alone [34] none).wf = false ∧ (Instr.bentPowerDown 32).wf = false ∧
    (Instr.linkConfigCommit 4 0).wf = false ∧ (Instr.linkRetrain 4).wf = false ∧ (Instr.laneLockLoss 4 1).wf = false ∧ (Instr.linkTrainingComplete 4 255 testPeer).wf = false ∧ (Instr.linkRetry 4).wf = false ∧
    (Instr.flitReceive 4 0 true).wf = false ∧ (Instr.nak 4 0).wf = false ∧ (Instr.routeChange 0 [{ a := 1, al := 0, b := 1, bl := 1 }]).wf = false ∧ (Instr.remoteRequest 4 0 0 (.read 0)).wf = false ∧
    (Instr.formationWindowClose 0 [{ a := 1, al := 0, b := 1, bl := 1 }]).wf = false ∧ (Instr.moduleJoined 0 [{ a := 1, al := 0, b := 1, bl := 1 }]).wf = false ∧ (Instr.readCompletion 0 (BitVec.allOnes 64) [1, 2]).wf = false := by
  decide +kernel

/-! ### Worked examples of the spec -/

/-- The words of spec/07_instruction_set.md and spec/10_decimal_arithmetic.md. -/
theorem test_words : encRR 0x29 4 8 0 = 0xA5200 ∧ encRR 0x29 6 9 4 = 0xA5A44 ∧ encRI 3 4 0 = 0x0D000 ∧ encRR 1 7 5 9 = 0x05D49 ∧ encL 0x38 4 2 3 = 0xF8423 ∧ encL 0x3B 5 4 6 = 0xFB546 ∧ encSYS 0x28 4 1 = 0xA1001 := by decide
/-- The same words, with the second word of each long form, decode to what they stand for. -/
theorem test_decoded_words :
    decodeWords 3 0xA5200 0 = some (.ladc 3 4 8) ∧ decodeWords 3 0xA5A44 0 = some (.ltop 3 6 9) ∧ decodeWords 3 0x0D000 0 = some (.ldi 3 4 0) ∧ decodeWords 3 0x05D49 0 = some (.mov 3 7 5) ∧
    decodeWords 3 0xF8423 0x000B7 = some (.smul 3 4 2 3 0xB7) ∧ decodeWords 3 0xFB546 0x060B2 = some (.sdiv 3 5 4 6 0x60B2) ∧ decodeWords 3 0xA1001 0 = some (.sealchk 3 1) ∧ decodeWords 3 0xA1101 0 = some (.sealchkMerged 3 0x101) ∧
    decodeWords 3 0x80006 0 = some (.loop 3 0 6) ∧ decodeWords 3 0x4A080 0 = some (.ld2 3 8 2 0) ∧ decodeWords 3 0x64802 0 = some (.aaddi 3 2 2) := by decide
/-- spec/07: pass 3 of the fee total: LADC D4, D8, then LTOP D6, D9. -/
theorem test_ladc : nextIs (exec (.ladc 0 4 8) (testOn { Arch.reset with d := [(4, 96135), (8, 99999)] })) (fun t => (t.arch 0).regD 4 == 96134 && (t.arch 0).regD 5 == 1 && (t.arch 0).pc == 1) = true := by decide +kernel
theorem test_ltop : nextIs (exec (.ltop 0 6 9) (testOn { Arch.reset with d := [(6, 12), (7, 1), (9, 1)] })) (fun t => (t.arch 0).regD 6 == 14) = true := by decide +kernel
/-- spec/07, after R180: LSBB D2, D4 with D2 = 100, D4 = 350, D3 = 0. -/
theorem test_lsbb : nextIs (exec (.lsbb 0 2 4) (testOn { Arch.reset with d := [(2, 100), (4, 350)] })) (fun t => (t.arch 0).regD 2 == 99750 && (t.arch 0).regD 3 == 0xFFFFF) = true := by decide +kernel
/-- spec/07, after R177: CLT D3, D4 replaces D3 with s(D3) < s(D4). -/
theorem test_clt : nextIs (exec (.cc 0 3 4 2) (testOn { Arch.reset with d := [(3, 0xFFFFF), (4, 0)] })) (fun t => (t.arch 0).regD 3 == 1) = true := by decide +kernel
/-- spec/02: key A 0x00005, 0x00001 is below key B 0x00003, 0x00002. -/
theorem test_keys : keyValue [0x00005, 0x00001] < keyValue [0x00003, 0x00002] := by decide
/-- A gauge field of two decimals at offset 0. -/
def testField (g n size : Nat) : GaugeField := { hoff := 0, gauge := g, doff := 0, n := n, size := size, scale := 2, point := true, blank := false, fill := false }
/-- spec/02: the posting's key in gauge G1 and its amount in gauges G5 and G4, in and out. -/
theorem test_gauges :
    (testField 1 2 0).input [0xE5, 0xC9, 0x02, 0x41, 0x00, 0x00] = .ok [0x2C9E5, 0x00041] 0 ∧ (testField 5 4 0).input [0x77, 0x29, 0xFE, 0xFF, 0xFF, 0xFF, 0xFF, 0xFF] = .ok [0x136B7, 0x1869E, 0x1869F, 0xFFFFF] (-120457) ∧
    (testField 4 4 4).input [0x01, 0x20, 0x45, 0x7D] = .ok [0x136B7, 0x1869E, 0x1869F, 0xFFFFF] (-120457) ∧ (testField 4 4 4).output [0x136B7, 0x1869E, 0x1869F, 0xFFFFF] = some [0x01, 0x20, 0x45, 0x7D] ∧
    (testField 3 4 12).output [0x136B7, 0x1869E, 0x1869F, 0xFFFFF] = some [0x20, 0x20, 0x20, 0x20, 0x2D, 0x31, 0x32, 0x30, 0x34, 0x2E, 0x35, 0x37] := by
  decide +kernel
/-- A decimal division of the stream unit with a rounding mode. -/
def testDiv (mode : Nat) : Member := { testMove with lop := 0x3B, fn := mode, fd := .amount 4 2, fb := .amount 4 7, fc := .amount 1 0 }
/-- spec/10: SDIV of account B's product by 365 with mode 0, and by mode 5; SCVT of the packed amount. -/
theorem test_sdiv :
    okVal (compute (testDiv 0) 0 [0, 57755, 99990, 0xFFFFF] [365] [] testSup) ([], 0) = ([97419, 99999, 99999, 0xFFFFF], -2581) ∧ (okVal (compute (testDiv 5) 0 [0, 57755, 99990, 0xFFFFF] [365] [] testSup) ([], 0)).2 = -2582 ∧
    (okVal (compute { testMove with lop := 0x36, fn := 0, fd := .amount 4 2, fb := .amount 2 0 } 0 [0x00012, 0x0457D] [] [] testSup) ([], 0)).1 = [0x136B7, 0x1869E, 0x1869F, 0xFFFFF] := by
  decide +kernel
/-- spec/03: record 40,002 of tract 291 lies in pseudo-channel 184, bank 2. -/
theorem test_place : channelOf .kl8x256 (610591249 / 64) = 184 ∧ bankOf (610591249 / 64) = 2 := by decide +kernel
/-- spec/08: supervisor trap 8 enters at 0x00440 in native mode. -/
theorem test_handler : handlerPc Arch.reset 8 = 0x440 := by decide
/-- spec/17: EVSET with D2 0x00203 and D3 1 makes source 1010 pending with STAT 1 and leaves D2 0. -/
theorem test_evset : nextIs (exec (.evset 0 2) (testEv 0x203 [])) (fun t => (t.src (signalKey 0 3)).stat == 1 && (t.src (signalKey 0 3)).pend && (t.arch 0).regD 2 == 0) = true ∧ eventKey 0 1010 = some (signalKey 0 3) := by decide +kernel
end Sys2Proof
end

/-! ## What every command keeps: the variant, the waiting commands and the fuses -/

namespace Sys2Proof.Machine

/-- Every command keeps what `Keeps` names: the meaning of each constructor does. -/
theorem exec_keeps {z s : State} (c : Instr) (h : Keeps z s) : outcomeAll (Keeps z) (exec c s) :=
  match c with
  | .add .. => execAdd_keeps h
  | .sub .. => execSub_keeps h
  | .and .. => execAnd_keeps h
  | .or .. => execOr_keeps h
  | .xor .. => execXor_keeps h
  | .andn .. => execAndn_keeps h
  | .shl .. => execShl_keeps h
  | .shr .. => execShr_keeps h
  | .sar .. => execSar_keeps h
  | .mov .. => execMov_keeps h
  | .neg .. => execNeg_keeps h
  | .not .. => execNot_keeps h
  | .cc .. => execCc_keeps h
  | .addi .. => execAddi_keeps h
  | .ldi .. => execLdi_keeps h
  | .lui .. => execLui_keeps h
  | .andi .. => execAndi_keeps h
  | .ori .. => execOri_keeps h
  | .xori .. => execXori_keeps h
  | .shli .. => execShli_keeps h
  | .shri .. => execShri_keeps h
  | .sari .. => execSari_keeps h
  | .ldi20 .. => execLdi20_keeps h
  | .cmpi .. => execCmpi_keeps h
  | .cmp .. => execCmp_keeps h
  | .mul .. => execMul_keeps h
  | .mulwu .. => execMulwu_keeps h
  | .mulws .. => execMulws_keeps h
  | .macu .. => execMacu_keeps h
  | .macs .. => execMacs_keeps h
  | .ac5 .. => execAc5_keeps h
  | .ladc .. => execLadc_keeps h
  | .lsbb .. => execLsbb_keeps h
  | .ladz .. => execLadz_keeps h
  | .ladzs .. => execLadzs_keeps h
  | .ltop .. => execLtop_keeps h
  | .ltopb .. => execLtopb_keeps h
  | .lnrm .. => execLnrm_keeps h
  | .pdadd .. => execPdadd_keeps h
  | .pdsub .. => execPdsub_keeps h
  | .acz _ _ _ _ imm => execAcz_keeps (x5 := imm) h
  | .acmov _ _ _ _ imm => execAcmov_keeps (x5 := imm) h
  | .acneg _ _ _ _ imm => execAcneg_keeps (x5 := imm) h
  | .aclq .. => execAclq_keeps h
  | .acsq .. => execAcsq_keeps h
  | .acscl .. => execAcscl_keeps h
  | .adiv .. => execAdiv_keeps h
  | .accmp .. => execAccmp_keeps h
  | .aadd .. => execAadd_keeps h
  | .asub .. => execAsub_keeps h
  | .aadds .. => execAadds_keeps h
  | .amov .. => execAmov_keeps h
  | .adw .. => execAdw_keeps h
  | .dwa .. => execDwa_keeps h
  | .smov .. => execSmov_keeps h
  | .sdw .. => execSdw_keeps h
  | .dws .. => execDws_keeps h
  | .aaddd .. => execAaddd_keeps h
  | .sneg .. => execSneg_keeps h
  | .aaddi .. => execAaddi_keeps h
  | .lai _ _ xb xc _ => execLai_keeps (x3 := xb) (x4 := xc) h
  | .lahi _ _ xb xc _ => execLahi_keeps (x3 := xb) (x4 := xc) h
  | .sai _ _ xb xc _ => execSai_keeps (x3 := xb) (x4 := xc) h
  | .aaddl _ _ _ xc _ => execAaddl_keeps (x4 := xc) h
  | .cmpa .. => execCmpa_keeps h
  | .ld .. => execLd_keeps h
  | .st .. => execSt_keeps h
  | .ld2 .. => execLd2_keeps h
  | .st2 .. => execSt2_keeps h
  | .lda .. => execLda_keeps h
  | .sta .. => execSta_keeps h
  | .ldl .. => execLdl_keeps h
  | .stl .. => execStl_keeps h
  | .ld2l .. => execLd2l_keeps h
  | .st2l .. => execSt2l_keeps h
  | .ldal .. => execLdal_keeps h
  | .stal .. => execStal_keeps h
  | .ldx .. => execLdx_keeps h
  | .stx .. => execStx_keeps h
  | .push .. => execPush_keeps h
  | .pop .. => execPop_keeps h
  | .pusha .. => execPusha_keeps h
  | .popa .. => execPopa_keeps h
  | .push2 .. => execPush2_keeps h
  | .pop2 .. => execPop2_keeps h
  | .lxadd .. => execLxadd_keeps h
  | .lxchg .. => execLxchg_keeps h
  | .lcas .. => execLcas_keeps h
  | .lqadd .. => execLqadd_keeps h
  | .bz .. => execBz_keeps h
  | .bnz .. => execBnz_keeps h
  | .br .. => execBr_keeps h
  | .call .. => execCall_keeps h
  | .bzl .. => execBzl_keeps h
  | .bnzl .. => execBnzl_keeps h
  | .brl .. => execBrl_keeps h
  | .calll .. => execCalll_keeps h
  | .ret _ imm => execRet_keeps (x2 := imm) h
  | .jr .. => execJr_keeps h
  | .callr .. => execCallr_keeps h
  | .loop .. => execLoop_keeps h
  | .loopl .. => execLoopl_keeps h
  | .lexit .. => execLexit_keeps h
  | .bchk .. => execBchk_keeps h
  | .movc .. => execMovc_keeps h
  | .xlcommit .. => execXlcommit_keeps h
  | .dinv .. => execDinv_keeps h
  | .iinv .. => execIinv_keeps h
  | .tickcmpWrite .. => execTickcmpWrite_keeps h
  | .nop .. => execNop_keeps h
  | .trap .. => execTrap_keeps h
  | .brk .. => execBrk_keeps h
  | .rete .. => execRete_keeps h
  | .wait .. => execWait_keeps h
  | .waitEnd .. => execWaitEnd_keeps h
  | .fence .. => execFence_keeps h
  | .fenceComplete .. => execFenceComplete_keeps h
  | .split .. => execSplit_keeps h
  | .join .. => execJoin_keeps h
  | .xinvPage .. => execXinvPage_keeps h
  | .xinvContext .. => execXinvContext_keeps h
  | .xinvFunction .. => execXinvFunction_keeps h
  | .sealchk .. => execSealchk_keeps h
  | .sealchkMerged .. => execSealchkMerged_keeps h
  | .sealBarrierRelease .. => execSealBarrierRelease_keeps h
  | .sealclr .. => execSealclr_keeps h
  | .vsetc .. => execVsetc_keeps h
  | .jend .. => execJend_keeps h
  | .evclm .. => execEvclm_keeps h
  | .evcmp .. => execEvcmp_keeps h
  | .evrd .. => execEvrd_keeps h
  | .evwr .. => execEvwr_keeps h
  | .evset .. => execEvset_keeps h
  | .sadd .. => execSadd_keeps h
  | .ssub .. => execSsub_keeps h
  | .sladd .. => execSladd_keeps h
  | .snorm .. => execSnorm_keeps h
  | .scmp .. => execScmp_keeps h
  | .slogAnd .. => execSlogAnd_keeps h
  | .slogOr .. => execSlogOr_keeps h
  | .slogXor .. => execSlogXor_keeps h
  | .slogAndn .. => execSlogAndn_keeps h
  | .slogNot .. => execSlogNot_keeps h
  | .scvtPepixoIn .. => execScvtPepixoIn_keeps h
  | .scvtPepixoOut .. => execScvtPepixoOut_keeps h
  | .scvtWordToAmount .. => execScvtWordToAmount_keeps h
  | .scvtAmountToWord .. => execScvtAmountToWord_keeps h
  | .smove .. => execSmove_keeps h
  | .smul .. => execSmul_keeps h
  | .smac .. => execSmac_keeps h
  | .sscale .. => execSscale_keeps h
  | .sdiv .. => execSdiv_keeps h
  | .smitreLeft .. => execSmitreLeft_keeps h
  | .smitreInner .. => execSmitreInner_keeps h
  | .smitreAnti .. => execSmitreAnti_keeps h
  | .ssegCompact .. => execSsegCompact_keeps h
  | .ssegRunning .. => execSsegRunning_keeps h
  | .ssegMark .. => execSsegMark_keeps h
  | .ssortForm .. => execSsortForm_keeps h
  | .ssortMerge .. => execSsortMerge_keeps h
  | .skcmp .. => execSkcmp_keeps h
  | .skcmpOrder .. => execSkcmpOrder_keeps h
  | .streamStart .. => execStreamStart_keeps h
  | .elementGroup .. => execElementGroup_keeps h
  | .streamFinish .. => execStreamFinish_keeps h
  | .streamStop .. => execStreamStop_keeps h
  | .vld .. => execVld_keeps h
  | .vst .. => execVst_keeps h
  | .vgath .. => execVgath_keeps h
  | .vscat .. => execVscat_keeps h
  | .vadd .. => execVadd_keeps h
  | .vsub .. => execVsub_keeps h
  | .vcmp .. => execVcmp_keeps h
  | .vlog .. => execVlog_keeps h
  | .vnorm .. => execVnorm_keeps h
  | .vnormAdd .. => execVnormAdd_keeps h
  | .vmul .. => execVmul_keeps h
  | .vmac .. => execVmac_keeps h
  | .vkcmp .. => execVkcmp_keeps h
  | .psetn .. => execPsetn_keeps h
  | .pand .. => execPand_keeps h
  | .por .. => execPor_keeps h
  | .pandn .. => execPandn_keeps h
  | .pnot .. => execPnot_keeps h
  | .pld .. => execPld_keeps h
  | .pst .. => execPst_keeps h
  | .pcnt .. => execPcnt_keeps h
  | .vredSum .. => execVredSum_keeps h
  | .vredMin .. => execVredMin_keeps h
  | .vredMax .. => execVredMax_keeps h
  | .vredSealAdd .. => execVredSealAdd_keeps h
  | .vredSealSubtract .. => execVredSealSubtract_keeps h
  | .vtbl .. => execVtbl_keeps h
  | .vectorStart .. => execVectorStart_keeps h
  | .vectorFinish .. => execVectorFinish_keeps h
  | .vectorStop .. => execVectorStop_keeps h
  | .trapEntry .. => execTrapEntry_keeps h
  | .timer .. => execTimer_keeps h
  | .storeDrain .. => execStoreDrain_keeps h
  | .checkpoint .. => execCheckpoint_keeps h
  | .rollback .. => execRollback_keeps h
  | .spareCheckComplete .. => execSpareCheckComplete_keeps h
  | .eventPresentation .. => execEventPresentation_keeps h
  | .setp .. => execSetp_keeps h
  | .targetCommit .. => execTargetCommit_keeps h
  | .preemption => execPreemption_keeps h
  | .preemptNoticeTimeout .. => execPreemptNoticeTimeout_keeps h
  | .pageWaitPreempt .. => execPageWaitPreempt_keeps h
  | .shareRestore .. => execShareRestore_keeps h
  | .registerWrite .. => execRegisterWrite_keeps h
  | .unsupportedAccess f .. => execUnsupportedAccess_keeps (x1 := f) h
  | .tractRecode .. => execTractRecode_keeps h
  | .tractZero .. => execTractZero_keeps h
  | .tractOperationDone => execTractOperationDone_keeps h
  | .yardRegionCommit .. => execYardRegionCommit_keeps h
  | .eccflipArm .. => execEccflipArm_keeps h
  | .eccflipDisarm => execEccflipDisarm_keeps h
  | .errlPop => execErrlPop_keeps h
  | .errlClrcnt => execErrlClrcnt_keeps h
  | .windowCommit .. => execWindowCommit_keeps h
  | .doorbellPageCommit .. => execDoorbellPageCommit_keeps h
  | .knockGroup .. => execKnockGroup_keeps h
  | .knockAll .. => execKnockAll_keeps h
  | .groupRead .. => execGroupRead_keeps h
  | .doorbellReadRetry .. => execDoorbellReadRetry_keeps h
  | .poll => execPoll_keeps h
  | .adminQueueCommit .. => execAdminQueueCommit_keeps h
  | .moderationCommit .. => execModerationCommit_keeps h
  | .createCq .. => execCreateCq_keeps h
  | .deleteCq .. => execDeleteCq_keeps h
  | .createSq .. => execCreateSq_keeps h
  | .deleteSq .. => execDeleteSq_keeps h
  | .setContext .. => execSetContext_keeps h
  | .deleteContext .. => execDeleteContext_keeps h
  | .abort .. => execAbort_keeps h
  | .scrub .. => execScrub_keeps h
  | .scrubDone => execScrubDone_keeps h
  | .assignTracts .. => execAssignTracts_keeps h
  | .jobNop .. => execJobNop_keeps h
  | .native .. => execNative_keeps h
  | .sort .. => execSort_keeps h
  | .post .. => execPost_keeps h
  | .accrue .. => execAccrue_keeps h
  | .reconcile .. => execReconcile_keeps h
  | .convert .. => execConvert_keeps h
  | .zero .. => execZero_keeps h
  | .jobStart => execJobStart_keeps h
  | .commitPoint .. => execCommitPoint_keeps h
  | .completionEntryWrite .. => execCompletionEntryWrite_keeps h
  | .cqHeadRecheck .. => execCqHeadRecheck_keeps h
  | .cqWriteRetry .. => execCqWriteRetry_keeps h
  | .moderationTimer .. => execModerationTimer_keeps h
  | .controllerRead .. => execControllerRead_keeps h
  | .controllerWrite .. => execControllerWrite_keeps h
  | .mergeRetire .. => execMergeRetire_keeps h
  | .requestAging .. => execRequestAging_keeps h
  | .yardAccess .. => execYardAccess_keeps h
  | .firstTouchZeroingDone .. => execFirstTouchZeroingDone_keeps h
  | .zbRewalk entry => execZbRewalk_keeps (x1 := entry) h
  | .zbTakeover .. => execZbTakeover_keeps h
  | .translationCompletion .. => execTranslationCompletion_keeps h
  | .responseSuccess .. => execResponseSuccess_keeps h
  | .responseInvalidRequest .. => execResponseInvalidRequest_keeps h
  | .responseFailure .. => execResponseFailure_keeps h
  | .priTimeout .. => execPriTimeout_keeps h
  | .atsInvalidateRequest .. => execAtsInvalidateRequest_keeps h
  | .invalidateCompletion => execInvalidateCompletion_keeps h
  | .bar2Read .. => execBar2Read_keeps h
  | .bar2Write .. => execBar2Write_keeps h
  | .powerstateD3hot => execPowerstateD3hot_keeps h
  | .powerstateD0 => execPowerstateD0_keeps h
  | .cascadeDormantRequest => execCascadeDormantRequest_keeps h
  | .cascadeWakeRequest => execCascadeWakeRequest_keeps h
  | .aspmL1Entry => execAspmL1Entry_keeps h
  | .busMasterEnable .. => execBusMasterEnable_keeps h
  | .vectorUnmask .. => execVectorUnmask_keeps h
  | .pfFlr => execPfFlr_keeps h
  | .vfFlr .. => execVfFlr_keeps h
  | .hotReset => execHotReset_keeps h
  | .pcieLinkDown => execPcieLinkDown_keeps h
  | .completionTimeout .. => execCompletionTimeout_keeps h
  | .poisonedTlpReceived .. => execPoisonedTlpReceived_keeps h
  | .unexpectedCompletion => execUnexpectedCompletion_keeps h
  | .ecrcError => execEcrcError_keeps h
  | .malformedTlp => execMalformedTlp_keeps h
  | .receiverError => execReceiverError_keeps h
  | .precharge .. => execPrecharge_keeps h
  | .boot .. => execBoot_keeps h
  | .raising .. => execRaising_keeps h
  | .perstAssert => execPerstAssert_keeps h
  | .vauxLoss => execVauxLoss_keeps h
  | .supplyWarning .. => execSupplyWarning_keeps h
  | .supplyWarningEnd => execSupplyWarningEnd_keeps h
  | .safeStop => execSafeStop_keeps h
  | .overvoltageStop => execOvervoltageStop_keeps h
  | .thermalSample .. => execThermalSample_keeps h
  | .powerBrake => execPowerBrake_keeps h
  | .powerBrakeRelease => execPowerBrakeRelease_keeps h
  | .sequencerAdmission => execSequencerAdmission_keeps h
  | .bentPowerDown .. => execBentPowerDown_keeps h
  | .islandClockStop .. => execIslandClockStop_keeps h
  | .islandClockSwitch .. => execIslandClockSwitch_keeps h
  | .clkswForced .. => execClkswForced_keeps h
  | .trimHold .. => execTrimHold_keeps h
  | .journalWriteComplete => execJournalWriteComplete_keeps h
  | .pairClrcnt => execPairClrcnt_keeps h
  | .cmptestArm .. => execCmptestArm_keeps h
  | .cmptestDisarm => execCmptestDisarm_keeps h
  | .linkConfigCommit .. => execLinkConfigCommit_keeps h
  | .linkRetrain .. => execLinkRetrain_keeps h
  | .laneLockLoss .. => execLaneLockLoss_keeps h
  | .linkTrainingComplete .. => execLinkTrainingComplete_keeps h
  | .linkRetry .. => execLinkRetry_keeps h
  | .flitReceive .. => execFlitReceive_keeps h
  | .nak .. => execNak_keeps h
  | .routeChange .. => execRouteChange_keeps h
  | .remoteRequest .. => execRemoteRequest_keeps h
  | .formationWindowClose .. => execFormationWindowClose_keeps h
  | .moduleLost .. => execModuleLost_keeps h
  | .moduleJoined .. => execModuleJoined_keeps h
  | .fwWrite .. => execFwWrite_keeps h
  | .fwVerify => execFwVerify_keeps h
  | .fwActivate .. => execFwActivate_keeps h
  | .svnCommit .. => execSvnCommit_keeps h
  | .jread => execJread_keeps h
  | .jwrite => execJwrite_keeps h
  | .logRead => execLogRead_keeps h
  | .setSleep => execSetSleep_keeps h
  | .clearRetired => execClearRetired_keeps h
  | .runDiscard => execRunDiscard_keeps h
  | .sensors => execSensors_keeps h
  | .mailboxComplete => execMailboxComplete_keeps h
  | .setEndpointId .. => execSetEndpointId_keeps h
  | .getEndpointId => execGetEndpointId_keeps h
  | .getEndpointUuid => execGetEndpointUuid_keeps h
  | .getMctpVersionSupport .. => execGetMctpVersionSupport_keeps h
  | .getMessageTypeSupport => execGetMessageTypeSupport_keeps h
  | .gettid => execGettid_keeps h
  | .settid .. => execSettid_keeps h
  | .getpldmversion .. => execGetpldmversion_keeps h
  | .getpldmtypes => execGetpldmtypes_keeps h
  | .getpldmcommands .. => execGetpldmcommands_keeps h
  | .getpdrrepositoryinfo => execGetpdrrepositoryinfo_keeps h
  | .getpdr .. => execGetpdr_keeps h
  | .getsensorreading .. => execGetsensorreading_keeps h
  | .getstatesensorreadings .. => execGetstatesensorreadings_keeps h
  | .setCapEffecter .. => execSetCapEffecter_keeps h
  | .setBrakecapEffecter .. => execSetBrakecapEffecter_keeps h
  | .wakeRequest .. => execWakeRequest_keeps h
  | .svnCommitEffecter .. => execSvnCommitEffecter_keeps h
  | .getnumericeffectervalue .. => execGetnumericeffectervalue_keeps h
  | .pollforplatformeventmessage .. => execPollforplatformeventmessage_keeps h
  | .querydeviceidentifiers => execQuerydeviceidentifiers_keeps h
  | .getfirmwareparameters => execGetfirmwareparameters_keeps h
  | .requestupdate => execRequestupdate_keeps h
  | .passcomponenttable => execPasscomponenttable_keeps h
  | .updatecomponent => execUpdatecomponent_keeps h
  | .requestfirmwaredata .. => execRequestfirmwaredata_keeps h
  | .transfercomplete => execTransfercomplete_keeps h
  | .verifycomplete => execVerifycomplete_keeps h
  | .applycomplete => execApplycomplete_keeps h
  | .activatefirmware .. => execActivatefirmware_keeps h
  | .getstatus => execGetstatus_keeps h
  | .cancelupdatecomponent => execCancelupdatecomponent_keeps h
  | .cancelupdate => execCancelupdate_keeps h
  | .dramRefresh .. => execDramRefresh_keeps h
  | .powerLoop .. => execPowerLoop_keeps h
  | .readCompletion f .. => execReadCompletion_keeps (x1 := f) h
  | .reserveCharged => execReserveCharged_keeps h
  | .pcieLinkUp => execPcieLinkUp_keeps h
  | .resetComplete .. => execResetComplete_keeps h

/-- A step of the machine: the front command on the state without it, or an idle microsecond. -/
theorem step_keeps (s : State) : outcomeAll (Keeps { s with pending := s.pending.drop 1 }) (step s) := by
  unfold step
  cases hp : s.pending with
  | nil =>
    have hs : ({ s with pending := [] } : State) = s := by rw [← hp]
    exact idleTick_keeps (by rw [List.drop_nil, hs]; exact Keeps.refl s)
  | cons c rest => exact exec_keeps c (Keeps.refl _)

end Sys2Proof.Machine

section
open Sys2Proof Sys2Proof.Machine

/-- Settles O3: what `Keeps` says of every command, read off for one command and for one step. -/
theorem fusesNeverFall : Obligations.FusesNeverFall := by
  unfold Obligations.FusesNeverFall
  refine ⟨fun c s t h => ?_, fun s t h => ?_⟩
  · have k := exec_keeps c (Keeps.refl s)
    rw [h] at k
    exact ⟨k.variant, k.pending, k.minSvn⟩
  · have k := step_keeps s
    rw [h] at k
    exact ⟨k.variant, k.pending, k.minSvn⟩

end

/-! ## Bits of a written value, and the state's accessors -/

section
namespace Sys2Proof

theorem bitAt_eq_getLsbD {n : Nat} (v : BitVec n) (i : Nat) : bitAt v i = v.getLsbD i := rfl

theorem ofNat_bitsOf {n : Nat} (v : BitVec n) (lo w : Nat) : BitVec.ofNat w (bitsOf v lo w) = v.extractLsb' lo w := by
  apply BitVec.eq_of_toNat_eq
  simp [bitsOf]

theorem bitsOf_eq_div_mod {n : Nat} (v : BitVec n) (lo w : Nat) : bitsOf v lo w = v.toNat / 2 ^ lo % 2 ^ w := by
  rw [bitsOf, Nat.shiftRight_eq_div_pow]

theorem toNat_extractLsb' {n : Nat} (v : BitVec n) (lo w : Nat) : (v.extractLsb' lo w).toNat = bitsOf v lo w :=
  BitVec.extractLsb'_toNat lo w v

/-- Setting bit 0 leaves every field above it. -/
theorem bitsOf_or_one (v : W32) {lo : Nat} (w : Nat) (h : 0 < lo) : bitsOf (v ||| 1) lo w = bitsOf v lo w := by
  have h0 : (1 : Nat) >>> lo = 0 := by
    rw [Nat.shiftRight_eq_div_pow]; exact Nat.div_eq_of_lt (Nat.one_lt_two_pow (by omega))
  simp [bitsOf, BitVec.toNat_or, Nat.shiftRight_or_distrib, h0]

theorem bitAt_or_one_zero (v : W32) : bitAt (v ||| 1) 0 = true := by
  simp [bitAt_eq_getLsbD]

theorem bitAt_or_one (v : W32) {i : Nat} (h : 0 < i) : bitAt (v ||| 1) i = bitAt v i := by
  have : ∀ j, (1#32).getLsbD (j + 1) = false := fun j => by simp [BitVec.getLsbD_one]
  obtain ⟨j, rfl⟩ := Nat.exists_eq_succ_of_ne_zero (Nat.ne_of_gt h)
  simp [bitAt_eq_getLsbD, this j]

end Sys2Proof

namespace Sys2Proof.Machine

variable {f g : Nat} {s : State}

/-- A ready function's register takes the write. -/
theorem hostWrite_open (body : State → State) (h : hostOpen f s = true) : hostWrite f body s = body s := by
  rw [hostWrite, if_pos h]

theorem next_hostWrite_open (body : State → State) (h : hostOpen f s = true) :
    (.next (hostWrite f body s) : Host.Outcome State Fault Refusal) = .next (body s) := by
  rw [hostWrite_open body h]

theorem hostWrite_dormant (body : State → State) (h : s.power.phase = .dormant) : hostWrite f body s = unsupported s := by
  simp [hostWrite, hostOpen, h]

theorem phase_of_hostOpen (h : hostOpen f s = true) : s.power.phase = .ready := by
  simp only [hostOpen, Bool.and_eq_true, decide_eq_true_eq] at h
  exact h.1.1

theorem quiet_ready (h : s.power.phase = .ready) : quiet f s = false := by simp [quiet, h]

theorem quiet_dormant (h : s.power.phase = .dormant) : quiet f s = false := by simp [quiet, h]

/-- A write of one key is not seen at another, whatever an unlisted key reads as. -/
theorem tget_tset_ne {α : Type} [DecidableEq α] (d e : α) (m : Tbl α) {k j : Nat} (v : α) (h : j ≠ k) : tget e (tset d m k v) j = tget e m j := by
  unfold tset
  split
  · rw [tget_terase, if_neg h]
  · rw [tget_tinsert e k j v _ (terase_ne m k), if_neg h, tget_terase, if_neg h]

theorem State.setFn_fn_other (s : State) (v : Func) (h : g ≠ f) : (s.setFn f v).fn g = s.fn g := tget_tset_ne _ _ _ _ h

/-- What a table lists for a key it answers. -/
theorem mem_of_tget {α : Type} {m : Tbl (Option α)} {k : Nat} {v : α} (h : tget none m k = some v) : (k, some v) ∈ m := by
  induction m with
  | nil => cases h
  | cons e m ih =>
    obtain ⟨k', v'⟩ := e
    rw [tget] at h
    split at h
    · next hk => rw [hk, h]; exact List.mem_cons_self
    · exact List.mem_cons_of_mem _ (ih h)

end Sys2Proof.Machine
end

/-! ## Commits of the tract, yard, ECCFLIP and error-log registers -/

section
namespace Sys2Proof.Machine

/-! ### The tract registers (R61 to R63) -/

theorem tget_setCodes (code : Bool) (j : Nat) : ∀ (n lo : Nat) (m : Tbl Bool),
    tget true (setCodes code lo n m) j = if lo ≤ j ∧ j < lo + n then code else tget true m j := by
  intro n
  induction n with
  | zero => intro lo m; rw [setCodes, if_neg (by omega)]
  | succ n ih =>
    intro lo m
    rw [setCodes, ih, tget_tset]
    by_cases h : lo + 1 ≤ j ∧ j < lo + 1 + n
    · rw [if_pos h, if_pos (by omega)]
    · rw [if_neg h]
      by_cases hj : j = lo
      · rw [if_pos hj, if_pos (by omega)]
      · rw [if_neg hj, if_neg (by omega)]

/-- TRCTL's own fields as a write of v leaves them, before its COMMIT. -/
def Memc.written (c : Memc) (v : W32) : Memc := { c with cerr := c.cerr && !bitAt v 8, op := bitAt v 2, code := bitAt v 1, staged := true }

/-- The operation that a good commit of TRCTL starts. -/
def Memc.started (c : Memc) (v : W32) : Memc :=
  { c.written v with staged := false, busy := true, done := 0, curFirst := c.trfirst.toNat, curLast := c.trlast.toNat, curOp := bitAt v 2, curCode := bitAt v 1, flr := false }

section
variable {v : W32} {s : State}

theorem writeTrctl_unstaged (hc : s.mem.memc.staged = false) : (writeTrctl v s).mem = { s.mem with memc := s.mem.memc.written v } := by
  simp [writeTrctl, hc, Memc.written]

theorem writeTrctl_refused (hv : bitAt v 0 = true) (hc : s.mem.memc.staged = true)
    (bad : s.mem.memc.trlast.toNat < s.mem.memc.trfirst.toNat ∨ s.variant.tracts ≤ s.mem.memc.trlast.toNat ∨ s.mem.memc.busy = true) :
    (writeTrctl v s).mem = { s.mem with memc := { s.mem.memc.written v with cerr := true } } := by
  simp only [writeTrctl, hv, hc, Bool.and_self, if_true, commitTract, if_pos bad, Memc.written]

theorem writeTrctl_started (hv : bitAt v 0 = true) (hc : s.mem.memc.staged = true) (hle : s.mem.memc.trfirst.toNat ≤ s.mem.memc.trlast.toNat)
    (hlt : s.mem.memc.trlast.toNat < s.variant.tracts) (hb : s.mem.memc.busy = false) :
    (writeTrctl v s).mem = { s.mem with
      memc := s.mem.memc.started v
      tcmap := if bitAt v 2 then s.mem.tcmap else
        setCodes (bitAt v 1) s.mem.memc.trfirst.toNat (s.mem.memc.trlast.toNat + 1 - s.mem.memc.trfirst.toNat) s.mem.tcmap } := by
  have good : ¬ (s.mem.memc.trlast.toNat < s.mem.memc.trfirst.toNat ∨ s.variant.tracts ≤ s.mem.memc.trlast.toNat ∨ s.mem.memc.busy = true) := by
    simp only [hb, Bool.false_eq_true, or_false]; omega
  simp only [writeTrctl, hv, hc, Bool.and_self, if_true, commitTract, if_neg good, Memc.started, Memc.written]
  rfl

/-- The words TRACT_RECODE and TRACT_ZERO write to TRCTL. -/
theorem recodeWord_bits (v : W32) : bitAt ((v &&& ~~~4#32) ||| 1) 0 = true ∧ bitAt ((v &&& ~~~4#32) ||| 1) 1 = v.getLsbD 1 ∧
    bitAt ((v &&& ~~~4#32) ||| 1) 2 = false ∧ bitAt ((v &&& ~~~4#32) ||| 1) 8 = v.getLsbD 8 := by
  simp [bitAt_eq_getLsbD]

theorem zeroWord_bits (v : W32) : bitAt (v ||| 5) 0 = true ∧ bitAt (v ||| 5) 2 = true ∧ bitAt (v ||| 5) 8 = v.getLsbD 8 := by
  simp [bitAt_eq_getLsbD]

end

/-! ### The end of a tract operation (R63) -/

section
variable {first last : Nat} {s : State}

theorem zeroTracts_words (a : Nat) :
    tget 0 (zeroTracts first last s).mem.words a = if first ≤ a / 2097152 ∧ a / 2097152 ≤ last then 0 else tget 0 s.mem.words a := by
  simp only [zeroTracts, zeroBlocks, tget_tdrop, Bool.and_eq_true, decide_eq_true_eq]
  have : (first * 32768 ≤ a / 64 ∧ a / 64 < (last + 1) * 32768) ↔ (first ≤ a / 2097152 ∧ a / 2097152 ≤ last) := by omega
  simp only [this]

theorem zeroTracts_poisoned (a : Nat) :
    poisoned (zeroTracts first last s) (a / 64) = if first ≤ a / 2097152 ∧ a / 2097152 ≤ last then false else poisoned s (a / 64) := by
  simp only [poisoned, zeroTracts, zeroBlocks, tget_tdrop, Bool.and_eq_true, decide_eq_true_eq]
  have : (first * 32768 ≤ a / 64 ∧ a / 64 < (last + 1) * 32768) ↔ (first ≤ a / 2097152 ∧ a / 2097152 ≤ last) := by omega
  simp only [this]
  split <;> simp

theorem finishTracts_words (a : Nat) : tget 0 (finishTracts s).mem.words a =
    if s.mem.memc.curFirst ≤ a / 2097152 ∧ a / 2097152 ≤ s.mem.memc.curLast then 0 else tget 0 s.mem.words a := zeroTracts_words a

theorem finishTracts_poisoned (a : Nat) : poisoned (finishTracts s) (a / 64) =
    if s.mem.memc.curFirst ≤ a / 2097152 ∧ a / 2097152 ≤ s.mem.memc.curLast then false else poisoned s (a / 64) := zeroTracts_poisoned a

end

/-! ### A yard region's commit (R82, R83) -/

section
variable {m r : Nat} {v : W32} {s : State}

/-- YRATTR's own fields as a write of v leaves them, before its COMMIT. -/
def Region.written (g : Region) (v : W32) : Region :=
  { g with cerr := g.cerr && !bitAt v 9, en := bitAt v 31, tag := BitVec.ofNat 12 (bitsOf v 19 12), anyctx := bitAt v 3, w := bitAt v 2, rd := bitAt v 1 }

theorem hostYrattr_steward : hostYrattr 48 r v s = s := if_pos rfl

theorem hostYrattr_good (hm : m ≠ 48) (hv : bitAt v 0 = true) (hs : (s.region m r).staged = true) (hle : (s.region m r).stBase.toNat ≤ (s.region m r).stLim.toNat) :
    hostYrattr m r v s = (s.setRegion m r ((s.region m r).written v)).setRegion m r
      { (s.region m r).written v with base := (s.region m r).stBase, lim := (s.region m r).stLim, staged := false } := by
  simp [hostYrattr, hm, hv, hs, Nat.not_lt.2 hle, Region.written]

theorem hostYrattr_bad (hm : m ≠ 48) (hv : bitAt v 0 = true) (hs : (s.region m r).staged = true) (hlt : (s.region m r).stLim.toNat < (s.region m r).stBase.toNat) :
    hostYrattr m r v s = (s.setRegion m r ((s.region m r).written v)).setRegion m r { (s.region m r).written v with cerr := true } := by
  simp [hostYrattr, hm, hv, hs, hlt, Region.written]

end

/-! ### ECCFLIP's arming (R101, R102) -/

section
variable {v : W32} {s : State}

/-- ECCCTL's own fields as a write of v leaves them, before its ARM. -/
def EccFlip.written (e : EccFlip) (v : W32) : EccFlip :=
  { e with fired := e.fired && !bitAt v 30, cerr := e.cerr && !bitAt v 9, armed := e.armed && !bitAt v 7,
           mode := bitAt v 6, window := BitVec.ofNat 5 (bitsOf v 1 5), staged := true }

/-- The state with ECCFLIP's registers e. -/
def State.withEcc (s : State) (e : EccFlip) : State := { s with mem := { s.mem with ecc := e } }

theorem armEcc_hole (h : isHole s s.mem.ecc.addr.toNat = true) : armEcc s = s.withEcc { s.mem.ecc with cerr := true } := by
  simp [armEcc, h, State.withEcc]

/-- Bit mode arms on a window of a block that exists. -/
theorem armEcc_bits (h : isHole s s.mem.ecc.addr.toNat = false) (hm : s.mem.ecc.mode = false) (hw : s.mem.ecc.window.toNat ≤ 25) :
    armEcc s = s.withEcc { s.mem.ecc with
      staged := false, armed := true, curBlk := s.mem.ecc.addr.toNat / 64, curMask := s.mem.ecc.mask, curMode := s.mem.ecc.mode, curWindow := s.mem.ecc.window } := by
  simp [armEcc, h, hm, Nat.not_lt.2 hw, State.withEcc]

theorem writeEccctl_hole (hv : bitAt v 0 = true) (h : isHole s s.mem.ecc.addr.toNat = true) :
    writeEccctl v s = s.withEcc { s.mem.ecc.written v with cerr := true } :=
  (if_pos hv).trans (armEcc_hole (s := s.withEcc (s.mem.ecc.written v)) h)

theorem writeEccctl_armed (hv : bitAt v 0 = true) (h : isHole s s.mem.ecc.addr.toNat = false) (hm : bitAt v 6 = false) (hw : bitsOf v 1 5 ≤ 25) :
    writeEccctl v s = s.withEcc { s.mem.ecc.written v with
      staged := false, armed := true, curBlk := s.mem.ecc.addr.toNat / 64, curMask := s.mem.ecc.mask, curMode := bitAt v 6, curWindow := BitVec.ofNat 5 (bitsOf v 1 5) } :=
  (if_pos hv).trans (armEcc_bits (s := s.withEcc (s.mem.ecc.written v)) h hm (Nat.le_trans (Nat.mod_le _ _) hw))

end
end Sys2Proof.Machine

open Sys2Proof Sys2Proof.Machine

/-- Settles O42: one rule for each way a commit can go. -/
theorem registerCommits : Obligations.RegisterCommits := by
  unfold Obligations.RegisterCommits
  intro v s h c lo hi inside
  obtain ⟨r0, r1, r2, r8⟩ := recodeWord_bits v
  obtain ⟨z0, z2, z8⟩ := zeroWord_bits v
  have recode : exec (.tractRecode v) s = .next (writeTrctl ((v &&& ~~~4#32) ||| 1) s) := next_hostWrite_open _ h
  have zero : exec (.tractZero v) s = .next (writeTrctl (v ||| 5) s) := next_hostWrite_open _ h
  refine ⟨fun hc hle hlt hb => ?started, fun hc bad => ?refused, fun hc => ?unstaged, fun hb hp => ?done, fun m r hm hs => ?region, fun r => ?steward,
    fun hole => ?eccHole, fun hole hmode hwin => ?eccArm, ?disarm, ?pop, ?clrcnt⟩
  case started =>
    constructor
    · have hm := writeTrctl_started r0 hc hle hlt hb
      refine ⟨_, recode, ?_⟩
      simp only [State.strong, hm, r1, r2, Bool.false_eq_true, if_false, tget_setCodes]
      refine ⟨rfl, rfl, rfl, rfl, fun n hn => if_pos ?_, fun n hn => if_neg ?_, trivial⟩ <;> simp only [inside, lo, hi, c] at * <;> omega
    · have hm := writeTrctl_started z0 hc hle hlt hb
      refine ⟨_, zero, ?_⟩
      simp only [State.strong, hm, z2, if_true]
      exact ⟨rfl, rfl, rfl, fun _ => trivial, trivial⟩
  case refused =>
    constructor
    · refine ⟨_, recode, ?_⟩
      rw [writeTrctl_refused r0 hc bad]
      exact ⟨rfl, rfl, rfl, rfl⟩
    · refine ⟨_, zero, ?_⟩
      rw [writeTrctl_refused z0 hc bad]
      exact ⟨rfl, rfl, rfl⟩
  case unstaged =>
    constructor
    · refine ⟨_, recode, ?_⟩
      rw [writeTrctl_unstaged hc, ← r8]
      exact ⟨rfl, rfl, rfl, rfl⟩
    · refine ⟨_, zero, ?_⟩
      rw [writeTrctl_unstaged hc, ← z8]
      exact ⟨rfl, rfl, rfl, rfl⟩
  case done =>
    refine ⟨finishTracts s, if_pos ⟨hb, hp⟩, rfl, rfl, fun a h1 h2 => ?_, fun a hout => ?_⟩
    · rw [finishTracts_words, finishTracts_poisoned, if_pos ⟨h1, h2⟩, if_pos ⟨h1, h2⟩]
      exact ⟨rfl, rfl⟩
    · have hn : ¬ (s.mem.memc.curFirst ≤ a / 2097152 ∧ a / 2097152 ≤ s.mem.memc.curLast) := by
        simp only [c] at hout; omega
      rw [finishTracts_words, finishTracts_poisoned, if_neg hn, if_neg hn]
      exact ⟨rfl, rfl⟩
  case region =>
    have hm' : (m : Nat) ≠ 48 := fun e => hm (Fin.ext e)
    have commit : exec (.yardRegionCommit m r v) s = .next (hostYrattr m r (v ||| 1) s) := next_hostWrite_open _ h
    refine ⟨fun hle => ⟨_, commit, ?_⟩, fun hlt => ⟨_, commit, ?_⟩⟩
    · rw [hostYrattr_good hm' (bitAt_or_one_zero v) hs hle, State.setRegion_region _ _ _ hm', State.setRegion_cores, State.setRegion_cores]
      exact ⟨rfl, rfl, bitAt_or_one v (by omega), rfl, rfl⟩
    · rw [hostYrattr_bad hm' (bitAt_or_one_zero v) hs hlt, State.setRegion_region _ _ _ hm', State.setRegion_cores, State.setRegion_cores]
      exact ⟨rfl, rfl, rfl, rfl⟩
  case steward => exact (next_hostWrite_open _ h).trans (congrArg _ hostYrattr_steward)
  case eccHole =>
    refine ⟨_, next_hostWrite_open _ h, ?_⟩
    rw [writeEccctl_hole (bitAt_or_one_zero v) hole]
    exact ⟨rfl, rfl⟩
  case eccArm =>
    have window : bitsOf (v ||| 1) 1 5 ≤ 25 := by rw [bitsOf_or_one v 5 (by omega), bitsOf_eq_div_mod]; exact hwin
    refine ⟨_, next_hostWrite_open _ h, ?_⟩
    rw [writeEccctl_armed (bitAt_or_one_zero v) hole ((bitAt_or_one v (by omega)).trans hmode) window]
    exact ⟨rfl, rfl, rfl, rfl⟩
  case disarm => exact ⟨_, next_hostWrite_open _ h, rfl, rfl, rfl⟩
  case pop => exact ⟨_, next_hostWrite_open _ h, rfl, rfl, rfl⟩
  case clrcnt => exact ⟨_, next_hostWrite_open _ h, rfl, rfl, rfl⟩
end

/-! ## What a message, a fired source or an entry of the error log leaves -/

section
namespace Sys2Proof.Machine

/-- What telling the outside leaves as it found it (R108, R359, R467): beside what `Quiet` names, memory, the dispatcher, the link, the
errors counted at the port and of each function everything but its vectors. -/
structure Told (z s : State) : Prop where
  quiet : Quiet z s
  mem : s.mem = z.mem
  disp : s.disp = z.disp
  fn : ∀ f, s.fn f = { z.fn f with vec := (s.fn f).vec }
  aer : s.port.aer = z.port.aer
  up : s.port.up = z.port.up
  aspm : s.port.aspm = z.port.aspm

namespace Told

variable {x y z s : State}

theorem refl (s : State) : Told s s := ⟨Quiet.refl s, rfl, rfl, fun _ => rfl, rfl, rfl, rfl⟩

theorem trans (h : Told x y) (g : Told y z) : Told x z :=
  ⟨h.quiet.trans g.quiet, g.mem.trans h.mem, g.disp.trans h.disp, fun f => by rw [g.fn f, h.fn f], g.aer.trans h.aer, g.up.trans h.up, g.aspm.trans h.aspm⟩

theorem cores (h : Told z s) : s.cores = z.cores := h.quiet.cores

/-- An update of the log, the sources, the messages sent, the supply, the steward core and what else of the port is told. -/
theorem upd {er se sr pw sw} {po : Port} (h : Told z s) (ha : po.aer = s.port.aer) (hu : po.up = s.port.up) (hl : po.aspm = s.port.aspm) :
    Told z { s with errl := er, port := po, sent := se, srcs := sr, power := pw, steward := sw } :=
  ⟨Quiet.upd h.quiet, h.mem, h.disp, h.fn, ha.trans h.aer, hu.trans h.up, hl.trans h.aspm⟩

/-- An update of one function's vectors. -/
theorem setVec (h : Told z s) (f : Nat) (ve : Tbl Vector) : Told z (s.setFn f { s.fn f with vec := ve }) := by
  refine ⟨State_setFn_quiet h.quiet, h.mem, h.disp, fun g => ?_, h.aer, h.up, h.aspm⟩
  by_cases e : g = f
  · subst e
    rw [State.setFn_fn, h.fn g]
  · rw [State.setFn_fn_other _ _ e, h.fn g]

theorem foldl {α : Type} {f : State → α → State} (hf : ∀ s x, Told s (f s x)) (l : List α) : ∀ s, Told s (l.foldl f s) := by
  induction l with
  | nil => exact refl
  | cons x l ih => exact fun s => (hf s x).trans (ih _)

end Told

theorem sendVec_told (f v : Nat) (s : State) : Told s (sendVec f v s) := by
  unfold sendVec
  dsimp only
  split
  · exact Told.refl s
  · split
    · exact (Told.refl s).setVec _ _
    · split
      · exact (Told.refl s).upd rfl rfl rfl
      · exact (Told.refl s).upd rfl rfl rfl

theorem requestWake_told (s : State) : Told s (requestWake s) := by
  unfold requestWake
  split
  · exact (Told.refl s).upd rfl rfl rfl
  · split
    · exact (Told.refl s).upd rfl rfl rfl
    · exact Told.refl s

theorem fireModule_told (n : Nat) (s : State) : Told s (fireModule n s) := by
  have fired : Told s (s.setSrc n ((s.src n).fire 1)) := (Told.refl s).upd rfl rfl rfl
  unfold fireModule fireSrc
  split
  · dsimp only
    split
    · exact fired.trans (requestWake_told _)
    · exact fired
  · exact Told.refl s

theorem errInterrupt_told (ue : Bool) (s : State) : Told s (errInterrupt ue s) := by
  unfold errInterrupt
  dsimp only
  split
  · exact (fireModule_told 1 s).trans (sendVec_told _ _ _)
  · exact fireModule_told 1 s

theorem copyEntry_told (e : ErrEntry) (s : State) : Told s (copyEntry e s) := by
  unfold copyEntry
  exact (Told.refl s).upd rfl rfl rfl

theorem queueEvent_told (n : PollEvent) (s : State) : Told s (queueEvent n s) := by
  unfold queueEvent
  exact (Told.refl s).upd rfl rfl rfl

theorem logEntry_told (e : ErrEntry) (s : State) : Told s (logEntry e s) := by
  unfold logEntry
  split
  · have queued := (copyEntry_told e s).trans (queueEvent_told (.entry e.code) _)
    dsimp only
    split
    · exact (queued.upd rfl rfl rfl).trans (errInterrupt_told _ _)
    · split
      · exact (queued.upd rfl rfl rfl).trans (errInterrupt_told _ _)
      · exact queued.upd rfl rfl rfl
  · extract_lets +onlyGivenNames sec rate
    clear_value rate
    dsimp only
    split
    · exact (Told.refl s).upd rfl rfl rfl
    · split
      · exact ((Told.refl s).upd rfl rfl rfl).trans (errInterrupt_told _ _)
      · exact (Told.refl s).upd rfl rfl rfl

theorem logErr_told (ue : Bool) (code kind unit addr detail ctx : Nat) (s : State) : Told s (logErr ue code kind unit addr detail ctx s) := logEntry_told _ s

/-- R359: a vector that takes its registers changes only its function's vectors, and sends. -/
theorem latchVector_told (f v : Nat) (s : State) : Told s (latchVector f v s) := by
  unfold latchVector
  dsimp only
  split
  · exact Told.refl s
  · split
    · exact ((Told.refl s).setVec _ _).trans (sendVec_told _ _ _)
    · exact (Told.refl s).setVec _ _

end Sys2Proof.Machine
end

/-! ## Host writes of registers and of configuration space -/

section
namespace Sys2Proof.Machine

/-! ### BAR0 (R6, R19, R351, R361, R530) -/

section
variable {f : FuncIx} {sp : RegSpace} {off : BitVec 26} {n : Nat} {v : W32} {s : State}

theorem registerWrite_misaligned (h : off.toNat % 4 ≠ 0) :
    exec (.registerWrite f sp off v) s = .next (if sp = .bar0 then unsupported s else s) := if_pos h

theorem registerWrite_bar0 (h : off.toNat % 4 = 0) : exec (.registerWrite f .bar0 off v) s = .next (writeBar0 f off.toNat v s) :=
  if_neg (not_not_intro h)

theorem registerWrite_bar4 (h : off.toNat % 4 = 0) : exec (.registerWrite f .bar4 off v) s = .next (hostWrite f (writeMsix f off.toNat v) s) :=
  if_neg (not_not_intro h)

theorem registerWrite_config (h : off.toNat % 4 = 0) : exec (.registerWrite f .config off v) s = .next (writeConfig f off.toNat v s) :=
  if_neg (not_not_intro h)

theorem quiet_raised (h : s.power.phase = .raised) (hc : s.port.cfg = true) : quiet 0 s = true := by simp [quiet, h, hc]

theorem writeBar0_dormant {f : Nat} (h : s.power.phase = .dormant) : writeBar0 f n v s = unsupported s := by
  rw [writeBar0, quiet_dormant h, if_neg Bool.false_ne_true, hostWrite_dormant _ h]

/-- Before READY the PF serves STWD alone. -/
theorem writeBar0_raised (h : s.power.phase = .raised) (hc : s.port.cfg = true) :
    writeBar0 0 n v s = if 0x70000 ≤ n ∧ n < 0x80000 then writeStwd (n - 0x70000) v s else s := by
  rw [writeBar0, quiet_raised h hc, if_pos rfl]

theorem writeBar0_open (h : hostOpen 0 s = true) : writeBar0 0 n v s = writePfBlock n v s := by
  rw [writeBar0, quiet_ready (phase_of_hostOpen h), if_neg Bool.false_ne_true, hostWrite_open _ h, if_pos rfl]

/-- A write of the PF's aligned register n of BAR0. -/
theorem pfWrite (hn : n < 2 ^ 26) (h4 : n % 4 = 0) : exec (.registerWrite 0 .bar0 (BitVec.ofNat 26 n) v) s = .next (writeBar0 0 n v s) := by
  have e : (BitVec.ofNat 26 n).toNat = n := by rw [BitVec.toNat_ofNat, Nat.mod_eq_of_lt hn]
  rw [registerWrite_bar0 (by rw [e]; exact h4), e]
  rfl

theorem pfWrite_open (h : hostOpen 0 s = true) (hn : n < 2 ^ 26) (h4 : n % 4 = 0) :
    exec (.registerWrite 0 .bar0 (BitVec.ofNat 26 n) v) s = .next (writePfBlock n v s) := by
  rw [pfWrite hn h4, writeBar0_open h]

theorem goodCap_iff {w : Nat} : goodCap w = true ↔ 60 ≤ w ∧ w ≤ 720 := by simp [goodCap]

/-- R9: IDENT and the PF's words below GCTL are read-only. -/
theorem writePfBlock_ident (h : n < 0x1000) : writePfBlock n v s = s := by
  unfold writePfBlock writeVfBlock
  repeat rw [if_neg (by omega)]

/-- R9, R496: a reserved value of a limit leaves it. -/
theorem writePwrcap_eq : writePwrcap v s = { s with power := { s.power with
    cap := if 60 ≤ (v.extractLsb' 0 10).toNat ∧ (v.extractLsb' 0 10).toNat ≤ 720 then v.extractLsb' 0 10 else s.power.cap
    brakecap := if 60 ≤ (v.extractLsb' 16 10).toNat ∧ (v.extractLsb' 16 10).toNat ≤ 720 then v.extractLsb' 16 10 else s.power.brakecap } } := by
  simp only [writePwrcap, goodCap_iff, ofNat_bitsOf, toNat_extractLsb']

theorem writePwck_thermal : writePwck 0x14 v s =
    if 80 ≤ bitsOf v 0 8 ∧ bitsOf v 0 8 ≤ 100 then { s with power := { s.power with tthr := BitVec.ofNat 8 (bitsOf v 0 8) } } else s := rfl

theorem bitsOf_byte (v : W32) : bitsOf v 0 8 = v.toNat % 256 := (bitsOf_eq_div_mod v 0 8).trans (by omega)

end

/-! ### Configuration space (R347, R348, R358, R360) -/

section
variable {f : Nat} {off : Nat} {v : W32} {s : State}

theorem writeConfig_shut (h : s.port.cfg = false ∨ (s.fn f).enabled = false ∨ reached f s = false) : writeConfig f off v s = s := by
  unfold writeConfig
  rw [if_pos]
  rcases h with h | h | h <;> simp [h]

/-- The port is configured and the function answers there. -/
def configOpen (f : Nat) (s : State) : Prop := s.port.cfg = true ∧ (s.fn f).enabled = true ∧ reached f s = true

theorem configOpen.not_shut (h : configOpen f s) : ¬ (!s.port.cfg || !(s.fn f).enabled || !reached f s) = true := by
  obtain ⟨hc, he, hr⟩ := h
  simp [hc, he, hr]

theorem writeConfig_command (h : configOpen f s) : writeConfig f 0x04 v s = writeCommand f v (putCfg f 0x04 v s) := if_neg h.not_shut

theorem writeConfig_msix (h : configOpen f s) : writeConfig f 0x50 v s = writeMsixControl f v s := if_neg h.not_shut

theorem writeConfig_numVfs (h : configOpen 0 s) : writeConfig 0 0x258 v s = writePfConfig 0x258 v s := if_neg h.not_shut

/-- R360: with Bus Master Enable set, what waited goes. -/
theorem resumeBus_told (f : Nat) (s : State) :
    Told { s.setFn f { s.fn f with bme := true } with port := { s.port with waits := s.port.waits.filter (fun w => !decide (w.1 = f)) } } (resumeBus f s) :=
  Told.foldl (fun s (w : Nat × Nat) => sendVec_told w.1 w.2 s) _ _

theorem resumeBus_bme : ((resumeBus f s).fn f).bme = true := by
  rw [(resumeBus_told f s).fn f]
  exact congrArg Func.bme (State.setFn_fn s f _)

theorem clearFmask_told (f : Nat) (s : State) : Told (s.setFn f { s.fn f with fmask := false }) (clearFmask f s) :=
  Told.foldl (fun s v => latchVector_told f v s) _ _

/-- R358: MSI-X Enable and Function Mask take the bits written, and of the module only the function and its messages change. -/
theorem writeMsixControl_sets : ((writeMsixControl f v s).fn f).msixEn = v.getLsbD 31 ∧ ((writeMsixControl f v s).fn f).fmask = v.getLsbD 30 ∧
    (writeMsixControl f v s).cores = s.cores ∧ (writeMsixControl f v s).mem = s.mem := by
  unfold writeMsixControl
  dsimp only
  split
  · next h30 =>
    rw [bitAt_eq_getLsbD] at h30
    rw [State.setFn_fn, State.setFn_fn, h30]
    exact ⟨rfl, rfl, rfl, rfl⟩
  · next h30 =>
    rw [Bool.not_eq_true, bitAt_eq_getLsbD] at h30
    split
    · have told := clearFmask_told f (s.setFn f { s.fn f with msixEn := bitAt v 31 })
      rw [told.fn f, told.cores, told.mem, h30]
      simp [bitAt_eq_getLsbD]
    · next hmask =>
      rw [h30]
      exact ⟨by simp [bitAt_eq_getLsbD], by simpa using hmask, rfl, rfl⟩

end
end Sys2Proof.Machine

open Sys2Proof Sys2Proof.Machine

/-- Settles O43: the rule of each register, as the access reaches it. -/
theorem registerWrites : Obligations.RegisterWrites := by
  unfold Obligations.RegisterWrites
  intro f off v s wr pf cfg refused p hi lo limit
  have unsup : refused (.next (unsupported s)) := ⟨_, rfl, rfl, rfl, rfl, rfl, rfl⟩
  refine ⟨fun h => ⟨?misaligned, registerWrite_misaligned h, registerWrite_misaligned h⟩, fun h4 hd => ⟨?dormantBar0, ?dormantBar4⟩, fun h4 h => ?shut,
    fun hp hc h0 h4 hoff => ?raised, fun hp hc => ?stwd, fun h => ?ready, fun hc he hr => ?config⟩
  case misaligned =>
    rw [show wr .bar0 = _ from registerWrite_misaligned h]
    exact unsup
  case dormantBar0 =>
    rw [show wr .bar0 = _ from registerWrite_bar0 h4, writeBar0_dormant hd]
    exact unsup
  case dormantBar4 =>
    rw [show wr .bar4 = _ from registerWrite_bar4 h4, hostWrite_dormant _ hd]
    exact unsup
  case shut => exact (registerWrite_config h4).trans (congrArg _ (writeConfig_shut h))
  case raised =>
    subst h0
    refine (registerWrite_bar0 h4).trans (congrArg _ ?_)
    exact (writeBar0_raised hp hc).trans (if_neg (by omega))
  case stwd => exact (pfWrite (by decide) (by decide)).trans (congrArg _ (writeBar0_raised hp hc))
  case ready =>
    have block : ∀ n, n < 2 ^ 26 → n % 4 = 0 → ∀ t, writePfBlock n v s = t → pf n = .next t :=
      fun n hn h4 t e => (pfWrite_open h hn h4).trans (congrArg _ e)
    simp only [← ofNat_bitsOf]
    refine ⟨fun h0 h4 hoff => ?ident, block _ (by decide) (by decide) _ rfl, block _ (by decide) (by decide) _ rfl, block _ (by decide) (by decide) _ writePwrcap_eq,
      fun h80 h100 => block _ (by decide) (by decide) _ (writePwck_thermal.trans (if_pos ((bitsOf_byte v).symm ▸ ⟨h80, h100⟩))),
      fun hbad => block _ (by decide) (by decide) _ (writePwck_thermal.trans (if_neg (by rw [bitsOf_byte]; omega))),
      block _ (by decide) (by decide) _ rfl, block _ (by decide) (by decide) _ rfl, block _ (by decide) (by decide) _ rfl,
      ⟨_, block _ (by decide) (by decide) _ rfl, rfl, rfl, rfl, rfl⟩, fun h1 => block _ (by decide) (by decide) _ ?nosplit,
      block _ (by decide) (by decide) _ rfl⟩
    case ident =>
      subst h0
      exact (registerWrite_bar0 h4).trans (congrArg _ ((writeBar0_open h).trans (writePfBlock_ident hoff)))
    case nosplit => exact if_neg (h1 ▸ Bool.false_ne_true)
  case config =>
    have c : configOpen f s := ⟨hc, he, hr⟩
    have command : cfg 0x04 = .next (writeCommand f v (putCfg f 0x04 v s)) := (registerWrite_config (by decide)).trans (congrArg _ (writeConfig_command c))
    refine ⟨fun h2 => ⟨_, command, ?masterOff⟩, fun h2 => ⟨_, command, ?masterOn⟩,
      ⟨_, (registerWrite_config (by decide)).trans (congrArg _ (writeConfig_msix c)), writeMsixControl_sets⟩, fun h0 hvf hm hn => ?numVfs⟩
    case masterOff =>
      rw [writeCommand, bitAt_eq_getLsbD, h2, if_neg Bool.false_ne_true]
      exact ⟨by rw [State.setFn_fn], rfl, rfl⟩
    case masterOn =>
      rw [writeCommand, bitAt_eq_getLsbD, h2, if_pos rfl]
      exact ⟨resumeBus_bme, (resumeBus_told _ _).cores, (resumeBus_told _ _).mem⟩
    case numVfs =>
      subst h0
      have fits : ¬ (s.port.vfEn = true ∨ totalVfs (isMember s) < bitsOf v 0 16) := by
        rw [hvf, hm, bitsOf_eq_div_mod]
        simp only [totalVfs, Bool.false_eq_true, if_false, false_or]
        omega
      rw [← ofNat_bitsOf]
      exact (registerWrite_config (by decide)).trans (congrArg _ ((writeConfig_numVfs c).trans (if_neg fits)))
end

/-! ## The window and the aperture -/

section
namespace Sys2Proof.Machine

/-! ### The window's commit (R353, R354) -/

section
variable {f : Nat} {v : W32} {s : State} {w : Win}

/-- WINCTL's own fields as a write of v leaves them, before its COMMIT. -/
def Win.written (w : Win) (v : W32) : Win :=
  { w with cerr := w.cerr && !bitAt v 9, fault := w.fault && !bitAt v 10, stSpace := BitVec.ofNat 2 (bitsOf v 1 2), stCtx := BitVec.ofNat 12 (bitsOf v 16 12), staged := true }

/-- R354: a commit of the staged fields of w is refused. -/
def winRefused (f : Nat) (s : State) (w : Win) : Bool :=
  (isMember s && decide (w.stSpace = 2)) || (decide (w.stSpace = 0) && (decide (f ≠ 0) || !inCascade s (bitsOf w.stBase 37 3))) ||
    (decide (w.stSpace = 1) && decide (w.stBase ≠ 0)) || (decide (w.stSpace = 2) && (s.ctx w.stCtx.toNat).elim true (fun c => decide (c.func ≠ f)))

/-- The window after a commit of the staged fields of w. -/
def Win.committed (w : Win) (refused : Bool) : Win :=
  if refused then { w with cerr := true } else { w with staged := false, base := w.stBase, space := w.stSpace, ctx := w.stCtx }

theorem commitWin_staged (h : (s.fn f).win.staged = true) :
    commitWin f s = if winRefused f s (s.fn f).win then s.setFn f { s.fn f with win := { (s.fn f).win with cerr := true } }
      else s.setFn f { s.fn f with win :=
        { (s.fn f).win with staged := false, base := (s.fn f).win.stBase, space := (s.fn f).win.stSpace, ctx := (s.fn f).win.stCtx } } := by
  unfold commitWin winRefused
  dsimp only
  rw [if_neg (by rw [h]; exact Bool.false_ne_true)]
  cases s.ctx (s.fn f).win.stCtx.toNat <;> rfl

theorem commitWin_eq (h : (s.fn f).win.staged = true) :
    commitWin f s = s.setFn f { s.fn f with win := (s.fn f).win.committed (winRefused f s (s.fn f).win) } := by
  rw [commitWin_staged h]
  cases winRefused f s (s.fn f).win <;> rfl

theorem writeWinctl_commit (hv : bitAt v 0 = true) :
    writeWinctl f v s = s.setFn f { s.fn f with win := ((s.fn f).win.written v).committed (winRefused f s ((s.fn f).win.written v)) } := by
  have h : ((s.setFn f { s.fn f with win := (s.fn f).win.written v }).fn f).win = (s.fn f).win.written v := by rw [State.setFn_fn]
  calc writeWinctl f v s = commitWin f (s.setFn f { s.fn f with win := (s.fn f).win.written v }) := if_pos hv
    _ = _ := by rw [commitWin_eq (by rw [h]; rfl), h, State.setFn_setFn, State.setFn_fn]; rfl

theorem Win.written_space (w : Win) (v : W32) : (w.written (v ||| 1)).stSpace.toNat = v.toNat / 2 % 4 := by
  show (BitVec.ofNat 2 (bitsOf (v ||| 1) 1 2)).toNat = _
  rw [bitsOf_or_one v 2 (by omega), bitsOf_eq_div_mod, BitVec.toNat_ofNat]
  omega

theorem Win.written_ctx (w : Win) (v : W32) : (w.written (v ||| 1)).stCtx.toNat = v.toNat / 65536 % 4096 := by
  show (BitVec.ofNat 12 (bitsOf (v ||| 1) 16 12)).toNat = _
  rw [bitsOf_or_one v 12 (by omega), bitsOf_eq_div_mod, BitVec.toNat_ofNat]
  omega

/-- R28: the module number in a base takes all that stands above its local part. -/
theorem bitsOf_module (b : W40) : bitsOf b 37 3 = b.toNat / 2 ^ 37 := by
  rw [bitsOf_eq_div_mod]
  have := b.isLt
  omega

theorem winRefused_iff : winRefused f s w = true ↔
    (isMember s = true ∧ w.stSpace.toNat = 2) ∨ (w.stSpace.toNat = 0 ∧ (f ≠ 0 ∨ inCascade s (w.stBase.toNat / 2 ^ 37) = false)) ∨
      (w.stSpace.toNat = 1 ∧ w.stBase ≠ 0) ∨ (w.stSpace.toNat = 2 ∧ ∀ c, s.ctx w.stCtx.toNat = some c → c.func ≠ f) := by
  have e : ∀ n : BitVec 2, w.stSpace = n ↔ w.stSpace.toNat = n.toNat := fun n => BitVec.toNat_inj.symm
  have other : (s.ctx w.stCtx.toNat).elim true (fun c => decide (c.func ≠ f)) = true ↔ ∀ c, s.ctx w.stCtx.toNat = some c → c.func ≠ f := by
    cases s.ctx w.stCtx.toNat <;> simp
  simp only [winRefused, Bool.or_eq_true, Bool.and_eq_true, decide_eq_true_eq, Bool.not_eq_true', bitsOf_module, other, e]
  rw [or_assoc, or_assoc]
  exact Iff.rfl

end

/-! ### Who is served (R361, R530) -/

section
variable {f : FuncIx} {off v : W32} {be : BitVec 4} {ep : Bool} {s : State}

theorem bar2Read_open (hp : s.power.phase = .ready) (he : (s.fn f).enabled = true) : exec (.bar2Read f off) s = .next (aptRead f off s) := by
  rw [exec_bar2Read, execBar2Read, quiet_ready hp, if_neg Bool.false_ne_true, if_pos ⟨hp, he⟩]

theorem bar2Write_open (hp : s.power.phase = .ready) (he : (s.fn f).enabled = true) : exec (.bar2Write f off v be ep) s = .next (aptWrite f off v be ep s) := by
  rw [exec_bar2Write, execBar2Write, quiet_ready hp, if_neg Bool.false_ne_true, if_pos ⟨hp, he⟩]

theorem bar2Read_dormant (hp : s.power.phase = .dormant) : exec (.bar2Read f off) s = .next (unsupported s) := by
  rw [exec_bar2Read, execBar2Read, quiet_dormant hp, if_neg Bool.false_ne_true, if_neg (by simp [hp])]

theorem bar2Write_dormant (hp : s.power.phase = .dormant) : exec (.bar2Write f off v be ep) s = .next (unsupported s) := by
  rw [exec_bar2Write, execBar2Write, quiet_dormant hp, if_neg Bool.false_ne_true, if_neg (by simp [hp])]

end

/-! ### Writes of a container (R355, R356) -/

section
variable {f : Nat} {off v : W32} {be : BitVec 4} {s : State}

theorem logApt_told (ue : Bool) (code f addr ctx : Nat) (s : State) : Told s (logApt ue code f addr ctx s) := logErr_told _ _ _ _ _ _ _ s

theorem winFault_fault (f : Nat) (s : State) : ((winFault f s).fn f).win.fault = true := by rw [winFault, State.setFn_fn]

/-- A container with all its byte enables and no bit above 19 is put. -/
theorem aptWrite_good (h3 : (s.fn f).win.space ≠ 3) (hv : v.toNat < 2 ^ 20) : aptWrite f off v 15 false s = aptPut f off (v.setWidth 20) s := by
  have good : ¬ ((15 : BitVec 4) ≠ 15 ∨ 2 ^ 20 ≤ v.toNat) := by simp; omega
  rw [aptWrite]
  simp only [decide_eq_true_eq]
  rw [if_neg Bool.false_ne_true, if_neg h3, if_neg good]

/-- Any other container sets FAULT. -/
theorem aptWrite_malformed (h3 : (s.fn f).win.space ≠ 3) (hbad : be ≠ 15 ∨ 2 ^ 20 ≤ v.toNat) :
    aptWrite f off v be false s = logApt false 0x0043 f (winTarget (s.fn f).win off) (winCtx (s.fn f).win) (winFault f s) := by
  rw [aptWrite]
  simp only [decide_eq_true_eq]
  rw [if_neg Bool.false_ne_true, if_neg h3, if_pos hbad]

theorem countAer_aer (n : Nat) (s : State) : tget 0 (countAer n s).port.aer n = tget 0 s.port.aer n + 1 := by
  rw [countAer, tget_tset_self]

/-- A poisoned write logs and counts on a state in which at most FAULT has been set. -/
theorem aptWrite_poisoned : ∃ u, (u = s ∨ u = winFault f s) ∧
    aptWrite f off v be true s = countAer 1 (logApt true 0x0044 f (winTarget (s.fn f).win off) (winCtx (s.fn f).win) u) := by
  refine ⟨if decide ((s.fn f).win.space = 3) then s else winFault f s, ?_, rfl⟩
  split
  · exact .inl rfl
  · exact .inr rfl

theorem aptWrite_ep : tget 0 (aptWrite f off v be true s).port.aer 1 = tget 0 s.port.aer 1 + 1 ∧ (aptWrite f off v be true s).mem = s.mem ∧
    (aptWrite f off v be true s).cores = s.cores := by
  obtain ⟨u, hu, e⟩ := aptWrite_poisoned (f := f) (off := off) (v := v) (be := be) (s := s)
  have same : u.port = s.port ∧ u.mem = s.mem ∧ u.cores = s.cores := by
    rcases hu with rfl | rfl <;> exact ⟨rfl, rfl, rfl⟩
  obtain ⟨hport, hmem, hcores⟩ := same
  have told := logApt_told true 0x0044 f (winTarget (s.fn f).win off) (winCtx (s.fn f).win) u
  rw [e, countAer_aer, told.aer, hport]
  exact ⟨rfl, told.mem.trans hmem, told.cores.trans hcores⟩

end

/-! ### A container written to a clean block and read back (R65, R69, R355) -/

section
variable {f blk o : Nat} {w : Word} {s : State}

/-- A block is clean: no poison, no inverted bit and no dead lane, and no element group has fetched it. -/
structure CleanBlock (s : State) (blk : Nat) : Prop where
  good : poisoned s blk = false
  flips : tget [] s.mem.flips blk = []
  dead : tget 0 s.mem.dead (channelOf s.variant blk) = 0
  fetched : s.mem.fetched = none

theorem CleanBlock.decode (h : CleanBlock s blk) : decodeBlock false s blk = (.clean, s) := by
  have e : eccOf s blk = .clean := if_pos ⟨h.flips, h.dead⟩
  rw [decodeBlock, e]

theorem CleanBlock.storedRead (h : CleanBlock s blk) (offs : List Nat) : (storedRead s blk offs).1 = some (storedWords s blk offs) := by
  have hf : fetchedOf s blk = none := by rw [fetchedOf, h.fetched]; rfl
  have found : (fetchBlock false blk (64 * blk + offs.headD 0) s).1 = .clean := by rw [fetchBlock, hf, h.decode]
  rw [Machine.storedRead, h.good, if_neg Bool.false_ne_true]
  dsimp only
  rw [found]
  rfl

/-- The store with one word held for a block, in a merge buffer that was empty. -/
def State.holding (s : State) (blk o : Nat) (w : Word) : State := { s with mem := { s.mem with merge := [{ blk := blk, words := [(o, some w)] }] } }

theorem blkWrite_holding (h : s.mem.merge = []) : blkWrite blk [(o, w)] s = s.holding blk o w := by
  simp [blkWrite, mergeEntry, h, mergeInto, tset, terase, tinsert, State.holding]

theorem blkRead_holding (h : CleanBlock s blk) : ∃ u, blkRead (s.holding blk o w) blk [o] = (some [w], u) := by
  have held : CleanBlock (s.holding blk o w) blk := ⟨h.good, h.flips, h.dead, h.fetched⟩
  obtain ⟨x, hx⟩ : ∃ x, storedWords (s.holding blk o w) blk [o] = [x] := by
    unfold storedWords
    split <;> exact ⟨_, rfl⟩
  have entry : mergeEntry (s.holding blk o w) blk = some { blk := blk, words := [(o, some w)] } := by simp [mergeEntry, State.holding]
  refine ⟨(storedRead (s.holding blk o w) blk [o]).2, ?_⟩
  rw [blkRead, show storedRead (s.holding blk o w) blk [o] = (some [x], (storedRead (s.holding blk o w) blk [o]).2) from
    Prod.ext ((held.storedRead [o]).trans (congrArg some hx)) rfl, entry]
  simp [overlay, tget]

theorem inCascade_of_isLocal {g : Nat} (h : isLocal s g = true) : inCascade s (moduleOf g) = true := by
  simp only [isLocal, decide_eq_true_eq] at h
  simp [inCascade, h]

theorem writeGlobal_holding {g : Nat} {v : Word} (hl : isLocal s g = true) (hh : isHole s (localOf g) = false) (hm : s.mem.merge = []) :
    writeGlobal f g v s = s.holding (localOf g / 64) (g % 64) v := by
  simp only [writeGlobal, inCascade_of_isLocal hl, hl, hh, Bool.not_true, Bool.false_eq_true, if_false, blkWrite_holding hm]

theorem readGlobal_holding {g ctx : Nat} {v : Word} (hl : isLocal s g = true) (hh : isHole s (localOf g) = false) (hc : CleanBlock s (localOf g / 64)) :
    ∃ u, readGlobal f g ctx (s.holding (localOf g / 64) (g % 64) v) = answer (v.setWidth 32) false u := by
  obtain ⟨u, hu⟩ := blkRead_holding (o := g % 64) (w := v) hc
  have hl' : isLocal (s.holding (localOf g / 64) (g % 64) v) g = true := hl
  have hh' : isHole (s.holding (localOf g / 64) (g % 64) v) (localOf g) = false := hh
  refine ⟨u, ?_⟩
  simp only [readGlobal, inCascade_of_isLocal hl', hl', hh', Bool.not_true, Bool.false_eq_true, if_false, hu]

end

/-! ### The spaces of the window (R353, R355) -/

section
variable {f : Nat} {off : BitVec 32} {v : Word} {s : State}

theorem aptPut_device (h : (s.fn f).win.space = 0) : aptPut f off v s = writeGlobal f (winTarget (s.fn f).win off) v s := by
  rw [aptPut, h]; rfl

theorem aptRead_device (h : (s.fn f).win.space = 0) : aptRead f off s = readGlobal f (winTarget (s.fn f).win off) 0 s := by
  rw [aptRead, h]; rfl

theorem aptPut_yard (h : (s.fn f).win.space = 1) (ht : winTarget (s.fn f).win off < 2 ^ 25) (ha : yardAllows s 49 f (winTarget (s.fn f).win off) 1 .write = true) :
    aptPut f off v s = { s with mem := { s.mem with
      yard := tset 0 s.mem.yard (winTarget (s.fn f).win off) v, yardBad := terase s.mem.yardBad (winTarget (s.fn f).win off) } } := by
  rw [aptPut, h]
  dsimp only
  rw [ha]
  exact if_neg (Nat.not_le.2 ht)

theorem aptPut_yardBarred (h : (s.fn f).win.space = 1) (ht : winTarget (s.fn f).win off < 2 ^ 25) (ha : yardAllows s 49 f (winTarget (s.fn f).win off) 1 .write = false) :
    aptPut f off v s = winFault f (logApt false 0x0007 f (winTarget (s.fn f).win off) 0 s) := by
  rw [aptPut, h]
  dsimp only
  rw [ha]
  exact if_neg (Nat.not_le.2 ht)

theorem aptRead_yard (h : (s.fn f).win.space = 1) (ht : winTarget (s.fn f).win off < 2 ^ 25) (ha : yardAllows s 49 f (winTarget (s.fn f).win off) 1 .read = true)
    (hg : tget .good s.mem.yardBad (winTarget (s.fn f).win off) = .good) :
    aptRead f off s = answer ((tget 0 s.mem.yard (winTarget (s.fn f).win off)).setWidth 32) false s := by
  have word : ∀ heal, sramRead (yardWord s (winTarget (s.fn f).win off)) heal s = (true, s) := fun heal => by rw [sramRead, yardWord, hg]
  rw [aptRead, h]
  simp only [ha, word]
  exact if_neg (Nat.not_le.2 ht)

end
end Sys2Proof.Machine

open Sys2Proof Sys2Proof.Machine

/-- Settles O44: the window's commit by what refuses it, and each access by the space it reaches. -/
theorem aperture : Obligations.Aperture := by
  unfold Obligations.Aperture
  intro f s w bad open_
  refine ⟨fun h v => ?commit, fun off v be _ ho => ⟨fun h0 hl hh hp hfl hd hm _ hf hv => ?container, fun h3 hbad => ?malformed, ?poisoned,
      fun h1 ht hv => ⟨fun ha => ?yardPut, fun ha => ?yardBarred⟩, fun h1 ht ha hg => ?yardRead⟩,
    fun _ _ _ _ hd => ⟨⟨_, bar2Read_dormant hd, rfl, rfl⟩, ⟨_, bar2Write_dormant hd, rfl, rfl⟩⟩,
    fun _ _ => ⟨fun h => if_pos h, fun h => ⟨_, if_neg (by omega), rfl, countAer_aer 3 s, rfl⟩⟩⟩
  case commit =>
    have commit := (next_hostWrite_open (writeWinctl f (v ||| 1)) h).trans (congrArg _ (writeWinctl_commit (bitAt_or_one_zero v)))
    have refused : winRefused f s (w.written (v ||| 1)) = true ↔ bad v := by
      rw [winRefused_iff, w.written_space, w.written_ctx]
      simp only [bad, ne_eq, Fin.ext_iff]
      rfl
    refine ⟨fun good => ⟨_, commit, ?_⟩, fun hbad => ⟨_, commit, ?_⟩⟩
    · rw [Bool.eq_false_iff.2 (fun e => good (refused.1 e)), State.setFn_fn]
      exact ⟨rfl, w.written_space v, w.written_ctx v, rfl, rfl, rfl⟩
    · rw [refused.2 hbad, State.setFn_fn]
      exact ⟨rfl, rfl, rfl, rfl, rfl, rfl⟩
  case container =>
    have put : aptWrite f off v 15 false s = s.holding (localOf (winTarget w off) / 64) (winTarget w off % 64) (v.setWidth 20) := by
      rw [aptWrite_good (by rw [h0]; decide) hv, aptPut_device h0, writeGlobal_holding hl hh hm]
    obtain ⟨u, hu⟩ := readGlobal_holding (f := f) (ctx := 0) (v := v.setWidth 20) hl hh ⟨hp, hfl, hd, hf⟩
    have read : exec (.bar2Read f off) (s.holding (localOf (winTarget w off) / 64) (winTarget w off % 64) (v.setWidth 20)) =
        .next (answer ((v.setWidth 20).setWidth 32) false u) := by
      rw [bar2Read_open (s := s.holding _ _ _) ho.1 ho.2, aptRead_device (s := s.holding _ _ _) h0]
      exact congrArg _ hu
    refine ⟨_, _, (bar2Write_open ho.1 ho.2).trans (congrArg _ put), read, ?_, rfl, rfl, rfl⟩
    show (v.setWidth 20).setWidth 32 = v
    apply BitVec.eq_of_toNat_eq
    simp only [BitVec.toNat_setWidth]
    omega
  case malformed =>
    refine ⟨_, (bar2Write_open ho.1 ho.2).trans (congrArg _ (aptWrite_malformed h3 hbad)), ?_⟩
    have told := logApt_told false 0x0043 f (winTarget w off) (winCtx w) (winFault f s)
    refine ⟨?_, told.mem, told.cores⟩
    rw [told.fn]
    exact winFault_fault f s
  case poisoned => exact ⟨_, bar2Write_open ho.1 ho.2, aptWrite_ep⟩
  case yardPut =>
    refine ⟨_, (bar2Write_open ho.1 ho.2).trans (congrArg _ ((aptWrite_good (by rw [h1]; decide) hv).trans (aptPut_yard h1 ht ha))), ?_, fun a hne => ?_, rfl⟩
    · exact tget_tset_self _ _ _ _
    · exact tget_tset_other _ _ _ hne
  case yardBarred =>
    refine ⟨_, (bar2Write_open ho.1 ho.2).trans (congrArg _ ((aptWrite_good (by rw [h1]; decide) hv).trans (aptPut_yardBarred h1 ht ha))), winFault_fault _ _, ?_⟩
    exact (logApt_told false 0x0007 f (winTarget w off) 0 s).mem
  case yardRead => exact ⟨_, (bar2Read_open ho.1 ho.2).trans (congrArg _ (aptRead_yard h1 ht ha hg)), rfl, rfl⟩
end

/-! ## Function resets, Hot Reset and link down -/

section
namespace Sys2Proof.Machine

/-- What ending the jobs js leaves as it found it (R365, R383, R389): the variant, the firmware, the contexts, the tracts' codes, the link, of
each function everything but its vectors, and every other job. The stores that a share had buffered are performed, so that memory, the error
log and what is told of it do change. -/
structure Spared (js : List Nat) (z s : State) : Prop where
  variant : s.variant = z.variant
  flash : s.flash = z.flash
  ctxs : s.ctxs = z.ctxs
  tcmap : s.mem.tcmap = z.mem.tcmap
  up : s.port.up = z.port.up
  aspm : s.port.aspm = z.port.aspm
  fn : ∀ f, s.fn f = { z.fn f with vec := (s.fn f).vec }
  job : ∀ j, j ∉ js → s.job j = z.job j

namespace Spared

variable {js : List Nat} {x y z s : State}

theorem refl (s : State) : Spared js s s := ⟨rfl, rfl, rfl, rfl, rfl, rfl, fun _ => rfl, fun _ _ => rfl⟩

theorem trans (h : Spared js x y) (g : Spared js y z) : Spared js x z :=
  ⟨g.variant.trans h.variant, g.flash.trans h.flash, g.ctxs.trans h.ctxs, g.tcmap.trans h.tcmap, g.up.trans h.up, g.aspm.trans h.aspm,
   fun f => by rw [g.fn f, h.fn f], fun j hj => (g.job j hj).trans (h.job j hj)⟩

theorem of_told (h : Told z s) : Spared js z s :=
  ⟨h.quiet.variant, h.quiet.flash, h.quiet.ctxs, by rw [h.mem], h.up, h.aspm, h.fn, fun j _ => by rw [State.job, h.disp]; rfl⟩

/-- An update of other fields. -/
theorem upd {co be er ho hb se sr pa pw sw dr} {me : Mem} {po : Port} (h : Spared js z s) (ht : me.tcmap = s.mem.tcmap) (hu : po.up = s.port.up)
    (ha : po.aspm = s.port.aspm) : Spared js z { s with
      cores := co, bents := be, mem := me, errl := er, port := po, host := ho, hostBad := hb, sent := se, srcs := sr, pair := pa, power := pw, steward := sw, draw := dr } :=
  ⟨h.variant, h.flash, h.ctxs, ht.trans h.tcmap, hu.trans h.up, ha.trans h.aspm, h.fn, h.job⟩

theorem foldl {α : Type} {f : State → α → State} (hf : ∀ u x, Spared js z u → Spared js z (f u x)) (l : List α) :
    ∀ {s}, Spared js z s → Spared js z (l.foldl f s) := by
  induction l with
  | nil => exact fun h => h
  | cons x l ih => exact fun h => ih (hf _ x h)

end Spared

/-! ### The stores of a share that ends -/

section
variable {js : List Nat} {z s : State}

theorem logErr_spared {ue code kind unit addr detail ctx} (h : Spared js z s) : Spared js z (logErr ue code kind unit addr detail ctx s) :=
  h.trans (.of_told (logErr_told _ _ _ _ _ _ _ s))

theorem setPoison_spared {blk p} (h : Spared js z s) : Spared js z (setPoison blk p s) := h.upd rfl rfl rfl

theorem afterBlockWrite_spared {blk} (h : Spared js z s) : Spared js z (afterBlockWrite blk s) := by
  unfold afterBlockWrite
  extract_lets +onlyGivenNames fetched
  extract_lets +onlyGivenNames marked
  have h' : Spared js z marked := setPoison_spared (h.upd rfl rfl rfl)
  clear_value marked
  dsimp only
  split
  · exact logErr_spared (h'.upd rfl rfl rfl)
  · exact h'.upd rfl rfl rfl

theorem storeBlock_spared {blk ws} (h : Spared js z s) : Spared js z (storeBlock blk ws s) := by
  unfold storeBlock
  split <;> exact h.upd rfl rfl rfl

theorem dropMerge_spared {blk} (h : Spared js z s) : Spared js z (dropMerge blk s) := h.upd rfl rfl rfl

theorem fullBlockWrite_spared {blk ws} (h : Spared js z s) : Spared js z (fullBlockWrite blk ws s) :=
  afterBlockWrite_spared (storeBlock_spared (setPoison_spared (dropMerge_spared h)))

theorem noteCe_spared {blk a n} (h : Spared js z s) : Spared js z (noteCe blk a n s) := by
  unfold noteCe countErr
  exact logErr_spared (h.upd rfl rfl rfl)

theorem noteUe_spared {blk a} (h : Spared js z s) : Spared js z (noteUe blk a s) := by
  unfold noteUe countErr
  exact logErr_spared ((setPoison_spared h).upd rfl rfl rfl)

theorem noteFound_spared {blk a} {f : Found} (h : Spared js z s) : Spared js z (noteFound blk a f s) := by
  cases f with
  | clean => exact h
  | corrected n => exact noteCe_spared h
  | bad => exact noteUe_spared h
  | wrong d n =>
    rw [noteFound]
    split
    · exact h
    · exact noteCe_spared h

theorem drawn_spared (h : Spared js z s) : Spared js z s.drawn := h.upd rfl rfl rfl

theorem decodeBlock_spared {fails blk} (h : Spared js z s) : Spared js z (decodeBlock fails s blk).2 := by
  unfold decodeBlock
  split
  case h_1 | h_2 | h_3 => exact h
  case h_4 =>
    split
    · exact drawn_spared h
    · split <;> exact drawn_spared h
  case h_5 => split <;> exact drawn_spared h

theorem fetchBlock_spared {fails blk a} (h : Spared js z s) : Spared js z (fetchBlock fails blk a s).2 := by
  unfold fetchBlock
  split
  · exact h
  · exact (noteFound_spared (decodeBlock_spared h)).upd rfl rfl rfl

theorem rmwStore_spared {blk ws} {f : Found} (h : Spared js z s) : Spared js z (rmwStore blk f ws s) := by
  unfold rmwStore
  apply afterBlockWrite_spared
  apply storeBlock_spared
  cases f with
  | wrong n _ => exact storeBlock_spared h
  | clean | corrected _ | bad => exact h

theorem mergeRetire_spared {blk} (h : Spared js z s) : Spared js z (mergeRetire blk s) := by
  unfold mergeRetire
  split
  · exact h
  · extract_lets ws s' r s''
    have found : Spared js z r.2 := by
      dsimp only [r]
      split
      · exact dropMerge_spared h
      · exact fetchBlock_spared (dropMerge_spared h)
    clear_value r
    have logged : Spared js z s'' := by
      dsimp only [s'']
      split
      · exact logErr_spared found
      · exact found
    split
    · exact fullBlockWrite_spared h
    · exact rmwStore_spared logged

theorem blkWrite_spared {blk ws} (h : Spared js z s) : Spared js z (blkWrite blk ws s) := by
  unfold blkWrite
  split
  · dsimp only
    split
    · exact fullBlockWrite_spared h
    · split
      · exact mergeRetire_spared (h.upd rfl rfl rfl)
      · exact h.upd rfl rfl rfl
  · dsimp only
    split
    · exact fullBlockWrite_spared h
    · split
      · exact h
      · refine Spared.upd ?_ rfl rfl rfl
        split
        · split
          · exact mergeRetire_spared h
          · exact h
        · exact h

theorem putHost_spared {n : Nat} : ∀ {a v : Nat} {s : State}, Spared js z s → Spared js z (putHost a v n s) := by
  induction n with
  | zero => exact fun h => h
  | succ n ih => exact fun h => ih (h.upd rfl rfl rfl)

theorem writeSmall_spared {b w} {p : Place} (h : Spared js z s) : Spared js z (writeSmall b p w s) := by
  cases p with
  | dev _ => exact h
  | yard _ => exact h.upd rfl rfl rfl
  | bench _ => exact h.upd rfl rfl rfl
  | host a => exact (putHost_spared h).upd rfl rfl rfl

theorem writePlaces_spared {b ws} (h : Spared js z s) : Spared js z (writePlaces b ws s) := by
  unfold writePlaces
  refine Spared.foldl (fun _ _ => writeSmall_spared) _ (Spared.foldl (fun _ _ g => ?_) _ h)
  split
  · exact blkWrite_spared g
  · exact g

theorem drainStores_spared {k} (h : Spared js z s) : Spared js z (drainStores k s) :=
  Spared.foldl (fun _ _ => writePlaces_spared) _ (h.upd rfl rfl rfl)

theorem clearBent_spared {l} (h : Spared js z s) : Spared js z (clearBent l s) := h.upd rfl rfl rfl

/-! ### The jobs of functions end (R365) -/

theorem setJob_spared {j : Nat} {v : Option Job} (hj : j ∈ js) (h : Spared js z s) : Spared js z (s.setJob j v) :=
  h.trans ⟨rfl, rfl, rfl, rfl, rfl, rfl, fun _ => rfl, fun _ hi => tget_tset_other _ _ _ (fun e => hi (e ▸ hj))⟩

theorem endShare_spared {i j : Nat} (hj : j ∈ js) (h : Spared js z s) : Spared js z (endShare j i s) := by
  unfold endShare
  split
  · exact h
  · split
    · exact h
    · dsimp only
      split
      · exact clearBent_spared (drainStores_spared (drainStores_spared (setJob_spared hj h)))
      · exact setJob_spared hj h

theorem endShares_spared {j : Nat} (hj : j ∈ js) (h : Spared js z s) : Spared js z (endShares j s) := by
  unfold endShares
  split
  · exact h
  · exact Spared.foldl (fun _ _ => endShare_spared hj) _ h

/-- Job j ends without an entry. -/
def endJob (s : State) (j : Nat) : State := (endShares j s).setJob j none

theorem endJobs_spared (l : List Nat) : ∀ {s}, (∀ j ∈ l, j ∈ js) → Spared js z s → Spared js z (l.foldl endJob s) := by
  induction l with
  | nil => exact fun _ h => h
  | cons j l ih =>
    intro s hl h
    have hj := hl j List.mem_cons_self
    exact ih (fun i hi => hl i (List.mem_cons_of_mem _ hi)) (setJob_spared hj (endShares_spared hj h))

theorem endJobs_job {i : Nat} (l : List Nat) : ∀ s, i ∈ l → (l.foldl endJob s).job i = none := by
  induction l with
  | nil => exact fun s h => absurd h List.not_mem_nil
  | cons j l ih =>
    intro s h
    by_cases hl : i ∈ l
    · exact ih _ hl
    · obtain rfl : i = j := (List.mem_cons.1 h).resolve_right hl
      exact ((endJobs_spared l (fun _ h => h) (Spared.refl _)).job i hl).trans (State.setJob_job _ _ _)

end

variable {fs : List Nat} {f : Nat} {keep : Bool} {s : State}

/-- No job of the functions is left, and the other jobs and the rest are spared. -/
theorem dropJobs_spared (fs : List Nat) (s : State) : ∃ js, Spared js s (dropJobs fs s) ∧ (∀ j ∈ js, (dropJobs fs s).job j = none) ∧
    ∀ j job, s.job j = some job → job.func ∈ fs → j ∈ js := by
  unfold dropJobs
  extract_lets js
  refine ⟨js, (endJobs_spared js (fun _ h => h) (Spared.refl s)).upd rfl rfl rfl, fun j hj => endJobs_job js s hj, fun j job hj hf => ?_⟩
  exact List.mem_filterMap.2 ⟨_, mem_of_tget hj, by simp [hf]⟩

theorem dropJobs_job {j : Nat} {job : Job} (h : (dropJobs fs s).job j = some job) : job.func ∉ fs := by
  obtain ⟨js, spared, gone, all⟩ := dropJobs_spared fs s
  intro hf
  by_cases hj : j ∈ js
  · rw [gone j hj] at h
    cases h
  · rw [spared.job j hj] at h
    exact hj (all j job h hf)

theorem mem_ctxsOf {n : Nat} {c : Ctx} (h : s.ctx n = some c) (hf : c.func ∈ fs) : n ∈ ctxsOf fs s :=
  List.mem_filterMap.2 ⟨_, mem_of_tget h, by simp [hf]⟩

/-! ### The scope of a reset (R17, R364, R365) -/

/-- The registers of function f after its reset, from the state s before it. -/
def Func.afterReset (keep : Bool) (f : Nat) (s : State) : Func :=
  { Func.reset f with cfg := keptCfg f s, enabled := decide (f = 0) || (keep && (s.fn f).enabled), resetting := true }

/-- What the reset of the functions fs comes to: they hold their reset values, none of their jobs and contexts is left, and the other functions
keep everything but their vectors. -/
structure ScopeReset (fs : List Nat) (keep : Bool) (s t : State) : Prop where
  variant : t.variant = s.variant
  flash : t.flash = s.flash
  tcmap : t.mem.tcmap = s.mem.tcmap
  up : t.port.up = s.port.up
  aspm : t.port.aspm = s.port.aspm
  job : ∀ j job, t.job j = some job → job.func ∉ fs
  ctx : ∀ n c, t.ctx n = some c → c.func ∉ fs
  inside : ∀ f ∈ fs, t.fn f = Func.afterReset keep f s
  outside : ∀ f, f ∉ fs → t.fn f = { s.fn f with vec := (t.fn f).vec }

theorem afterReset_congr {t : State} (hc : (t.fn f).cfg = (s.fn f).cfg) (he : (t.fn f).enabled = (s.fn f).enabled) :
    Func.afterReset keep f t = Func.afterReset keep f s := by
  simp only [Func.afterReset, keptCfg, cfgReg, hc, he]

theorem resetFuncs_other (l : List Nat) : ∀ s, f ∉ l → (l.foldl (resetFunc keep) s).fn f = s.fn f := by
  induction l with
  | nil => exact fun s _ => rfl
  | cons g l ih =>
    intro s h
    rw [List.mem_cons, not_or] at h
    exact (ih _ h.2).trans (State.setFn_fn_other _ _ h.1)

theorem resetFuncs_fn (l : List Nat) : ∀ s, l.Nodup → f ∈ l → (l.foldl (resetFunc keep) s).fn f = Func.afterReset keep f s := by
  induction l with
  | nil => exact fun s _ h => absurd h List.not_mem_nil
  | cons g l ih =>
    intro s hn h
    rw [List.nodup_cons] at hn
    by_cases e : f = g
    · subst e
      exact (resetFuncs_other l _ hn.1).trans (State.setFn_fn _ _ _)
    · have same : (resetFunc keep s g).fn f = s.fn f := State.setFn_fn_other _ _ e
      exact (ih _ hn.2 ((List.mem_cons.1 h).resolve_left e)).trans (afterReset_congr (by rw [same]) (by rw [same]))

/-- Resetting functions writes nothing but the functions. -/
theorem resetFuncs_rest (l : List Nat) : ∀ s, ∃ v, l.foldl (resetFunc keep) s = { s with funcs := v } := by
  induction l with
  | nil => exact fun s => ⟨s.funcs, rfl⟩
  | cons g l ih =>
    intro s
    obtain ⟨v, hv⟩ := ih (resetFunc keep s g)
    exact ⟨v, hv⟩

/-- R365: the queues, contexts, regions and translations that go are none of what `Spared` names but the contexts. -/
theorem dropQueues_fields (fs cs : List Nat) (s : State) : (dropQueues fs cs (dropRegions fs cs s)).variant = s.variant ∧
    (dropQueues fs cs (dropRegions fs cs s)).flash = s.flash ∧ (dropQueues fs cs (dropRegions fs cs s)).mem.tcmap = s.mem.tcmap ∧
    (dropQueues fs cs (dropRegions fs cs s)).port.up = s.port.up ∧ (dropQueues fs cs (dropRegions fs cs s)).port.aspm = s.port.aspm ∧
    (dropQueues fs cs (dropRegions fs cs s)).funcs = s.funcs ∧ (dropQueues fs cs (dropRegions fs cs s)).disp.jobs = s.disp.jobs := ⟨rfl, rfl, rfl, rfl, rfl, rfl, rfl⟩

theorem dropQueues_ctxs (fs cs : List Nat) (s : State) : (dropQueues fs cs (dropRegions fs cs s)).ctxs = tdrop (fun c => cs.contains c) s.ctxs := rfl

/-- The state in which the registers of the functions fs are reset: none of their jobs and contexts is left, and every function keeps everything
but its vectors. -/
structure Dropped (fs : List Nat) (s u : State) : Prop where
  variant : u.variant = s.variant
  flash : u.flash = s.flash
  tcmap : u.mem.tcmap = s.mem.tcmap
  up : u.port.up = s.port.up
  aspm : u.port.aspm = s.port.aspm
  job : ∀ j job, u.job j = some job → job.func ∉ fs
  ctx : ∀ n c, u.ctx n = some c → c.func ∉ fs
  fn : ∀ f, u.fn f = { s.fn f with vec := (u.fn f).vec }

theorem dropQueues_dropped (fs : List Nat) (s : State) : Dropped fs s (dropQueues fs (ctxsOf fs s) (dropRegions fs (ctxsOf fs s) (dropJobs fs s))) := by
  obtain ⟨js, spared, -, -⟩ := dropJobs_spared fs s
  have jobs : ∀ j job, (dropJobs fs s).job j = some job → job.func ∉ fs := fun j job => dropJobs_job
  generalize dropJobs fs s = r at spared jobs ⊢
  obtain ⟨hvariant, hflash, htcmap, hup, haspm, hfuncs, hjobs⟩ := dropQueues_fields fs (ctxsOf fs s) r
  have hctxs := dropQueues_ctxs fs (ctxsOf fs s) r
  generalize dropQueues fs (ctxsOf fs s) (dropRegions fs (ctxsOf fs s) r) = u at *
  have fn : ∀ f, u.fn f = r.fn f := fun f => by rw [State.fn, hfuncs]; rfl
  refine ⟨hvariant.trans spared.variant, hflash.trans spared.flash, htcmap.trans spared.tcmap, hup.trans spared.up, haspm.trans spared.aspm,
    fun j job h => jobs j job (by rw [State.job, ← hjobs]; exact h), fun n c h hf => ?_, fun f => by rw [fn]; exact spared.fn f⟩
  rw [State.ctx, hctxs, tget_tdrop, spared.ctxs] at h
  split at h
  · cases h
  · next hcs => exact hcs (List.contains_iff_mem.2 (mem_ctxsOf h hf))

theorem resetScope_resets (fs : List Nat) (keep : Bool) (s : State) (hn : fs.Nodup) : ScopeReset fs keep s (resetScope fs keep s) := by
  have dropped := dropQueues_dropped fs s
  unfold resetScope
  dsimp only
  generalize dropQueues fs (ctxsOf fs s) (dropRegions fs (ctxsOf fs s) (dropJobs fs s)) = u at dropped ⊢
  have inside : ∀ f ∈ fs, (fs.foldl (resetFunc keep) u).fn f = Func.afterReset keep f s := fun f hf =>
    (resetFuncs_fn fs u hn hf).trans (afterReset_congr (by rw [dropped.fn]) (by rw [dropped.fn]))
  have outside : ∀ f, f ∉ fs → (fs.foldl (resetFunc keep) u).fn f = u.fn f := fun f hf => resetFuncs_other fs u hf
  obtain ⟨v, hv⟩ := resetFuncs_rest (keep := keep) fs u
  rw [hv] at inside outside ⊢
  exact ⟨dropped.variant, dropped.flash, dropped.tcmap, dropped.up, dropped.aspm, dropped.job, dropped.ctx, inside,
    fun f hf => by rw [outside f hf]; exact dropped.fn f⟩

/-- R364: after a function's reset its configuration space holds reset values, but for Max_Payload_Size. -/
theorem cfgReg_afterReset {t : State} (h : (t.fn f).cfg = keptCfg f s) (off : Nat) :
    cfgReg f off t = if off = 0x68 then (cfgReset f off &&& ~~~0xE0#32) ||| (cfgReg f off s &&& 0xE0#32) else cfgReset f off := by
  rw [cfgReg, h, keptCfg]
  split
  · next e => subst e; exact tget_tset_self _ _ _ _
  · next e => exact tget_tset_ne _ _ _ _ e

theorem cfgReg_nil {t : State} (h : (t.fn f).cfg = []) (off : Nat) : cfgReg f off t = cfgReset f off := by
  rw [cfgReg, h]; rfl

/-! ### The PF's reset (R63, R364, R384) -/

/-- What the reset of the whole module comes to. -/
structure WholeReset (s t : State) : Prop where
  fn : ∀ f, f < 64 → t.fn f = { Func.reset f with cfg := (t.fn f).cfg, enabled := decide (f = 0), resetting := true }
  enables : t.port.vfEn = false ∧ t.port.numVfs = 0 ∧ t.port.pasidEn = false ∧ t.port.priEn = false ∧ t.ats.opra = 0
  job : ∀ j job, t.job j = some job → 64 ≤ job.func
  ctx : ∀ n c, t.ctx n = some c → 64 ≤ c.func
  strong : ∀ n, t.strong n = true
  zeroing : t.mem.memc.busy = true ∧ t.mem.memc.curFirst = 0 ∧ t.mem.memc.curLast = s.variant.tracts - 1
  flash : t.flash = s.flash
  variant : t.variant = s.variant

theorem pfReset_scope (s : State) : ScopeReset (List.range 64) false s (resetScope (List.range 64) false s) := resetScope_resets _ _ s List.nodup_range

/-- What the PF's reset does beside the reset of every function. -/
def blocksReset (r : State) : State :=
  let s := enablesReset (resetPfBlocks r)
  { s with
    port := { s.port with vfEn := false, numVfs := 0, waits := [] }
    mem := { s.mem with tcmap := [], owner := [], memc := { Memc.reset with busy := true, flr := true, curFirst := 0, curLast := s.variant.tracts - 1 } } }

theorem pfReset_eq (s : State) : pfReset s = blocksReset (resetScope (List.range 64) false s) := rfl

theorem blocksReset_fn (r : State) : (blocksReset r).fn f = r.fn f := rfl

theorem pfReset_fn (hf : f < 64) : (pfReset s).fn f = Func.afterReset false f s := by
  rw [pfReset_eq, blocksReset_fn]
  exact (pfReset_scope s).inside f (List.mem_range.2 hf)

theorem blocksReset_port (r : State) : (blocksReset r).port.up = r.port.up ∧ (blocksReset r).port.aspm = r.port.aspm := ⟨rfl, rfl⟩

theorem pfReset_port (s : State) : (pfReset s).port.up = s.port.up ∧ (pfReset s).port.aspm = s.port.aspm := by
  rw [pfReset_eq, (blocksReset_port _).1, (blocksReset_port _).2]
  exact ⟨(pfReset_scope s).up, (pfReset_scope s).aspm⟩

theorem blocksReset_whole {r : State} (h : ScopeReset (List.range 64) false s r) : WholeReset s (blocksReset r) := by
  refine ⟨fun f hf => ?_, ⟨rfl, rfl, rfl, rfl, rfl⟩, fun j job hj => ?_, fun n c hc => ?_, fun _ => rfl, ⟨rfl, rfl, ?_⟩, h.flash, h.variant⟩
  · rw [blocksReset_fn, h.inside f (List.mem_range.2 hf), Func.afterReset]
    simp
  · exact Nat.not_lt.1 (fun hf => h.job j job hj (List.mem_range.2 hf))
  · exact Nat.not_lt.1 (fun hf => h.ctx n c hc (List.mem_range.2 hf))
  · rw [← h.variant]; rfl

theorem pfReset_whole (s : State) : WholeReset s (pfReset s) := pfReset_eq s ▸ blocksReset_whole (pfReset_scope s)

/-- A Hot Reset and a link that goes down do what the PF's reset does, and put its configuration space back. -/
theorem configReset_whole {t : State} (h : WholeReset s t) : WholeReset s (configReset t) := by
  obtain ⟨hvf, hnum, -, -, -⟩ := h.enables
  refine ⟨fun f hf => ?_, ⟨hvf, hnum, rfl, rfl, rfl⟩, h.job, h.ctx, h.strong, h.zeroing, h.flash, h.variant⟩
  have cleared : (configReset t).fn f = (t.setFn 0 { t.fn 0 with cfg := [] }).fn f := rfl
  rw [cleared]
  by_cases e : f = 0
  · subst e
    rw [State.setFn_fn, h.fn 0 hf]
  · rw [State.setFn_fn_other _ _ e]
    exact h.fn f hf

theorem configReset_cfg (s : State) (off : Nat) : cfgReg 0 off (configReset s) = cfgReset 0 off :=
  cfgReg_nil (congrArg Func.cfg (State.setFn_fn s 0 _)) off

theorem configReset_port (s : State) : (configReset s).port.up = s.port.up ∧ (configReset s).port.aspm = false := ⟨rfl, rfl⟩

/-- The link is down, and not in L1. -/
def portDown (s : State) : State := { s with port := { s.port with up := false, l1 := false } }

theorem pcieLinkDown_eq (s : State) : exec .pcieLinkDown s = .next (portDown (configReset (if raisedUp s then pfReset s else s))) := rfl

theorem portDown_whole {t : State} (h : WholeReset s t) : WholeReset s (portDown t) :=
  ⟨h.fn, h.enables, h.job, h.ctx, h.strong, h.zeroing, h.flash, h.variant⟩

theorem portDown_configReset (s : State) :
    (∀ off, cfgReg 0 off (portDown (configReset s)) = cfgReset 0 off) ∧ (portDown (configReset s)).port.up = false ∧ (portDown (configReset s)).port.aspm = false :=
  ⟨configReset_cfg s, rfl, rfl⟩

/-! ### The end of a reset (R352, R384) -/

theorem zeroTractList_words (a : Nat) (l : List (Nat × Nat)) : ∀ s, tget 0 (l.foldl (fun s e => zeroTracts e.1 e.1 s) s).mem.words a =
    if ∃ e ∈ l, a / 2097152 = e.1 then 0 else tget 0 s.mem.words a := by
  induction l with
  | nil => intro s; simp
  | cons e l ih =>
    intro s
    rw [List.foldl_cons, ih, zeroTracts_words]
    have split_cons : (∃ x ∈ e :: l, a / 2097152 = x.1) ↔ (a / 2097152 = e.1 ∨ ∃ x ∈ l, a / 2097152 = x.1) := by
      simp only [List.mem_cons, or_and_right, exists_or, exists_eq_left]
    simp only [split_cons]
    by_cases h1 : ∃ e ∈ l, a / 2097152 = e.1
    · rw [if_pos h1, if_pos (.inr h1)]
    · rw [if_neg h1]
      by_cases h2 : a / 2097152 = e.1
      · rw [if_pos (by omega), if_pos (.inl h2)]
      · rw [if_neg (by omega), if_neg (not_or.2 ⟨h2, h1⟩)]

theorem zeroOwned_words {e : Nat × Nat} (he : e ∈ s.mem.owner) (hf : e.2 = f) {a : Nat} (ha : a / 2097152 = e.1) : tget 0 (zeroOwned f s).mem.words a = 0 := by
  rw [zeroOwned, zeroTractList_words, if_pos ⟨e, List.mem_filter.2 ⟨he, by simpa using hf⟩, ha⟩]

theorem zeroOwned_funcs (f : Nat) (s : State) : (zeroOwned f s).funcs = s.funcs := by
  have all : ∀ (l : List (Nat × Nat)) (s : State), (l.foldl (fun s e => zeroTracts e.1 e.1 s) s).funcs = s.funcs := by
    intro l
    induction l with
    | nil => exact fun _ => rfl
    | cons e l ih => exact fun s => ih _
  exact all _ s

theorem resetComplete_vf {f : FuncIx} (h0 : f ≠ 0) (hr : (s.fn f).resetting = true) (hu : s.port.up = true) (hp : s.power.phase = .ready) :
    exec (.resetComplete f) s = .next ((zeroOwned f s).setFn f { (zeroOwned f s).fn f with resetting := false, ready := ((zeroOwned f s).fn f).enabled }) := by
  have h0' : ¬ f.val = 0 := fun e => h0 (Fin.ext e)
  rw [exec_resetComplete, execResetComplete]
  simp [hr, hu, hp, h0']

/-- The PF ready again, with the mailbox at its reset values. -/
def pfReady (s : State) : State := { s.setFn 0 { s.fn 0 with resetting := false, ready := true } with stwd := Stwd.reset }

theorem pfReady_fn (s : State) : ((pfReady s).fn 0).ready = true ∧ ((pfReady s).fn 0).resetting = false := by
  have e : (pfReady s).fn 0 = { s.fn 0 with resetting := false, ready := true } :=
    State.setFn_fn s 0 { s.fn 0 with resetting := false, ready := true }
  rw [e]
  exact ⟨rfl, rfl⟩

theorem resetComplete_pf (hr : (s.fn 0).resetting = true) (hu : s.port.up = true) (hp : s.power.phase = .ready) :
    exec (.resetComplete 0) s = if s.stwd.busy then .next s else .next (pfReady (if s.mem.memc.flr then finishTracts s else s)) := by
  rw [exec_resetComplete, execResetComplete]
  simp [hr, hu, hp, pfReady]

end Sys2Proof.Machine

open Sys2Proof Sys2Proof.Machine

/-- Settles O46: what the reset of the module comes to, of one function, and the end of a reset. -/
theorem resets : Obligations.Resets := by
  unfold Obligations.Resets
  intro s raised whole kept unconfigured
  have raised_iff : raisedUp s = true ↔ raised := by simp [raisedUp, raised]
  have of_whole : ∀ t, WholeReset s t → whole t := fun t h => by
    obtain ⟨hvf, hnum, hpasid, hpri, hopra⟩ := h.enables
    obtain ⟨hbusy, hfirst, hlast⟩ := h.zeroing
    exact ⟨h.fn, hvf, hnum, hpasid, hpri, hopra, h.job, h.ctx, h.strong, hbusy, hfirst, hlast, h.flash, h.variant⟩
  refine ⟨fun hr _ _ => ?raised, fun hr => ⟨if_neg (mt raised_iff.1 hr), if_neg (mt raised_iff.1 hr), ?early⟩, fun f h0 hr he _ _ => ?vf,
    fun f h => if_pos ?notVf, fun f hres hup hp => ⟨fun h0 => ?vfEnd, fun h0 hb => ?pfEnd, fun h0 hb => ?pfBusy⟩⟩
  case raised =>
    have up := raised_iff.2 hr
    have w := pfReset_whole s
    have config := configReset_whole w
    obtain ⟨hport, haspm⟩ := pfReset_port s
    obtain ⟨hport', haspm'⟩ := configReset_port (pfReset s)
    refine ⟨⟨pfReset s, if_pos up, of_whole _ w, fun f hf => cfgReg_afterReset (congrArg Func.cfg (pfReset_fn hf)), hport, haspm⟩,
      ⟨configReset (pfReset s), if_pos up, of_whole _ config, configReset_cfg _, hport'.trans hport, haspm'⟩,
      ⟨portDown (configReset (pfReset s)), ?_, of_whole _ (portDown_whole config), portDown_configReset _⟩⟩
    rw [pcieLinkDown_eq, if_pos up]
  case early =>
    rw [pcieLinkDown_eq, if_neg (mt raised_iff.1 hr)]
    rfl
  case vf =>
    have h0' : (f : Nat) ≠ 0 := fun e => h0 (Fin.ext e)
    have r := resetScope_resets [(f : Nat)] true s (List.nodup_cons.2 ⟨List.not_mem_nil, List.nodup_nil⟩)
    have self := r.inside f (List.mem_singleton_self _)
    refine ⟨resetScope [(f : Nat)] true s, if_neg (by simp [h0', raised_iff.2 hr, he]), ?_, cfgReg_afterReset (congrArg Func.cfg self), fun g hg => ?_,
      fun j job h => ?_, fun n c h => ?_, r.tcmap, r.flash⟩
    · rw [self, Func.afterReset, he]
      simp
    · rw [r.outside g (by simpa using hg)]
      exact ⟨rfl, rfl, rfl, rfl⟩
    · simpa using r.job j job h
    · simpa using r.ctx n c h
  case notVf =>
    rcases h with rfl | h
    · exact .inl rfl
    · exact .inr (.inr h)
  case vfEnd =>
    refine ⟨_, resetComplete_vf h0 hres hup hp, ?_⟩
    have same : (zeroOwned f s).fn f = s.fn f := by rw [State.fn, zeroOwned_funcs]; rfl
    rw [State.setFn_fn, same]
    exact ⟨rfl, rfl, fun e he hf a ha => zeroOwned_words he hf ha⟩
  case pfEnd =>
    subst h0
    refine ⟨_, (resetComplete_pf hres hup hp).trans (if_neg (by rw [hb]; exact Bool.false_ne_true)), ?_⟩
    obtain ⟨hready, hresetting⟩ := pfReady_fn (if s.mem.memc.flr then finishTracts s else s)
    refine ⟨hready, hresetting, rfl, fun hflr => ?_⟩
    rw [if_pos hflr]
    exact ⟨rfl, fun a h1 h2 => (finishTracts_words a).trans (if_pos ⟨h1, h2⟩)⟩
  case pfBusy =>
    subst h0
    exact (resetComplete_pf hres hup hp).trans (if_pos hb)
end

/-! ## The canonical form of the memories -/

section
open Sys2Proof Sys2Proof.Machine

/-- Settles O2: the canonical form speaks of no waiting command, so it holds of the state without its front command, and `step_keeps` carries it over the step. -/
theorem stepKeepsMemoryForm : Obligations.StepKeepsMemoryForm := by
  unfold Obligations.StepKeepsMemoryForm
  intro s t inv h
  have front : State.Inv { s with pending := s.pending.drop 1 } := inv
  have k := step_keeps s
  rw [h] at k
  exact k.wf front

end

/-! ## Host pages (R122, R127 to R129) -/

section
namespace Sys2Proof.Machine

/-! ### Page requests and the accesses that wait for them (R128) -/

section
variable {f page reason : Nat} {pasid : Option (BitVec 20)} {s : State} {asked : List Asked} {n : Nat}

theorem Asked.on_iff {a : Asked} : a.on f pasid page = true ↔ a.func = f ∧ a.pasid = pasid ∧ a.page = page := by
  simp [Asked.on, and_assoc]

theorem PageReq.on_iff {r : PageReq} : r.on f pasid page = true ↔ r.func = f ∧ r.pasid = pasid ∧ r.page = page := by
  simp [PageReq.on, and_assoc]

/-- Nothing changed but host translation's tables. -/
def AtsOnly (z s : State) : Prop := s = { z with ats := s.ats }

theorem AtsOnly.trans {x y z : State} (h : AtsOnly x y) (g : AtsOnly y z) : AtsOnly x z := by
  rw [AtsOnly, g, h]

/-- R121, R128: what an access that waited for a page of function f reports. -/
def Waiter.failure (f : Nat) (pasid : Option (BitVec 20)) (page reason : Nat) (w : Waiter) : XlFail :=
  { func := f, pasid := pasid, page := page, who := w.who, addr := w.addr, reason := reason }

/-- R128: the accesses that have failed and report it when they ask again. -/
def State.failing (s : State) (xs : List XlFail) : State := { s with ats := { s.ats with fails := s.ats.fails ++ xs } }

theorem State.failing_nil (s : State) : s.failing [] = s := by simp [State.failing]

theorem State.failing_failing (s : State) (xs ys : List XlFail) : (s.failing xs).failing ys = s.failing (xs ++ ys) := by simp [State.failing]

theorem failPage_eq (ws : List Waiter) : ∀ s, failPage f pasid page reason ws s = s.failing (ws.map (Waiter.failure f pasid page reason)) := by
  induction ws with
  | nil => exact fun s => s.failing_nil.symm
  | cons w ws ih => exact fun s => (ih _).trans (s.failing_failing [w.failure f pasid page reason] _)

theorem failReqs_eq (rs : List PageReq) : ∀ s, rs.foldl (fun s r => failPage f r.pasid r.page reason r.waiters s) s =
    s.failing (rs.flatMap (fun r => r.waiters.map (Waiter.failure f r.pasid r.page reason))) := by
  induction rs with
  | nil => exact fun s => s.failing_nil.symm
  | cons r rs ih => exact fun s => by rw [List.foldl_cons, ih, failPage_eq, State.failing_failing, List.flatMap_cons]

/-- Sending waiting requests changes no more of a request than whether it has been sent. -/
theorem mem_sendWaiting {q : PageReq} {rs : List PageReq} (h : q ∈ sendWaiting asked n rs) : ∃ r ∈ rs, q = { r with sent := q.sent } := by
  induction rs generalizing n with
  | nil => simp [sendWaiting] at h
  | cons r rs ih =>
    have later : ∀ {m}, q ∈ sendWaiting asked m rs → ∃ r' ∈ r :: rs, q = { r' with sent := q.sent } := fun hq =>
      let ⟨r', hr', e⟩ := ih hq
      ⟨r', List.mem_cons_of_mem _ hr', e⟩
    unfold sendWaiting at h
    split at h
    · rcases List.mem_cons.mp h with rfl | h
      · exact ⟨q, List.mem_cons_self, rfl⟩
      · exact later h
    · split at h
      · rcases List.mem_cons.mp h with rfl | h
        · exact ⟨q, List.mem_cons_self, rfl⟩
        · exact later h
      · rcases List.mem_cons.mp h with rfl | h
        · exact ⟨r, List.mem_cons_self, rfl⟩
        · exact later h

/-- No request is lost by it. -/
theorem sendWaiting_mem {r : PageReq} {rs : List PageReq} (h : r ∈ rs) : ∃ q ∈ sendWaiting asked n rs, q = { r with sent := q.sent } := by
  induction rs generalizing n with
  | nil => cases h
  | cons r' rs ih =>
    unfold sendWaiting
    rcases List.mem_cons.mp h with rfl | h
    · split
      · exact ⟨r, List.mem_cons_self, rfl⟩
      · split
        · exact ⟨r, List.mem_cons_self, rfl⟩
        · exact ⟨{ r with sent := true }, List.mem_cons_self, rfl⟩
    · have later : ∀ {m} (x : PageReq), ∃ q ∈ x :: sendWaiting asked m rs, q = { r with sent := q.sent } := fun x =>
        let ⟨q, hq, e⟩ := ih h
        ⟨q, List.mem_cons_of_mem _ hq, e⟩
      split
      · exact later _
      · split <;> exact later _

/-- What holds of every request, sent or not, holds after requests are sent. -/
theorem promote_forall {P : PageReq → Prop} (hP : ∀ r b, P r → P { r with sent := b }) (h : ∀ r ∈ s.ats.reqs, P r) : ∀ q ∈ (promote s).ats.reqs, P q := by
  intro q hq
  obtain ⟨r, hr, e⟩ := mem_sendWaiting hq
  exact e ▸ hP r _ (h r hr)

theorem promote_exists {P : PageReq → Prop} (hP : ∀ r b, P r → P { r with sent := b }) {r : PageReq} (hr : r ∈ s.ats.reqs) (h : P r) : ∃ q ∈ (promote s).ats.reqs, P q := by
  obtain ⟨q, hq, e⟩ := sendWaiting_mem (asked := s.ats.asked) (n := s.ats.opra - outstanding s) hr
  exact ⟨q, hq, e ▸ hP r _ h⟩

/-- A page whose requests are dropped has none. -/
theorem dropReq_none : ∀ r ∈ (dropReq f pasid page s).ats.reqs, r.on f pasid page = false := fun _ h => by
  simpa using (List.mem_filter.mp h).2

/-! ### A page request's last round (R128) -/

/-- The requests of a page are dropped and the accesses ws that waited for it fail. -/
def pageFails (f : Nat) (pasid : Option (BitVec 20)) (page reason : Nat) (ws : List Waiter) (s : State) : State :=
  promote (failPage f pasid page reason ws (dropReq f pasid page s))

theorem pageFails_only (ws : List Waiter) : AtsOnly s (pageFails f pasid page reason ws s) := by
  rw [pageFails, failPage_eq]
  rfl

theorem pageFails_fails {ws : List Waiter} {w : Waiter} (h : w ∈ ws) :
    w.failure f pasid page reason ∈ (pageFails f pasid page reason ws s).ats.fails := by
  rw [pageFails, failPage_eq]
  exact List.mem_append_right _ (List.mem_map_of_mem h)

theorem pageFails_reqs (ws : List Waiter) : ∀ r ∈ (pageFails f pasid page reason ws s).ats.reqs, r.on f pasid page = false := by
  rw [pageFails, failPage_eq]
  exact promote_forall (fun _ _ => id) dropReq_none

end

/-! ### Translation Responses (R127, R128) -/

section
variable {f : FuncIx} {pasid : Option (BitVec 20)} {page : BitVec 52} {s : State} {a : Asked} {r : PageReq}

/-- The Translation Request a has been answered. -/
def State.answering (s : State) (a : Asked) : State := { s with ats := { s.ats with asked := s.ats.asked.filter (fun b => !decide (b = a)) } }

theorem translationCompletion_unasked (h : s.ats.asked.find? (fun a => a.on f pasid page.toNat) = none) (res : XlResult) :
    exec (.translationCompletion f pasid page res) s = .next s := by
  simp only [exec_translationCompletion, execTranslationCompletion, h]

theorem translationCompletion_notPresent (h : s.ats.asked.find? (fun a => a.on f pasid page.toNat) = some a) :
    exec (.translationCompletion f pasid page .notPresent) s = .next (notPresent a (s.answering a)) := by
  simp only [exec_translationCompletion, execTranslationCompletion, h, State.answering]

theorem translationCompletion_present (h : s.ats.asked.find? (fun a => a.on f pasid page.toNat) = some a) (rd wr : Bool) (dest : BitVec 52) (n : Nat) :
    exec (.translationCompletion f pasid page (.present rd wr dest n)) s =
      .next (let t := promote (dropReq f pasid page.toNat (s.answering a))
        if stalledPage s f pasid page.toNat then t else cacheAtc f pasid page.toNat rd wr dest.toNat n t) := by
  simp only [exec_translationCompletion, execTranslationCompletion, h, State.answering]
  rw [← apply_ite Host.Outcome.next]
  rfl

theorem cacheAtc_head {page dest n : Nat} (h1 : 1 ≤ n) (h2 : n ≤ 512) {rd wr : Bool} {f : Nat} :
    (cacheAtc f pasid page rd wr dest n s).ats.atc.head? =
      some { func := f, pasid := pasid, page := page / n * n, read := rd, write := wr, dest := dest / n * n, span := n } := by
  have e : min (max 1 n) 512 = n := by omega
  simp only [cacheAtc, e, List.head?_cons]

/-- A later round begins. -/
def State.nextRound (s : State) (r : PageReq) : State :=
  { s with ats := { s.ats with reqs := s.ats.reqs.map (fun q => if q = r then { q with round := q.round + 1, sent := false } else q) } }

theorem notPresent_round (ha : a.on f pasid page.toNat = true) (hr : s.ats.reqs.find? (fun r => r.on f pasid page.toNat) = some r) :
    notPresent a s = if 4 ≤ r.round then pageFails f pasid page.toNat 13 r.waiters s else promote (s.nextRound r) := by
  obtain ⟨hf, hp, hg⟩ := Asked.on_iff.mp ha
  simp only [notPresent, hf, hp, hg, hr, pageFails, State.nextRound]

/-- The first round begins for the accesses that may use PRI. -/
def firstRound (f : Nat) (pasid : Option (BitVec 20)) (page : Nat) (may : List Waiter) (s : State) : State :=
  if may = [] then s
  else promote { s with ats := { s.ats with reqs := s.ats.reqs ++ [{ func := f, pasid := pasid, page := page, round := 1, sent := false, waiters := may }] } }

theorem firstRound_only (g p : Nat) (may : List Waiter) : AtsOnly s (firstRound g pasid p may s) := by
  unfold firstRound
  split <;> rfl

theorem firstRound_fails (g p : Nat) (may : List Waiter) : (firstRound g pasid p may s).ats.fails = s.ats.fails := by
  unfold firstRound
  split <;> rfl

theorem notPresent_first (ha : a.on f pasid page.toNat = true) (hr : s.ats.reqs.find? (fun r => r.on f pasid page.toNat) = none) :
    notPresent a s = firstRound f pasid page.toNat (a.waiters.filter (fun w => w.prien && s.port.priEn))
      (failPage f pasid page.toNat 15 (a.waiters.filter (fun w => !w.prien || !s.port.priEn)) s) := by
  obtain ⟨hf, hp, hg⟩ := Asked.on_iff.mp ha
  simp only [notPresent, hf, hp, hg, hr, firstRound, Bool.not_and]

theorem notPresent_only (ha : a.on f pasid page.toNat = true) : AtsOnly s (notPresent a s) := by
  cases hr : s.ats.reqs.find? (fun r => r.on f pasid page.toNat) with
  | none =>
    rw [notPresent_first ha hr, failPage_eq]
    exact AtsOnly.trans (y := s.failing _) rfl (firstRound_only f page.toNat _)
  | some r =>
    rw [notPresent_round ha hr]
    split
    · exact pageFails_only _
    · rfl

/-- In a later round the same accesses wait. -/
theorem nextRound_waits (hr : r ∈ s.ats.reqs) (hon : r.on f pasid page.toNat = true) :
    ∃ q ∈ (promote (s.nextRound r)).ats.reqs, q.on f pasid page.toNat = true ∧ q.round = r.round + 1 ∧ q.waiters = r.waiters :=
  promote_exists (P := fun q => q.on f pasid page.toNat = true ∧ q.round = r.round + 1 ∧ q.waiters = r.waiters) (fun _ _ => id)
    (List.mem_map.mpr ⟨r, hr, if_pos rfl⟩) ⟨hon, rfl, rfl⟩

/-- With room for it, the only page request is sent. -/
theorem firstRound_sends {g p : Nat} {ws : List Waiter} (hw : ws ≠ []) (hr : s.ats.reqs = []) (ha : s.ats.asked = []) (ho : 0 < s.ats.opra) :
    (firstRound g pasid p ws s).ats.reqs = [{ func := g, pasid := pasid, page := p, round := 1, sent := true, waiters := ws }] := by
  obtain ⟨n, hn⟩ := Nat.exists_eq_succ_of_ne_zero (Nat.ne_of_gt ho)
  rw [firstRound, if_neg hw]
  simp [promote, outstanding, sendWaiting, hr, ha, hn]

end

/-! ### Page responses (R128, R490) -/

section
variable {f : FuncIx} {pasid : Option (BitVec 20)} {page : BitVec 52} {s : State} {r : PageReq}

theorem responses_awake (h : s.power.phase ≠ .dormant) :
    exec (.responseSuccess f pasid page) s = .next (pageSuccess f pasid page.toNat s) ∧
    exec (.responseInvalidRequest f pasid page) s = .next (pageInvalid f pasid page.toNat s) ∧
    exec (.responseFailure f pasid page) s = .next (pageFailure f pasid page.toNat s) :=
  ⟨congrArg _ (if_neg h), congrArg _ (if_neg h), congrArg _ (if_neg h)⟩

theorem responses_dormant (h : s.power.phase = .dormant) :
    exec (.responseSuccess f pasid page) s = .next (holdResponse 0 f pasid page.toNat s) ∧
    exec (.responseInvalidRequest f pasid page) s = .next (holdResponse 1 f pasid page.toNat s) ∧
    exec (.responseFailure f pasid page) s = .next (holdResponse 2 f pasid page.toNat s) :=
  ⟨congrArg _ (if_pos h), congrArg _ (if_pos h), congrArg _ (if_pos h)⟩

variable (h : s.ats.reqs.find? (fun r => r.on f pasid page.toNat && r.sent) = some r)
include h

theorem pageSuccess_asks : AtsOnly s (pageSuccess f pasid page.toNat s) ∧
    ∃ a ∈ (pageSuccess f pasid page.toNat s).ats.asked, a.on f pasid page.toNat = true := by
  simp only [pageSuccess, h]
  exact ⟨rfl, _, List.mem_append_right _ (List.mem_singleton.mpr rfl), Asked.on_iff.mpr ⟨rfl, rfl, rfl⟩⟩

theorem pageInvalid_fails : pageInvalid f pasid page.toNat s = pageFails f pasid page.toNat 11 r.waiters s := by
  simp only [pageInvalid, h, pageFails]

/-- What the failures of a function's page requests leave. -/
theorem pageFailure_fails : AtsOnly s (pageFailure f pasid page.toNat s) ∧
    (∀ q ∈ (pageFailure f pasid page.toNat s).ats.reqs, q.func ≠ f) ∧
    ∀ q ∈ s.ats.reqs, q.func = f → ∀ w ∈ q.waiters, w.failure f q.pasid q.page 12 ∈ (pageFailure f pasid page.toNat s).ats.fails := by
  have hr := List.find?_some h
  have sent : s.ats.reqs.any (fun r => r.on f pasid page.toNat && r.sent) = true := List.any_eq_true.mpr ⟨r, List.mem_of_find?_eq_some h, hr⟩
  simp only [pageFailure, sent, if_true, failReqs_eq]
  refine ⟨rfl, ?_, fun q hq hf w hw => ?_⟩
  · exact promote_forall (fun _ _ => id) fun q hq => by simpa using (List.mem_filter.mp hq).2
  · exact List.mem_append_right _ (List.mem_flatMap.mpr ⟨q, List.mem_filter.mpr ⟨hq, by simpa using hf⟩, List.mem_map_of_mem hw⟩)

/-- R128, R566: PRI_TIMEOUT is logged for the access that waited first. -/
def priLogged (f : Nat) (r : PageReq) (s : State) : State :=
  logErr true 0x0040 7 f ((r.waiters.head?.map Waiter.addr).getD 0) 0 ((r.waiters.head?.map Waiter.ctx).getD 0) s

theorem priTimeout_fails : exec (.priTimeout f pasid page) s = .next (pageFails f pasid page.toNat 12 r.waiters (priLogged f r s)) := by
  simp only [exec_priTimeout, execPriTimeout, h, pageFails, priLogged]

end

/-! ### Invalidation (R129) -/

section
variable {f : FuncIx} {pasid : Option (BitVec 20)} {page : BitVec 52} {s : State} {e : Stalled} {es : List Stalled}

theorem storeThrough_iff : storeThrough s e = true ↔
    ∃ c ∈ s.cores, ∃ x ∈ c.2.stores, x.func = e.func ∧ ∃ a, .host a ∈ x.at_ ∧ ∃ d ∈ e.dests, d.1 ≤ a / 4096 ∧ a / 4096 < d.1 + d.2 := by
  have place : ∀ p : Place, p.inDests e.dests = true ↔ ∃ a, p = .host a ∧ ∃ d ∈ e.dests, d.1 ≤ a / 4096 ∧ a / 4096 < d.1 + d.2 := by
    intro p
    cases p <;> simp [Place.inDests]
  simp only [storeThrough, List.any_eq_true, Bool.and_eq_true, decide_eq_true_eq, place]
  constructor
  · rintro ⟨c, hc, x, hx, hf, _, hp, a, rfl, hd⟩
    exact ⟨c, hc, x, hx, hf, a, hp, hd⟩
  · rintro ⟨c, hc, x, hx, hf, a, hp, hd⟩
    exact ⟨c, hc, x, hx, hf, _, hp, a, rfl, hd⟩

/-- A core with a store buffered is listed. -/
theorem core_listed {k : Nat} {x : StoreEntry} (h : x ∈ (s.core k).stores) : ∃ c ∈ s.cores, x ∈ c.2.stores := by
  unfold State.core at h
  generalize s.cores = m at h
  induction m with
  | nil => exact absurd h List.not_mem_nil
  | cons c m ih =>
    rw [tget] at h
    split at h
    · exact ⟨c, List.mem_cons_self, h⟩
    · obtain ⟨c', hc, hx⟩ := ih h
      exact ⟨c', List.mem_cons_of_mem _ hc, hx⟩

theorem invalidateCompletion_none (h : s.ats.stalled = []) : exec .invalidateCompletion s = .next s := by
  simp only [exec_invalidateCompletion, execInvalidateCompletion, h]

theorem invalidateCompletion_some (h : s.ats.stalled = e :: es) :
    exec .invalidateCompletion s = .next (if storeThrough s e then s else { s with ats := { s.ats with stalled := es } }) := by
  simp only [exec_invalidateCompletion, execInvalidateCompletion, h]
  rw [apply_ite Host.Outcome.next]

theorem AtcEntry.hit_iff {x : AtcEntry} {g p n : Nat} : x.hit g pasid p n = true ↔
    x.func = g ∧ (pasid = none ∨ x.pasid = pasid) ∧ x.page < p + n ∧ p < x.page + x.span := by
  simp [AtcEntry.hit, and_assoc, Option.isNone_iff_eq_none]

/-- R129: the entries that an Invalidate Request names go, and its pages are stalled. -/
theorem atsInvalidateRequest_stalls (n : Nat) : ∃ v : Ats, exec (.atsInvalidateRequest f pasid page n) s = .next { s with ats := v } ∧
    v.atc = s.ats.atc.filter (fun e => !e.hit f.val pasid page.toNat n) ∧
    ∃ ds, v.stalled = s.ats.stalled ++ [{ func := f, pasid := pasid, page := page.toNat, pages := n, dests := ds }] :=
  ⟨_, rfl, rfl, _, rfl⟩

theorem stalledPage_of_mem {p : Nat} (h : e ∈ s.ats.stalled) (hp : e.pasid = pasid) (h1 : e.page ≤ p) (h2 : p < e.page + e.pages) :
    stalledPage s e.func pasid p = true :=
  List.any_eq_true.mpr ⟨e, h, by simp [hp, h1, h2]⟩

end

/-! ### The claims of zero on first touch (R122) -/

section
variable {s : State} {blk : Nat}

/-! What a controller does with a block leaves the table of claims as it was. -/

@[simp] theorem logErr_claims {ue code kind unit addr detail ctx} : (logErr ue code kind unit addr detail ctx s).mem.claims = s.mem.claims := by
  rw [(logErr_told ue code kind unit addr detail ctx s).mem]

@[simp] theorem setPoison_claims {p} : (setPoison blk p s).mem.claims = s.mem.claims := rfl

@[simp] theorem dropMerge_claims : (dropMerge blk s).mem.claims = s.mem.claims := rfl

@[simp] theorem noteCe_claims {a n} : (noteCe blk a n s).mem.claims = s.mem.claims := logErr_claims

@[simp] theorem noteUe_claims {a} : (noteUe blk a s).mem.claims = s.mem.claims := logErr_claims

@[simp] theorem afterBlockWrite_claims : (afterBlockWrite blk s).mem.claims = s.mem.claims := by
  unfold afterBlockWrite
  dsimp only
  split
  · exact logErr_claims
  · rfl

@[simp] theorem storeBlock_claims {ws} : (storeBlock blk ws s).mem.claims = s.mem.claims := by
  unfold storeBlock
  split <;> rfl

@[simp] theorem fullBlockWrite_claims {ws} : (fullBlockWrite blk ws s).mem.claims = s.mem.claims := by
  simp [fullBlockWrite]

@[simp] theorem noteFound_claims {a} {f : Found} : (noteFound blk a f s).mem.claims = s.mem.claims := by
  cases f with
  | clean => rfl
  | corrected n => exact noteCe_claims
  | bad => exact noteUe_claims
  | wrong n ce =>
    rw [noteFound]
    split
    · rfl
    · exact noteCe_claims

@[simp] theorem decodeBlock_mem {fails} : (decodeBlock fails s blk).2.mem = s.mem := by
  unfold decodeBlock
  split
  case h_1 | h_2 | h_3 => rfl
  case h_4 =>
    split
    · rfl
    · split <;> rfl
  case h_5 => split <;> rfl

@[simp] theorem fetchBlock_claims {fails a} : (fetchBlock fails blk a s).2.mem.claims = s.mem.claims := by
  unfold fetchBlock
  split
  · rfl
  · exact noteFound_claims.trans (congrArg Mem.claims decodeBlock_mem)

@[simp] theorem rmwStore_claims {ws} {f : Found} : (rmwStore blk f ws s).mem.claims = s.mem.claims := by
  cases f <;> simp [rmwStore]

@[simp] theorem mergeRetire_claims : (mergeRetire blk s).mem.claims = s.mem.claims := by
  unfold mergeRetire
  split
  · rfl
  · extract_lets ws dropped r logged
    have found : r.2.mem.claims = s.mem.claims := by
      dsimp only [r]
      split
      · rfl
      · exact fetchBlock_claims
    clear_value r
    split
    · exact fullBlockWrite_claims
    · rw [rmwStore_claims]
      dsimp only [logged]
      split
      · exact logErr_claims.trans found
      · exact found

@[simp] theorem lockedEnd_claims {ws} : (lockedEnd blk ws s).mem.claims = s.mem.claims := by
  unfold lockedEnd
  split
  · exact mergeRetire_claims
  · dsimp only
    split
    · rfl
    · rw [rmwStore_claims, dropMerge_claims, fetchBlock_claims]

theorem storedRead_claims {offs} : (storedRead s blk offs).2.mem.claims = s.mem.claims := by
  unfold storedRead
  split
  · rfl
  · exact fetchBlock_claims

theorem blkRead_claims {offs} : (blkRead s blk offs).2.mem.claims = s.mem.claims := by
  have read := storedRead_claims (s := s) (blk := blk) (offs := offs)
  unfold blkRead
  split <;> rename_i e <;> rw [e] at read <;> exact read

theorem readEntry_claims {g : Nat} : (readEntry g s).2.mem.claims = s.mem.claims := by
  unfold readEntry
  split
  · have read := blkRead_claims (s := s) (blk := localOf g / 64) (offs := [g % 64, g % 64 + 1])
    split <;> rename_i e <;> rw [e] at read <;> exact read
  · split <;> rfl

theorem writeEntry_claims {g : Nat} {e : W40} : (writeEntry g e s).mem.claims = s.mem.claims := by
  unfold writeEntry
  split
  · exact lockedEnd_claims
  · rfl

theorem clearClaim_claims {g : Nat} {e : W40} : (clearClaim g e s).mem.claims = s.mem.claims := by
  have read : (readEntry g (openFetch s)).2.mem.claims = s.mem.claims := readEntry_claims
  unfold clearClaim
  split <;> rename_i h <;> rw [h] at read
  · split
    · exact writeEntry_claims.trans read
    · exact read
  · exact read

/-- The key of a claim is the operand of the commands that concern it. -/
theorem claimKey_entry (entry : Nat) : claimKey (entry / 2) (decide (entry % 2 = 1)) = entry := by
  unfold claimKey
  split <;> simp_all <;> omega

theorem firstTouchZeroingDone_unclaimed {entry : Nat} (h : tget none s.mem.claims entry = none) : exec (.firstTouchZeroingDone entry) s = .next s := by
  simp only [exec_firstTouchZeroingDone, execFirstTouchZeroingDone, finishClaim, claimKey_entry, h]

theorem finishClaim_claims (entry : Nat) : tget none (finishClaim (entry / 2) (decide (entry % 2 = 1)) s).mem.claims entry = none := by
  unfold finishClaim
  rw [claimKey_entry]
  split
  case h_1 h => exact h
  case h_2 => rw [clearClaim_claims, dropClaim, tget_terase, if_pos rfl]

/-- R122: the claim of an entry that holds e is taken. -/
def State.claiming (s : State) (entry : Nat) (e : W40) : State := { s with mem := { s.mem with claims := tset none s.mem.claims entry (some e) } }

theorem zbTakeover_read {entry kind unit : Nat} {ctx : BitVec 12} {e : W40} {s1 : State} (h : readEntry (entry / 2) s = (some e, s1)) :
    exec (.zbTakeover entry kind unit ctx) s =
      .next (if e.getLsbD 30 && e.getLsbD 31 then logErr false 0x0041 kind unit (entry / 2) 0 ctx.toNat (s1.claiming entry e) else s1) := by
  simp only [exec_zbTakeover, execZbTakeover, h, bitAt_eq_getLsbD]
  exact (apply_ite Host.Outcome.next _ _ _).symm

end

/-! ### An entry of UE class in the ring (R108) -/

section
variable {s : State}

theorem sendVec_errl {f v : Nat} : (sendVec f v s).errl = s.errl := by
  unfold sendVec
  dsimp only
  split
  · rfl
  · split
    · rfl
    · split <;> rfl

theorem fireModule_errl {n : Nat} : (fireModule n s).errl = s.errl := by
  unfold fireModule fireSrc requestWake
  dsimp only
  split
  · split
    · split
      · rfl
      · split <;> rfl
    · rfl
  · rfl

theorem errInterrupt_errl {ue : Bool} : (errInterrupt ue s).errl = s.errl := by
  unfold errInterrupt
  dsimp only
  split
  · exact sendVec_errl.trans fireModule_errl
  · exact fireModule_errl

theorem copyEntry_errl {e : ErrEntry} : (copyEntry e s).errl = s.errl := by rw [copyEntry]

theorem queueEvent_errl {e : PollEvent} : (queueEvent e s).errl = s.errl := by rw [queueEvent]

/-- One that the ring has room for goes to its end. -/
theorem logErr_ring {code kind unit addr detail ctx : Nat} (h : s.errl.ring.length < 1024) :
    (logErr true code kind unit addr detail ctx s).errl.ring =
      s.errl.ring ++ [{ code := code, kind := kind, unit := unit, addr := addr, detail := detail, ctx := ctx, time := s.time, ue := true }] := by
  unfold logErr logEntry
  rw [if_pos rfl]
  extract_lets queued
  have hq : queued.errl = s.errl := queueEvent_errl.trans copyEntry_errl
  clear_value queued
  rw [if_pos (hq ▸ h), errInterrupt_errl, hq]

end

end Sys2Proof.Machine
end

section
open Sys2Proof Sys2Proof.Machine

/-- Settles O47: each answer by the rule of what it leads to; an invalidation; and a claim's end. -/
theorem hostPages : Obligations.HostPages := by
  unfold Obligations.HostPages
  intro f pasid page s
  extract_lets fails failed rest
  have only : ∀ {t}, AtsOnly s t → rest t := fun h => by
    rw [h]
    exact ⟨rfl, rfl, rfl⟩
  refine ⟨fun h res => translationCompletion_unasked h res, fun a h => ?answered, fun r h => ?responses, fun hd => responses_dormant hd, fun n => ?invalidated,
    fun h => invalidateCompletion_none h, fun e es h => ?completed, fun entry => ?claims⟩
  case answered =>
    have ha := List.find?_some h
    refine ⟨fun rd wr dest n hst h1 h2 => ?cached, fun rd wr dest n hst => ?stalled, fun hr hw hpri hen ho has => ?sent, fun hr => ?barred, fun r hr => ⟨fun h4 => ?again, fun h4 => ?last⟩⟩
    case cached =>
      exact ⟨_, (translationCompletion_present h rd wr dest n).trans (congrArg _ (if_neg (Bool.eq_false_iff.mp hst))), ⟨rfl, rfl, rfl⟩, cacheAtc_head h1 h2⟩
    case stalled => exact ⟨_, (translationCompletion_present h rd wr dest n).trans (congrArg _ (if_pos hst)), ⟨rfl, rfl, rfl⟩, rfl⟩
    all_goals
      have round : AtsOnly s (notPresent a (s.answering a)) := AtsOnly.trans (y := s.answering a) rfl (notPresent_only ha)
      refine ⟨_, translationCompletion_notPresent h, only round, ?_⟩
    case sent =>
      have may : a.waiters.filter (fun w => w.prien && (s.answering a).port.priEn) = a.waiters :=
        List.filter_eq_self.mpr fun w hw => Bool.and_eq_true_iff.mpr ⟨hpri w hw, hen⟩
      have answered : (s.answering a).ats.asked = [] := by simp [State.answering, has]
      rw [notPresent_first (s := s.answering a) ha (hr ▸ rfl), failPage_eq, may]
      exact firstRound_sends (s := (s.answering a).failing _) hw hr answered ho
    case barred =>
      intro w hw
      rw [notPresent_first (s := s.answering a) ha hr, failPage_eq, firstRound_fails]
      exact List.mem_append_right _ (List.mem_map_of_mem hw)
    case again =>
      rw [notPresent_round (s := s.answering a) ha hr, if_neg (by omega)]
      have on := List.find?_some hr
      exact nextRound_waits (s := s.answering a) (List.mem_of_find?_eq_some hr) on
    case last =>
      rw [notPresent_round (s := s.answering a) ha hr, if_pos h4]
      exact ⟨fun w => pageFails_fails, pageFails_reqs _⟩
  case responses =>
    refine ⟨fun hd => ?awake, fun hl => ?late⟩
    case awake =>
      obtain ⟨es, ei, ef⟩ := responses_awake (f := f) (pasid := pasid) (page := page) hd
      obtain ⟨srest, sasks⟩ := pageSuccess_asks h
      obtain ⟨frest, freqs, ffails⟩ := pageFailure_fails h
      refine ⟨⟨_, es, only srest, sasks⟩, ⟨_, ei, ?_⟩, ⟨_, ef, only frest, freqs, ffails⟩⟩
      rw [pageInvalid_fails h]
      exact ⟨only (pageFails_only _), fun w => pageFails_fails, pageFails_reqs _⟩
    case late =>
      have told : Told s (priLogged f r s) := logErr_told ..
      have failed : AtsOnly (priLogged f r s) (pageFails f pasid page.toNat 12 r.waiters (priLogged f r s)) := pageFails_only _
      refine ⟨_, priTimeout_fails h, ?_, ⟨fun w => pageFails_fails, pageFails_reqs _⟩, fun w ws hw => ?_⟩
      · rw [failed]
        exact ⟨told.mem, told.quiet.host, told.cores⟩
      · rw [failed, priLogged, hw]
        exact logErr_ring hl
  case invalidated =>
    obtain ⟨v, e, hatc, ds, hst⟩ := atsInvalidateRequest_stalls (f := f) (pasid := pasid) (page := page) (s := s) n
    refine ⟨_, e, ⟨rfl, rfl, rfl⟩, fun p h1 h2 => ?_, fun x hx => ?_⟩
    · exact stalledPage_of_mem (s := { s with ats := v }) (hst ▸ List.mem_append_right _ (List.mem_singleton.mpr rfl)) rfl h1 h2
    · obtain ⟨hx, hm⟩ := List.mem_filter.mp (hatc ▸ hx)
      exact ⟨hx, fun g => by simp [AtcEntry.hit_iff.mpr g] at hm⟩
  case completed =>
    rw [invalidateCompletion_some h]
    refine ⟨fun clear => congrArg _ (if_neg fun g => ?_), fun k x a d hx hf ha hd h1 h2 => congrArg _ (if_pos ?_)⟩
    · obtain ⟨c, hc, x, hx, hf, a, ha, d, hd, hin⟩ := storeThrough_iff.mp g
      exact clear c hc x hx hf a ha d hd hin
    · obtain ⟨c, hc, hx⟩ := core_listed hx
      exact storeThrough_iff.mpr ⟨c, hc, x, hx, hf, a, ha, d, hd, h1, h2⟩
  case claims =>
    refine ⟨⟨_, rfl, finishClaim_claims entry, (finishClaim_quiet (Quiet.refl s)).cores⟩, firstTouchZeroingDone_unclaimed, rfl, fun kind unit ctx e s1 h => ?_⟩
    rw [zbTakeover_read h]
    refine ⟨fun h1 h2 => ⟨_, congrArg _ (if_pos (by rw [h1, h2]; rfl)), ?_, ?_, ?_⟩, fun h0 => congrArg _ (if_neg ?_)⟩
    · rw [logErr_claims, State.claiming, tget_tset_self]
    · rw [(logErr_told ..).mem]
      rfl
    · exact (logErr_told ..).cores
    · rcases h0 with h0 | h0 <;> rw [h0] <;> simp

end

/-! ## The course of an instruction that commits, and MOVC's shadow (R149, R437, R439) -/

section
namespace Sys2Proof.Machine

section
variable {k len : Nat} {s s1 s2 u : State} {out : Out} {body : State → Res (Option W40)}

/-! ### What the end of an instruction leaves -/

@[simp] theorem ended_core (a : Arch) : (ended k a s).core k = { s.core k with arch := a, since := (s.core k).since + 1 } :=
  State.setCore_core s k _

@[simp] theorem ended_arch (a : Arch) : (ended k a s).arch k = a := congrArg Core.arch (ended_core a)

theorem testArmed_ended (a : Arch) : testArmed k (ended k a s) = testArmed k s := rfl

/-- R437: one instruction more since the checkpoint. -/
def counted (k : Nat) (s : State) : State := (s.setCore k { s.core k with since := (s.core k).since + 1 }).drawn

@[simp] theorem counted_core : (counted k s).core k = { s.core k with since := (s.core k).since + 1 } := State.setCore_core s k _

theorem counted_setArch (a : Arch) : counted k (s.setArch k a) = ended k a s := by simp [counted, ended]

/-- The end of an instruction that falls through and closes no loop body. -/
theorem retire_straight {here next : W40} (hl : (s.arch k).ld = 0 ∨ tget 0 (s.arch k).le ((s.arch k).ld.toNat - 1) ≠ here) :
    retire k here next none s =
      dueCheckpoint k (counted k (tickShadow k (s.setArch k { s.arch k with pc := next, inflight := tickInflight (s.arch k).inflight }))) := by
  have e : loopBack k here next s = s.setArch k { s.arch k with pc := next } := if_pos hl
  simp only [retire, e, counted, State.setArch_arch, State.setArch_setArch]

theorem dueCheckpoint_early (h1 : (s.core k).since < 256) (h2 : (s.core k).stores.length < 24) : dueCheckpoint k s = s := by
  simp only [dueCheckpoint, ge_iff_le, Nat.not_le.mpr h1, Nat.not_le.mpr h2, decide_false, Bool.or_false, Bool.and_false, Bool.false_and, Bool.false_eq_true, if_false]

theorem dueCheckpoint_shadowed (h : (s.arch k).shadow ≠ []) : dueCheckpoint k s = s := by
  have h' : (s.core k).arch.shadow.isEmpty = false := List.isEmpty_eq_false_iff.mpr h
  simp only [dueCheckpoint, h', Bool.and_false, Bool.false_eq_true, if_false]

/-! ### Checkpoints -/

/-- A checkpoint at which no test is armed changes nothing outside the cores. -/
theorem checkpoint_cores (T : testArmed k s = false) : ∃ cs, checkpoint k s = { s with cores := cs } := by
  unfold checkpoint
  split
  · exact ⟨_, rfl⟩
  · rw [T, if_neg (by simp)]
    dsimp only
    split <;> exact ⟨_, rfl⟩

theorem checkpoint_run (T : testArmed k s = false) : ((checkpoint k s).core k).run = (s.core k).run ∧
    ((checkpoint k s).core k).ops = (s.core k).ops ∧ ((checkpoint k s).core k).seals = (s.core k).seals := by
  unfold checkpoint
  split
  · exact ⟨rfl, rfl, rfl⟩
  · rw [T, if_neg (by simp)]
    dsimp only
    split <;> simp

/-- No checkpoint falls within a shadow; it is due then. -/
theorem checkpoint_shadowed (h : (s.arch k).shadow ≠ []) (T : testArmed k s = false) :
    checkpoint k s = if s.split k then s else s.setCore k { s.core k with since := 256 } := by
  have h' : (s.core k).arch.shadow ≠ [] := h
  simp only [checkpoint, T, Bool.false_and, Bool.false_eq_true, if_false, h', ne_eq, not_false_eq_true, if_true]

theorem checkpoint_shadowed_leaves (h : (s.arch k).shadow ≠ []) (T : testArmed k s = false) :
    (checkpoint k s).arch k = s.arch k ∧ ((checkpoint k s).core k).stop = (s.core k).stop ∧ (checkpoint k s).mem = s.mem ∧ ∀ l, (checkpoint k s).bent l = s.bent l := by
  rw [checkpoint_shadowed h T]
  split
  · exact ⟨rfl, rfl, rfl, fun _ => rfl⟩
  · exact ⟨by simp [State.arch], by simp, rfl, fun _ => rfl⟩

/-- Before a checkpoint the instruction's body runs on the checkpoint's state. -/
theorem Issues.checkpointed (I : Issues k len s s1) (C : Calm k s) : Steady k s1 (checkpoint k s1) := checkpoint_steady (I.calm C).shadow I.untested1

/-! ### Committing instructions (R437, R439) -/

/-- What an instruction whose body has run leaves, by what it sends out. -/
def leavesBy (out : Out) (k : Nat) (s : State) (next : W40) : Res (Option W40) → State
  | .ok flow s' =>
    let s' := retire k (s.arch k).pc next flow (if out = .sent then noteSent k (responseOf k s s') s' else s')
    dueStop k (if out = .no then s' else checkpoint k s')
  | .trap t s' => dueStop k (takeTrap k (placeTrap t (if t.cause = 19 then chainPc (s'.core k) (s.arch k).pc else (s.arch k).pc) next) false false s')
  | .stall s' => s'

/-- The state on which the body runs. -/
def before (out : Out) (k : Nat) (s : State) : State := if out = .no then s else checkpoint k s

theorem Issues.before_steady (I : Issues k len s s1) (C : Calm k s) : Steady k s1 (before out k s1) := by
  unfold before
  split
  · exact Steady.refl s1
  · exact I.checkpointed C

theorem Issues.before_cores (I : Issues k len s s1) : ∃ cs, before out k s1 = { s1 with cores := cs } := by
  unfold before
  split
  · exact ⟨_, rfl⟩
  · exact checkpoint_cores I.untested1

/-- With no output to pass again, an instruction's body runs once fetched. -/
theorem issueRun_live (h : (s.core k).replay = []) {r : Res (Option W40)}
    (hr : ((fetchInstr k len (notePlumb k s)).bind fun _ s => runBody k body (before out k s)) = r) :
    issueRun out k len body s = if testFired s r then forcedEvent k s else leavesBy out k s (nextPc (s.arch k) len) r := by
  subst hr
  unfold issueRun
  rw [h]
  cases out <;> rfl

theorem issueAny_leaves (I : Issues k len s s1) (C : Calm k s) (hp : (body (before out k s1)).all (fun t => t.pair = s1.pair)) :
    issueAny false out k len body s = leavesBy out k s (nextPc (s.arch k) len) (body (before out k s1)) := by
  have flight : ((before out k s1).arch k).inflight = [] := ((I.before_steady C).calm (I.calm C)).flight
  have ran : ((fetchInstr k len (notePlumb k s)).bind fun _ s => runBody k body (before out k s)) = body (before out k s1) := by
    rw [I.fetched]
    exact runBody_calm flight
  have same : testFired s (body (before out k s1)) = false := testFired_same (by simpa only [I.pair] using hp)
  rw [issueAny_run I, issueRun_live C.replay ran, same]
  exact if_neg Bool.false_ne_true

/-- A committing instruction that falls through, from a body that leaves the core as it was but for what is in hand. -/
theorem issue_commits (I : Issues k len s s1) (C : Calm k s) (hb : body (checkpoint k s1) = .ok none s2) (hp : s2.pair = s1.pair)
    (ha : s2.arch k = s.arch k) (hs : (s2.core k).stop = 0) (hc : s2.split k = true ∨ (s2.core k).since < 255 ∧ (s2.core k).stores.length < 24)
    (T : testArmed k s2 = false) : .next (issueAny false .sent k len body s) = commits k len s2 := by
  have sent : noteSent k (responseOf k s s2) s2 = s2 := by
    unfold noteSent
    rw [ha, C.shadow]
    exact if_pos (Bool.or_true _)
  have done : retire k (s.arch k).pc (nextPc (s.arch k) len) none s2 = ended k ((s2.arch k).after len) s2 := by
    rw [retire_next (ha ▸ C.shadow) (by rw [ha]; exact C.loop) hc, ha]
    simp [Arch.after, C.flight, tickInflight]
  have shadow : ((ended k ((s2.arch k).after len) s2).arch k).shadow = [] := by
    rw [ended_arch, ha]
    exact C.shadow
  have T' : testArmed k (ended k ((s2.arch k).after len) s2) = false := T
  have stopped : ((checkpoint k (ended k ((s2.arch k).after len) s2)).core k).stop = 0 := by
    rw [(checkpoint_steady shadow T').stop, ended_core]
    exact hs
  rw [issueAny_leaves I C (by unfold before; rw [if_neg Out.noConfusion, hb]; exact hp)]
  unfold before
  rw [if_neg Out.noConfusion, hb]
  simp only [leavesBy, if_true, sent, done, reduceCtorEq, if_false, dueStop_none stopped, commits]

theorem issue_commits_steady (I : Issues k len s s1) (C : Calm k s) (hb : body (checkpoint k s1) = .ok none s2) (S : Steady k (checkpoint k s1) s2) :
    .next (issueAny false .sent k len body s) = commits k len s2 := by
  have S1 := (I.checkpointed C).trans S
  have C2 := S1.calm (I.calm C)
  exact issue_commits I C hb S1.pair (S1.arch.trans (I.arch C.flight k)) C2.stop (C2.ckpt.imp id fun h => ⟨h.1, by omega⟩) (S1.tested.trans I.untested1)

theorem issue_sent_trap {t : Trap} (I : Issues k len s s1) (C : Calm k s) (hb : body (checkpoint k s1) = .trap t s2) (hp : s2.pair = s1.pair) (ht : t.cause ≠ 19) :
    issueAny false .sent k len body s = dueStop k (takeTrap k (placeTrap t (s.arch k).pc (nextPc (s.arch k) len)) false false s2) := by
  have b : body (before .sent k s1) = .trap t s2 := hb
  rw [issueAny_leaves I C (by rw [b]; exact hp), b, leavesBy, if_neg ht]

theorem issue_sent_stall (I : Issues k len s s1) (C : Calm k s) (hb : body (checkpoint k s1) = .stall s2) (hp : s2.pair = s1.pair) :
    issueAny false .sent k len body s = s2 := by
  have b : body (before .sent k s1) = .stall s2 := hb
  rw [issueAny_leaves I C (by rw [b]; exact hp), b, leavesBy]

/-! ### A control-register write in its shadow (R149) -/

/-- The shadow of a write is one instruction shorter. -/
def CtlWrite.next (e : CtlWrite) : CtlWrite := { e with left := e.left - 1 }

theorem tickShadow_lasts (h : ∀ e ∈ (s.arch k).shadow, 1 < e.left) :
    tickShadow k s = s.setArch k { s.arch k with shadow := (s.arch k).shadow.map CtlWrite.next } := by
  have due : (s.arch k).shadow.filter (fun e => decide (e.left ≤ 1)) = [] :=
    List.filter_eq_nil_iff.mpr fun e he => by simpa using h e he
  have rest : (s.arch k).shadow.filter (fun e => !decide (e.left ≤ 1)) = (s.arch k).shadow :=
    List.filter_eq_self.mpr fun e he => by simpa using h e he
  simp only [tickShadow, due, rest, List.foldl_nil]
  rfl

theorem tickShadow_ends (h : ∀ e ∈ (s.arch k).shadow, e.left ≤ 1) :
    tickShadow k s = (s.arch k).shadow.foldl (fun s e => applyCtl k e.idx e.val s) (s.setArch k { s.arch k with shadow := [] }) := by
  have due : (s.arch k).shadow.filter (fun e => decide (e.left ≤ 1)) = (s.arch k).shadow :=
    List.filter_eq_self.mpr fun e he => by simpa using h e he
  have rest : (s.arch k).shadow.filter (fun e => !decide (e.left ≤ 1)) = [] :=
    List.filter_eq_nil_iff.mpr fun e he => by simpa using h e he
  simp only [tickShadow, due, rest, List.map_nil]

/-- An instruction whose body puts writes into their shadow: they and pc are all that changes of its registers. -/
theorem issue_shadows {ws : List CtlWrite} (I : Issues k len s s1) (C : Calm k s) (ho : out ≠ .sent) (hb : body (before out k s1) = .ok none u)
    (hu : u.arch k = { s.arch k with shadow := ws }) (hs : (u.core k).stop = 0) (hp : u.pair = s1.pair) (T : testArmed k u = false)
    (hne : ws ≠ []) (hl : ∀ e ∈ ws, 1 < e.left) :
    ∃ t, issueAny false out k len body s = t ∧ t.arch k = { s.arch k with pc := nextPc (s.arch k) len, shadow := ws.map CtlWrite.next } ∧
      t.mem = u.mem ∧ ∀ l, t.bent l = u.bent l := by
  have flight : tickInflight (s.arch k).inflight = (s.arch k).inflight := by rw [C.flight]; rfl
  have retired : retire k (s.arch k).pc (nextPc (s.arch k) len) none u =
      ended k { s.arch k with pc := nextPc (s.arch k) len, shadow := ws.map CtlWrite.next } u := by
    rw [retire_straight (by rw [hu]; exact C.loop), tickShadow_lasts (by simpa [hu] using hl)]
    simp only [hu, State.setArch_arch, State.setArch_setArch, counted_setArch, flight]
    exact dueCheckpoint_shadowed (by simpa using hne)
  rw [issueAny_leaves I C (by rw [hb]; exact hp), hb, leavesBy, if_neg ho, retired]
  generalize hA : ({ s.arch k with pc := nextPc (s.arch k) len, shadow := ws.map CtlWrite.next } : Arch) = A
  have stop : ((ended k A u).core k).stop = 0 := by simpa using hs
  have shadow : ((ended k A u).arch k).shadow ≠ [] := by simpa [← hA] using hne
  refine ⟨_, rfl, ?_⟩
  split
  · rw [dueStop_none stop, ended_arch]
    exact ⟨rfl, rfl, fun _ => rfl⟩
  · obtain ⟨carch, cstop, cmem, cbent⟩ := checkpoint_shadowed_leaves shadow T
    rw [dueStop_none (cstop.trans stop), carch, ended_arch, cmem]
    exact ⟨rfl, rfl, cbent⟩

end

end Sys2Proof.Machine
end

/-! ## MOVC writes and the end of their shadow (R113, R149, R164, R165, R225) -/

section
namespace Sys2Proof.Machine

section
variable {k : Nat} {s s1 c u : State}

theorem writeCtl_native {i : Nat} {v : W40} (hc : (c.arch k).compat = false) :
    writeCtl k i v c = c.setArch k { c.arch k with shadow := (c.arch k).shadow ++ [{ idx := i, val := v, left := 3 }] } := by
  simp only [writeCtl, hc, Bool.false_eq_true, if_false]

/-- R140: the operand of a class as it is held. -/
def classVal (a : Arch) (cls : Nat) (xa : Reg) : W40 :=
  match cls with
  | 0 => (a.regD xa.toNat).setWidth 40
  | 1 => a.pair xa
  | _ => a.regA xa.toNat

theorem rdClass_calm (h : (c.arch k).inflight = []) (xa : Reg) : ∀ cls, rdClass k cls xa c = classVal (c.arch k) cls xa
  | 0 => by rw [rdClass, rdD_calm h, classVal]
  | 1 => by rw [rdClass, rdPair, rdD_calm h, rdD_calm h, classVal, Arch.pair]
  | _ + 2 => by simp only [rdClass, rdA_calm h, classVal]

variable {cls i w lvl : Nat} {xa : Reg} {w0 : Word} {adjust : W40 → W40}

/-- What a MOVC write sends out of its pair (R435). -/
def ctlOut (i : Nat) : Out := if ctlCommits i then .ctl else .no

theorem ctlOut_ne : ctlOut i ≠ .sent := by
  unfold ctlOut
  split <;> exact Out.noConfusion

/-- A MOVC write of a register that the level may write, whose body leaves u. -/
theorem movc_shadows {ws : List CtlWrite} (I : Issues k 2 s s1) (C : Calm k s) (hw : ctlWidth i = some w) (hf : classFits cls w xa = true)
    (hl : ctlLevel i = some lvl) (hpl : lvl ≤ (s.arch k).pl.toNat)
    (hb : ctlWrite k i (adjust (classVal (s.arch k) cls xa)) (before (ctlOut i) k s1) = u)
    (hu : u.arch k = { s.arch k with shadow := ws }) (hs : (u.core k).stop = 0) (hp : u.pair = s1.pair) (T : testArmed k u = false)
    (hne : ws ≠ []) (hleft : ∀ e ∈ ws, 1 < e.left) :
    ∃ t, movc k xa true cls i w0 adjust s = t ∧ t.arch k = { s.arch k with pc := nextPc (s.arch k) 2, shadow := ws.map CtlWrite.next } ∧
      t.mem = u.mem ∧ ∀ l, t.bent l = u.bent l := by
  have S := I.before_steady (out := ctlOut i) C
  have arch : (before (ctlOut i) k s1).arch k = s.arch k := S.arch.trans (I.arch C.flight k)
  have flight : ((before (ctlOut i) k s1).arch k).inflight = [] := arch ▸ C.flight
  refine issue_shadows (out := ctlOut i) I C ctlOut_ne ?_ hu hs hp T hne hleft
  simp only [hw, hf, hl, needLevel, arch, ge_iff_le, hpl, if_true, goOn, rdClass_calm flight, hb, Bool.not_true, Bool.false_eq_true, if_false]

/-- Outside compatibility mode the registers written without staging take the operand after two more instructions. -/
theorem movc_enters (I : Issues k 2 s s1) (C : Calm k s) (hc : (s.arch k).compat = false) (hw : ctlWidth i = some w) (hf : classFits cls w xa = true)
    (hl : ctlLevel i = some lvl) (hpl : lvl ≤ (s.arch k).pl.toNat) (hi : ∀ v c, ctlWrite k i v c = writeCtl k i v c) :
    ∃ t, movc k xa true cls i w0 adjust s = t ∧
      t.arch k = { s.arch k with pc := nextPc (s.arch k) 2, shadow := [{ idx := i, val := adjust (classVal (s.arch k) cls xa), left := 2 }] } ∧ t.mem = s1.mem := by
  have S := I.before_steady (out := ctlOut i) C
  have arch : (before (ctlOut i) k s1).arch k = s.arch k := S.arch.trans (I.arch C.flight k)
  have mem : (before (ctlOut i) k s1).mem = s1.mem := by
    obtain ⟨cs, e⟩ := I.before_cores (out := ctlOut i)
    rw [e]
  obtain ⟨t, e, harch, hmem, -⟩ := movc_shadows (w0 := w0) (adjust := adjust) I C hw hf hl hpl
    ((hi _ _).trans (writeCtl_native (arch ▸ hc))) (by rw [State.setArch_arch, arch, C.shadow]; rfl)
    (by rw [State.setArch_core]; exact S.stop.trans (I.calm C).stop) S.pair (S.tested.trans I.untested1) (List.cons_ne_nil _ _) (by simp)
  exact ⟨t, e, harch, hmem.trans mem⟩

/-- The draw stands at n. -/
def State.drawing (s : State) (n : Nat) : State := { s with draw := n }

/-- What is answered of another module's address changes only the draw. -/
theorem answered_eq (g : Nat) (s : State) : ∃ n, answered g s = s.drawing n := by
  unfold answered
  split <;> exact ⟨_, rfl⟩

/-- R145: the bent once a write of v to XLCOMMIT has cleared CERR where its bit 2 is 1. -/
def Bent.cerrWritten (b : Bent) (v : Word) : Bent := { b with cerr := b.cerr && !bitAt v 2 }

theorem writeXlCommit_eq (v : Word) : writeXlCommit k v c =
    (let b := (c.bent (k / 2)).cerrWritten v
     let u := c.setBent (k / 2) b
     if !bitAt v 0 || !b.staged then u
     else if rootBad u b.stPtroot.toNat || !ctxOfJob k u then answered b.stPtroot.toNat (u.setBent (k / 2) { b with cerr := true })
     else writeCtl k 0x041 b.stPtroot (writeCtl k 0x040 (b.stCtxid.setWidth 40) (answered b.stPtroot.toNat (u.setBent (k / 2) { b with staged := false })))) := by
  unfold writeXlCommit
  dsimp only
  rw [State.setBent_bent]
  rfl

theorem ctxOfJob_setBent {b : Bent} (h1 : b.share = (c.bent (k / 2)).share) (h2 : b.stCtxid = (c.bent (k / 2)).stCtxid) :
    ctxOfJob k (c.setBent (k / 2) b) = ctxOfJob k c := by
  simp only [ctxOfJob, shareOf, State.setBent_bent, h1, h2]
  rfl

/-- R113: the bent once XLCOMMIT has taken its staged pair. -/
def Bent.taken (b : Bent) (v : Word) : Bent := { b.cerrWritten v with staged := false }

theorem Bent.taken_cerr (b : Bent) (v : Word) : (b.taken v).cerr = (b.cerr && !bitAt v 2) := rfl

/-- R113: the writes that XLCOMMIT begins. -/
def Bent.commitWrites (b : Bent) : List CtlWrite := [{ idx := 0x040, val := b.stCtxid.setWidth 40, left := 3 }, { idx := 0x041, val := b.stPtroot, left := 3 }]

/-- R113: XLCOMMIT of a good staged pair. -/
theorem writeXlCommit_good {v : Word} (hc : (c.arch k).compat = false) (hsh : (c.arch k).shadow = []) (hv : bitAt v 0 = true)
    (hs : (c.bent (k / 2)).staged = true) (hr : rootBad c (c.bent (k / 2)).stPtroot.toNat = false) (hj : ctxOfJob k c = true) :
    ∃ n, writeXlCommit k v c = ((c.setBent (k / 2) ((c.bent (k / 2)).taken v)).drawing n).setArch k { c.arch k with shadow := (c.bent (k / 2)).commitWrites } := by
  have staged : (!bitAt v 0 || !((c.bent (k / 2)).cerrWritten v).staged) = false := by rw [hv, Bent.cerrWritten, hs]; rfl
  have good : (rootBad (c.setBent (k / 2) ((c.bent (k / 2)).cerrWritten v)) ((c.bent (k / 2)).cerrWritten v).stPtroot.toNat ||
      !ctxOfJob k (c.setBent (k / 2) ((c.bent (k / 2)).cerrWritten v))) = false := by
    rw [ctxOfJob_setBent (b := (c.bent (k / 2)).cerrWritten v) rfl rfl, hj, Bool.not_true, Bool.or_false]
    exact hr
  obtain ⟨n, e⟩ := answered_eq ((c.bent (k / 2)).cerrWritten v).stPtroot.toNat (c.setBent (k / 2) ((c.bent (k / 2)).taken v))
  have arch : ((c.setBent (k / 2) ((c.bent (k / 2)).taken v)).drawing n).arch k = c.arch k := rfl
  refine ⟨n, ?_⟩
  rw [writeXlCommit_eq]
  dsimp only
  rw [staged, good, if_neg Bool.false_ne_true, if_neg Bool.false_ne_true, State.setBent_setBent, ← Bent.taken, e,
    writeCtl_native (c := State.drawing _ _) (arch ▸ hc), writeCtl_native (by rw [State.setArch_arch, arch]; exact hc), State.setArch_setArch, State.setArch_arch, arch, hsh]
  rfl

theorem bitAt_setWidth_or_one (v : W40) : bitAt ((v ||| 1).setWidth 20) 0 = true ∧ bitAt ((v ||| 1).setWidth 20) 2 = bitAt v 2 := by
  simp [bitAt_eq_getLsbD]

/-- R113, R145: a MOVC write to XLCOMMIT that takes a good staged pair. -/
theorem movc_xlcommit {v : W40} (I : Issues k 2 s s1) (C : Calm k s) (hc : (s.arch k).compat = false) (hpl : 1 ≤ (s.arch k).pl.toNat)
    (hs : (s1.bent (k / 2)).staged = true) (hr : rootBad s1 (s1.bent (k / 2)).stPtroot.toNat = false) (hj : ctxOfJob k s1 = true)
    (hv : adjust (classVal (s.arch k) 0 xa) = v) (h0 : bitAt (v.setWidth 20) 0 = true) :
    ∃ t, movc k xa true 0 0x042 w0 adjust s = t ∧
      t.arch k = { s.arch k with pc := nextPc (s.arch k) 2, shadow := (s1.bent (k / 2)).commitWrites.map CtlWrite.next } ∧ t.mem = s1.mem ∧
      t.bent (k / 2) = (s1.bent (k / 2)).taken (v.setWidth 20) := by
  have S := I.before_steady (out := .ctl) C
  have arch : (before .ctl k s1).arch k = s.arch k := S.arch.trans (I.arch C.flight k)
  obtain ⟨cs, e⟩ := I.before_cores (out := .ctl)
  have bent : (before .ctl k s1).bent (k / 2) = s1.bent (k / 2) := by rw [e]; rfl
  obtain ⟨n, hw⟩ := writeXlCommit_good (c := before .ctl k s1) (arch ▸ hc) (arch ▸ C.shadow) h0 (bent ▸ hs) (by rw [bent, e]; exact hr) (by rw [e]; exact hj)
  rw [bent, arch] at hw
  generalize hu : State.setArch _ k _ = u at hw
  have split : u.split k = s1.split k := by
    rw [← hu]
    exact (congrArg Bent.split (State.setBent_bent (before .ctl k s1) (k / 2) ((s1.bent (k / 2)).taken (v.setWidth 20)))).trans rfl
  have pair : u.pair = s1.pair := hu ▸ S.pair
  have untested : testArmed k u = false := by
    rw [testArmed, State.physOf, split, pair]
    exact I.untested1
  obtain ⟨t, et, harch, hmem, hbent⟩ := movc_shadows (w0 := w0) (adjust := adjust) (i := 0x042) (cls := 0) (xa := xa) I C rfl rfl rfl hpl (hv ▸ hw)
    (hu ▸ State.setArch_arch _ k _) (by rw [← hu, State.setArch_core]; exact S.stop.trans (I.calm C).stop) pair untested (List.cons_ne_nil _ _) (by simp)
  refine ⟨t, et, harch, ?_, ?_⟩
  · rw [hmem, ← hu, e]
    rfl
  · rw [hbent, ← hu]
    exact State.setBent_bent _ _ _

/-! ### The end of a shadow (R149) -/

/-- The writes ws take effect, in order. -/
def effects (k : Nat) (ws : List CtlWrite) (s : State) : State := ws.foldl (fun s e => applyCtl k e.idx e.val s) s

/-- Core k at the instruction after its NOP, with nothing in a shadow. -/
def passed (k : Nat) (s : State) : State := s.setArch k { s.arch k with pc := nextPc (s.arch k) 1, shadow := [] }

theorem passed_core : (passed k s).core k = { s.core k with arch := { s.arch k with pc := nextPc (s.arch k) 1, shadow := [] } } := State.setArch_core _ _ _

theorem counted_bent (l : Nat) : (counted k s).bent l = s.bent l := rfl

theorem invalidate_caches (data instr : Bool) : ((invalidate k data instr c).bent (k / 2)).dcache = (if data then [] else (c.bent (k / 2)).dcache) ∧
    ((invalidate k data instr c).bent (k / 2)).icache = (if instr then [] else (c.bent (k / 2)).icache) := by
  simp [invalidate]

section
variable {v x : W40} {n : Nat}

/-- R164, R165: CACHECTL. -/
theorem effects_cachectl : effects k [{ idx := 0x004, val := v, left := n }] c = invalidate k (bitAt v 1) (bitAt v 0) c := rfl

/-- R225: TICKCMP, whose write clears the latch. -/
theorem effects_tickcmp : (effects k [{ idx := 0x051, val := v, left := n }] c).core k = { c.core k with arch := { c.arch k with tickcmp := v }, timer := false } :=
  State.setCore_core _ _ _

theorem applyCtl_ctxid : ∃ ops, applyCtl k 0x040 x c =
    (c.setCore k { c.core k with ops := ops }).setBent (k / 2) { c.bent (k / 2) with ctxid := BitVec.ofNat 12 x.toNat } := by
  have kept : BitVec.ofNat 12 (x.toNat % 2 ^ 12) = BitVec.ofNat 12 x.toNat := BitVec.eq_of_toNat_eq (by simp)
  rw [← kept]
  exact ⟨_, rfl⟩

/-- R113: CTXID and PTROOT, by XLCOMMIT. -/
theorem effects_translation : let t := effects k [{ idx := 0x040, val := x, left := n }, { idx := 0x041, val := v, left := n }] c
    (t.bent (k / 2)).ctxid = BitVec.ofNat 12 x.toNat ∧ (t.bent (k / 2)).ptroot = v ∧ ∃ ops, t.core k = { c.core k with ops := ops } := by
  obtain ⟨ops, e⟩ := applyCtl_ctxid (k := k) (x := x) (c := c)
  have both : effects k [{ idx := 0x040, val := x, left := n }, { idx := 0x041, val := v, left := n }] c =
      (applyCtl k 0x040 x c).setBent (k / 2) { (applyCtl k 0x040 x c).bent (k / 2) with ptroot := v } := rfl
  rw [both, e]
  simp only [State.setBent_bent, true_and]
  exact ⟨ops, State.setCore_core c k _⟩

end

/-- R149: a NOP that ends the shadow of every write in it: they take effect, and no checkpoint is due yet. -/
theorem nop_ends_shadow {k : CoreIx} {ws : List CtlWrite} (I : Issues k 1 s s1) (hf : (s.arch k).inflight = []) (hld : (s.arch k).ld = 0)
    (hw : (s.arch k).shadow = ws) (hl : ∀ e ∈ ws, e.left ≤ 1) (hstop : ((effects k ws (passed k s1)).core k).stop = 0)
    (hsince : ((effects k ws (passed k s1)).core k).since < 255) (hstores : ((effects k ws (passed k s1)).core k).stores.length < 24) :
    exec (.nop k 0) s = .next (counted k (effects k ws (passed k s1))) := by
  have arch := I.arch hf k
  have ran : exec (.nop k 0) s = .next (issueAny false .no k 1 (need (decide ((0 : BitVec 10) = 0)) (encSYS 0 0 0) goOn) s) := rfl
  have flight : tickInflight (s.arch k).inflight = (s.arch k).inflight := by rw [hf]; rfl
  have early : dueCheckpoint k (counted k (effects k ws (passed k s1))) = counted k (effects k ws (passed k s1)) :=
    dueCheckpoint_early (by rw [counted_core]; exact Nat.succ_lt_succ hsince) (by rw [counted_core]; exact hstores)
  have retired : retire k (s.arch k).pc (nextPc (s.arch k) 1) none s1 = counted k (effects k ws (passed k s1)) := by
    rw [retire_straight (.inl (arch ▸ hld)), tickShadow_ends (by simpa [arch, hw] using hl), ← early]
    simp only [State.setArch_arch, State.setArch_setArch, arch, hw, flight, passed, effects]
  refine ran.trans (congrArg _ ((issueAny_ok (flow := none) I hf rfl rfl).trans ?_))
  rw [retired, dueStop_none]
  rw [counted_core]
  exact hstop

end

end Sys2Proof.Machine
end

section
open Sys2Proof Sys2Proof.Machine

/-- Settles O24: a write of each register begins its shadow, and a NOP that ends one lets its writes take effect. -/
theorem shadowedWrites : Obligations.ShadowedWrites := by
  unfold Obligations.ShadowedWrites
  refine ⟨fun k xa s s1 I C hc hp => ?_, fun k v w s s1 I hf hstop hld hsince hstores => ?_⟩
  · intro b d enters
    have entered : ∀ {t ws}, t.arch k = { s.arch k with pc := nextPc (s.arch k) 2, shadow := ws } ∧ t.mem = s1.mem → enters ws t := by
      rintro t ws ⟨ha, hm⟩
      simp only [enters, ha, hm, and_self]
    refine ⟨fun hst hr hj => ?xlcommit, ?dinv, ?iinv, fun he => ?tickcmpPair, ?tickcmpA⟩
    case xlcommit =>
      obtain ⟨v0, v2⟩ := bitAt_setWidth_or_one d
      obtain ⟨t, e, ha, hm, hb⟩ := movc_xlcommit (v := d ||| 1) (w0 := encL 0x19 xa 8 0) (xa := xa) (adjust := fun v => v ||| 1) I C hc hp hst hr hj rfl v0
      refine ⟨t, congrArg _ e, entered ⟨ha, hm⟩, by rw [hb]; rfl, fun h2 => ?_⟩
      rw [hb, Bent.taken_cerr]
      exact Bool.and_eq_false_iff.mpr (.inr (by rw [v2, h2]; rfl))
    case dinv =>
      obtain ⟨t, e, h⟩ := movc_enters (i := 0x004) (cls := 0) (xa := xa) (w0 := encL 0x19 xa 8 0) (adjust := fun v => v ||| 2) I C hc rfl rfl rfl hp (fun _ _ => rfl)
      exact ⟨t, congrArg _ e, entered h⟩
    case iinv =>
      obtain ⟨t, e, h⟩ := movc_enters (i := 0x004) (cls := 0) (xa := xa) (w0 := encL 0x19 xa 8 0) (adjust := fun v => v ||| 1) I C hc rfl rfl rfl hp (fun _ _ => rfl)
      exact ⟨t, congrArg _ e, entered h⟩
    case tickcmpPair =>
      obtain ⟨t, e, h⟩ := movc_enters (i := 0x051) (cls := 1) (xa := xa) (w0 := encL 0x19 xa 9 0) (adjust := id) I C hc rfl (by simp [classFits, evenReg, he]) rfl hp (fun _ _ => rfl)
      exact ⟨t, congrArg _ e, entered h⟩
    case tickcmpA =>
      obtain ⟨t, e, h⟩ := movc_enters (i := 0x051) (cls := 2) (xa := xa) (w0 := encL 0x19 xa 10 0) (adjust := id) I C hc rfl rfl rfl hp (fun _ _ => rfl)
      exact ⟨t, congrArg _ e, entered h⟩
  · intro ends
    have core := I.core hf k
    refine ⟨fun h => ?caches, fun h => ?timer, fun h => ?translation⟩
    case caches =>
      have u := effects_cachectl (k := k) (v := v) (n := 1) (c := passed k s1)
      have run : (effects k [{ idx := 0x004, val := v, left := 1 }] (passed k s1)).core k = (passed k s1).core k := by rw [u]; rfl
      rw [passed_core, core] at run
      refine ⟨_, nop_ends_shadow I hf hld h (by simp) (by rw [run]; exact hstop) (by rw [run]; exact hsince) (by rw [run]; exact hstores), ?_, ?_, ?_⟩
      · intro h1
        rw [counted_bent, u, (invalidate_caches ..).1, if_pos h1]
      · intro h0
        rw [counted_bent, u, (invalidate_caches ..).2, if_pos h0]
      · rw [State.arch, counted_core, run]
    case timer =>
      have run := effects_tickcmp (k := k) (v := v) (n := 1) (c := passed k s1)
      rw [passed_core, core] at run
      refine ⟨_, nop_ends_shadow I hf hld h (by simp) (by rw [run]; exact hstop) (by rw [run]; exact hsince) (by rw [run]; exact hstores), ?_, ?_⟩
      · rw [State.arch, counted_core, run]
      · rw [counted_core, run]
    case translation =>
      obtain ⟨hctx, hroot, ops, run⟩ := effects_translation (k := k) (v := v) (x := w) (n := 1) (c := passed k s1)
      rw [passed_core, core] at run
      refine ⟨_, nop_ends_shadow I hf hld h (by simp) (by rw [run]; exact hstop) (by rw [run]; exact hsince) (by rw [run]; exact hstores), ?_, ?_⟩
      · rw [counted_bent, hctx]
      · rw [counted_bent, hroot]

end

/-! ## Seals, the merged test and XINV (R124, R313, R314, R316) -/

section
namespace Sys2Proof.Machine

/-! ### What the drain of a store buffer leaves of the translation settings (R113, R167) -/

section
variable {k : Nat} {s t u : State}

/-- From s to t every bent's CTXID, root and share stay, and every context and job. -/
structure SameXl (s t : State) : Prop where
  ctxid : ∀ l, (t.bent l).ctxid = (s.bent l).ctxid
  root : ∀ l, (t.bent l).ptroot = (s.bent l).ptroot
  share : ∀ l, (t.bent l).share = (s.bent l).share
  ctxs : t.ctxs = s.ctxs
  jobs : t.disp.jobs = s.disp.jobs

namespace SameXl

theorem refl (s : State) : SameXl s s := ⟨fun _ => rfl, fun _ => rfl, fun _ => rfl, rfl, rfl⟩

theorem trans (h : SameXl s t) (g : SameXl t u) : SameXl s u :=
  ⟨fun l => (g.ctxid l).trans (h.ctxid l), fun l => (g.root l).trans (h.root l), fun l => (g.share l).trans (h.share l), g.ctxs.trans h.ctxs, g.jobs.trans h.jobs⟩

/-- An update of other fields. -/
theorem upd (hb : t.bents = s.bents) (hc : t.ctxs = s.ctxs) (hj : t.disp.jobs = s.disp.jobs) : SameXl s t := by
  have bent : ∀ l, t.bent l = s.bent l := fun l => congrArg (tget Bent.reset · l) hb
  exact ⟨fun l => by rw [bent], fun l => by rw [bent], fun l => by rw [bent], hc, hj⟩

theorem of_quiet (q : Quiet s t) : SameXl s t :=
  ⟨fun l => (congrArg Bent.ctxid (q.bents l) :), fun l => (congrArg Bent.ptroot (q.bents l) :), fun l => (congrArg Bent.share (q.bents l) :), q.ctxs,
    (congrArg Disp.jobs q.disp :)⟩

theorem setBent {l : Nat} {b : Bent} (h1 : b.ctxid = (s.bent l).ctxid) (h2 : b.ptroot = (s.bent l).ptroot) (h3 : b.share = (s.bent l).share) :
    SameXl s (s.setBent l b) := by
  have field : ∀ {α : Type} (f : Bent → α), f b = f (s.bent l) → ∀ j, f ((s.setBent l b).bent j) = f (s.bent j) := by
    intro α f h j
    by_cases e : j = l
    · rw [e, State.setBent_bent, h]
    · rw [State.setBent_bent_other s b e]
  exact ⟨field _ h1, field _ h2, field _ h3, rfl, rfl⟩

theorem foldl {α : Type} {f : State → α → State} (hf : ∀ s x, SameXl s (f s x)) (l : List α) : ∀ s, SameXl s (l.foldl f s) := by
  induction l with
  | nil => exact refl
  | cons x l ih => exact fun s => (hf s x).trans (ih _)

/-- The settings in force on a core are the same. -/
theorem coreXl (h : SameXl s t) (lvl : Nat) : coreXl k lvl t = coreXl k lvl s := by
  simp only [Machine.coreXl, State.ctx, State.job, h.ctxid, h.root, h.share, h.ctxs, h.jobs]

end SameXl

theorem setHost_sameXl {v} : SameXl s { s with host := v } := .upd rfl rfl rfl

theorem putHost_sameXl (a v n : Nat) : ∀ s, SameXl s (putHost a v n s) := by
  induction n generalizing a v with
  | zero => exact .refl
  | succ n ih => exact fun s => setHost_sameXl.trans (ih _ _ _)

theorem writeSmall_sameXl (b : Nat) (p : Place) (w : Word) (s : State) : SameXl s (writeSmall b p w s) := by
  cases p with
  | dev _ => exact .refl s
  | yard _ => exact .upd rfl rfl rfl
  | bench _ => exact .setBent rfl rfl rfl
  | host a => exact (putHost_sameXl _ _ _ s).trans (.upd rfl rfl rfl)

theorem writePlaces_sameXl (b : Nat) (ws : List (Place × Word)) (s : State) : SameXl s (writePlaces b ws s) := by
  unfold writePlaces
  refine SameXl.trans (.foldl (fun s x => ?_) _ _) (.foldl (fun s x => writeSmall_sameXl _ _ _ _) _ _)
  split
  · exact .of_quiet (blkWrite_quiet (Quiet.refl _))
  · exact .refl _

theorem lineUpdate_sameXl (l : Nat) (ws : List (Place × Word)) : ∀ s, SameXl s (lineUpdate l ws s) := by
  induction ws with
  | nil => exact .refl
  | cons x ws ih =>
    intro s
    obtain ⟨p, w⟩ := x
    cases p with
    | dev a =>
      simp only [lineUpdate]
      split
      · exact ih _
      · refine SameXl.trans ?_ (ih _)
        exact .setBent rfl rfl rfl
    | yard _ | bench _ | host _ => exact ih _

theorem checkpoint_sameXl (T : testArmed k s = false) : SameXl s (checkpoint k s) := by
  obtain ⟨cs, e⟩ := checkpoint_cores T
  rw [e]
  exact .upd rfl rfl rfl

theorem performEntry_sameXl (e : StoreEntry) (s : State) : SameXl s (performEntry k e s) := (writePlaces_sameXl _ _ s).trans (lineUpdate_sameXl _ _ _)

theorem drainAll_sameXl (T : testArmed k s = false) : SameXl s (drainAll k s) := by
  unfold drainAll
  refine (checkpoint_sameXl T).trans (SameXl.trans ?_ (.foldl (fun s e => performEntry_sameXl e s) _ _))
  exact .upd rfl rfl rfl

end

/-! ### XINV (R124) -/

section
variable {k : Nat} {s s1 : State} {p : Nat → Bool}

/-- An entry that a change of every value does not make the default is found changed. -/
theorem tget_tmap {α : Type} [DecidableEq α] {d : α} {f : Nat → α → α} {k : Nat} (m : Tbl α) (hd : f k d = d) (h : f k (tget d m k) ≠ d) :
    tget d (tmap d f m) k = f k (tget d m k) := by
  induction m with
  | nil => exact absurd hd h
  | cons e m ih =>
    obtain ⟨j, v⟩ := e
    have later : tmap d f ((j, v) :: m) = if f j v = d then tmap d f m else (j, f j v) :: tmap d f m := by
      by_cases hv : f j v = d <;> simp [tmap, hv]
    rw [tget] at h ⊢
    rw [later]
    by_cases hj : j = k
    · subst hj
      rw [if_pos rfl] at h ⊢
      rw [if_neg h, tget, if_pos rfl]
    · rw [if_neg hj] at h ⊢
      split
      · exact ih h
      · rw [tget, if_neg hj, ih h]

/-- Split execution goes on. -/
theorem dropTlb_split (h : s.split k = true) : (dropTlb p s).split k = true := by
  have kept : ({ s.bent (k / 2) with tlb := tdrop p (s.bent (k / 2)).tlb } : Bent) ≠ Bent.reset := fun e =>
    Bool.false_ne_true ((congrArg Bent.split e).symm.trans h)
  exact (congrArg Bent.split (tget_tmap (f := fun _ b => { b with tlb := tdrop p b.tlb }) s.bents rfl kept)).trans h

theorem dropTlb_untested (T : testArmed k s = false) : testArmed k (dropTlb p s) = false := by
  rw [testArmed, Bool.and_eq_false_iff] at T ⊢
  exact T.imp id fun h => by rw [dropTlb_split (by simpa using h)]; rfl

/-- What an XINV of level lvl does once issued. -/
def xinvDrop (k : Nat) (imm : BitVec 10) (lvl : Nat) (f : State → Nat → Bool) : State → Res (Option W40) :=
  needLevel lvl k (encSYS 0x28 3 imm) fun s => let s := drainAll k s; if groupInHand (f s) s then .stall s else goOn (dropTlb (f s) s)

theorem xinv_eq {imm : BitVec 10} {lvl : Nat} {f : State → Nat → Bool} : xinv k imm lvl f s = issueAny false .sent k 1 (xinvDrop k imm lvl f) s := rfl

/-- XINV's outcome where it is to drop the entries that p picks once d is reached: it waits for an element group in hand. -/
def DropsOrWaits (k : Nat) (p : Nat → Bool) (d : State) (out : Host.Outcome State Fault Refusal) : Prop :=
  (groupInHand p d = false → out = commits k 1 (dropTlb p d)) ∧ (groupInHand p d = true → out = .next d)

theorem xinv_drops {imm : BitVec 10} {lvl : Nat} {f : State → Nat → Bool} (I : Issues k 1 s s1) (C : Calm k s) (hl : lvl ≤ (s.arch k).pl.toNat)
    (hp : f (drainAll k (checkpoint k s1)) = p) :
    DropsOrWaits k p (drainAll k (checkpoint k s1)) (.next (xinv k imm lvl f s)) := by
  rw [xinv_eq]
  have C1 := I.calm C
  have S := I.checkpointed C
  have D : Steady k s1 (drainAll k (checkpoint k s1)) := S.trans (drainAll_steady (S.calm C1).shadow (S.tested.trans I.untested1))
  have body : xinvDrop k imm lvl f (checkpoint k s1) =
      if groupInHand p (drainAll k (checkpoint k s1)) then .stall (drainAll k (checkpoint k s1)) else goOn (dropTlb p (drainAll k (checkpoint k s1))) := by
    rw [xinvDrop, needLevel, S.arch, I.arch C.flight k, if_pos hl, ← hp]
  refine ⟨fun h => ?_, fun h => ?_⟩
  · rw [h, if_neg Bool.false_ne_true] at body
    have C2 := D.calm C1
    refine issue_commits I C body D.pair (D.arch.trans (I.arch C.flight k)) C2.stop ?_ ?_
    · exact C2.ckpt.imp dropTlb_split fun h => ⟨h.1, Nat.lt_succ_of_lt h.2⟩
    · exact dropTlb_untested (D.tested.trans I.untested1)
  · rw [h, if_pos rfl] at body
    exact congrArg _ (issue_sent_stall I C body D.pair)

theorem xinv_bars {imm : BitVec 10} {lvl : Nat} {f : State → Nat → Bool} (I : Issues k 1 s s1) (C : Calm k s) (hl : (s.arch k).pl.toNat < lvl) :
    .next (xinv k imm lvl f s) = trapsAt k 2 (s.arch k).pc (encSYS 0x28 3 imm) s (checkpoint k s1) := by
  have S := I.checkpointed C
  have body : xinvDrop k imm lvl f (checkpoint k s1) =
      privileged (encSYS 0x28 3 imm) (checkpoint k s1) := by
    rw [xinvDrop, needLevel, S.arch, I.arch C.flight k, if_neg (Nat.not_le.mpr hl)]
  have placed : placeTrap (trapOf 2 0 (encSYS 0x28 3 imm).toNat) (s.arch k).pc (nextPc (s.arch k) 1) =
      { cause := 2, pc := (s.arch k).pc, addr := (s.arch k).pc, detail := encSYS 0x28 3 imm } := by simp [placeTrap, trapOf]
  rw [xinv_eq, trapsAt, ← placed]
  exact congrArg _ (issue_sent_trap I C body S.pair (show 2 ≠ 19 by decide))

end

/-! ### SEALCHK and SEALCLR (R313, R314) -/

section
variable {k : Nat} {s s1 : State}

theorem sealTest_zero {g mask : Nat} {v : Nat → Int} (h : nonzeroSeals mask v = 0) : sealTest g mask v s = .ok none s := if_pos h

theorem sealTest_nonzero {mask : Nat} {v : Nat → Int} (h : nonzeroSeals mask v ≠ 0) :
    sealTest 0 mask v s = .trap (trapOf 12 0 (nonzeroSeals mask v)) s := by
  rw [sealTest, if_neg h, Nat.mul_zero, Nat.add_zero]

/-- The checkpoint before a seal instruction leaves the core's operations and its seals. -/
theorem Issues.seals (I : Issues k 1 s s1) (C : Calm k s) :
    sealsSettled ((checkpoint k s1).core k) = sealsSettled (s.core k) ∧ ((checkpoint k s1).core k).sealAt = (s.core k).sealAt := by
  obtain ⟨-, ops, seals⟩ := checkpoint_run I.untested1
  have core := I.core C.flight k
  constructor
  · rw [sealsSettled, sealsSettled, ops, core]
  · funext i
    rw [Core.sealAt, Core.sealAt, seals, core]

theorem bitsOf_high_of_lt {imm : BitVec 10} (h : imm.toNat < 256) : bitsOf imm 8 2 = 0 := by
  rw [bitsOf_eq_div_mod]
  omega

theorem bitsOf_low (imm : BitVec 10) : bitsOf imm 0 8 = imm.toNat % 256 := by
  rw [bitsOf_eq_div_mod]
  omega

/-- What SEALCHK with G 0 does once issued. -/
def ownTest (k : Nat) (imm : BitVec 10) : State → Res (Option W40) :=
  need (decide (bitsOf imm 8 2 = 0)) (encSYS 0x28 4 imm) fun s => if sealsSettled (s.core k) then sealTest 0 (bitsOf imm 0 8) (s.core k).sealAt s else .stall s

/-- What SEALCHK with G 1 does once issued, on a pair in split execution or not. -/
def mergedTest (split : Bool) (k : Nat) (imm : BitVec 10) : State → Res (Option W40) :=
  need (decide (bitsOf imm 8 2 = 1) && !split) (encSYS 0x28 4 imm)
    fun s => if sealsSettled (s.core k) then .stall (s.setCore k { s.core k with run := .barrier (imm.setWidth 8) }) else .stall s

theorem exec_sealchk_test {k : CoreIx} {imm : BitVec 10} : exec (.sealchk k imm) s = .next (issueAny false .sent k 1 (ownTest k imm) s) := rfl

theorem exec_sealchkMerged_test {k : CoreIx} {imm : BitVec 10} : exec (.sealchkMerged k imm) s = .next (issueAny false .sent k 1 (mergedTest (s.split k) k imm) s) := rfl

/-- The seals that SEALCHK tests. -/
theorem ownTest_checkpoint {imm : BitVec 10} (I : Issues k 1 s s1) (C : Calm k s) (h : imm.toNat < 256) (hset : sealsSettled (s.core k) = true) :
    ownTest k imm (checkpoint k s1) = sealTest 0 (imm.toNat % 256) (s.core k).sealAt (checkpoint k s1) := by
  obtain ⟨settled, values⟩ := I.seals C
  rw [ownTest, bitsOf_high_of_lt h, bitsOf_low, need, if_pos (decide_eq_true rfl), settled, values, if_pos hset]

/-- The word of SEALCHK with G 1 and the seals of MASK m. -/
theorem merged_bits {m : Nat} (h : m < 256) : bitsOf (BitVec.ofNat 10 (256 + m)) 8 2 = 1 ∧ (BitVec.ofNat 10 (256 + m)).setWidth 8 = BitVec.ofNat 8 m := by
  constructor
  · rw [bitsOf_eq_div_mod, BitVec.toNat_ofNat]
    omega
  · apply BitVec.eq_of_toNat_eq
    simp only [BitVec.toNat_setWidth, BitVec.toNat_ofNat]
    omega

theorem placeTrap_seals (n : Nat) (here next : W40) :
    placeTrap (trapOf 12 0 n) here next = { cause := 12, pc := here, addr := 0, detail := BitVec.ofNat 20 n } := rfl

end

section
variable {k : CoreIx} {imm : BitVec 10} {s s1 : State}

theorem sealchk_goesOn (I : Issues k 1 s s1) (C : Calm k s) (h : imm.toNat < 256) (hset : sealsSettled (s.core k) = true)
    (hz : nonzeroSeals (imm.toNat % 256) (s.core k).sealAt = 0) : exec (.sealchk k imm) s = commits k 1 (checkpoint k s1) := by
  rw [exec_sealchk_test]
  exact issue_commits_steady I C ((ownTest_checkpoint I C h hset).trans (sealTest_zero hz)) (Steady.refl _)

theorem sealchk_traps (I : Issues k 1 s s1) (C : Calm k s) (h : imm.toNat < 256) (hset : sealsSettled (s.core k) = true)
    (hn : nonzeroSeals (imm.toNat % 256) (s.core k).sealAt ≠ 0) :
    exec (.sealchk k imm) s = trapsAt k 12 0 (BitVec.ofNat 20 (nonzeroSeals (imm.toNat % 256) (s.core k).sealAt)) s (checkpoint k s1) := by
  have body := (ownTest_checkpoint I C h hset).trans (sealTest_nonzero hn)
  rw [exec_sealchk_test, issue_sent_trap I C body (I.checkpointed C).pair (show 12 ≠ 19 by decide), placeTrap_seals]
  rfl

theorem sealchkMerged_waits {m : Nat} (I : Issues k 1 s s1) (C : Calm k s) (hm : m < 256) (hset : sealsSettled (s.core k) = true) (hs : s.split k = false) :
    exec (.sealchkMerged k (BitVec.ofNat 10 (256 + m))) s =
      .next ((checkpoint k s1).setCore k { (checkpoint k s1).core k with run := .barrier (BitVec.ofNat 8 m) }) := by
  have S := I.checkpointed C
  obtain ⟨settled, -⟩ := I.seals C
  obtain ⟨bits, low⟩ := merged_bits hm
  have body : mergedTest (s.split k) k (BitVec.ofNat 10 (256 + m)) (checkpoint k s1) =
      .stall ((checkpoint k s1).setCore k { (checkpoint k s1).core k with run := .barrier (BitVec.ofNat 8 m) }) := by
    rw [mergedTest, bits, low, hs, need, if_pos (show (decide (1 = 1) && !false) = true by decide), settled, if_pos hset]
  rw [exec_sealchkMerged_test, issue_sent_stall I C body S.pair]

theorem sealclr_zeroes (I : Issues k 1 s s1) (C : Calm k s) (h : imm.toNat < 256) (hset : sealsSettled (s.core k) = true) (hpl : 1 ≤ (s.arch k).pl.toNat) :
    exec (.sealclr k imm) s = commits k 1 ((checkpoint k s1).setCore k
      { (checkpoint k s1).core k with seals := tdrop (fun i => bitAt imm (i - 1)) ((checkpoint k s1).core k).seals }) := by
  have S := I.checkpointed C
  obtain ⟨settled, -⟩ := I.seals C
  have body : need (decide (bitsOf imm 8 2 = 0)) (encSYS 0x28 5 imm) (needLevel 1 k (encSYS 0x28 5 imm) (fun s =>
      let c := s.core k
      if sealsSettled c then goOn (s.setCore k { c with seals := tdrop (fun i => bitAt imm (i - 1)) c.seals }) else .stall s)) (checkpoint k s1) =
      .ok none ((checkpoint k s1).setCore k { (checkpoint k s1).core k with seals := tdrop (fun i => bitAt imm (i - 1)) ((checkpoint k s1).core k).seals }) := by
    rw [bitsOf_high_of_lt h, need, if_pos (decide_eq_true rfl), needLevel, S.arch, I.arch C.flight k, if_pos hpl]
    dsimp only
    rw [settled, if_pos hset]
    rfl
  exact issue_commits_steady I C body ⟨by simp [State.arch], by simp, rfl, by simp, by simp, rfl, fun e => by simpa using e⟩

end

/-! ### The three modes of XINV (R124) -/

section
variable {k : CoreIx} {imm : BitVec 10} {s s1 : State}

/-- The translation settings in force once the store buffer is empty are those at issue. -/
theorem Issues.drained_sameXl (I : Issues k 1 s s1) (C : Calm k s) : SameXl s1 (drainAll k (checkpoint k s1)) :=
  (checkpoint_sameXl I.untested1).trans (drainAll_sameXl ((I.checkpointed C).tested.trans I.untested1))

theorem Issues.drained_arch (I : Issues k 1 s s1) (C : Calm k s) : (drainAll k (checkpoint k s1)).arch k = s.arch k := by
  have S := I.checkpointed C
  have D := drainAll_steady (S.calm (I.calm C)).shadow (S.tested.trans I.untested1)
  rw [D.arch, S.arch, I.arch C.flight k]

theorem sysReg_toNat (imm : BitVec 10) : (BitVec.ofNat 4 (bitsOf imm 2 4)).toNat = imm.toNat / 4 % 16 := by
  rw [BitVec.toNat_ofNat, bitsOf_eq_div_mod]
  omega

/-- Mode 0: the entries of the register's page and of its large page. -/
theorem xinvPage_drops (I : Issues k 1 s s1) (C : Calm k s) (hpl : 1 ≤ (s.arch k).pl.toNat) {v c : Nat}
    (hv : v = ((s.arch k).map ((s.arch k).regA (imm.toNat / 4 % 16))).toNat) (hc : c = (s1.bent (k / 2)).ctxid.toNat) :
    DropsOrWaits k (fun n => decide (n = tlbKey c v false) || decide (n = tlbKey c v true)) (drainAll k (checkpoint k s1)) (exec (.xinvPage k imm) s) := by
  refine xinv_drops I C hpl ?_
  have arch := I.drained_arch C
  have flight : ((drainAll k (checkpoint k s1)).arch k).inflight = [] := by rw [arch, C.flight]
  simp only [rdA_calm flight, arch, sysReg_toNat, (I.drained_sameXl C).ctxid, ← hv, ← hc]

/-- Mode 1: the entries of the context in force. -/
theorem xinvContext_drops (I : Issues k 1 s s1) (C : Calm k s) (hpl : 1 ≤ (s.arch k).pl.toNat) :
    DropsOrWaits k (fun n => decide (n / 2 ^ 25 = (s1.bent (k / 2)).ctxid.toNat)) (drainAll k (checkpoint k s1)) (exec (.xinvContext k imm) s) := by
  refine xinv_drops I C hpl ?_
  simp only [(I.drained_sameXl C).ctxid]

/-- The entries of every context of function f. -/
def functionEntries (s : State) (f n : Nat) : Bool :=
  match s.ctx (n / 2 ^ 25) with
  | some x => decide (x.func = f)
  | none => false

/-- Mode 2: the entries of every context of the function. -/
theorem xinvFunction_drops (I : Issues k 1 s s1) (C : Calm k s) (hpl : 2 ≤ (s.arch k).pl.toNat) :
    DropsOrWaits k (functionEntries s1 (coreXl k 2 s1).func) (drainAll k (checkpoint k s1)) (exec (.xinvFunction k imm) s) := by
  have X := I.drained_sameXl C
  have same : functionEntries (drainAll k (checkpoint k s1)) (coreXl k 2 (drainAll k (checkpoint k s1))).func = functionEntries s1 (coreXl k 2 s1).func := by
    funext n
    simp only [functionEntries, State.ctx, X.ctxs, X.coreXl]
  exact xinv_drops (f := fun s => functionEntries s (coreXl k 2 s).func) I C hpl same

end

/-! ### The release of the barrier (R314) -/

section
variable {k l j : Nat} {s : State}

/-- What a checkpoint outside a shadow leaves of a core and of memory. -/
structure Settled (k : Nat) (s t : State) : Prop where
  arch : t.arch k = s.arch k
  run : (t.core k).run = (s.core k).run
  stop : (t.core k).stop = (s.core k).stop
  mem : t.mem = s.mem
  tested : testArmed k t = testArmed k s

theorem Settled.refl (s : State) : Settled k s s := ⟨rfl, rfl, rfl, rfl, rfl⟩

theorem Settled.trans {t u : State} (h : Settled k s t) (g : Settled k t u) : Settled k s u :=
  ⟨g.arch.trans h.arch, g.run.trans h.run, g.stop.trans h.stop, g.mem.trans h.mem, g.tested.trans h.tested⟩

theorem checkpoint_settled (h : (s.arch k).shadow = []) (T : testArmed k s = false) : Settled k s (checkpoint k s) := by
  have S := checkpoint_steady h T
  obtain ⟨cs, e⟩ := checkpoint_cores T
  exact ⟨S.arch, (checkpoint_run T).1, S.stop, by rw [e], S.tested⟩

theorem dueCheckpoint_settled (h : (s.arch k).shadow = []) (T : testArmed k s = false) : Settled k s (dueCheckpoint k s) := by
  simp only [dueCheckpoint]
  split
  · exact checkpoint_settled h T
  · exact .refl s

/-- An instruction that ends outside a loop, with no result on its way and no MOVC in its shadow. -/
theorem retire_settled (hf : (s.arch k).inflight = []) (hs : (s.arch k).shadow = []) (hl : (s.arch k).ld = 0) (T : testArmed k s = false) :
    Settled k (ended k ((s.arch k).after 1) s) (retire k (s.arch k).pc (nextPc (s.arch k) 1) none s) := by
  have done : counted k (tickShadow k (s.setArch k { s.arch k with pc := nextPc (s.arch k) 1, inflight := tickInflight (s.arch k).inflight })) =
      ended k ((s.arch k).after 1) s := by
    rw [tickShadow_ends (by simp [hs])]
    simp [hs, hf, counted_setArch, Arch.after, tickInflight]
  rw [retire_straight (.inl hl), done]
  exact dueCheckpoint_settled (by rw [ended_arch]; exact hs) T

theorem releaseOne_settled {mask : BitVec 8} {vs : Nat → Int} (hr : (s.core (2 * l)).run = .barrier mask) (hf : (s.arch (2 * l)).inflight = [])
    (hs : (s.arch (2 * l)).shadow = []) (hl : (s.arch (2 * l)).ld = 0) (hstop : (s.core (2 * l)).stop = 0) (T : testArmed (2 * l) s = false)
    (hz : nonzeroSeals mask.toNat vs = 0) :
    ((releaseOne vs l s).core (2 * l)).run = .running ∧ (releaseOne vs l s).arch (2 * l) = (s.arch (2 * l)).after 1 ∧ (releaseOne vs l s).mem = s.mem := by
  obtain ⟨t, ht⟩ : ∃ t, t = s.setCore (2 * l) { s.core (2 * l) with run := .running } := ⟨_, rfl⟩
  have core : t.core (2 * l) = { s.core (2 * l) with run := .running } := by rw [ht, State.setCore_core]
  have arch : t.arch (2 * l) = s.arch (2 * l) := by rw [State.arch, core, State.arch]
  have untested : testArmed (2 * l) t = false := by rw [ht]; exact T
  have R := retire_settled (arch ▸ hf) (arch ▸ hs) (arch ▸ hl) untested
  have shadow : ((retire (2 * l) (t.arch (2 * l)).pc (nextPc (t.arch (2 * l)) 1) none t).arch (2 * l)).shadow = [] := by
    rw [R.arch, ended_arch, arch]
    exact hs
  have E := R.trans (checkpoint_settled shadow (R.tested.trans untested))
  have stop : ((checkpoint (2 * l) (retire (2 * l) (t.arch (2 * l)).pc (nextPc (t.arch (2 * l)) 1) none t)).core (2 * l)).stop = 0 := by
    rw [E.stop, ended_core, core]
    exact hstop
  have released : releaseOne vs l s = checkpoint (2 * l) (retire (2 * l) (t.arch (2 * l)).pc (nextPc (t.arch (2 * l)) 1) none t) := by
    simp only [releaseOne, hr, ← ht, sealTest_zero hz, dueStop_none stop]
  rw [released]
  refine ⟨?_, ?_, ?_⟩
  · rw [E.run, ended_core, core]
  · rw [E.arch, ended_arch, arch]
  · rw [E.mem, ht]
    rfl

theorem sealBarrierRelease_waits {job : Job} (hj : s.job j = some job) (ha : job.shares.all (arrived s) = false) : exec (.sealBarrierRelease j) s = .next s := by
  show execSealBarrierRelease j s = _
  simp only [execSealBarrierRelease, hj, ha, Bool.false_eq_true, if_false]

theorem sealBarrierRelease_single {job : Job} {mask : BitVec 8} (hj : s.job j = some job) (hsh : job.shares = [.on l]) (hr : (s.core (2 * l)).run = .barrier mask) :
    exec (.sealBarrierRelease j) s = .next (releaseOne (fun i => mergedSeal s job i) l (sealsFormed job s)) := by
  have here : job.shares.all (arrived s) = true := by simp [hsh, arrived, hr]
  have bents : bentsOf job = [l] := by simp [bentsOf, hsh]
  show execSealBarrierRelease j s = _
  simp only [execSealBarrierRelease, hj, here, bents, if_true, List.foldl_cons, List.foldl_nil]

theorem sealsFormed_eq (job : Job) (s : State) : sealsFormed job s = s ∨ sealsFormed job s = s.drawn := by
  unfold sealsFormed
  split
  · exact .inl rfl
  · exact .inr rfl

end

end Sys2Proof.Machine
end

section
open Sys2Proof Sys2Proof.Machine

/-- Settles O31: an XINV finds at the end of its drain the translation settings of its issue, and the single share released at the barrier retires its SEALCHK. -/
theorem sealsBarrierAndXinv : Obligations.SealsBarrierAndXinv := by
  unfold Obligations.SealsBarrierAndXinv
  refine ⟨fun k imm s s1 I C => ?_, fun j l job mask s hj => ⟨sealBarrierRelease_waits hj, fun hsh hr hf hs hl hstop T hz => ?release⟩⟩
  · extract_lets c m d v ctx drops
    refine ⟨fun h hset => ⟨sealchk_goesOn I C h hset, sealchk_traps I C h hset, sealchkMerged_waits I C (Nat.mod_lt _ (by decide)) hset, sealclr_zeroes I C h hset⟩,
      fun hpl => ⟨xinvPage_drops I C hpl rfl rfl, xinvContext_drops I C hpl⟩, fun hpl => ?function, fun hpl => ?barred⟩
    case function => exact xinvFunction_drops I C (by rw [hpl]; decide)
    case barred => exact xinv_bars I C (by rw [hpl]; decide)
  case release =>
    refine ⟨_, sealBarrierRelease_single hj hsh hr, ?_⟩
    obtain e | e := sealsFormed_eq job s
    · rw [e]
      exact releaseOne_settled hr hf hs hl hstop T hz
    · rw [e]
      exact releaseOne_settled (s := s.drawn) hr hf hs hl hstop T hz

end

/-! ## Address forms and branches: what an instruction reads, writes and goes to -/

section
namespace Sys2Proof.Machine

section
variable {k len : Nat} {s s1 t u : State} {body : State → Res (Option W40)}

/-! ### The end of an instruction whose body touched more than registers -/

/-- Register sets a and b stand at the same point of the same course: same PC and mode, same loop, same writes in their shadow. -/
structure SameCourse (a b : Arch) : Prop where
  pc : a.pc = b.pc
  pl : a.pl = b.pl
  corecfg : a.corecfg = b.corecfg
  pxbase : a.pxbase = b.pxbase
  ld : a.ld = b.ld
  le : a.le = b.le
  shadow : a.shadow = b.shadow

theorem SameCourse.refl (a : Arch) : SameCourse a a := ⟨rfl, rfl, rfl, rfl, rfl, rfl, rfl⟩

theorem SameCourse.of_eq {a b : Arch} (h : a = b) : SameCourse a b := h ▸ SameCourse.refl a

theorem SameCourse.trans {a b c : Arch} (h : SameCourse a b) (g : SameCourse b c) : SameCourse a c :=
  ⟨h.pc.trans g.pc, h.pl.trans g.pl, h.corecfg.trans g.corecfg, h.pxbase.trans g.pxbase, h.ld.trans g.ld, h.le.trans g.le, h.shadow.trans g.shadow⟩

theorem SameCourse.compat {a b : Arch} (h : SameCourse a b) : a.compat = b.compat := by
  rw [Arch.compat, Arch.compat, h.pl, h.corecfg]

theorem SameCourse.nextPc {a b : Arch} (h : SameCourse a b) (len : Nat) : nextPc a len = nextPc b len := by
  simp only [Machine.nextPc, Arch.map, h.compat, h.pc, h.pxbase]

/-- From s to t core k goes on to the end of its instruction: its course stays, nothing asks it to stop, no test fires,
and no checkpoint comes nearer by more than one entry of the store buffer (R437). -/
structure GoesOn (k : Nat) (s t : State) : Prop where
  course : SameCourse (t.arch k) (s.arch k)
  stop : (t.core k).stop = (s.core k).stop
  split : t.split k = s.split k
  since : (t.core k).since ≤ (s.core k).since
  stores : (t.core k).stores.length ≤ (s.core k).stores.length + 1
  pair : t.pair = s.pair

theorem GoesOn.of_steady (h : Steady k s t) : GoesOn k s t :=
  ⟨SameCourse.of_eq h.arch, h.stop, h.split, h.since, Nat.le_succ_of_le h.stores, h.pair⟩

theorem GoesOn.after_steady (h : Steady k s t) (g : GoesOn k t u) : GoesOn k s u :=
  ⟨g.course.trans (SameCourse.of_eq h.arch), g.stop.trans h.stop, g.split.trans h.split, Nat.le_trans g.since h.since,
   Nat.le_trans g.stores (Nat.succ_le_succ h.stores), g.pair.trans h.pair⟩

theorem GoesOn.then_steady (h : GoesOn k s t) (g : Steady k t u) : GoesOn k s u :=
  ⟨(SameCourse.of_eq g.arch).trans h.course, g.stop.trans h.stop, g.split.trans h.split,
   Nat.le_trans g.since h.since, Nat.le_trans g.stores h.stores, g.pair.trans h.pair⟩

theorem GoesOn.setArch {a : Arch} (h : GoesOn k s t) (ha : SameCourse a (t.arch k)) : GoesOn k s (t.setArch k a) :=
  ⟨by rw [State.setArch_arch]; exact ha.trans h.course, by rw [State.setArch_core]; exact h.stop, h.split,
   by rw [State.setArch_core]; exact h.since, by rw [State.setArch_core]; exact h.stores, h.pair⟩

/-- One instruction later: the results on their way are one nearer. -/
def Arch.ticked (a : Arch) : Arch := { a with inflight := tickInflight a.inflight }

theorem SameCourse.ticked (a : Arch) : SameCourse a.ticked a := ⟨rfl, rfl, rfl, rfl, rfl, rfl, rfl⟩

theorem Arch.ticked_calm {a : Arch} (h : a.inflight = []) : a.ticked = a := by
  unfold Arch.ticked
  rw [h, tickInflight, ← h]

theorem ended_setArch (a b : Arch) : ended k b (s.setArch k a) = ended k b s := by
  simp [ended]

/-- An instruction that falls through leaves what its body left, its results one nearer and pc at the next instruction. -/
theorem issue_goesOn (I : Issues k len s s1) (C : Calm k s) (hb : body s1 = .ok none t) (G : GoesOn k s1 t) :
    issue k len body s = ended k ((t.arch k).ticked.after len) t := by
  have C1 := I.calm C
  have ha : s1.arch k = s.arch k := I.arch C.flight k
  have hc := G.course
  rw [ha] at hc
  have hck : t.split k = true ∨ (t.core k).since < 255 ∧ (t.core k).stores.length < 24 := by
    have h1 := G.since
    have h2 := G.stores
    rcases C1.ckpt with h | ⟨h, h'⟩
    · exact .inl (G.split.trans h)
    · exact .inr ⟨by omega, by omega⟩
  have hstop : ((ended k { t.arch k with pc := nextPc (s.arch k) len, inflight := tickInflight (t.arch k).inflight } t).core k).stop = 0 := by
    rw [ended_core]
    exact G.stop.trans C1.stop
  have hpc : nextPc (t.arch k).ticked len = nextPc (s.arch k) len := (SameCourse.ticked _).trans hc |>.nextPc len
  rw [issue, issueAny_ok I C.flight G.pair hb, retire_next (hc.shadow.trans C.shadow) (by rw [hc.ld, hc.le]; exact C.loop) hck, dueStop_none hstop, Arch.after, hpc]
  rfl

/-- The same with no result on its way. -/
theorem issue_goesOn_falls (I : Issues k len s s1) (C : Calm k s) (hb : body s1 = .ok none t) (G : GoesOn k s1 t) (hf : (t.arch k).inflight = []) :
    .next (issue k len body s) = falls k len t := by
  rw [issue_goesOn I C hb G, Arch.ticked_calm hf, falls]

/-- In split execution, or with few instructions and stores since the last one, no checkpoint falls due (R437). -/
theorem dueCheckpoint_none (h : s.split k = true ∨ (s.core k).since < 256 ∧ (s.core k).stores.length < 24) : dueCheckpoint k s = s := by
  rcases h with h | ⟨h1, h2⟩
  · simp only [dueCheckpoint, h, Bool.not_true, Bool.false_and, Bool.false_eq_true, if_false]
  · exact dueCheckpoint_early h1 h2

/-- The end of an instruction that goes to a target, with nothing on its way and nothing in a shadow. -/
theorem retire_goesTo {here next target : W40} (hf : (s.arch k).inflight = []) (hs : (s.arch k).shadow = []) :
    retire k here next (some target) s = dueCheckpoint k (ended k { s.arch k with pc := (s.arch k).map target } s) := by
  rw [← counted_setArch]
  simp only [retire, counted, State.setArch_arch, State.setArch_setArch, hf, tickInflight, tickShadow, hs, List.filter_nil, List.map_nil, List.foldl_nil]

/-- An instruction that goes to a target leaves pc there, as the mode maps it (R155), and closes no loop body. -/
theorem issue_goesTo {target : W40} (I : Issues k len s s1) (C : Calm k s) (hb : body s1 = .ok (some target) s1) :
    .next (issue k len body s) = goesTo k len target s1 := by
  have C1 := I.calm C
  have hck : s1.split k = true ∨ (s1.core k).since + 1 < 256 ∧ (s1.core k).stores.length < 24 :=
    C1.ckpt.imp_right fun ⟨h1, h2⟩ => ⟨by omega, by omega⟩
  rw [issue, issueAny_ok I C.flight rfl hb, retire_goesTo C1.flight C1.shadow, dueCheckpoint_none (by rw [ended_core]; exact hck), dueStop_none, goesTo]
  rw [ended_core]
  exact C1.stop

/-- A precise trap of the instruction itself: the state is as the fetch left it. -/
theorem issue_trapsAt {t : Trap} (I : Issues k len s s1) (C : Calm k s) (hb : body s1 = .trap t s1) (hc : t.cause ∉ [1, 2, 14, 19, 21]) :
    .next (issue k len body s) = trapsAt k t.cause t.addr t.detail s s1 := by
  simp only [List.mem_cons, List.not_mem_nil, or_false, not_or] at hc
  obtain ⟨h1, h2, h14, h19, h21⟩ := hc
  rw [issue, issueAny_trap I C.flight rfl hb, if_neg h19, placeTrap, if_neg (by simp [h14, h21]), if_neg (by simp [h1, h2])]
  rfl

end
end Sys2Proof.Machine
end

section
namespace Sys2Proof.Machine

section
variable {k len : Nat} {s s1 : State} {body : State → Res (Option W40)}

/-! ### What an instruction reads on the fetched state -/

theorem Issues.rdD (I : Issues k len s s1) (C : Calm k s) (x : Reg) (slot : Nat) : rdD k x slot s1 = (s.arch k).regD x.toNat := by
  rw [rdD_calm (I.calm C).flight, I.arch C.flight]

theorem Issues.rdA (I : Issues k len s s1) (C : Calm k s) (x : Reg) (slot : Nat) : rdA k x slot s1 = (s.arch k).regA x.toNat := by
  rw [rdA_calm (I.calm C).flight, I.arch C.flight]

theorem Issues.rdS (I : Issues k len s s1) (C : Calm k s) (x : Reg) : rdS k x s1 = (s.arch k).regS x.toNat := by
  rw [Machine.rdS, I.arch C.flight]

theorem Issues.rdPair (I : Issues k len s s1) (C : Calm k s) (x : Reg) (slot : Nat) : rdPair k x slot s1 = (s.arch k).pair x := by
  rw [Machine.rdPair, I.rdD C, I.rdD C, Arch.pair]

theorem need_pos {c : Bool} {w0 : Word} (h : c = true) : need c w0 body s = body s := if_pos h

theorem evenReg_iff {x : Reg} : evenReg x = true ↔ x.toNat % 2 = 0 := decide_eq_true_iff

/-! ### Instructions that end with one register written -/

section
variable {x : Reg} {v w : W40}

theorem issue_setsA (I : Issues k len s s1) (C : Calm k s) (hb : body s1 = goOn (wrA k x w s1)) (hv : w = v) :
    .next (issue k len body s) = setsA k len x v s1 := congrArg _ (issue_putA (d := 1) I C (hv ▸ hb))

theorem issue_setsS (I : Issues k len s s1) (C : Calm k s) (hb : body s1 = goOn (wrS k x w s1)) (hv : w = v) :
    .next (issue k len body s) = setsS k len x v s1 := congrArg _ (issue_putS I C (hv ▸ hb))

theorem issue_setsPair (I : Issues k len s s1) (C : Calm k s) (hb : body s1 = goOn (wrPair k x w s1)) (hv : w = v) :
    .next (issue k len body s) = setsPair k len x v 1 s1 := congrArg _ (issue_putPair (d := 1) I C (hv ▸ hb))

end

/-! ### Branches -/

theorem issue_jumps {t target : W40} (I : Issues k len s s1) (C : Calm k s) (hb : body s1 = jump t s1) (ht : t = target) :
    .next (issue k len body s) = goesTo k len target s1 := issue_goesTo I C (ht ▸ hb)

theorem issue_fallsThrough (I : Issues k len s s1) (C : Calm k s) (hb : body s1 = goOn s1) :
    .next (issue k len body s) = falls k len s1 := congrArg _ (issue_falls I C hb)

theorem Issues.branchAt {n : Nat} (I : Issues k len s s1) (C : Calm k s) (disp : BitVec n) : branchAt k disp s1 = (s.arch k).pc + disp.signExtend 40 := by
  rw [Machine.branchAt, I.arch C.flight, sextA]

/-- R189: a conditional branch goes to its target where its condition holds and else falls through. -/
theorem issue_branchIf {n : Nat} {c : Bool} {disp : BitVec n} (I : Issues k len s s1) (C : Calm k s) (hb : body s1 = branchIf k c disp s1) :
    .next (issue k len body s) = if c then goesTo k len ((s.arch k).pc + disp.signExtend 40) s1 else falls k len s1 := by
  cases c with
  | true => exact issue_jumps I C hb (I.branchAt C disp)
  | false => exact issue_fallsThrough I C hb

theorem issue_branchZero {n : Nat} {x : Reg} {disp : BitVec n} (I : Issues k len s s1) (C : Calm k s)
    (hb : body s1 = branchIf k (decide (rdD k x 0 s1 = 0)) disp s1) :
    .next (issue k len body s) = if (s.arch k).regD x.toNat = 0 then goesTo k len ((s.arch k).pc + disp.signExtend 40) s1 else falls k len s1 := by
  rw [issue_branchIf I C hb, I.rdD C]
  simp only [decide_eq_true_eq]

theorem issue_branchNonzero {n : Nat} {x : Reg} {disp : BitVec n} (I : Issues k len s s1) (C : Calm k s)
    (hb : body s1 = branchIf k (decide (rdD k x 0 s1 ≠ 0)) disp s1) :
    .next (issue k len body s) = if (s.arch k).regD x.toNat = 0 then falls k len s1 else goesTo k len ((s.arch k).pc + disp.signExtend 40) s1 := by
  rw [issue_branchIf I C hb, I.rdD C]
  simp only [decide_eq_true_eq, ite_not]

theorem sysReg_eq_mod (imm : BitVec 10) : (sysReg imm).toNat = imm.toNat % 16 := BitVec.toNat_setWidth 4 imm

end
end Sys2Proof.Machine
end

section
open Sys2Proof Sys2Proof.Machine

/-- Settles O12: each form reads its operands as they stand on the fetched state and writes one register. -/
theorem addressForms : Obligations.AddressForms := by
  unfold Obligations.AddressForms
  refine ⟨fun k x y imm s s1 I C => ?short, fun k xa xb xc imm s s1 I C => ?long⟩
  case short =>
    refine ⟨issue_setsA I C rfl ?aadd, issue_setsA I C rfl ?asub, issue_setsA I C rfl ?aadds, issue_setsA I C rfl (I.rdA C y 1), issue_setsA I C rfl ?aaddd,
      issue_setsA I C rfl ?aaddi, issue_setsS I C rfl (I.rdS C y), issue_setsS I C rfl ?sneg, fun hy => ⟨?adw, ?sdw⟩, fun hx => ⟨?dwa, ?dws⟩⟩
    case aadd | asub => simp only [I.rdA C]
    case aadds => simp only [I.rdA C, I.rdS C]
    case aaddd => simp only [I.rdA C, I.rdD C, sextA]
    case aaddi => rw [I.rdA C, sextA]
    case sneg => exact (BitVec.zero_sub _).trans (congrArg _ (I.rdS C y))
    case adw => exact issue_setsA I C (need_pos (evenReg_iff.2 hy)) (I.rdPair C y 1)
    case sdw => exact issue_setsS I C (need_pos (evenReg_iff.2 hy)) (I.rdPair C y 1)
    case dwa => exact issue_setsPair I C (need_pos (evenReg_iff.2 hx)) (I.rdA C y 1)
    case dws => exact issue_setsPair I C (need_pos (evenReg_iff.2 hx)) (I.rdS C y)
  case long =>
    refine ⟨issue_setsA I C rfl rfl, issue_setsA I C rfl ?lahi, issue_setsS I C rfl rfl, issue_setsA I C rfl ?aaddl⟩
    case lahi => rw [I.rdA C]
    case aaddl => rw [I.rdA C, sextA]

/-- Settles O20: the conditional branches by what DX holds, the others by their target. -/
theorem branches : Obligations.Branches := by
  unfold Obligations.Branches
  intro k x imm disp l s s1 C pc dx
  refine ⟨fun I => ⟨issue_branchZero I C rfl, issue_branchNonzero I C rfl, issue_jumps I C rfl (I.branchAt C disp), issue_jumps I C rfl ?jr⟩,
    fun I => ⟨issue_branchZero I C (need_pos rfl), issue_branchNonzero I C (need_pos rfl), issue_jumps I C (need_pos rfl) (I.branchAt C l)⟩⟩
  case jr => rw [I.rdA C, sysReg_eq_mod]

end

/-! ## Accesses of the bench, loads, stores and the stack -/

section
namespace Sys2Proof.Machine

section
variable {k n : Nat} {x : W40} {ws : List Word} {s : State}

/-! ### Bench words are translated, read and buffered as they stand (R79, R80, R167, R168) -/

/-- The end of the part of the bench's window that core k may use. -/
def benchEnd (k : Nat) (s : State) : Nat := if s.split k then 0xFFFFFC0000 else 2 ^ 40

theorem benchEnd_le : benchEnd k s ≤ 2 ^ 40 := by
  unfold benchEnd
  split <;> omega

theorem xlateWord_bench {xl : Xl} {acc : Acc} {v : Nat} (hv : 0xFFFFF80000 ≤ v) (he : v < benchEnd k s) :
    xlateWord (.core k) xl acc v n s = .ok (.bench (benchIndex k (v - 0xFFFFF80000) s)) s := by
  unfold xlateWord benchIndex
  rw [if_neg (by omega), if_neg (by omega), if_neg (by omega), if_pos hv]
  cases hs : s.split k with
  | false => simp only [State.split] at hs; simp [hs]
  | true =>
    have : v - 0xFFFFF80000 < 262144 := by
      rw [benchEnd, hs, if_pos rfl] at he
      omega
    simp only [State.split] at hs
    simp [hs, this]

theorem samePage_bench {v : Nat} {p : Place} (h : p.isBench = true) : samePage v p = false := by
  cases p with
  | bench w => rfl
  | dev a => cases h
  | host a => cases h
  | yard w => cases h

theorem map_range_add_succ {α : Type} (f : Nat → α) (o n : Nat) :
    ((List.range (n + 1)).map fun i => f (o + i)) = f o :: (List.range n).map fun i => f (o + 1 + i) := by
  simp only [List.range_succ_eq_map, List.map_cons, List.map_map, Function.comp_def, Nat.add_zero, Nat.succ_eq_add_one, Nat.add_assoc, Nat.add_comm 1]

/-- No bench word's place stands for the next word's, so each word of the bench is translated by itself. -/
theorem xlateFrom_bench {xl : Xl} {acc : Acc} : ∀ (n v : Nat) (prev : Option Place), prev.all Place.isBench = true → 0xFFFFF80000 ≤ v → v + n ≤ benchEnd k s →
    xlateFrom (.core k) xl acc n v prev s = .ok ((List.range n).map fun i => .bench (benchIndex k (v - 0xFFFFF80000 + i) s)) s := by
  intro n
  induction n with
  | zero => intros; rfl
  | succ n ih =>
    intro v prev hp hv he
    have hend := benchEnd_le (k := k) (s := s)
    have hm : v % 2 ^ 40 = v := Nat.mod_eq_of_lt (by omega)
    have hw : xlateWord (.core k) xl acc v (n + 1) s = .ok (.bench (benchIndex k (v - 0xFFFFF80000) s)) s := xlateWord_bench hv (by omega)
    have rest := ih (v + 1) (some (.bench (benchIndex k (v - 0xFFFFF80000) s))) rfl (by omega) (by omega)
    have shift : v + 1 - 0xFFFFF80000 = v - 0xFFFFF80000 + 1 := by omega
    rw [shift] at rest
    rw [map_range_add_succ fun o => Place.bench (benchIndex k o s)]
    cases prev with
    | none => simp only [xlateFrom, hm, hw, Res.bind, rest]
    | some p =>
      simp only [xlateFrom, hm, samePage_bench hp, hw, Res.bind, rest, Bool.false_eq_true, if_false]

theorem xlate_bench {xl : Xl} {acc : Acc} (h : onBench k x n s) : xlate (.core k) xl acc ((s.arch k).map x).toNat n s = .ok (benchPlaces k x n s) s :=
  xlateFrom_bench n _ none rfl h.1 h.2

theorem readSmall_bench {acc : Acc} {v w : Nat} (h : tget .good (s.bent (k / 2)).bad w = .good) :
    readSmall (.core k) acc v (.bench w) s = .ok (tget 0 (s.bent (k / 2)).bench w) s := by
  simp only [readSmall, readSmallQ, sramRead, benchWord, Who.bent, h, Res.raise, Res.bind]

theorem loadFrom_bench : ∀ (as : List Nat) (fuel v : Nat), as.length ≤ fuel → (∀ w ∈ as, tget .good (s.bent (k / 2)).bad w = .good) →
    loadFrom k fuel v (as.map .bench) s = .ok (as.map fun w => tget 0 (s.bent (k / 2)).bench w) s := by
  intro as
  induction as with
  | nil => intro fuel v _ _; cases fuel <;> rfl
  | cons w as ih =>
    intro fuel v hl hg
    cases fuel with
    | zero => cases hl
    | succ fuel =>
      have rest := ih fuel (v + 1) (Nat.le_of_succ_le_succ hl) fun a ha => hg a (List.mem_cons_of_mem _ ha)
      simp only [List.map_cons, loadFrom, readSmall_bench (hg w List.mem_cons_self), Res.bind, rest]

theorem benchPlaces_eq : benchPlaces k x n s = ((List.range n).map fun i => benchAt k x i s).map .bench := by
  rw [benchPlaces, List.map_map]
  rfl

/-- A load of good words of the bench that no buffered store holds completes with what they hold. -/
theorem load_bench (hf : (s.arch k).inflight = []) (h : benchReads k x n s) : load k x n s = .ok (benchLoad k x n s) s := by
  obtain ⟨hon, hgood, hyoung⟩ := h
  have all : (benchPlaces k x n s).all Place.isBench = true := by
    rw [benchPlaces_eq]
    simp [Place.isBench]
  have read : loadFrom k n ((s.arch k).map x).toNat (benchPlaces k x n s) s = .ok (benchHolds k x n s) s := by
    rw [benchPlaces_eq, loadFrom_bench _ n _ (by simp) (by simpa using hgood), List.map_map]
    rfl
  simp only [load, loadAt, noteAccess_calm hf, xlate_bench hon, Res.bind, hyoung, all, read, if_true, benchLoad]

theorem entriesOf_length_le (func : Nat) (rel : Bool) : ∀ (ps : List Place) (ws : List Word), (entriesOf func rel ps ws).length ≤ (ws.length + 1) / 2
  | p :: q :: ps, v :: w :: ws => by
    have := entriesOf_length_le func rel ps ws
    simp only [entriesOf, List.length_cons]
    omega
  | [p], [w] => by simp [entriesOf]
  | [], _ => by simp [entriesOf]
  | _ :: _, [] => by simp [entriesOf]
  | [_], _ :: _ :: _ => by simp [entriesOf]
  | _ :: _ :: _, [_] => by simp [entriesOf]

/-- Words for the bench enter a buffer with room. -/
theorem bufferStore_bench (h : benchWrites k x ws s) :
    bufferStore k (coreXl k (s.arch k).pl.toNat s).func (benchPlaces k x ws.length s) ws s = .ok () (buffered k x ws s) := by
  obtain ⟨_, _, hroom⟩ := h
  have := entriesOf_length_le (coreXl k (s.arch k).pl.toNat s).func (s.split k) (benchPlaces k x ws.length s) ws
  exact if_neg (by omega)

/-- Outside compatibility mode no store meets the code the core holds (R205). -/
theorem storeCode_native {v : Nat} {ps : List Place} (h : (s.arch k).compat = false) : storeCode k v ps s = s := by
  simp only [storeCode, h, Bool.not_false, if_true]

theorem buffered_arch : (buffered k x ws s).arch k = s.arch k := by
  simp [buffered, State.arch]

theorem store_bench (hf : (s.arch k).inflight = []) (h : benchWrites k x ws s) : store k x ws s = .ok () (buffered k x ws s) := by
  simp only [store, storeAt, noteAccess_calm hf, xlate_bench h.1, Res.bind, bufferStore_bench h]
  rw [storeCode_native]
  rw [buffered_arch]
  exact h.2.1

end
end Sys2Proof.Machine
end

section
namespace Sys2Proof.Machine

section
variable {k len n : Nat} {x a : W40} {ws : List Word} {s s1 s2 t : State} {body : State → Res (Option W40)}

/-! ### What a load, a store, a push and a pop leave of the core -/

/-- R205: what a store does to code the core holds leaves its registers, and its store buffer no longer. -/
theorem storeCode_steady {v : Nat} {ps : List Place} (hs : (s.arch k).shadow = []) (T : testArmed k s = false) : Steady k s (storeCode k v ps s) := by
  have drawn : Steady k s s.drawn := ⟨rfl, rfl, rfl, Nat.le_refl _, Nat.le_refl _, rfl, id⟩
  unfold storeCode
  dsimp only
  split
  · exact .refl s
  · split
    · exact (drainAll_steady hs T).trans (setBent_steady rfl)
    · split
      · split
        · exact drawn.trans (drainAll_steady hs T)
        · exact drawn
      · exact .refl s

theorem bufferStore_ok {func : Nat} {ps : List Place} (h : bufferStore k func ps ws s = .ok () t) :
    t = s.setCore k { s.core k with stores := (s.core k).stores ++ entriesOf func (s.split k) ps ws } := by
  unfold bufferStore at h
  dsimp only at h
  split at h
  · cases h
  · cases h
    rfl

theorem bufferStore_arch {func : Nat} {ps : List Place} (h : bufferStore k func ps ws s = .ok () t) : t.arch k = s.arch k := by
  rw [bufferStore_ok h, State.arch, State.setCore_core]
  rfl

/-- R167: a store of one or two words takes at most one entry of the buffer. -/
theorem bufferStore_goesOn {func : Nat} {ps : List Place} (hw : ws.length ≤ 2) (h : bufferStore k func ps ws s = .ok () t) : GoesOn k s t := by
  have hl := entriesOf_length_le func (s.split k) ps ws
  obtain rfl := bufferStore_ok h
  refine ⟨SameCourse.of_eq (bufferStore_arch h), by rw [State.setCore_core], rfl, Nat.le_of_eq (by rw [State.setCore_core]), ?stores, rfl⟩
  case stores =>
    rw [State.setCore_core, List.length_append]
    omega

/-- A write of AX with nothing on its way, as the mode writes it (R151, R156). -/
theorem wrA_calm (h : (s.arch k).inflight = []) (x : Reg) (v : W40) :
    wrA k x v s = s.setArch k { s.arch k with a := tset 0 (s.arch k).a x.toNat ((s.arch k).wrapA v) } := by
  rw [wrA, wrAd_calm h]
  simp only [Nat.le_refl, decide_true, Bool.or_true, if_true]
  rw [← h]

theorem store_leaves (hf : (s.arch k).inflight = []) (hs : (s.arch k).shadow = []) (T : testArmed k s = false) (hw : ws.length ≤ 2) (h : store k x ws s = .ok () t) :
    GoesOn k s t ∧ (t.arch k).inflight = [] := by
  unfold store storeAt at h
  extract_lets v xl at h
  rw [noteAccess_calm hf] at h
  obtain ⟨ps, m, h1, h⟩ := Res.bind_ok h
  obtain ⟨_, b, h2, h3⟩ := Res.bind_ok h
  cases h3
  have S : Steady k s m := xlate_steady h1
  have G : GoesOn k s b := .after_steady S (bufferStore_goesOn hw h2)
  have e : b.arch k = s.arch k := (bufferStore_arch h2).trans S.arch
  have T' : testArmed k b = false := by
    rw [bufferStore_ok h2]
    exact S.tested.trans T
  have S' : Steady k b (storeCode k v ps b) := storeCode_steady (by rw [e]; exact hs) T'
  exact ⟨G.then_steady S', by rw [S'.arch, e]; exact hf⟩

/-- R186: where a push of n words would move A15. -/
def pushBase (k n : Nat) (s : State) : W40 := (s.arch k).wrapA ((s.arch k).regA 15 - BitVec.ofNat 40 n)

theorem rdA15_calm (hf : (s.arch k).inflight = []) : rdA k 15 3 s = (s.arch k).regA 15 := rdA_calm hf 15 3

theorem push_belowSill (hf : (s.arch k).inflight = []) (h : (pushBase k ws.length s).toNat < (s.arch k).sill.toNat) :
    push k ws s = .trap (trapOf 13 ((s.arch k).map (pushBase k ws.length s)).toNat 0) s := by
  unfold push
  rw [rdA15_calm hf]
  exact if_pos h

/-- R137, R167, R186: a push that is translated and finds room stores its words, moves A15 and then meets the code the core holds. -/
theorem push_stores {ps : List Place} {m b : State} (hf : (s.arch k).inflight = []) (h : (s.arch k).sill.toNat ≤ (pushBase k ws.length s).toNat)
    (hx : xlate (.core k) (coreXl k (s.arch k).pl.toNat s) .write ((s.arch k).map (pushBase k ws.length s)).toNat ws.length s = .ok ps m)
    (hb : bufferStore k (coreXl k (s.arch k).pl.toNat s).func ps ws m = .ok () b) :
    push k ws s = .ok () (storeCode k ((s.arch k).map (pushBase k ws.length s)).toNat ps (wrA k 15 (pushBase k ws.length s) b)) := by
  unfold pushBase at *
  unfold push
  rw [rdA15_calm hf]
  dsimp only
  rw [noteAccess_calm hf, if_neg (Nat.not_lt.2 h)]
  simp only [hx, hb, Res.bind]

/-- A push that completes went that way. -/
theorem push_ok (hf : (s.arch k).inflight = []) (h : push k ws s = .ok () t) :
    ∃ ps m b, xlate (.core k) (coreXl k (s.arch k).pl.toNat s) .write ((s.arch k).map (pushBase k ws.length s)).toNat ws.length s = .ok ps m ∧
      bufferStore k (coreXl k (s.arch k).pl.toNat s).func ps ws m = .ok () b ∧
      t = storeCode k ((s.arch k).map (pushBase k ws.length s)).toNat ps (wrA k 15 (pushBase k ws.length s) b) := by
  by_cases hlow : (pushBase k ws.length s).toNat < (s.arch k).sill.toNat
  · rw [push_belowSill hf hlow] at h
    cases h
  · unfold pushBase at *
    unfold push at h
    rw [rdA15_calm hf] at h
    dsimp only at h
    rw [noteAccess_calm hf, if_neg hlow] at h
    split at h
    · cases h
    · cases h
    · next ps m hx =>
      obtain ⟨_, b, hb, h⟩ := Res.bind_ok h
      cases h
      exact ⟨ps, m, b, hx, hb, rfl⟩

theorem push_leaves (hf : (s.arch k).inflight = []) (hs : (s.arch k).shadow = []) (T : testArmed k s = false) (hw : ws.length ≤ 2) (h : push k ws s = .ok () t) :
    GoesOn k s t ∧ (t.arch k).inflight = [] := by
  obtain ⟨ps, m, b, hx, hb, rfl⟩ := push_ok hf h
  have S : Steady k s m := xlate_steady hx
  have e : b.arch k = s.arch k := (bufferStore_arch hb).trans S.arch
  have hfb : (b.arch k).inflight = [] := by rw [e]; exact hf
  have T' : testArmed k b = false := by
    rw [bufferStore_ok hb]
    exact S.tested.trans T
  rw [wrA_calm hfb]
  have G : GoesOn k s (b.setArch k { b.arch k with a := tset 0 (b.arch k).a (15 : Reg).toNat ((b.arch k).wrapA (pushBase k ws.length s)) }) :=
    (GoesOn.after_steady S (bufferStore_goesOn hw hb)).setArch ⟨rfl, rfl, rfl, rfl, rfl, rfl, rfl⟩
  have S' := storeCode_steady (k := k) (v := ((s.arch k).map (pushBase k ws.length s)).toNat) (ps := ps) (G.course.shadow.trans hs) T'
  refine ⟨G.then_steady S', ?_⟩
  rw [S'.arch, State.setArch_arch]
  exact hfb

/-- R156: outside compatibility mode a push moves A15 modulo 2^40. -/
theorem pushBase_native (hc : (s.arch k).compat = false) (n : Nat) : pushBase k n s = (s.arch k).regA 15 - BitVec.ofNat 40 n := by
  simp only [pushBase, Arch.wrapA, hc, Bool.false_eq_true, if_false]

theorem map_native {r : Arch} (hc : r.compat = false) (x : W40) : r.map x = x := by
  simp only [Arch.map, hc, Bool.false_eq_true, if_false]

theorem wrapA_native {r : Arch} (hc : r.compat = false) (x : W40) : r.wrapA x = x := by
  simp only [Arch.wrapA, hc, Bool.false_eq_true, if_false]

/-- Outside compatibility mode a push leaves its words in the buffer and A15 below them. -/
theorem push_native {ps : List Place} {m b : State} (hf : (s.arch k).inflight = []) (hc : (s.arch k).compat = false)
    (h : (s.arch k).sill.toNat ≤ ((s.arch k).regA 15 - BitVec.ofNat 40 ws.length).toNat)
    (hx : xlate (.core k) (coreXl k (s.arch k).pl.toNat s) .write ((s.arch k).regA 15 - BitVec.ofNat 40 ws.length).toNat ws.length s = .ok ps m)
    (hb : bufferStore k (coreXl k (s.arch k).pl.toNat s).func ps ws m = .ok () b) :
    push k ws s = .ok () (b.setArch k { s.arch k with a := tset 0 (s.arch k).a 15 ((s.arch k).regA 15 - BitVec.ofNat 40 ws.length) }) := by
  have S : Steady k s m := xlate_steady hx
  have e : b.arch k = s.arch k := (bufferStore_arch hb).trans S.arch
  have hfb : (b.arch k).inflight = [] := by rw [e]; exact hf
  rw [← pushBase_native hc] at h hx ⊢
  rw [push_stores hf h (by rw [map_native hc]; exact hx) hb, wrA_calm hfb, e, wrapA_native hc, storeCode_native]
  · rfl
  · rw [State.setArch_arch]
    exact hc

theorem push_bench (hf : (s.arch k).inflight = []) (h : benchWrites k ((s.arch k).regA 15 - BitVec.ofNat 40 ws.length) ws s)
    (hsill : (s.arch k).sill.toNat ≤ ((s.arch k).regA 15 - BitVec.ofNat 40 ws.length).toNat) :
    push k ws s = .ok () ((buffered k ((s.arch k).regA 15 - BitVec.ofNat 40 ws.length) ws s).setArch k
      { s.arch k with a := tset 0 (s.arch k).a 15 ((s.arch k).regA 15 - BitVec.ofNat 40 ws.length) }) := by
  have hc : (s.arch k).compat = false := h.2.1
  have hx := xlate_bench (xl := coreXl k (s.arch k).pl.toNat s) (acc := .write) h.1
  rw [map_native hc] at hx
  exact push_native hf hc hsill hx (bufferStore_bench h)

/-- R186: a pop reads at A15 and then moves it. -/
theorem pop_eq (hf : (s.arch k).inflight = []) : pop k n s =
    (load k ((s.arch k).regA 15) n s).bind fun r m => .ok r (wrA k 15 ((s.arch k).regA 15 + BitVec.ofNat 40 n) m) := by
  rw [pop, rdA15_calm hf]

theorem pop_leaves {r : Loaded} (C : Calm k s) (T : testArmed k s = false) (h : pop k n s = .ok r t) : GoesOn k s t ∧ (t.arch k).inflight = [] := by
  rw [pop_eq C.flight] at h
  obtain ⟨r', m, h1, h2⟩ := Res.bind_ok h
  cases h2
  have S : Steady k s m := load_steady C T h1
  rw [wrA_calm (S.calm C).flight]
  refine ⟨(GoesOn.of_steady S).setArch ⟨rfl, rfl, rfl, rfl, rfl, rfl, rfl⟩, ?_⟩
  rw [State.setArch_arch]
  exact (S.calm C).flight

theorem pop_bench (hf : (s.arch k).inflight = []) (h : benchReads k ((s.arch k).regA 15) n s) :
    pop k n s = .ok (benchLoad k ((s.arch k).regA 15) n s)
      (s.setArch k { s.arch k with a := tset 0 (s.arch k).a 15 ((s.arch k).wrapA ((s.arch k).regA 15 + BitVec.ofNat 40 n)) }) := by
  rw [pop_eq hf, load_bench hf h, Res.bind, wrA_calm hf]
  rfl

/-! ### Instructions that end with what they loaded (R148) -/

theorem tickInflight_map {f : Inflight → Inflight} (hf : ∀ e, f e = { e with exact := false }) : ∀ l, tickInflight (l.map f) = (tickInflight l).map f
  | [] => rfl
  | e :: es => by
    have ih := tickInflight_map hf es
    simp only [List.map_cons, tickInflight, ih, List.any_map, Function.comp_def, hf]
    split <;> simp [hf]

theorem Arch.ticked_dim (r : Arch) (d : Nat) : (r.dim d).ticked = r.ticked.dim d := by
  unfold Arch.dim
  split
  · rfl
  · simp only [Arch.ticked, tickInflight_map fun _ => rfl]

theorem SameCourse.dim (r : Arch) (d : Nat) : SameCourse (r.dim d) r := by
  unfold Arch.dim
  split
  · exact .refl r
  · exact ⟨rfl, rfl, rfl, rfl, rfl, rfl, rfl⟩

theorem noteLoad_setArch (r : Loaded) (b : Arch) : noteLoad k r (s.setArch k b) = s.setArch k (b.dim r.dist) := by
  unfold noteLoad Arch.dim
  split
  · rfl
  · simp only [endExact, State.setArch_arch, State.setArch_setArch]

/-- An instruction that writes what it loaded into the registers b. -/
theorem issue_delivers {r : Loaded} {b : Arch} (I : Issues k len s s1) (C : Calm k s) (hb : body s1 = goOn (noteLoad k r (s2.setArch k b)))
    (G : GoesOn k s1 s2) (hc : SameCourse b (s2.arch k)) : issue k len body s = ended k ((b.ticked.dim r.dist).after len) s2 := by
  rw [noteLoad_setArch] at hb
  rw [issue_goesOn I C hb (G.setArch ((SameCourse.dim b r.dist).trans hc)), State.setArch_arch, ended_setArch, Arch.ticked_dim]

theorem issue_loadsD {X : Reg} {r : Loaded} (I : Issues k len s s1) (C : Calm k s) (G : GoesOn k s1 s2 ∧ (s2.arch k).inflight = [])
    (hb : body s1 = goOn (noteLoad k r (wrDd k X r.dist (r.words.headD 0) s2))) : .next (issue k len body s) = loadsD k len X r s2 := by
  rw [wrDd_calm G.2] at hb
  rw [issue_delivers I C hb G.1 ⟨rfl, rfl, rfl, rfl, rfl, rfl, rfl⟩, loadsD, Arch.ticked, tick_flying, Arch.putD]

theorem issue_loadsA {X : Reg} {r : Loaded} (I : Issues k len s s1) (C : Calm k s) (G : GoesOn k s1 s2 ∧ (s2.arch k).inflight = [])
    (hb : body s1 = goOn (noteLoad k r (wrAd k X r.dist (pairOf r.words) s2))) : .next (issue k len body s) = loadsA k len X r s2 := by
  rw [wrAd_calm G.2] at hb
  rw [issue_delivers I C hb G.1 ⟨rfl, rfl, rfl, rfl, rfl, rfl, rfl⟩, loadsA, Arch.ticked, tick_flying, Arch.putA]

theorem issue_loadsPair {X : Reg} {r : Loaded} (I : Issues k len s s1) (C : Calm k s) (G : GoesOn k s1 s2 ∧ (s2.arch k).inflight = [])
    (hb : body s1 = goOn (noteLoad k r (wrPairD k X r.dist (pairOf r.words) s2))) : .next (issue k len body s) = loadsPair k len X r s2 := by
  rw [wrPairD_calm G.2] at hb
  rw [issue_delivers I C hb G.1 ⟨rfl, rfl, rfl, rfl, rfl, rfl, rfl⟩, loadsPair, Arch.ticked, tick_flying_pair, Arch.putPair]

end
end Sys2Proof.Machine
end

section
namespace Sys2Proof.Machine

section
variable {k len n : Nat} {x y xc : Reg} {a w : W40} {ws vs : List Word} {s s1 s2 : State} {body : State → Res (Option W40)}

/-! ### Addresses and alignment (R185, R210) -/

theorem Issues.addrShort (I : Issues k len s s1) (C : Calm k s) (y : Reg) (off : BitVec 6) :
    addrShort k y off s1 = (s.arch k).regA y.toNat + off.setWidth 40 := by
  rw [Machine.addrShort, I.rdA C]

theorem Issues.addrLong (I : Issues k len s s1) (C : Calm k s) (y : Reg) (imm : Word) :
    addrLong k y imm s1 = (s.arch k).regA y.toNat + imm.signExtend 40 := by
  rw [Machine.addrLong, I.rdA C, sextA]

theorem Issues.addrIndexed (I : Issues k len s s1) (C : Calm k s) (y xc : Reg) (imm : Word) :
    addrIndexed k y xc imm s1 =
      (s.arch k).regA y.toNat + BitVec.ofNat 40 (((s.arch k).regD xc.toNat).toNat * (imm.toNat % 64)) + (imm.extractLsb' 6 14).signExtend 40 := by
  rw [Machine.addrIndexed, I.rdA C, I.rdD C, sextA]
  rfl

theorem factor_ne_zero {imm : Word} (h : imm.toNat % 64 ≠ 0) : decide (bitsOf imm 0 6 ≠ 0) = true := decide_eq_true h

/-- Two words at an odd address trap FORMAT, subcode 1. -/
theorem issue_oddAddr {f : State → Res (Option W40)} (I : Issues k len s s1) (C : Calm k s) (hb : body s1 = evenAddr k w f s1) (hw : w = a) (h : a.toNat % 2 = 1) :
    .next (issue k len body s) = trapsAt k 7 ((s.arch k).map a) 1 s s1 := by
  have e : body s1 = .trap (formatTrap ((s.arch k).map a).toNat 1) s1 := by
    rw [hb, hw, evenAddr, if_neg (by omega), I.arch C.flight]
  rw [issue_trapsAt I C e (by decide : (7 : Nat) ∉ [1, 2, 14, 19, 21]), formatTrap, BitVec.ofNat_toNat, BitVec.setWidth_eq]
  rfl

/-! ### Loads -/

/-- What a load of n words at a leads to: for every load that completes, and so for one of good words of the bench. -/
def Delivers (k : Nat) (a : W40) (n : Nat) (s : State) (done : Loaded → State → Prop) : Prop :=
  (∀ r t, load k a n s = .ok r t → done r t) ∧ (benchReads k a n s → done (benchLoad k a n s) s)

theorem Issues.delivers {done : Loaded → State → Prop} (I : Issues k len s s1) (C : Calm k s)
    (h : ∀ r t, load k a n s1 = .ok r t → GoesOn k s1 t ∧ (t.arch k).inflight = [] → done r t) : Delivers k a n s1 done := by
  have C1 := I.calm C
  have all : ∀ r t, load k a n s1 = .ok r t → done r t := fun r t e =>
    have S := load_steady C1 I.untested1 e
    h r t e ⟨.of_steady S, (S.calm C1).flight⟩
  exact ⟨all, fun hr => all _ _ (load_bench C1.flight hr)⟩

theorem issue_loadD (I : Issues k len s s1) (C : Calm k s) (hb : body s1 = loadD k x w s1) (hw : w = a) :
    Delivers k a 1 s1 fun r t => .next (issue k len body s) = loadsD k len x r t :=
  I.delivers C fun r t e G => issue_loadsD I C G (by rw [hb, hw, loadD, e, Res.bind])

theorem issue_loadA (I : Issues k len s s1) (C : Calm k s) (hb : body s1 = loadA k x w s1) (hw : w = a) (he : a.toNat % 2 = 0) :
    Delivers k a 2 s1 fun r t => .next (issue k len body s) = loadsA k len x r t :=
  I.delivers C fun r t e G => issue_loadsA I C G (by rw [hb, hw, loadA, evenAddr, if_pos he, e, Res.bind])

theorem issue_loadPair (I : Issues k len s s1) (C : Calm k s) (hb : body s1 = loadPair k x w s1) (hw : w = a) (he : a.toNat % 2 = 0) :
    Delivers k a 2 s1 fun r t => .next (issue k len body s) = loadsPair k len x r t :=
  I.delivers C fun r t e G => issue_loadsPair I C G (by rw [hb, hw, loadPair, evenAddr, if_pos he, e, Res.bind])

theorem Delivers.and {p q : Loaded → State → Prop} (h : Delivers k a n s p) (g : Delivers k a n s q) : Delivers k a n s fun r t => p r t ∧ q r t :=
  ⟨fun r t e => ⟨h.1 r t e, g.1 r t e⟩, fun b => ⟨h.2 b, g.2 b⟩⟩

theorem Delivers.imp {c : Prop} {p : Loaded → State → Prop} (h : c → Delivers k a n s p) : Delivers k a n s fun r t => c → p r t :=
  ⟨fun r t e hc => (h hc).1 r t e, fun b hc => (h hc).2 b⟩

/-! ### Stores -/

/-- What a store of the words ws at a leads to: for every store that completes, and so for one to the bench with room in the buffer. -/
def Stores (k : Nat) (a : W40) (ws : List Word) (s : State) (done : State → Prop) : Prop :=
  (∀ t, store k a ws s = .ok () t → done t) ∧ (benchWrites k a ws s → done (buffered k a ws s))

theorem issue_stores (I : Issues k len s s1) (C : Calm k s) (hb : body s1 = (store k a ws s1).bind fun _ t => goOn t) (hw : ws.length ≤ 2) :
    Stores k a ws s1 fun t => .next (issue k len body s) = falls k len t := by
  have C1 := I.calm C
  have all : ∀ t, store k a ws s1 = .ok () t → .next (issue k len body s) = falls k len t := fun t e => by
    obtain ⟨G, hf⟩ := store_leaves C1.flight C1.shadow I.untested1 hw e
    exact issue_goesOn_falls I C (by rw [hb, e, Res.bind, goOn]) G hf
  exact ⟨all, fun h => all _ (store_bench C1.flight h)⟩

theorem issue_storeD (I : Issues k len s s1) (C : Calm k s) (hb : body s1 = storeD k x w s1) (hw : w = a) :
    Stores k a [(s.arch k).regD x.toNat] s1 fun t => .next (issue k len body s) = falls k len t :=
  issue_stores I C (by rw [hb, hw, storeD, I.rdD C]) (Nat.le_succ 1)

theorem issue_storePair (I : Issues k len s s1) (C : Calm k s) (hb : body s1 = storePair k x w s1) (hw : w = a) (he : a.toNat % 2 = 0) :
    Stores k a [(s.arch k).regD x.toNat, (s.arch k).regD (pairHi x).toNat] s1 fun t => .next (issue k len body s) = falls k len t :=
  issue_stores I C (by rw [hb, hw, storePair, evenAddr, if_pos he, I.rdD C, I.rdD C]) (Nat.le_refl 2)

theorem issue_storeA (I : Issues k len s s1) (C : Calm k s) (hb : body s1 = storeA k x w s1) (hw : w = a) (he : a.toNat % 2 = 0) :
    Stores k a (wordsOf ((s.arch k).regA x.toNat)) s1 fun t => .next (issue k len body s) = falls k len t :=
  issue_stores I C (by rw [hb, hw, storeA, evenAddr, if_pos he, I.rdA C]) (Nat.le_refl 2)

/-! ### The stack -/

/-- What a push of the words ws leads to: for every push that completes, and so for one to the bench with room in the buffer. -/
def Pushes (k : Nat) (ws : List Word) (s1 s : State) (done : State → Prop) : Prop :=
  (∀ t, push k ws s1 = .ok () t → done t) ∧
  (benchWrites k ((s.arch k).regA 15 - BitVec.ofNat 40 ws.length) ws s1 → (s.arch k).sill.toNat ≤ ((s.arch k).regA 15 - BitVec.ofNat 40 ws.length).toNat →
    done ((buffered k ((s.arch k).regA 15 - BitVec.ofNat 40 ws.length) ws s1).setArch k
      { s.arch k with a := tset 0 (s.arch k).a 15 ((s.arch k).regA 15 - BitVec.ofNat 40 ws.length) }))

theorem issue_pushes (I : Issues k len s s1) (C : Calm k s) (hb : body s1 = (push k vs s1).bind fun _ t => goOn t) (hv : vs = ws) (hw : ws.length ≤ 2) :
    Pushes k ws s1 s fun t => .next (issue k len body s) = falls k len t := by
  have C1 := I.calm C
  have all : ∀ t, push k ws s1 = .ok () t → .next (issue k len body s) = falls k len t := fun t e => by
    obtain ⟨G, hf⟩ := push_leaves C1.flight C1.shadow I.untested1 hw e
    exact issue_goesOn_falls I C (by rw [hb, hv, e, Res.bind, goOn]) G hf
  refine ⟨all, ?_⟩
  rw [← I.arch C.flight k]
  exact fun h hs => all _ (push_bench C1.flight h hs)

/-- R217: a push that would move A15 below SILL. -/
theorem issue_sill (I : Issues k len s s1) (C : Calm k s) (hb : body s1 = (push k vs s1).bind fun _ t => goOn t) (hv : vs = ws)
    (h : (pushBase k ws.length s).toNat < (s.arch k).sill.toNat) :
    .next (issue k len body s) = trapsAt k 13 ((s.arch k).map (pushBase k ws.length s)) 0 s s1 := by
  have ha := I.arch C.flight k
  have hbase : pushBase k ws.length s1 = pushBase k ws.length s := by rw [pushBase, pushBase, ha]
  have e : body s1 = .trap (trapOf 13 ((s.arch k).map (pushBase k ws.length s)).toNat 0) s1 := by
    rw [hb, hv, push_belowSill (I.calm C).flight (by rw [hbase, ha]; exact h), hbase, ha, Res.bind]
  rw [issue_trapsAt I C e (by decide : (13 : Nat) ∉ [1, 2, 14, 19, 21]), trapOf, BitVec.ofNat_toNat, BitVec.setWidth_eq]
  rfl

/-- What a pop of n words leads to: for every pop that completes, and so for one of good words of the bench. -/
def Pops (k n : Nat) (s1 s : State) (done : Loaded → State → Prop) : Prop :=
  (∀ r t, pop k n s1 = .ok r t → done r t) ∧
  (benchReads k ((s.arch k).regA 15) n s1 → done (benchLoad k ((s.arch k).regA 15) n s1)
    (s1.setArch k { s.arch k with a := tset 0 (s.arch k).a 15 ((s.arch k).wrapA ((s.arch k).regA 15 + BitVec.ofNat 40 n)) }))

theorem Issues.pops {done : Loaded → State → Prop} (I : Issues k len s s1) (C : Calm k s)
    (h : ∀ r t, pop k n s1 = .ok r t → GoesOn k s1 t ∧ (t.arch k).inflight = [] → done r t) : Pops k n s1 s done := by
  have C1 := I.calm C
  have all : ∀ r t, pop k n s1 = .ok r t → done r t := fun r t e => h r t e (pop_leaves C1 I.untested1 e)
  refine ⟨all, ?_⟩
  rw [← I.arch C.flight k]
  exact fun hr => all _ _ (pop_bench C1.flight hr)

end
end Sys2Proof.Machine
end

section
open Sys2Proof Sys2Proof.Machine

/-- Settles O14: each form loads at its address and writes what the load delivers; two words from an odd address trap. -/
theorem loadInstructions : Obligations.LoadInstructions := by
  unfold Obligations.LoadInstructions
  intro k x y xc off imm s s1 C short long indexed given
  refine ⟨fun I => ?short, fun I => ?long⟩
  case short =>
    have ea : addrShort k y off s1 = short := I.addrShort C y off
    refine ⟨issue_loadD I C rfl ea, fun he => Delivers.and ?address (Delivers.imp fun hx => ?pair),
      fun ho => ⟨issue_oddAddr I C rfl ea ho, fun hx => issue_oddAddr I C (need_pos (evenReg_iff.2 hx)) ea ho⟩⟩
    case address => exact issue_loadA I C rfl ea he
    case pair => exact issue_loadPair I C (need_pos (evenReg_iff.2 hx)) ea he
  case long =>
    have ea : addrLong k y imm s1 = long := I.addrLong C y imm
    refine ⟨issue_loadD I C (need_pos rfl) ea, fun he => Delivers.and ?address (Delivers.imp fun hx => ?pair),
      fun ho => ⟨issue_oddAddr I C (need_pos rfl) ea ho, fun hx => issue_oddAddr I C (need_pos (evenReg_iff.2 hx)) ea ho⟩, fun hr => ?indexed⟩
    case address => exact issue_loadA I C (need_pos rfl) ea he
    case pair => exact issue_loadPair I C (need_pos (evenReg_iff.2 hx)) ea he
    case indexed => exact issue_loadD I C (need_pos (factor_ne_zero hr)) (I.addrIndexed C y xc imm)

/-- Settles O15: each form stores at its address what its register holds; two words at an odd address trap. -/
theorem storeInstructions : Obligations.StoreInstructions := by
  unfold Obligations.StoreInstructions
  intro k x y xc off imm s s1 C short long indexed d pr ad given
  refine ⟨fun I => ?short, fun I => ?long⟩
  case short =>
    have ea : addrShort k y off s1 = short := I.addrShort C y off
    exact ⟨issue_storeD I C rfl ea, fun hx he => issue_storePair I C (need_pos (evenReg_iff.2 hx)) ea he, fun he => issue_storeA I C rfl ea he,
      fun ho => ⟨issue_oddAddr I C rfl ea ho, fun hx => issue_oddAddr I C (need_pos (evenReg_iff.2 hx)) ea ho⟩⟩
  case long =>
    have ea : addrLong k y imm s1 = long := I.addrLong C y imm
    exact ⟨issue_storeD I C (need_pos rfl) ea, fun hx he => issue_storePair I C (need_pos (evenReg_iff.2 hx)) ea he, fun he => issue_storeA I C (need_pos rfl) ea he,
      fun ho => ⟨issue_oddAddr I C (need_pos rfl) ea ho, fun hx => issue_oddAddr I C (need_pos (evenReg_iff.2 hx)) ea ho⟩,
      fun hr => issue_storeD I C (need_pos (factor_ne_zero hr)) (I.addrIndexed C y xc imm)⟩

/-- Settles O17: a push and a pop by what the access of the stack leads to, and a push of words outside compatibility mode. -/
theorem stackForms : Obligations.StackForms := by
  unfold Obligations.StackForms
  refine ⟨fun k x s s1 I C => ?forms, fun k ws s hf hc => ?words⟩
  case forms =>
    intro d a top pr ad pushes pops sills
    have ed : [rdD k x 2 s1] = [d] := by rw [I.rdD C]
    have ea : wordsOf (rdA k x 2 s1) = ad := by rw [I.rdA C]; rfl
    have ep : [rdD k x 2 s1, rdD k (pairHi x) 2 s1] = pr := by rw [I.rdD C, I.rdD C]
    refine ⟨issue_pushes I C (need_pos rfl) ed (Nat.le_succ 1), issue_sill I C (need_pos rfl) ed, issue_pushes I C (need_pos rfl) ea (Nat.le_refl 2),
      issue_sill I C (need_pos rfl) ea, fun hx => ⟨?push2, ?sill2⟩, I.pops C fun r t e G => ?pop, fun hx => I.pops C fun r t e G => ?popa, fun hx => I.pops C fun r t e G => ?pop2⟩
    case push2 => exact issue_pushes I C (need_pos (evenReg_iff.2 hx)) ep (Nat.le_refl 2)
    case sill2 => exact issue_sill I C (need_pos (evenReg_iff.2 hx)) ep
    case pop => exact issue_loadsD I C G ((need_pos rfl).trans (by rw [e, Res.bind]))
    case popa => exact issue_loadsA I C G ((need_pos (decide_eq_true hx)).trans (by rw [e, Res.bind]))
    case pop2 => exact issue_loadsPair I C G ((need_pos (evenReg_iff.2 hx)).trans (by rw [e, Res.bind]))
  case words =>
    intro base
    have eb : pushBase k ws.length s = base := pushBase_native hc ws.length
    refine ⟨fun h => ?below, fun s1 s2 ps h hx hb => ⟨_, push_native hf hc h hx hb, ?top, ?stores, rfl⟩⟩
    case below => rw [push_belowSill hf (by rw [eb]; exact h), eb, map_native hc]
    case top => rw [State.setArch_arch, Arch.regA, tget_tset, if_pos rfl]
    case stores => rw [State.setArch_core]

end

/-! ## Traps that enter a handler at supervisor level (R206 to R217) -/

section
namespace Sys2Proof.Machine

section
variable {k len : Nat} {s s1 m u : State} {a : Arch} {xl : Xl} {ps : List Place} {t : Trap}

/-! ### The state on which a trap writes its frame (R152, R167) -/

/-- With no result on its way and nothing in a shadow, settling writes the registers back as they are. -/
theorem settle_calm (C : Calm k s) : settle k s = s.setArch k (s.arch k) := by
  have same : ({ s.arch k with inflight := [], shadow := [] } : Arch) = s.arch k := by rw [← C.shadow, ← C.flight]
  simp only [settle, settleShadow, State.setArch_arch, State.setArch_setArch, C.shadow, List.foldl_nil]
  exact congrArg _ same

/-- Core k settled, running and out of any chain. -/
def trapStart (k : Nat) (s : State) : State := (settle k s).setCore k { (settle k s).core k with run := .running, chain := [], chainKey := none }

theorem trapStart_steady (C : Calm k s) : Steady k s (trapStart k s) := by
  rw [trapStart, settle_calm C]
  exact ⟨by simp, by simp, rfl, by simp, by simp, rfl, fun h => by simpa using h⟩

theorem roomForFrame_steady (hs : (s.arch k).shadow = []) (T : testArmed k s = false) : Steady k s (roomForFrame k s) := by
  unfold roomForFrame
  split
  · exact drainAll_steady hs T
  · exact .refl s

/-! ### The entry of the handler (R211, R213, R214) -/

/-- R207: where the frame of a trap begins. -/
def frameBase (a : Arch) : W40 := a.wrapA (a.regA 15 - 8)

/-- R232: the number of a cause in the mode of the core. -/
def trapNum (a : Arch) (cause : Nat) : Nat := if bitAt a.corecfg 1 then pepixoNum cause else cause

/-- The frame of a trap that reports no pipe work. -/
def trapFrame (a : Arch) (t : Trap) : List Word := frameWords a t (trapNum a t.cause) (bitAt a.corecfg 1) false false

/-- The state m of a core with registers a, the core now in the handler of trap t and its frame in the store buffer. -/
def trapEntered (k : Nat) (t : Trap) (a : Arch) (func : Nat) (ps : List Place) (m : State) : State :=
  handlerState k (trapNum a t.cause) (frameBase a) func ps (trapFrame a t) m

/-- R206, R211 to R214: what the entry of trap t takes of a core with registers a and settings xl: no service level, a context with SUPV,
a frame not below SILL that is translated, and a handler that can be fetched. -/
structure EntersHandler (k : Nat) (t : Trap) (a : Arch) (xl : Xl) (ps : List Place) (s m u : State) : Prop where
  level : a.pl ≠ 2
  supv : xl.supv = true
  sill : a.sill.toNat ≤ (frameBase a).toNat
  placed : xlate (.core k) xl .write (a.map (frameBase a)).toNat 8 (trapStart k s) = .ok ps m
  fetched : fetchWord k 1 (((trapEntered k t a xl.func ps m).arch k).map (handlerPc a (trapNum a t.cause))).toNat (trapEntered k t a xl.func ps m) = .ok () u

/-- The core of m with room made for a frame, and then the frame, in its store buffer. -/
def framed (k func : Nat) (ps : List Place) (frame : List Word) (m : State) : State :=
  (roomForFrame k m).setCore k { (roomForFrame k m).core k with
    stores := ((roomForFrame k m).core k).stores ++ entriesOf func ((roomForFrame k m).split k) ps frame }

theorem framed_arch {func : Nat} {frame : List Word} (hs : (m.arch k).shadow = []) (T : testArmed k m = false) :
    (framed k func ps frame m).arch k = m.arch k := by
  rw [framed, State.setCore_arch]
  exact (roomForFrame_steady hs T).arch

theorem handlerState_stop {num func : Nat} {base : W40} {frame : List Word} (hs : (m.arch k).shadow = []) (T : testArmed k m = false) :
    ((handlerState k num base func ps frame m).core k).stop = (m.core k).stop := by
  rw [← (roomForFrame_steady hs T).stop]
  simp [handlerState, recordFrame]

/-- A trap that reports no pipe work leaves no reference to its frame. -/
theorem handlerState_eq (ref : FrameRef) {num func : Nat} {base : W40} {frame : List Word} :
    handlerState k num base func ps frame m = recordFrame k ref false false ((framed k func ps frame m).setArch k
      { ((framed k func ps frame m).arch k).setMask true with
        a := tset 0 ((framed k func ps frame m).arch k).a 15 base, pl := 1, ld := 0, pc := handlerPc ((framed k func ps frame m).arch k) num }) := rfl

theorem EntersHandler.steady (H : EntersHandler k t a xl ps s m u) (C : Calm k s) : Steady k s m := (trapStart_steady C).trans (xlate_steady H.placed)

/-- A stop not asked for before the trap is not asked for in its handler. -/
theorem EntersHandler.stop (H : EntersHandler k t a xl ps s m u) (C : Calm k s) (T : testArmed k s = false) : (u.core k).stop = 0 := by
  have S := H.steady C
  have entry : Quiet (trapEntered k t a xl.func ps m) u := Res.okK H.fetched (fetchWord_quiet (.refl _))
  rw [entry.core_eq k, trapEntered, handlerState_stop (S.calm C).shadow (S.tested.trans T), S.stop, C.stop]

/-- A trap whose handler can be entered goes there, by the settled registers; causes 9, 13 and 21 have rules of their own and 22 takes its notice with it. -/
theorem takeTrap_settled (H : EntersHandler k t ((settle k s).arch k) (coreXl k ((settle k s).arch k).pl.toNat (settle k s)) ps s m u)
    (hm : m.arch k = (settle k s).arch k) (hs : (m.arch k).shadow = []) (T : testArmed k m = false) (ht : t.cause ∉ [9, 13, 21, 22]) :
    takeTrap k t false false s = u := by
  simp only [List.mem_cons, List.not_mem_nil, or_false, not_or] at ht
  obtain ⟨h9, h13, h21, h22⟩ := ht
  obtain ⟨level, supv, sill, placed, fetched⟩ := H
  have service : ¬(t.cause = 13 ∨ t.cause = 21 ∨ ((settle k s).arch k).pl = 2) := fun h => h.elim h13 fun h => h.elim h21 level
  have barred : ¬(!(coreXl k ((settle k s).arch k).pl.toNat (settle k s)).supv) = true := by rw [supv]; decide
  have start : trapStart k s = (settle k s).setCore k { (settle k s).core k with
      run := .running, chain := [], chainKey := none, notice := if t.cause = 22 then none else ((settle k s).core k).notice } := by
    rw [if_neg h22]
    rfl
  rw [start] at placed
  refine (if_neg service).trans ((if_neg barred).trans ((if_neg fun h => h9 h.1).trans ((if_neg (Nat.not_lt.2 sill)).trans ?_)))
  split
  · next h => cases placed.symm.trans h
  · next h => cases placed.symm.trans h
  · next h =>
    cases placed.symm.trans h
    extract_lets room core f at_ a pc masked g entered
    have here : a = (settle k s).arch k := (framed_arch hs T).trans hm
    have same : entered = trapEntered k t ((settle k s).arch k) (coreXl k ((settle k s).arch k).pl.toNat (settle k s)).func ps m :=
      (handlerState_eq (.stack at_)).symm
    have target : pc = handlerPc ((settle k s).arch k) (trapNum ((settle k s).arch k) t.cause) := congrArg (handlerPc · _) here
    rw [same, target, fetched]

/-- The same on a core with nothing to settle. -/
theorem takeTrap_enters (H : EntersHandler k t (s.arch k) (coreXl k (s.arch k).pl.toNat s) ps s m u) (C : Calm k s) (T : testArmed k s = false)
    (ht : t.cause ∉ [9, 13, 21, 22]) : takeTrap k t false false s = u := by
  have S := H.steady C
  have arch : (settle k s).arch k = s.arch k := by rw [settle_calm C, State.setArch_arch]
  have xl : coreXl k (s.arch k).pl.toNat (settle k s) = coreXl k (s.arch k).pl.toNat s := by
    rw [settle_calm C]
    rfl
  exact takeTrap_settled (by rw [arch, xl]; exact H) (S.arch.trans arch.symm) (S.calm C).shadow (S.tested.trans T) ht

/-- An instruction whose trap enters its handler ends there. -/
theorem issue_entersHandler {body : State → Res (Option W40)} (I : Issues k len s s1) (C : Calm k s) (hb : body s1 = .trap t s1) (ht : t.cause ∉ [9, 13, 19, 21, 22])
    (H : EntersHandler k (placeTrap t (s.arch k).pc (nextPc (s.arch k) len)) (s.arch k) (coreXl k (s.arch k).pl.toNat s1) ps s1 m u) :
    (.next (issue k len body s) : Host.Outcome State Fault Refusal) = .next u := by
  simp only [List.mem_cons, List.not_mem_nil, or_false, not_or] at ht
  obtain ⟨h9, h13, h19, h21, h22⟩ := ht
  have C1 := I.calm C
  have taken := takeTrap_enters (t := placeTrap t (s.arch k).pc (nextPc (s.arch k) len)) (by rw [I.arch C.flight k]; exact H) C1 I.untested1
    (by simp [placeTrap, h9, h13, h21, h22])
  rw [issue, issueAny_trap I C.flight rfl hb, if_neg h19, taken, dueStop_none (H.stop C1 I.untested1)]

/-- R214: the frame of a trap with no fault address. -/
theorem trapFrame_detail (cause : Nat) (pc : W40) (imm : BitVec 10) :
    trapFrame a { cause := cause, pc := pc, addr := 0, detail := BitVec.ofNat 20 imm.toNat } =
      [pc.extractLsb' 0 20, pc.extractLsb' 20 20, a.status,
       BitVec.ofNat 20 (trapNum a cause + (if a.masked then 256 else 0) + if bitAt a.corecfg 1 then 512 else 0), 0, 0, imm.setWidth 20, a.sill.extractLsb' 0 20] := by
  simp [trapFrame, frameWords]

end
end Sys2Proof.Machine
end

section
open Sys2Proof Sys2Proof.Machine

/-- Settles O26: TRAP and BRK differ in their number and in the address that their frame holds; the entry of the handler is one. -/
theorem trapEntry : Obligations.TrapEntry := by
  unfold Obligations.TrapEntry
  intro k imm s s1 s2 u ps I C a base px settled frame level supv sill places entered fetches
  have here : settled.arch k = a := (trapStart_steady (I.calm C)).arch.trans (I.arch C.flight k)
  have placed : xlate (.core k) (coreXl k a.pl.toNat s1) .write (a.map base).toNat 8 settled = .ok ps s2 := by
    obtain h | ⟨hon, rfl, rfl⟩ := places
    · exact h
    · rw [← here]
      exact xlate_bench hon
  have enters : ∀ cause pc, fetches pc (trapNum a cause) →
      EntersHandler k { cause := cause, pc := pc, addr := 0, detail := BitVec.ofNat 20 imm.toNat } a (coreXl k a.pl.toNat s1) ps s1 s2 u := fun cause pc h =>
    ⟨level, supv, sill, placed, by rw [trapEntered, trapFrame_detail]; exact h⟩
  refine ⟨fun h => ?trap, fun h => ?brk⟩
  case trap => exact issue_entersHandler I C rfl (by decide : (14 : Nat) ∉ [9, 13, 19, 21, 22]) (enters 14 (nextPc a 1) h)
  case brk => exact issue_entersHandler I C rfl (by decide : (15 : Nat) ∉ [9, 13, 19, 21, 22]) (enters 15 a.pc h)

end

/-! ## Rounding to one unit (R280) -/

section
namespace Sys2Proof.Machine

section
variable {n r e : Int} {q mode : Nat}

/-- R280: how far n lies from its quotient toward zero, in parts of q. -/
def truncRest (n : Int) (q : Nat) : Nat := (n.tmod q).natAbs

/-- R280: one unit in the direction of n. -/
def outward (n : Int) : Int := if n < 0 then -1 else 1

/-- R280: the mode moves the quotient toward zero one unit outward. -/
def movesOut (n : Int) (q mode : Nat) : Prop :=
  match mode with
  | 0 => q < 2 * truncRest n q ∨ (2 * truncRest n q = q ∧ (n.tdiv q).natAbs % 2 = 1)
  | 1 => q ≤ 2 * truncRest n q
  | 2 => q < 2 * truncRest n q
  | 3 => False
  | 4 => truncRest n q ≠ 0
  | 5 => truncRest n q ≠ 0 ∧ n < 0
  | 6 => truncRest n q ≠ 0 ∧ 0 ≤ n
  | _ => False

/-- r in place of n / q leaves the error e / q, which is counted in the direction of n; r itself does not point the other way. -/
structure Rounded (n : Int) (q : Nat) (r e : Int) : Prop where
  err : n - r * q = outward n * e
  sign : 0 ≤ outward n * r

theorem outward_cases (n : Int) : (0 ≤ n ∧ outward n = 1) ∨ (n < 0 ∧ outward n = -1) := by
  unfold outward
  split <;> omega

theorem truncRest_lt (n : Int) (hq : 0 < q) : truncRest n q < q := by
  rw [truncRest, Int.natAbs_tmod]
  exact Nat.mod_lt _ hq

theorem truncRest_eq_zero (h : (q : Int) ∣ n) : truncRest n q = 0 := by
  rw [truncRest, Int.tmod_eq_zero_of_dvd h, Int.natAbs_zero]

theorem truncRest_pos (hq : 0 < q) (h : movesOut n q mode) : 0 < truncRest n q := by
  unfold movesOut at h
  split at h <;> grind

theorem sub_tdiv_mul (n : Int) (q : Nat) : n - n.tdiv q * q = n.tmod q := by
  rw [Int.tmod_def, Int.mul_comm]

/-- R280: the rounded quotient is the one toward zero or the one next to it outward, by the mode. -/
theorem roundDiv_cases (n : Int) (hq : 0 < q) (mode : Nat) :
    (¬ movesOut n q mode ∧ roundDiv n q mode = n.tdiv q) ∨ (movesOut n q mode ∧ roundDiv n q mode = n.tdiv q + outward n) := by
  have rest : (n - n.tdiv q * q).natAbs = truncRest n q := congrArg _ (sub_tdiv_mul n q)
  simp only [roundDiv, rest]
  by_cases divides : truncRest n q = 0
  · exact .inl ⟨fun h => Nat.ne_of_gt (truncRest_pos hq h) divides, if_pos divides⟩
  · rw [if_neg divides]
    unfold movesOut outward
    split <;> grind

theorem rounded_tdiv (n : Int) (q : Nat) : Rounded n q (n.tdiv q) (truncRest n q) := by
  obtain ⟨hn, ho⟩ | ⟨hn, ho⟩ := outward_cases n
  case inl =>
    refine ⟨?_, ?_⟩
    · rw [sub_tdiv_mul, truncRest, ho, Int.one_mul, Int.natAbs_of_nonneg (Int.tmod_nonneg q hn)]
    · rw [ho, Int.one_mul]
      exact Int.tdiv_nonneg hn (Int.natCast_nonneg q)
  case inr =>
    have m := Int.tmod_nonneg (q : Int) (a := -n) (by omega)
    have d := Int.tdiv_nonneg (a := -n) (b := q) (by omega) (Int.natCast_nonneg q)
    rw [Int.neg_tmod] at m
    rw [Int.neg_tdiv] at d
    refine ⟨?_, ?_⟩
    · rw [sub_tdiv_mul, truncRest, ho]
      omega
    · rw [ho]
      omega

theorem rounded_outward (n : Int) (q : Nat) : Rounded n q (n.tdiv q + outward n) (truncRest n q - q) := by
  obtain ⟨err, sign⟩ := rounded_tdiv n q
  have unit : outward n * outward n = 1 := by
    obtain ⟨-, ho⟩ | ⟨-, ho⟩ := outward_cases n <;> rw [ho] <;> rfl
  refine ⟨?_, ?_⟩
  · rw [Int.add_mul, Int.mul_sub, ← err]
    omega
  · rw [Int.mul_add, unit]
    omega

namespace Rounded

theorem cases (R : Rounded n q r e) : (0 ≤ n ∧ n - r * q = e ∧ 0 ≤ r) ∨ (n < 0 ∧ n - r * q = -e ∧ r ≤ 0) := by
  obtain ⟨err, sign⟩ := R
  obtain ⟨hn, ho⟩ | ⟨hn, ho⟩ := outward_cases n <;> rw [ho] at err sign <;> omega

theorem natAbs_err (R : Rounded n q r e) : (n - r * q).natAbs = e.natAbs := by
  have := R.cases
  omega

theorem natAbs_mul (R : Rounded n q r e) : ((r * q).natAbs : Int) = n.natAbs - e := by
  have hq := Int.natCast_nonneg q
  obtain ⟨hn, err, hr⟩ | ⟨hn, err, hr⟩ := R.cases
  · have := Int.mul_nonneg hr hq
    omega
  · have := Int.mul_nonpos_of_nonpos_of_nonneg hr hq
    omega

theorem mul_nonneg (R : Rounded n q r e) : 0 ≤ r * n := by
  obtain ⟨hn, -, hr⟩ | ⟨hn, -, hr⟩ := R.cases
  · exact Int.mul_nonneg hr hn
  · exact Int.mul_nonneg_of_nonpos_of_nonpos hr (Int.le_of_lt hn)

theorem mul_le (R : Rounded n q r e) (hp : 0 ≤ n → 0 ≤ e) (hm : n < 0 → e ≤ 0) : r * q ≤ n := by
  have := R.cases
  omega

theorem le_mul (R : Rounded n q r e) (hp : 0 ≤ n → e ≤ 0) (hm : n < 0 → 0 ≤ e) : n ≤ r * q := by
  have := R.cases
  omega

end Rounded

/-- R280: a rounded quotient with its error, which the mode chooses of two. -/
theorem roundDiv_rounded (n : Int) (hq : 0 < q) (mode : Nat) :
    ∃ e, Rounded n q (roundDiv n q mode) e ∧
      ((¬ movesOut n q mode ∧ e = truncRest n q ∧ roundDiv n q mode = n.tdiv q) ∨
       (movesOut n q mode ∧ 0 < truncRest n q ∧ e = truncRest n q - q ∧ roundDiv n q mode = n.tdiv q + outward n)) := by
  obtain ⟨h, hr⟩ | ⟨h, hr⟩ := roundDiv_cases n hq mode
  · exact ⟨_, hr ▸ rounded_tdiv n q, .inl ⟨h, rfl, hr⟩⟩
  · exact ⟨_, hr ▸ rounded_outward n q, .inr ⟨h, truncRest_pos hq h, rfl, hr⟩⟩

end
end Sys2Proof.Machine
end

section
open Sys2Proof Sys2Proof.Machine

/-- Settles O36: the error of the quotient toward zero, or of the one next to it outward, has the sign and the size that the mode asks for. -/
theorem roundingModes : Obligations.RoundingModes := by
  unfold Obligations.RoundingModes
  intro n q mode hq hm r err
  obtain ⟨e, R, chosen⟩ := roundDiv_rounded n hq mode
  have lt := truncRest_lt n hq
  have size : err.natAbs = e.natAbs := R.natAbs_err
  have product : ((r * q).natAbs : Int) = n.natAbs - e := R.natAbs_mul
  rw [size]
  refine ⟨?within, fun h => ?divides, fun h => ?nearest, ?even, ?away, ?toward, ?truncated, ?outer, ?down, ?up⟩
  case within => omega
  case divides =>
    have := truncRest_eq_zero h
    omega
  case nearest =>
    obtain rfl | rfl | rfl : mode = 0 ∨ mode = 1 ∨ mode = 2 := by omega
    all_goals
      simp only [movesOut] at chosen
      omega
  case even =>
    rintro rfl tie
    change roundDiv n q 0 % 2 = 0
    have := outward_cases n
    simp only [movesOut] at chosen
    omega
  case away =>
    rintro rfl tie
    simp only [movesOut] at chosen
    omega
  case toward =>
    rintro rfl tie
    simp only [movesOut] at chosen
    omega
  case truncated =>
    rintro rfl
    simp only [movesOut, false_and, or_false] at chosen
    exact ⟨by omega, R.mul_nonneg⟩
  case outer =>
    rintro rfl
    simp only [movesOut] at chosen
    exact ⟨by omega, R.mul_nonneg⟩
  case down =>
    rintro rfl
    simp only [movesOut] at chosen
    exact R.mul_le (by omega) (by omega)
  case up =>
    rintro rfl
    simp only [movesOut] at chosen
    exact R.le_mul (by omega) (by omega)

end

/-! ## Decimal results in normalised limbs (R32, R33, R272 to R292) -/

section
namespace Sys2Proof.Machine

section
variable {m : Member} {e n sc i : Nat} {b c old ws : List Word} {v : Int} {s : State} {w : Word} {r : Res (List Word × Int)}

/-! ### The value and the form of limbs (R32, R33) -/

theorem qValue_cons (w : Word) (h : ws ≠ []) : qValue (w :: ws) = (w.toNat : Int) + 100000 * qValue ws := by
  obtain ⟨x, xs, rfl⟩ := List.exists_cons_of_ne_nil h
  rfl

theorem limbsOf_succ (n : Nat) (v : Int) : limbsOf (n + 2) v = BitVec.ofInt 20 (v % 100000) :: limbsOf (n + 1) (v / 100000) := rfl

theorem limbsOf_length (n : Nat) (v : Int) : (limbsOf n v).length = n := by
  induction n, v using limbsOf.induct with
  | case1 | case2 => rfl
  | case3 n v hn ih => rw [limbsOf.eq_3 _ _ hn, List.length_cons, ih]

theorem lowLimb_toNat (v : Int) : ((BitVec.ofInt 20 (v % 100000)).toNat : Int) = v % 100000 := by
  rw [BitVec.toNat_ofInt]
  omega

/-- R33: one limb takes five digits of the range. -/
theorem limbRange_succ (h : -(100000 ^ (n + 1) : Int) ≤ v ∧ v < 100000 ^ (n + 1)) : -(100000 ^ n : Int) ≤ v / 100000 ∧ v / 100000 < 100000 ^ n := by
  rw [Int.pow_succ] at h
  omega

theorem qValue_limbsOf (n : Nat) (v : Int) (h : -(100000 ^ (n + 1) : Int) ≤ v ∧ v < 100000 ^ (n + 1)) : qValue (limbsOf (n + 1) v) = v := by
  induction n generalizing v with
  | zero => exact BitVec.toInt_ofInt_eq_self (by decide) (by omega) (by omega)
  | succ n ih =>
    have ne : limbsOf (n + 1) (v / 100000) ≠ [] := List.ne_nil_of_length_eq_add_one (limbsOf_length _ _)
    rw [limbsOf_succ, qValue_cons _ ne, ih _ (limbRange_succ h), lowLimb_toNat]
    omega

/-- R33: a limb below the top one holds 0 to 99,999. -/
theorem limbsOf_low (h : (limbsOf n v)[i]? = some w) (hi : i + 1 < n) : w.toNat < 100000 := by
  induction n, v using limbsOf.induct generalizing i with
  | case1 | case2 => omega
  | case3 n v hn ih =>
    rw [limbsOf.eq_3 _ _ hn] at h
    cases i with
    | zero =>
      have low := lowLimb_toNat v
      rw [List.getElem?_cons_zero, Option.some.injEq] at h
      rw [h] at low
      omega
    | succ i => exact ih (by rwa [List.getElem?_cons_succ] at h) (by omega)

/-! ### A result written, or DECIMAL_OVERFLOW (R272, R277) -/

theorem fitsLimbs_iff : fitsLimbs n v = true ↔ -(100000 ^ n : Int) ≤ v ∧ v ≤ 100000 ^ n - 1 := by
  rw [fitsLimbs, Bool.and_eq_true, decide_eq_true_iff, decide_eq_true_iff]

theorem putQ_fits (h : -(100000 ^ n : Int) ≤ v ∧ v ≤ 100000 ^ n - 1) : putQ m n e v s = .ok (limbsOf n v) s := by
  rw [putQ, normalised, if_pos (fitsLimbs_iff.2 h)]

theorem putQ_overflows (h : v < -(100000 ^ n : Int) ∨ 100000 ^ n - 1 < v) : putQ m n e v s = .trap (trapOf 6 (decimalAddr m e) 0) s := by
  rw [putQ, normalised, if_neg (mt fitsLimbs_iff.1 (by omega))]
  rfl

/-- r writes v in normalised form, or traps where it does not fit; what it gives a seal is left open. -/
def PutsQ (m : Member) (e : Nat) (v : Int) (s : State) (r : Res (List Word × Int)) : Prop :=
  ∃ a, r = (putQ m m.fd.len e v s).bind fun ws s => .ok (ws, a) s

theorem PutsQ.fits (P : PutsQ m e v s r) (hd : m.fd = .amount n sc) (hn : 1 ≤ n) (h : -(100000 ^ n : Int) ≤ v ∧ v ≤ 100000 ^ n - 1) :
    ∃ ws a, r = .ok (ws, a) s ∧ ws.length = n ∧ qValue ws = v ∧ ∀ i w, ws[i]? = some w → i + 1 < n → w.toNat < 100000 := by
  obtain ⟨a, rfl⟩ := P
  obtain ⟨n, rfl⟩ := Nat.exists_eq_add_of_le' hn
  exact ⟨limbsOf (n + 1) v, a, by rw [hd, Fmt.len, putQ_fits h]; rfl, limbsOf_length _ _, qValue_limbsOf n v (by omega), fun _ _ => limbsOf_low⟩

theorem PutsQ.overflows (P : PutsQ m e v s r) (hd : m.fd = .amount n sc) (h : v < -(100000 ^ n : Int) ∨ 100000 ^ n - 1 < v) :
    r = .trap (trapOf 6 (decimalAddr m e) 0) s := by
  obtain ⟨a, rfl⟩ := P
  rw [hd, Fmt.len, putQ_overflows h]
  rfl

/-! ### What each instruction puts (R273 to R292) -/

theorem compute_sadd (hd : m.fd = .amount n sc) (hl : m.lop = 0x30) : PutsQ m e (qValue b + qValue c) s (compute m e b c old s) :=
  ⟨_, by simp only [compute, hl, hd]; rfl⟩

theorem compute_ssub (hd : m.fd = .amount n sc) (hl : m.lop = 0x31) : PutsQ m e (qValue b - qValue c) s (compute m e b c old s) :=
  ⟨_, by simp only [compute, hl, hd]; rfl⟩

theorem compute_snorm (hl : m.lop = 0x33) : PutsQ m e (qValue b) s (compute m e b c old s) :=
  ⟨_, by simp only [compute, hl]; rfl⟩

theorem compute_scvtWordToAmount (hl : m.lop = 0x36) (hf : m.fn = 2) : PutsQ m e (b.headD 0).toInt s (compute m e b c old s) :=
  ⟨_, by simp only [compute, hl, hf]; rfl⟩

theorem compute_smove (hd : m.fd = .amount n sc) (hl : m.lop = 0x37) : PutsQ m e (qValue b) s (compute m e b c old s) :=
  ⟨_, by simp only [compute, hl, hd]; rfl⟩

theorem compute_smul (hl : m.lop = 0x38) : PutsQ m e (product m b c) s (compute m e b c old s) :=
  ⟨_, by simp only [compute, hl]; rfl⟩

/-- R286, R312: SMAC puts the sum, while a seal receives the product alone. -/
theorem compute_smac (hl : m.lop = 0x39) : PutsQ m e (qValue old + product m b c) s (compute m e b c old s) :=
  ⟨_, by simp only [compute, hl]; rfl⟩

theorem compute_sscale (hl : m.lop = 0x3A) : PutsQ m e (scaleBy (qValue b) ((m.fd.scale : Int) - m.fb.scale) m.fn) s (compute m e b c old s) :=
  ⟨_, by simp only [compute, hl]; rfl⟩

theorem compute_sdiv (hl : m.lop = 0x3B) (hc : qValue c ≠ 0) : PutsQ m e (quotient m b c) s (compute m e b c old s) :=
  ⟨_, by simp only [compute, hl, if_neg hc]; rfl⟩

theorem compute_sdiv_zero (hl : m.lop = 0x3B) (hc : qValue c = 0) : compute m e b c old s = .trap (trapOf 5 (decimalAddr m e) 0) s := by
  simp only [compute, hl, if_pos hc]
  rfl

end
end Sys2Proof.Machine
end

section
open Sys2Proof Sys2Proof.Machine

/-- Settles O35: each instruction puts its exact value through one normalisation, which writes the limbs of a value that fits and else traps. -/
theorem decimalResults : Obligations.DecimalResults := by
  unfold Obligations.DecimalResults
  intro m e n sc b c old s hd hn _ d value
  refine ⟨fun v hv => ?results, compute_sdiv_zero⟩
  have P : PutsQ m e v s (compute m e b c old s) := by
    dsimp only [value] at hv
    split at hv
    case isTrue add =>
      cases hv
      exact compute_sadd hd add
    split at hv
    case isTrue sub =>
      cases hv
      exact compute_ssub hd sub
    split at hv
    case isTrue moved =>
      cases hv
      exact moved.elim compute_snorm (compute_smove hd)
    split at hv
    case isTrue word =>
      cases hv
      exact compute_scvtWordToAmount word.1 word.2
    split at hv
    case isTrue mul =>
      cases hv
      exact compute_smul mul
    split at hv
    case isTrue mac =>
      cases hv
      exact compute_smac mac
    split at hv
    case isTrue scale =>
      cases hv
      exact compute_sscale scale
    split at hv
    case isTrue div =>
      cases hv
      exact compute_sdiv div.1 div.2
    cases hv
  exact ⟨fun lo hi => P.fits hd hn ⟨lo, hi⟩, P.overflows hd⟩

end

/-! ## VSETC, JEND, SPLIT and JOIN (R321, R389, R453 to R455) -/

section
namespace Sys2Proof.Machine

/-! ### What a performed store or a recorded end leaves (R163, R389) -/

/-- From s to t every core and the PAIR block stay, and of every bent its split execution and its share. -/
structure Undisturbed (s t : State) : Prop where
  cores : t.cores = s.cores
  pair : t.pair = s.pair
  split : ∀ l, (t.bent l).split = (s.bent l).split
  share : ∀ l, (t.bent l).share = (s.bent l).share

namespace Undisturbed

variable {s t u : State}

theorem refl (s : State) : Undisturbed s s := ⟨rfl, rfl, fun _ => rfl, fun _ => rfl⟩

theorem trans (h : Undisturbed s t) (g : Undisturbed t u) : Undisturbed s u :=
  ⟨g.cores.trans h.cores, g.pair.trans h.pair, fun l => (g.split l).trans (h.split l), fun l => (g.share l).trans (h.share l)⟩

theorem core (h : Undisturbed s t) (j : Nat) : t.core j = s.core j := congrArg (tget Core.reset · j) h.cores

theorem of_quiet (q : Quiet s t) : Undisturbed s t :=
  have bare : ∀ {α : Type} (f : Bent → α) (l : Nat), f (t.bent l).bare = f (s.bent l).bare := fun f l => congrArg f (q.bents l)
  ⟨q.cores, q.pair, bare Bent.split, bare Bent.share⟩

/-- An update of other fields. -/
theorem upd (hc : t.cores = s.cores) (hp : t.pair = s.pair) (hb : t.bents = s.bents) : Undisturbed s t := by
  have bent : ∀ l, t.bent l = s.bent l := fun l => congrArg (tget Bent.reset · l) hb
  exact ⟨hc, hp, fun l => by rw [bent], fun l => by rw [bent]⟩

theorem setBent {l : Nat} {b : Bent} (h1 : b.split = (s.bent l).split) (h2 : b.share = (s.bent l).share) : Undisturbed s (s.setBent l b) := by
  have field : ∀ {α : Type} (f : Bent → α), f b = f (s.bent l) → ∀ j, f ((s.setBent l b).bent j) = f (s.bent j) := by
    intro α f h j
    by_cases e : j = l
    · rw [e, State.setBent_bent, h]
    · rw [State.setBent_bent_other s b e]
  exact ⟨rfl, rfl, field _ h1, field _ h2⟩

theorem foldl {α : Type} {f : State → α → State} (hf : ∀ s x, Undisturbed s (f s x)) (l : List α) : ∀ s, Undisturbed s (l.foldl f s) := by
  induction l with
  | nil => exact refl
  | cons x l ih => exact fun s => (hf s x).trans (ih _)

end Undisturbed

section
variable {k j : Nat} {s : State}

theorem setHost_undisturbed {v} : Undisturbed s { s with host := v } := .upd rfl rfl rfl

theorem putHost_undisturbed (a v n : Nat) : ∀ s, Undisturbed s (putHost a v n s) := by
  induction n generalizing a v with
  | zero => exact .refl
  | succ n ih => exact fun s => setHost_undisturbed.trans (ih _ _ _)

theorem writeSmall_undisturbed (b : Nat) (p : Place) (w : Word) (s : State) : Undisturbed s (writeSmall b p w s) := by
  cases p with
  | dev _ => exact .refl s
  | yard _ => exact .upd rfl rfl rfl
  | bench _ => exact .setBent rfl rfl
  | host a => exact (putHost_undisturbed _ _ _ s).trans (.upd rfl rfl rfl)

theorem writePlaces_undisturbed (b : Nat) (ws : List (Place × Word)) (s : State) : Undisturbed s (writePlaces b ws s) := by
  unfold writePlaces
  refine Undisturbed.trans (.foldl (fun s x => ?_) _ _) (.foldl (fun s x => writeSmall_undisturbed _ _ _ _) _ _)
  split
  · exact .of_quiet (blkWrite_quiet (Quiet.refl _))
  · exact .refl _

theorem lineUpdate_undisturbed (l : Nat) (ws : List (Place × Word)) : ∀ s, Undisturbed s (lineUpdate l ws s) := by
  induction ws with
  | nil => exact .refl
  | cons x ws ih =>
    intro s
    obtain ⟨p, w⟩ := x
    cases p with
    | dev a =>
      simp only [lineUpdate]
      split
      · exact ih _
      · refine Undisturbed.trans ?_ (ih _)
        exact .setBent rfl rfl
    | yard _ | bench _ | host _ => exact ih _

theorem performEntry_undisturbed (e : StoreEntry) (s : State) : Undisturbed s (performEntry k e s) :=
  (writePlaces_undisturbed _ _ s).trans (lineUpdate_undisturbed _ _ _)

/-- The drain empties the buffer of a core that has taken its checkpoint, and disturbs nothing else. -/
theorem drainAll_undisturbed (s : State) :
    Undisturbed ((checkpoint k s).setCore k { (checkpoint k s).core k with stores := [] }) (drainAll k s) :=
  .foldl (fun s e => performEntry_undisturbed e s) _ _

theorem drainAll_core : (drainAll k s).core k = { (checkpoint k s).core k with stores := [] } :=
  ((drainAll_undisturbed s).core k).trans (State.setCore_core _ k _)

/-! ### What a checkpoint leaves, a rollback at it too (R437 to R440) -/

/-- From s to t every core but k stays, and of core k its seals and whether it is to stop; its bent is split in both or in neither. -/
structure KeepsSeals (k : Nat) (s t : State) : Prop where
  others : ∀ j, j ≠ k → t.core j = s.core j
  split : t.split k = s.split k
  stop : (t.core k).stop = (s.core k).stop
  seals : (t.core k).seals = (s.core k).seals

namespace KeepsSeals

variable {t u : State}

theorem refl (s : State) : KeepsSeals k s s := ⟨fun _ _ => rfl, rfl, rfl, rfl⟩

theorem trans (h : KeepsSeals k s t) (g : KeepsSeals k t u) : KeepsSeals k s u :=
  ⟨fun j hj => (g.others j hj).trans (h.others j hj), g.split.trans h.split, g.stop.trans h.stop, g.seals.trans h.seals⟩

theorem upd (hc : t.cores = s.cores) (hb : t.bents = s.bents) : KeepsSeals k s t := by
  have core : ∀ j, t.core j = s.core j := fun j => congrArg (tget Core.reset · j) hc
  exact ⟨fun j _ => core j, congrArg (fun m => (tget Bent.reset m (k / 2)).split) hb, by rw [core], by rw [core]⟩

theorem of_undisturbed (h : Undisturbed s t) : KeepsSeals k s t :=
  ⟨fun j _ => h.core j, h.split (k / 2), by rw [h.core], by rw [h.core]⟩

theorem setCore {c : Core} (h1 : c.stop = (s.core k).stop) (h2 : c.seals = (s.core k).seals) : KeepsSeals k s (s.setCore k c) :=
  ⟨fun _ hj => State.setCore_core_other s c hj, rfl, by rw [State.setCore_core, h1], by rw [State.setCore_core, h2]⟩

end KeepsSeals

theorem restage_undisturbed (e : CtlWrite) (s : State) : Undisturbed s (restage k e s) := by
  unfold restage
  extract_lets l r
  split
  · exact .setBent rfl rfl
  · split
    · exact .setBent rfl rfl
    · split
      · exact .refl s
      · have region : ∀ v, Undisturbed s (s.setRegion l r v) := fun v =>
          .upd (State.setRegion_cores s l r v) (State.setRegion_pair s l r v) (State.setRegion_bents s l r v)
        split
        · exact region _
        · split
          · exact region _
          · exact .refl s

theorem rollback_keepsSeals (s : State) : KeepsSeals k s (rollback k s) :=
  (KeepsSeals.of_undisturbed (.foldl (fun s e => restage_undisturbed e s) _ s)).trans (.setCore rfl rfl)

theorem countPair_keepsSeals (p n : Nat) (s : State) : KeepsSeals k s (countPair p n s) := .upd rfl rfl

theorem logErr_undisturbed (ue : Bool) (code kind unit addr detail ctx : Nat) (s : State) : Undisturbed s (logErr ue code kind unit addr detail ctx s) :=
  .of_quiet (logErr_told ue code kind unit addr detail ctx s).quiet

theorem setPair_keepsSeals {p} : KeepsSeals k s { s with pair := p } := .upd rfl rfl

theorem forcedEvent_keepsSeals (s : State) : KeepsSeals k s (forcedEvent k s) := by
  have start : ∀ p, KeepsSeals k s (rollback k { s with pair := p }) := fun p => setPair_keepsSeals.trans (rollback_keepsSeals _)
  have count : ∀ p a b c (t : State), KeepsSeals k t (countPair p a (countPair p b (countPair p c t))) := fun p a b c t =>
    (countPair_keepsSeals _ _ _).trans ((countPair_keepsSeals _ _ _).trans (countPair_keepsSeals _ _ _))
  have log : ∀ n u d (t : State), KeepsSeals k t (logErr false n 0 u 0 d 0 t) := fun n u d t => .of_undisturbed (logErr_undisturbed ..)
  exact (((start _).trans (count ..)).trans (log ..)).trans (log ..)

theorem checkpoint_keepsSeals (s : State) : KeepsSeals k s (checkpoint k s) := by
  unfold checkpoint
  split
  · exact .refl s
  · split
    · exact forcedEvent_keepsSeals s
    · extract_lets c
      split <;> exact .setCore rfl rfl

theorem dueCheckpoint_keepsSeals (s : State) : KeepsSeals k s (dueCheckpoint k s) := by
  unfold dueCheckpoint
  extract_lets c
  split
  · exact checkpoint_keepsSeals s
  · exact .refl s

theorem ended_keepsSeals (a : Arch) (s : State) : KeepsSeals k s (ended k a s) :=
  (KeepsSeals.setCore (c := { s.core k with arch := a, since := (s.core k).since + 1 }) rfl rfl).trans (.upd rfl rfl)

theorem drainAll_keepsSeals (s : State) : KeepsSeals k s (drainAll k s) :=
  ((checkpoint_keepsSeals s).trans (.setCore (c := { (checkpoint k s).core k with stores := [] }) rfl rfl)).trans (.of_undisturbed (drainAll_undisturbed s))

theorem retire_keepsSeals {here next : W40} (hs : (s.arch k).shadow = []) (hl : (s.arch k).ld = 0 ∨ tget 0 (s.arch k).le ((s.arch k).ld.toNat - 1) ≠ here) :
    KeepsSeals k s (retire k here next none s) := by
  rw [retire_straight hl, tickShadow_ends (by simp [hs])]
  simp only [State.setArch_arch, hs, List.foldl_nil, State.setArch_setArch, counted_setArch]
  exact (ended_keepsSeals _ s).trans (dueCheckpoint_keepsSeals _)

end

/-! ### A committing instruction that changes the split of its bent or the parked pipe work -/

section
variable {k len : Nat} {s s1 s2 : State} {body : State → Res (Option W40)}

theorem checkpoint_split (h : s.split k = true) : checkpoint k s = s := if_pos h

theorem testArmed_split (h : s.split k = true) : testArmed k s = false := by rw [testArmed, h, Bool.not_true, Bool.and_false]

theorem issue_sent_armed (I : Issues k len s s1) (C : Calm k s) (hb : body (checkpoint k s1) = .ok none s2) (hp : s2.pair.armed = s1.pair.armed)
    (hs : (s2.arch k).shadow = []) :
    issueAny false .sent k len body s = dueStop k (checkpoint k (retire k (s.arch k).pc (nextPc (s.arch k) len) none s2)) := by
  have flight : ((before .sent k s1).arch k).inflight = [] := ((I.before_steady C).calm (I.calm C)).flight
  have ran : ((fetchInstr k len (notePlumb k s)).bind fun _ s => runBody k body (before .sent k s)) = .ok none s2 := by
    rw [I.fetched]
    exact (runBody_calm flight).trans hb
  have same : testFired s (.ok none s2) = false := by rw [testFired, hp, I.pair, Bool.and_not_self]
  have unsent : noteSent k (responseOf k s s2) s2 = s2 := by
    rw [noteSent, hs]
    exact if_pos (Bool.or_true _)
  rw [issueAny_run I, issueRun_live C.replay ran, same, if_neg Bool.false_ne_true, leavesBy, if_pos rfl, if_neg Out.noConfusion, unsent]

/-- One that leaves its bent split ends as it does in split execution. -/
theorem issue_sent_split (I : Issues k len s s1) (C : Calm k s) (hb : body (checkpoint k s1) = .ok none s2) (hp : s2.pair.armed = s1.pair.armed)
    (ha : s2.arch k = s.arch k) (hstop : (s2.core k).stop = 0) (hs : s2.split k = true) :
    issueAny false .sent k len body s = ended k ((s.arch k).after len) s2 := by
  have shadow : (s2.arch k).shadow = [] := ha ▸ C.shadow
  have split : (ended k ((s.arch k).after len) s2).split k = true := hs
  have done : retire k (s.arch k).pc (nextPc (s.arch k) len) none s2 = ended k ((s.arch k).after len) s2 := by
    rw [retire_next shadow (by rw [ha]; exact C.loop) (.inl hs), ha, C.flight, tickInflight, Arch.after, ← C.flight]
  rw [issue_sent_armed I C hb hp shadow, done, checkpoint_split split, dueStop_none (by rw [ended_core]; exact hstop)]

/-- One that joins its bent keeps the seals of its core and all of the other. -/
theorem issue_sent_keepsSeals (I : Issues k len s s1) (C : Calm k s) (hb : body (checkpoint k s1) = .ok none s2) (hp : s2.pair.armed = s1.pair.armed)
    (ha : s2.arch k = s.arch k) (hstop : (s2.core k).stop = 0) : KeepsSeals k s2 (issueAny false .sent k len body s) := by
  have shadow : (s2.arch k).shadow = [] := ha ▸ C.shadow
  have K := (retire_keepsSeals (next := nextPc (s.arch k) len) shadow (by rw [ha]; exact C.loop)).trans (checkpoint_keepsSeals _)
  rw [issue_sent_armed I C hb hp shadow, dueStop_none (K.stop.trans hstop)]
  exact K

theorem Issues.even (I : Issues k len s s1) (h : s.split k = false) : k % 2 = 0 := by
  have ready := I.ready
  simp only [Machine.ready, h, Bool.or_false, Bool.and_eq_true, decide_eq_true_eq] at ready
  exact ready.2

end

end Sys2Proof.Machine
end

section
namespace Sys2Proof.Machine

/-! ### VSETC (R321) -/

section
variable {k : CoreIx} {imm : BitVec 10} {s s1 : State}

/-- R321: the count that VSETC sets: the least of DX, what the vector registers hold of elements of w words, and 1,024. -/
def vcntOf (a : Arch) (imm : BitVec 10) : Nat :=
  min (a.regD (sysReg imm).toNat).toNat (min (128 * 2 ^ (a.vgrp.toNat % 4) / (imm.toNat / 16 + 1)) 1024)

/-- R321: the registers once VSETC has set DX and VCNT to n. -/
def Arch.putVcnt (a : Arch) (x : Reg) (n : Nat) : Arch :=
  { a.putD x (BitVec.ofNat 20 n) 1 with vgrp := BitVec.ofNat 20 (a.vgrp.toNat % 512 + 512 * n) }

theorem Arch.putVcnt_inflight (a : Arch) (x : Reg) (n : Nat) : (a.putVcnt x n).inflight = [] := if_pos (by simp)

theorem Arch.putVcnt_after (a : Arch) (x : Reg) (n : Nat) :
    { a.putVcnt x n with pc := nextPc a 1, inflight := tickInflight (a.putVcnt x n).inflight } = (a.putVcnt x n).after 1 := by
  have pc : nextPc (a.putVcnt x n) 1 = nextPc a 1 := rfl
  rw [Arch.after, pc, Arch.putVcnt_inflight, tickInflight, ← Arch.putVcnt_inflight a x n]

theorem setVcnt_wrD {x : Reg} {n : Nat} (hf : (s.arch k).inflight = []) (hs : (s.arch k).shadow = []) :
    setVcnt k n (wrD k x (BitVec.ofNat 20 n) s) = s.setArch k ((s.arch k).putVcnt x n) := by
  rw [wrD, wrDd_calm hf, setVcnt]
  simp [Arch.putVcnt, Arch.putD, Arch.flying, hs]

theorem vsetc_sets (I : Issues k 1 s s1) (C : Calm k s) (h : imm.toNat < 512) (hc : (s.arch k).compat = false) :
    exec (.vsetc k imm) s = .next (ended k (((s.arch k).putVcnt (sysReg imm) (vcntOf (s.arch k) imm)).after 1) s1) := by
  have C1 := I.calm C
  have arch := I.arch C.flight k
  have clear : bitAt imm 9 = false := by
    rw [bitAt_eq_getLsbD, BitVec.getLsbD, Nat.testBit_lt_two_pow h]
  have group : bitsOf (s.arch k).vgrp 0 2 = (s.arch k).vgrp.toNat % 4 := by
    rw [bitsOf_eq_div_mod]
    omega
  have width : bitsOf imm 4 5 = imm.toNat / 16 := by
    rw [bitsOf_eq_div_mod]
    omega
  have legal : (!bitAt imm 9 && !(s1.arch k).compat) = true := by rw [clear, arch, hc]; rfl
  rw [exec_vsetc, execVsetc, issue, issue_sets (a := (s.arch k).putVcnt (sysReg imm) (vcntOf (s.arch k) imm)) I C ?_ C.shadow rfl rfl, Arch.putVcnt_after]
  rw [need_pos legal]
  simp only [rdD_calm C1.flight, setVcnt_wrD C1.flight C1.shadow, arch, group, width]
  rfl

end

/-! ### JEND (R389) -/

section
variable {k l j : Nat} {s t : State}

/-- Bent l is free with its cores as at reset, and the PAIR block is p. -/
structure Freed (l : Nat) (p : Pair) (s : State) : Prop where
  share : (s.bent l).share = none
  core : s.core (2 * l) = Core.reset
  pair : s.pair = p

namespace Freed

variable {p : Pair}

theorem undisturbed (h : Freed l p s) (g : Undisturbed s t) : Freed l p t :=
  ⟨(g.share l).trans h.share, (g.core _).trans h.core, g.pair.trans h.pair⟩

theorem foldl {α : Type} {f : State → α → State} (hf : ∀ s x, Freed l p s → Freed l p (f s x)) (xs : List α) : ∀ {s}, Freed l p s → Freed l p (xs.foldl f s) := by
  induction xs with
  | nil => exact fun h => h
  | cons x xs ih => exact fun h => ih (hf _ x h)

/-- A core at reset has nothing buffered. -/
theorem drainStores (h : Freed l p s) : Freed l p (drainStores j s) := by
  have emptied : Freed l p (s.setCore j { s.core j with stores := [] }) := by
    refine ⟨h.share, ?_, h.pair⟩
    by_cases e : 2 * l = j
    · subst e
      rw [State.setCore_core, h.core]
      rfl
    · rw [State.setCore_core_other _ _ e, h.core]
  exact emptied.undisturbed (.foldl (fun s _ => writePlaces_undisturbed _ _ s) _ _)

theorem setBent_free {b : Bent} (hb : b.share = none) (h : Freed l p s) : Freed l p (s.setBent j b) := by
  refine ⟨?_, h.core, h.pair⟩
  by_cases e : l = j
  · rw [e, State.setBent_bent, hb]
  · rw [State.setBent_bent_other _ _ e, h.share]

theorem setCore_reset (h : Freed l p s) : Freed l p (s.setCore j Core.reset) := by
  refine ⟨h.share, ?_, h.pair⟩
  by_cases e : 2 * l = j
  · rw [e, State.setCore_core]
  · rw [State.setCore_core_other _ _ e, h.core]

theorem clearBent (h : Freed l p s) : Freed l p (clearBent j s) :=
  Freed.undisturbed (h.setCore_reset.setCore_reset.setBent_free rfl) (.upd rfl rfl rfl)

theorem endShare {i : Nat} (h : Freed l p s) : Freed l p (endShare j i s) := by
  unfold Machine.endShare
  split
  · exact h
  · split
    · exact h
    · extract_lets sums u
      have ended : Freed l p u := h.undisturbed (.upd rfl rfl rfl)
      split
      · exact ended.drainStores.drainStores.clearBent
      · exact ended

theorem endShares (h : Freed l p s) : Freed l p (endShares j s) := by
  unfold Machine.endShares
  split
  · exact h
  · exact Freed.foldl (fun _ _ g => g.endShare) _ h

end Freed

/-- R88: what clears bent l frees it. -/
theorem clearBent_freed (l : Nat) (s : State) : Freed l s.pair (clearBent l s) := by
  refine ⟨congrArg Bent.share (State.setBent_bent _ l _), ?_, rfl⟩
  show ((s.setCore (2 * l) Core.reset).setCore (2 * l + 1) Core.reset).core (2 * l) = Core.reset
  rw [State.setCore_core_other _ _ (by omega), State.setCore_core]

theorem drainStores_pair (s : State) : (drainStores k s).pair = s.pair :=
  (Undisturbed.foldl (fun s _ => writePlaces_undisturbed _ _ s) _ (s.setCore k { s.core k with stores := [] })).pair

/-- R389: the share that runs on bent l ends and frees it. -/
theorem endShare_freed {i : Nat} {job : Job} (hj : s.job j = some job) (hi : job.shares[i]? = some (.on l)) : Freed l s.pair (endShare j i s) := by
  unfold endShare
  simp only [hj, hi]
  have F := clearBent_freed l (drainStores (2 * l + 1) (drainStores (2 * l) (s.setJob j (some { job with shares := job.shares.set i (.ended (sealTable s (.on l))) }))))
  rw [drainStores_pair, drainStores_pair] at F
  exact F

theorem holdEntry_undisturbed (q : Nat) (e : Entry) (s : State) : Undisturbed s (holdEntry q e s) := by
  unfold holdEntry
  split
  · exact .refl s
  · split
    · exact .refl s
    · exact .upd rfl rfl rfl

theorem setJob_undisturbed (v : Option Job) (s : State) : Undisturbed s (s.setJob j v) := .upd rfl rfl rfl

theorem releaseEntry_undisturbed (job : Job) (e : Entry) (s : State) : Undisturbed s (releaseEntry j job e s) :=
  (setJob_undisturbed none s).trans (holdEntry_undisturbed _ _ _)

theorem HostXl.all_imp {P Q : State → Prop} (h : ∀ t, P t → Q t) : ∀ {r : HostXl}, r.all P → r.all Q
  | .at _, _ => trivial
  | .fail _ t, g => h t g
  | .wait t, g => h t g

theorem hostXl_undisturbed {who func pasid prien tag b need} (s : State) : (hostXl who func pasid prien tag b need s).all (Undisturbed s) :=
  HostXl.all_imp (fun _ => .of_quiet) (hostXl_quiet (Quiet.refl s))

theorem ordered_undisturbed (s : State) : Undisturbed s (ordered s) := .upd rfl rfl rfl

theorem tryFinish_undisturbed (s : State) : Undisturbed s (tryFinish j s) := by
  unfold tryFinish
  split
  · exact .refl s
  · split
    · exact .refl s
    · dsimp only
      split
      · exact releaseEntry_undisturbed _ _ s
      · split
        case h_1 h => exact HostXl.waitK h (hostXl_undisturbed s)
        case h_2 h => exact (HostXl.failK h (hostXl_undisturbed s)).trans (releaseEntry_undisturbed _ _ _)
        case h_3 =>
          split
          case h_1 h => exact HostXl.waitK h (hostXl_undisturbed s)
          case h_2 h => exact (HostXl.failK h (hostXl_undisturbed s)).trans (releaseEntry_undisturbed _ _ _)
          case h_3 =>
            refine Undisturbed.trans ?_ (releaseEntry_undisturbed _ _ _)
            refine Undisturbed.trans (.foldl (fun s _ => putHost_undisturbed _ _ _ s) _ _) (ordered_undisturbed _)

theorem recordEnd_undisturbed (x : JobEnd) (vs : List Int) (s : State) : Undisturbed s (recordEnd j x vs s) := by
  unfold recordEnd
  split
  · exact .refl s
  · exact (setJob_undisturbed _ s).trans (tryFinish_undisturbed _)

theorem Freed.finishJob {p : Pair} {x : JobEnd} (h : Freed l p s) : Freed l p (finishJob j x s) := by
  unfold Machine.finishJob
  extract_lets u
  have ended : Freed l p u := h.endShares
  split
  · exact ended
  · rename_i job _
    have formed : Undisturbed u (sealsFormed job u) := by
      obtain e | e := sealsFormed_eq job u <;> rw [e]
      · exact .refl u
      · exact .upd rfl rfl rfl
    exact ended.undisturbed (formed.trans (recordEnd_undisturbed _ _ _))

theorem shareDone_freed {i : Nat} {job : Job} (hj : s.job j = some job) (hi : job.shares[i]? = some (.on l)) : Freed l s.pair (shareDone j i s) := by
  unfold shareDone
  extract_lets u
  have ended : Freed l s.pair u := endShare_freed hj hi
  split
  · split
    · exact ended.finishJob
    · exact ended
  · exact ended

end

section
variable {k : CoreIx} {s s1 : State}

/-- R266, R389: the state in which the core leaves its share: every access of it is performed. -/
def jendSettled (k : Nat) (s : State) : State := performScope k 15 (s.setCore k (abandonSuspended (s.core k)))

/-- R389: the core leaves its share, which ends, or idles without one. -/
def leaveShare (k : Nat) (s : State) : State :=
  match shareOf s (k / 2) with
  | some (j, i) => shareDone j i s
  | none => s.setCore k { s.core k with run := .idle }

theorem checkpoint_vops (T : testArmed k s = false) : ((checkpoint k s).core k).vops = (s.core k).vops := by
  unfold checkpoint
  split
  · rfl
  · rw [T, if_neg (by simp)]
    dsimp only
    split <;> simp

theorem Issues.untestedCheckpoint (I : Issues k 1 s s1) (C : Calm k s) : testArmed k (checkpoint k s1) = false := (I.checkpointed C).tested.trans I.untested1

/-- The core as the last scope finds it. -/
def Core.settling (c : Core) : Core := { abandonSuspended c with past := [] }

theorem jendSettled_eq (c : State) : jendSettled k c = invalidate k true false (drainAll k (c.setCore k (c.core k).settling)) := by
  have scope : ∀ t, performScope k 15 t = invalidate k true false (drainAll k (t.setCore k { t.core k with past := [] })) := fun _ => rfl
  rw [jendSettled, scope, State.setCore_core, State.setCore_setCore, Core.settling]

theorem invalidate_undisturbed (data instr : Bool) (s : State) : Undisturbed s (invalidate k data instr s) := .setBent rfl rfl

theorem jendSettled_pair {c : State} (hs : (c.arch k).shadow = []) (T : testArmed k c = false) : (jendSettled k c).pair = c.pair := by
  have D := drainAll_steady (k := k) (s := c.setCore k (c.core k).settling) (by rw [State.setCore_arch]; exact hs) T
  rw [jendSettled_eq, (invalidate_undisturbed true false _).pair, D.pair, State.setCore_pair]

theorem jendSettled_sameXl {c : State} (T : testArmed k c = false) : SameXl c (jendSettled k c) := by
  have settling : SameXl c (c.setCore k (c.core k).settling) := .upd rfl rfl rfl
  have dropped : SameXl (drainAll k (c.setCore k (c.core k).settling)) (invalidate k true false (drainAll k (c.setCore k (c.core k).settling))) :=
    .setBent rfl rfl rfl
  rw [jendSettled_eq]
  exact (settling.trans (drainAll_sameXl T)).trans dropped

theorem jendSettled_stores (c : State) : ((jendSettled k c).core k).stores = [] := by
  rw [jendSettled_eq, (invalidate_undisturbed true false _).core, drainAll_core]

end

section
variable {k : CoreIx} {s s1 : State} (I : Issues k 1 s s1) (C : Calm k s) (hs : s.split k = false) (ho : (s.core k).ops = []) (hv : (s.core k).vops = [])
  (hb : (s1.fn (coreXl k 0 s1).func).bme = true)

include I C

theorem Issues.jendSettled_pair : (jendSettled k (checkpoint k s1)).pair = s1.pair :=
  (Machine.jendSettled_pair ((I.checkpointed C).calm (I.calm C)).shadow (I.untestedCheckpoint C)).trans (I.checkpointed C).pair

theorem Issues.jendSettled_sameXl : SameXl s1 (jendSettled k (checkpoint k s1)) :=
  (checkpoint_sameXl I.untested1).trans (Machine.jendSettled_sameXl (I.untestedCheckpoint C))

include hs ho hv hb

/-- JEND with no pipe work in hand, while the host may be read. -/
theorem jend_leaves (hp : (leaveShare k (jendSettled k (checkpoint k s1))).pair = s1.pair) :
    exec (.jend k 0) s = .next (leaveShare k (jendSettled k (checkpoint k s1))) := by
  obtain ⟨-, ops, -⟩ := checkpoint_run I.untested1
  have vops := checkpoint_vops I.untested1
  have core := I.core C.flight k
  have finished : unfinished (abandonSuspended ((checkpoint k s1).core k)) = false := by
    simp [unfinished, abandonSuspended, ops, vops, core, ho, hv]
  obtain ⟨cs, e⟩ := checkpoint_cores I.untested1
  have sends : ∀ c, hostReadHeld k 15 ((checkpoint k s1).setCore k c) = false := fun c => by
    rw [e]
    show (true && !(s1.fn (coreXl k 0 s1).func).bme) = false
    rw [hb]
    rfl
  rw [exec_jend, execJend, issueC]
  refine congrArg _ (issue_sent_stall I C ?_ hp)
  rw [need_pos (by rw [hs]; rfl)]
  simp only [State.setCore_core, finished, sends, Bool.or_false, Bool.false_eq_true, if_false, leaveShare]
  rw [← jendSettled]
  cases shareOf (jendSettled k (checkpoint k s1)) (k / 2) <;> rfl

/-- R389: without a share the core idles with its store buffer empty. -/
theorem jend_idles (hsh : (s1.bent (k / 2)).share = none) :
    ∃ t, exec (.jend k 0) s = .next t ∧ (t.core k).run = .idle ∧ (t.core k).stores = [] := by
  have left : leaveShare k (jendSettled k (checkpoint k s1)) =
      (jendSettled k (checkpoint k s1)).setCore k { (jendSettled k (checkpoint k s1)).core k with run := .idle } := by
    rw [leaveShare, shareOf, (I.jendSettled_sameXl C).share, hsh]
  refine ⟨_, (jend_leaves I C hs ho hv hb (by rw [left]; exact I.jendSettled_pair C)).trans (congrArg _ left), ?_, ?_⟩
  · rw [State.setCore_core]
  · rw [State.setCore_core]
    exact jendSettled_stores _

/-- R389: the share ends and its bent is free. -/
theorem jend_frees {j i : Nat} {job : Job} (hsh : (s1.bent (k / 2)).share = some (j, i)) (hj : s1.job j = some job) (hi : job.shares[i]? = some (.on (k / 2))) :
    ∃ t, exec (.jend k 0) s = .next t ∧ Freed (k / 2) s1.pair t := by
  have X := I.jendSettled_sameXl C
  have left : leaveShare k (jendSettled k (checkpoint k s1)) = shareDone j i (jendSettled k (checkpoint k s1)) := by
    rw [leaveShare, shareOf, X.share, hsh]
  have here : (jendSettled k (checkpoint k s1)).job j = some job := by rw [State.job, X.jobs, ← hj, State.job]
  have F := shareDone_freed here hi
  rw [← left, I.jendSettled_pair C] at F
  exact ⟨_, jend_leaves I C hs ho hv hb F.pair, F⟩

end

/-! ### SPLIT (R453, R454) -/

section
variable {k l : Nat} {s : State} {ws : List Word}

theorem blockAddr_good {x : W40} {body : Nat → State → Res (Option W40)} {v : Nat} (hv : ((s.arch k).map x).toNat = v) (h1 : v % 4096 = 0)
    (h2 : v < 0xF000000000 ∨ 0xFFFFF80000 ≤ v) : blockAddr k x body s = body v s := by
  subst hv
  rw [blockAddr, if_neg (not_not_intro h1), if_neg (by omega)]

/-- R453, R454: taking pipe work back changes nothing but what is parked. -/
theorem unpark_parked (ws : List Word) (s : State) : ∃ ps, (unpark ws s).2.2 = { s with pair := { s.pair with parked := ps } } := by
  unfold unpark
  split
  · split <;> exact ⟨_, rfl⟩
  · exact ⟨_, rfl⟩

/-- R454: bent l runs in split execution, its shadow from the registers a, and the primary k goes on as it did. -/
structure SplitInto (k l : Nat) (a : Arch) (s t : State) : Prop where
  split : t.split k = true
  shadow : t.arch (2 * l + 1) = a
  runs : (t.core (2 * l + 1)).run = .running
  primary : t.core k = s.core k
  armed : t.pair.armed = s.pair.armed

theorem splitWith_splits (hk : k % 2 = 0) (hv : (s.core k).vops = []) :
    ∃ t, splitWith k ws s = .ok none t ∧ SplitInto k (k / 2) (archFromBlock ws ((drainAll k s).arch k)) (drainAll k s) t := by
  have free : (s.core k).vops.any VecOp.usesUpper = false := by rw [hv, List.any_nil]
  obtain ⟨ps, parked⟩ := unpark_parked ws (drainAll k s)
  unfold splitWith
  simp only [free, Bool.false_eq_true, if_false]
  generalize drainAll k s = d at parked
  generalize unpark ws d = r at parked
  obtain ⟨ops, vops, e⟩ := r
  obtain rfl : e = _ := parked
  have other : k ≠ 2 * (k / 2) + 1 := by omega
  refine ⟨_, rfl, ?_, ?_, ?_, ?_, rfl⟩
  · exact congrArg Bent.split (State.setBent_bent _ (k / 2) _)
  · exact congrArg Core.arch (State.setCore_core _ _ _)
  · exact congrArg Core.run (State.setCore_core _ _ _)
  · exact State.setCore_core_other _ _ other

end

section
variable {k : CoreIx} {imm : BitVec 10} {s s1 s2 : State} {v : Nat} {ws : List Word}
  (I : Issues k 1 s s1) (C : Calm k s) (hpl : 1 ≤ (s.arch k).pl.toNat) (hs : s.split k = false) (hn : s1.pair.nosplit = false)
  (hv : ((s.arch k).map ((s.arch k).regA (imm.toNat % 16))).toNat = v) (h1 : v % 4096 = 0) (h2 : v < 0xF000000000 ∨ 0xFFFFF80000 ≤ v)
  (hr : readMem (.core k) (coreXl k (s.arch k).pl.toNat (checkpoint k s1)) v 4096 (checkpoint k s1) = .ok ws s2)

include I C hpl hs hn hv h1 h2 hr

/-- What SPLIT does with the block once read. -/
theorem split_reads :
    ∃ body, exec (.split k imm) s = .next (issueAny false .sent k 1 body s) ∧
      body (checkpoint k s1) = if blockBad ws then .trap (formatTrap v 8) s2 else splitWith k ws s2 := by
  have S := I.checkpointed C
  have arch : (checkpoint k s1).arch k = s.arch k := S.arch.trans (I.arch C.flight k)
  have flight := (S.calm (I.calm C)).flight
  have single : (!s.split k && !s.pair.nosplit) = true := by rw [hs, ← I.pair, hn]; rfl
  refine ⟨_, rfl, ?_⟩
  rw [needLevel, arch, if_pos hpl, need_pos single, blockAddr_good (by rw [arch, rdA_calm flight, arch, sysReg_eq_mod]; exact hv) h1 h2, arch, hr]
  rfl

/-- A bad block traps FORMAT at its address. -/
theorem split_bad (hbad : blockBad ws = true) :
    exec (.split k imm) s = trapsAt k 7 (BitVec.ofNat 40 v) 8 s s2 := by
  obtain ⟨body, e, hb⟩ := split_reads I C hpl hs hn hv h1 h2 hr
  rw [hbad, if_pos rfl] at hb
  have q : Quiet (checkpoint k s1) s2 := Res.okK hr (readMem_quiet (Quiet.refl _))
  rw [e, issue_sent_trap I C hb (q.pair.trans (I.checkpointed C).pair) (show 7 ≠ 19 by decide)]
  rfl

/-- A good block makes the shadow a core of its own. -/
theorem split_good (hvops : (s.core k).vops = []) (hgood : blockBad ws = false) :
    ∃ t, exec (.split k imm) s = .next t ∧ t.split k = true ∧ t.arch (2 * (k / 2) + 1) = archFromBlock ws (s.arch k) ∧
      (t.core (2 * (k / 2) + 1)).run = .running ∧ t.arch k = (s.arch k).after 1 := by
  have even := I.even hs
  obtain ⟨body, e, hb⟩ := split_reads I C hpl hs hn hv h1 h2 hr
  rw [hgood, if_neg Bool.false_ne_true] at hb
  have q : Quiet (checkpoint k s1) s2 := Res.okK hr (readMem_quiet (Quiet.refl _))
  have S2 := (I.checkpointed C).trans (Steady.of_quiet q)
  have C2 := S2.calm (I.calm C)
  have D := drainAll_steady C2.shadow (S2.tested.trans I.untested1)
  have arch : (drainAll k s2).arch k = s.arch k := (S2.trans D).arch.trans (I.arch C.flight k)
  have vops : (s2.core k).vops = [] := by rw [q.core_eq, checkpoint_vops I.untested1, I.core C.flight, hvops]
  obtain ⟨u, split, P⟩ := splitWith_splits (ws := ws) even vops
  rw [arch] at P
  have primary : u.arch k = s.arch k := by rw [State.arch, P.primary, ← State.arch, arch]
  have armed : u.pair.armed = s1.pair.armed := by rw [P.armed, (S2.trans D).pair]
  have stop : (u.core k).stop = 0 := by rw [P.primary]; exact (D.calm C2).stop
  have other : 2 * ((k : Nat) / 2) + 1 ≠ k := by omega
  have shadow : (ended k ((s.arch k).after 1) u).core (2 * (k / 2) + 1) = u.core (2 * (k / 2) + 1) := State.setCore_core_other _ _ other
  refine ⟨ended k ((s.arch k).after 1) u, ?_, P.split, ?_, ?_, ended_arch _⟩
  · rw [e, issue_sent_split I C (hb.trans split) armed primary stop P.split]
  · rw [State.arch, shadow]
    exact P.shadow
  · rw [shadow]
    exact P.runs

end

section
variable {k : CoreIx} {imm : BitVec 10} {s s1 : State}

/-- R451: with NOSPLIT set SPLIT is illegal. -/
theorem split_barred (I : Issues k 1 s s1) (C : Calm k s) (hpl : 1 ≤ (s.arch k).pl.toNat) (hn : s1.pair.nosplit = true) :
    exec (.split k imm) s = trapsAt k 1 (s.arch k).pc (encSYS 0x28 1 imm) s (checkpoint k s1) := by
  have S := I.checkpointed C
  have barred : (!s.split k && !s.pair.nosplit) = false := by rw [← I.pair, hn, Bool.not_true, Bool.and_false]
  obtain ⟨body, e, hb⟩ : ∃ body, exec (.split k imm) s = .next (issueAny false .sent k 1 body s) ∧
      body (checkpoint k s1) = illegal (encSYS 0x28 1 imm) (checkpoint k s1) := by
    refine ⟨_, rfl, ?_⟩
    rw [needLevel, S.arch, I.arch C.flight k, if_pos hpl, need, barred, if_neg Bool.false_ne_true]
  have placed : placeTrap (trapOf 1 0 (encSYS 0x28 1 imm).toNat) (s.arch k).pc (nextPc (s.arch k) 1) =
      { cause := 1, pc := (s.arch k).pc, addr := (s.arch k).pc, detail := encSYS 0x28 1 imm } := by simp [placeTrap, trapOf]
  rw [e, trapsAt, ← placed]
  exact congrArg _ (issue_sent_trap I C hb S.pair (show 1 ≠ 19 by decide))

end

/-! ### JOIN (R455) -/

section
variable {k : Nat} {s : State}

/-- A table written at 1 to n. -/
theorem tget_foldl_tset (f : Nat → Int) (m : Tbl Int) (j n : Nat) :
    tget 0 ((List.range n).foldl (fun t i => tset 0 t (i + 1) (f (i + 1))) m) j = if 1 ≤ j ∧ j ≤ n then f j else tget 0 m j := by
  induction n with
  | zero => rw [List.range_zero, List.foldl_nil, if_neg (by omega)]
  | succ n ih =>
    rw [List.range_succ, List.foldl_append, List.foldl_cons, List.foldl_nil, tget_tset, ih]
    by_cases e : j = n + 1
    · rw [if_pos e, if_pos (by omega), e]
    · rw [if_neg e]
      split <;> rename_i h
      · rw [if_pos (by omega)]
      · rw [if_neg (by omega)]

/-- R455: the seals of the primary p once those of the shadow c are put to them. -/
def Core.joined (p c : Core) : Core :=
  { p with seals := (List.range 8).foldl (fun t i => tset 0 t (i + 1) (p.sealAt (i + 1) + c.sealAt (i + 1))) p.seals }

theorem Core.joined_sealAt (p c : Core) {i : Nat} (h1 : 1 ≤ i) (h8 : i ≤ 8) : (p.joined c).sealAt i = p.sealAt i + c.sealAt i := by
  rw [Core.sealAt, Core.joined, tget_foldl_tset (fun i => p.sealAt i + c.sealAt i), if_pos ⟨h1, h8⟩]

/-- R455: the bent of primary k runs as a pair again, its shadow at reset. -/
structure JoinedFrom (k : Nat) (s t : State) : Prop where
  split : t.split k = false
  shadow : t.core (k + 1) = Core.reset
  primary : t.core k = (s.core k).joined (s.core (k + 1))
  armed : t.pair.armed = s.pair.armed

theorem withdraw_undisturbed (s : State) : Undisturbed s (withdraw s) := .upd rfl rfl rfl

theorem joinNow_joins (hk : k % 2 = 0) (ps : List Place) (s : State) : ∃ t, joinNow k ps s = .ok none t ∧ JoinedFrom k s t := by
  have odd : 2 * (k / 2) + 1 = k + 1 := by omega
  have other : k ≠ k + 1 := by omega
  unfold joinNow
  simp only [odd]
  generalize hw : ps.zip _ = w
  have U := writePlaces_undisturbed (k / 2) w s.drawn
  have primary : (writePlaces (k / 2) w s.drawn).core k = s.core k := U.core k
  refine ⟨_, rfl, ?_, ?_, ?_, ?_⟩
  · exact congrArg Bent.split (State.setBent_bent _ (k / 2) _)
  · rw [(withdraw_undisturbed _).core, State.setBent_read_core, State.setCore_core]
  · rw [(withdraw_undisturbed _).core, State.setBent_read_core, State.setCore_core_other _ _ other, State.setCore_core]
    exact congrArg (fun p => Core.joined p (s.core (k + 1))) primary
  · rw [(withdraw_undisturbed _).pair]
    exact (congrArg Pair.armed U.pair :)

end

section
variable {k : CoreIx} {imm : BitVec 10} {s s1 s2 : State} {v : Nat} {ps : List Place}

/-- R455: once the shadow has stopped, JOIN makes the bent a pair; where the comparator test armed for the bent fires at its end (R445), the rollback keeps
the seals. -/
theorem join_joins (I : Issues k 1 s s1) (C : Calm k s) (hpl : 1 ≤ (s.arch k).pl.toNat) (hs : s.split k = true) (hk : (k : Nat) % 2 = 0)
    (hv : ((s.arch k).map ((s.arch k).regA (imm.toNat % 16))).toNat = v) (h1 : v % 4096 = 0) (h2 : v < 0xF000000000 ∨ 0xFFFFF80000 ≤ v)
    (hx : xlate (.core k) (coreXl k (s.arch k).pl.toNat (checkpoint k s1)) .write v 4096 (checkpoint k s1) = .ok ps s2)
    (hstop : (s2.core (k + 1)).run = .stopped) :
    ∃ t, exec (.join k imm) s = .next t ∧ t.split k = false ∧ (t.core (k + 1)).run = .idle ∧
      ∀ i, 1 ≤ i → i ≤ 8 → (t.core k).sealAt i = (s.core k).sealAt i + (s2.core (k + 1)).sealAt i := by
  have S := I.checkpointed C
  have S2 := S.trans (xlate_steady hx)
  have C2 := S2.calm (I.calm C)
  have split : s2.split k = true := S2.split.trans ((I.split k).trans hs)
  have D := drainAll_steady C2.shadow (testArmed_split split)
  have K := drainAll_keepsSeals (k := k) s2
  have arch : (drainAll k s2).arch k = s.arch k := (S2.trans D).arch.trans (I.arch C.flight k)
  have seals : ((drainAll k s2).core k).seals = (s.core k).seals := by
    have q : Quiet (checkpoint k s1) s2 := Res.okK hx (xlate_quiet (Quiet.refl _))
    rw [K.seals, q.core_eq, (checkpoint_run I.untested1).2.2, I.core C.flight]
  obtain ⟨u, join, J⟩ := joinNow_joins hk ps (drainAll k s2)
  have primary : u.arch k = s.arch k := by rw [State.arch, J.primary]; exact arch
  have stop : (u.core k).stop = 0 := by rw [J.primary]; exact (D.calm C2).stop
  have armed : u.pair.armed = s1.pair.armed := by rw [J.armed, (S2.trans D).pair]
  obtain ⟨body, e, hb⟩ : ∃ body, exec (.join k imm) s = .next (issueAny false .sent k 1 body s) ∧ body (checkpoint k s1) = .ok none u := by
    have carch : (checkpoint k s1).arch k = s.arch k := S.arch.trans (I.arch C.flight k)
    have flight := (S.calm (I.calm C)).flight
    have primaryCore : (s.split k && decide (k.val % 2 = 0)) = true := by rw [hs, hk]; rfl
    refine ⟨_, rfl, ?_⟩
    rw [needLevel, carch, if_pos hpl, need_pos primaryCore, blockAddr_good (by rw [carch, rdA_calm flight, carch, sysReg_eq_mod]; exact hv) h1 h2, carch, hx]
    exact (if_pos hstop).trans join
  have E := issue_sent_keepsSeals I C hb armed primary stop
  refine ⟨_, e, E.split.trans J.split, ?_, fun i h1 h8 => ?_⟩
  · rw [E.others (k + 1) (by omega), J.shadow]
    rfl
  · rw [Core.sealAt, E.seals, ← Core.sealAt, J.primary, Core.joined_sealAt _ _ h1 h8, K.others (k + 1) (by omega), Core.sealAt, seals, ← Core.sealAt]

end

end Sys2Proof.Machine
end

section
open Sys2Proof Sys2Proof.Machine

/-- Settles O32: the share that JEND ends stays freed through the end of its job; SPLIT ends in split execution, with no checkpoint; JOIN ends at one, whose
rollback, where there is one, keeps what JOIN has put together. -/
theorem vsetcJendSplitJoin : Obligations.VsetcJendSplitJoin := by
  unfold Obligations.VsetcJendSplitJoin
  intro k imm s s1 I C x l c v
  refine ⟨fun h hc => vsetc_sets I C h hc, fun hs ho hv hb => ⟨jend_idles I C hs ho hv hb, fun j i job hsh hj hi => ?ends⟩,
    fun ws s2 hpl hs hn h1 h2 hr hv => ⟨split_bad I C hpl hs hn rfl h1 h2 hr, split_good I C hpl hs hn rfl h1 h2 hr hv⟩,
    fun ps s2 hpl hs hk h1 h2 hx hstop => join_joins I C hpl hs hk rfl h1 h2 hx hstop, fun hn hpl => split_barred I C hpl hn⟩
  case ends =>
    obtain ⟨t, e, F⟩ := jend_frees I C hs ho hv hb hsh hj hi
    have core : t.core k = Core.reset := by
      rw [← F.core]
      congr 1
      have := I.even hs
      omega
    exact ⟨t, e, F.share, by rw [core]; rfl, by rw [State.arch, core]; rfl⟩

end

/-! ## The port: messages on their way, the link, and errors (R358 to R360, R363, R366) -/

section
namespace Sys2Proof.Machine

/-! ### Messages (R358 to R360) -/

section
variable {f v : Nat} {s : State}

/-- The state with vector v of function f written. -/
def State.putVec (s : State) (f v : Nat) (e : Vector) : State := s.setFn f { s.fn f with vec := tset Vector.reset (s.fn f).vec v e }

theorem State.putVec_fn (s : State) (f v : Nat) (e : Vector) :
    (s.putVec f v e).fn f = { s.fn f with vec := tset Vector.reset (s.fn f).vec v e } := State.setFn_fn ..

theorem State.putVec_vec (s : State) (f v : Nat) (e : Vector) : tget Vector.reset ((s.putVec f v e).fn f).vec v = e := by
  rw [State.putVec_fn]
  exact tget_tset_self ..

theorem putVec_told (s : State) (f v : Nat) (e : Vector) : Told s (s.putVec f v e) := (Told.refl s).setVec f _

/-- A message that nothing holds back is sent with the vector's address and data in force. -/
theorem sendVec_sent (hen : (s.fn f).msixEn = true) (hv : v < vectorCount f) (hm : (tget Vector.reset (s.fn f).vec v).mask = false)
    (hf : (s.fn f).fmask = false) (hb : (s.fn f).bme = true) :
    (sendVec f v s).sent = s.sent ++ [{ func := f, vec := v, addr := (tget Vector.reset (s.fn f).vec v).curAddr, data := (tget Vector.reset (s.fn f).vec v).curData }] ∧
      (sendVec f v s).fn f = s.fn f := by
  rw [sendVec]
  simp only [hen, hm, hf, hb, ge_iff_le, Nat.not_le.mpr hv, Bool.not_true, decide_false, Bool.or_self, Bool.false_eq_true, if_false, true_and]
  rfl

/-- With Bus Master Enable set no message of the function waits anew. -/
theorem sendVec_waits (hb : (s.fn f).bme = true) : (sendVec f v s).port.waits = s.port.waits := by
  unfold sendVec
  dsimp only
  split
  · rfl
  · split
    · rfl
    · simp [hb]

/-- The vector with its registers taken, holding no message. -/
def Vector.latched (e : Vector) : Vector := { e with curAddr := e.addr, curData := e.data, pba := false }

theorem latchVector_masked (hm : (tget Vector.reset (s.fn f).vec v).mask = true ∨ (s.fn f).fmask = true) : latchVector f v s = s := by
  rw [latchVector]
  rcases hm with h | h <;> simp [h]

theorem latchVector_open (hm : (tget Vector.reset (s.fn f).vec v).mask = false) (hf : (s.fn f).fmask = false) :
    latchVector f v s =
      let t := s.putVec f v (tget Vector.reset (s.fn f).vec v).latched
      if (tget Vector.reset (s.fn f).vec v).pba then sendVec f v t else t := by
  have hopen : ¬ ((tget Vector.reset (s.fn f).vec v).mask || (s.fn f).fmask) = true := by simp [hm, hf]
  exact if_neg hopen

/-- A vector that holds no message, or a masked function, sends nothing as the vector is unmasked. -/
theorem latchVector_silent (hm : (tget Vector.reset (s.fn f).vec v).mask = false) (h : (tget Vector.reset (s.fn f).vec v).pba = false ∨ (s.fn f).fmask = true) :
    (latchVector f v s).sent = s.sent ∧ (tget Vector.reset ((latchVector f v s).fn f).vec v).mask = false := by
  cases hf : (s.fn f).fmask with
  | true => rw [latchVector_masked (.inr hf)]; exact ⟨rfl, hm⟩
  | false =>
    have hp : (tget Vector.reset (s.fn f).vec v).pba = false := by simpa [hf] using h
    rw [latchVector_open hm hf, hp]
    exact ⟨rfl, (congrArg Vector.mask (State.putVec_vec ..)).trans hm⟩

/-- An unmasked vector sends the message it held, with its registers as they now are. -/
theorem latchVector_sends (hm : (tget Vector.reset (s.fn f).vec v).mask = false) (hf : (s.fn f).fmask = false) (hp : (tget Vector.reset (s.fn f).vec v).pba = true)
    (hen : (s.fn f).msixEn = true) (hb : (s.fn f).bme = true) (hv : v < vectorCount f) :
    (latchVector f v s).sent = s.sent ++ [{ func := f, vec := v, addr := (tget Vector.reset (s.fn f).vec v).addr, data := (tget Vector.reset (s.fn f).vec v).data }] ∧
      (tget Vector.reset ((latchVector f v s).fn f).vec v).pba = false := by
  have vec := State.putVec_vec s f v (tget Vector.reset (s.fn f).vec v).latched
  have fn := State.putVec_fn s f v (tget Vector.reset (s.fn f).vec v).latched
  rw [latchVector_open hm hf, hp]
  obtain ⟨sent, kept⟩ := sendVec_sent (v := v) (s := s.putVec f v (tget Vector.reset (s.fn f).vec v).latched)
    (by rw [fn]; exact hen) hv (by rw [vec]; exact hm) (by rw [fn]; exact hf) (by rw [fn]; exact hb)
  rw [vec] at sent
  exact ⟨sent, by rw [if_pos rfl, kept, vec]; rfl⟩

theorem setMask_unmasks (hm : (tget Vector.reset (s.fn f).vec v).mask = true) :
    setMask f v false s = latchVector f v (s.putVec f v { tget Vector.reset (s.fn f).vec v with mask := false }) := by
  rw [setMask, hm]
  rfl

theorem setMask_unmasked (hm : (tget Vector.reset (s.fn f).vec v).mask = false) :
    setMask f v false s = s.putVec f v { tget Vector.reset (s.fn f).vec v with mask := false } := by
  rw [setMask, hm]
  rfl

theorem setMask_silent (h : (tget Vector.reset (s.fn f).vec v).pba = false ∨ (s.fn f).fmask = true) :
    (tget Vector.reset ((setMask f v false s).fn f).vec v).mask = false ∧ (setMask f v false s).sent = s.sent ∧ (setMask f v false s).mem = s.mem := by
  have vec := State.putVec_vec s f v { tget Vector.reset (s.fn f).vec v with mask := false }
  cases hm : (tget Vector.reset (s.fn f).vec v).mask with
  | false =>
    rw [setMask_unmasked hm, vec]
    exact ⟨rfl, rfl, rfl⟩
  | true =>
    rw [setMask_unmasks hm]
    obtain ⟨sent, mask⟩ := latchVector_silent (v := v) (s := s.putVec f v { tget Vector.reset (s.fn f).vec v with mask := false })
      (by rw [vec]) (by rw [vec, State.putVec_fn]; exact h)
    exact ⟨mask, sent, (latchVector_told ..).mem⟩

theorem setMask_sends (hm : (tget Vector.reset (s.fn f).vec v).mask = true) (hf : (s.fn f).fmask = false) (hp : (tget Vector.reset (s.fn f).vec v).pba = true)
    (hen : (s.fn f).msixEn = true) (hb : (s.fn f).bme = true) (hv : v < vectorCount f) :
    (setMask f v false s).sent = s.sent ++ [{ func := f, vec := v, addr := (tget Vector.reset (s.fn f).vec v).addr, data := (tget Vector.reset (s.fn f).vec v).data }] ∧
      (tget Vector.reset ((setMask f v false s).fn f).vec v).pba = false ∧ (setMask f v false s).mem = s.mem := by
  have vec := State.putVec_vec s f v { tget Vector.reset (s.fn f).vec v with mask := false }
  have fn := State.putVec_fn s f v { tget Vector.reset (s.fn f).vec v with mask := false }
  rw [setMask_unmasks hm]
  obtain ⟨sent, pba⟩ := latchVector_sends (v := v) (s := s.putVec f v { tget Vector.reset (s.fn f).vec v with mask := false })
    (by rw [vec]) (by rw [fn]; exact hf) (by rw [vec]; exact hp) (by rw [fn]; exact hen) (by rw [fn]; exact hb) hv
  rw [vec] at sent
  exact ⟨sent, pba, (latchVector_told ..).mem⟩

/-- R360: after Bus Master Enable returns no message of the function waits. -/
theorem resumeBus_waits : ∀ w ∈ (resumeBus f s).port.waits, w.1 ≠ f := by
  have sending (ws : List (Nat × Nat)) : ∀ {u : State}, (∀ w ∈ ws, w.1 = f) → (u.fn f).bme = true →
      (ws.foldl (fun s w => sendVec w.1 w.2 s) u).port.waits = u.port.waits := by
    induction ws with
    | nil => exact fun _ _ => rfl
    | cons w ws ih =>
      intro u hw hb
      obtain ⟨hw, hws⟩ := List.forall_mem_cons.mp hw
      rw [List.foldl_cons, ih hws (by rw [(sendVec_told ..).fn]; exact hb), hw, sendVec_waits hb]
  intro w hw
  rw [resumeBus, sending _ (fun w h => by simpa using (List.mem_filter.mp h).2) (congrArg Func.bme (State.setFn_fn s f _))] at hw
  simpa using (List.mem_filter.mp hw).2

/-- R360: the one message that waited goes, if its vector may send. -/
theorem resumeBus_sends (hw : s.port.waits = [(f, v)]) (hen : (s.fn f).msixEn = true) (hv : v < vectorCount f) (hf : (s.fn f).fmask = false)
    (hm : (tget Vector.reset (s.fn f).vec v).mask = false) :
    (resumeBus f s).sent = s.sent ++ [{ func := f, vec := v, addr := (tget Vector.reset (s.fn f).vec v).curAddr, data := (tget Vector.reset (s.fn f).vec v).curData }] := by
  have mine : s.port.waits.filter (fun w => decide (w.1 = f)) = [(f, v)] := by simp [hw]
  have fn : ((s.setFn f { s.fn f with bme := true }).fn f) = { s.fn f with bme := true } := State.setFn_fn ..
  rw [resumeBus, mine, List.foldl_cons, List.foldl_nil]
  refine (sendVec_sent ?_ hv ?_ ?_ ?_).1.trans ?_ <;> simp only [State.fn] at fn ⊢ <;> rw [fn]
  · exact hen
  · exact hm
  · exact hf
  · rfl

end

/-! ### The link and the error counters (R363, R366) -/

section
variable {s : State}

theorem aspmL1Entry_enters (hu : s.port.up = true) (ha : s.port.aspm = true) (hq : s.ats.asked = []) :
    exec .aspmL1Entry s = .next { s with port := { s.port with l1 := true } } := by
  rw [exec_aspmL1Entry, execAspmL1Entry, hu, ha, hq]
  rfl

theorem aspmL1Entry_stays (h : s.port.up = false ∨ s.port.aspm = false ∨ s.ats.asked ≠ []) : exec .aspmL1Entry s = .next s := by
  rw [exec_aspmL1Entry, execAspmL1Entry, if_neg]
  rcases h with h | h | h <;> simp [h]

theorem countAer_aer_other (s : State) {n i : Nat} (h : i ≠ n) : tget 0 (countAer n s).port.aer i = tget 0 s.port.aer i := by
  rw [countAer, tget_tset_other _ _ _ h]

end

/-! ### Reads of host memory (R344, R366) -/

section
variable {bs : List Byte} {a i : Nat} {b : Byte}

/-- Consecutive bytes put into a table from key a + k on, as READ_COMPLETION and FW_WRITE do. -/
theorem tget_foldl_tset_zipIdx (a x : Nat) (bs : List Byte) : ∀ (k : Nat) (m : Tbl (Option Byte)),
    tget none ((bs.zipIdx k).foldl (fun m e => tset none m (a + e.2) (some e.1)) m) x =
      if a + k ≤ x ∧ x < a + k + bs.length then bs[x - (a + k)]? else tget none m x := by
  induction bs with
  | nil => intro k m; rw [if_neg (by simp)]; rfl
  | cons b bs ih =>
    intro k m
    rw [List.zipIdx_cons, List.foldl_cons, ih, List.length_cons]
    by_cases hx : x = a + k
    · rw [if_neg (by omega), if_pos (by omega), hx, tget_tset_self, Nat.sub_self]
      rfl
    · rw [tget_tset_other _ _ _ hx]
      by_cases hin : a + (k + 1) ≤ x ∧ x < a + (k + 1) + bs.length
      · rw [if_pos hin, if_pos (by omega), show x - (a + k) = x - (a + (k + 1)) + 1 by omega, List.getElem?_cons_succ]
      · rw [if_neg hin, if_neg (by omega)]

theorem putHost_byte (a : Nat) (b : Byte) (s : State) : putHost a b.toNat 1 s = { s with host := tset none s.host a (some b) } := by
  simp [putHost]

/-- The state after bytes bs of host memory came from address a. -/
def State.received (s : State) (a : Nat) (bs : List Byte) : State :=
  { s with
    host := bs.zipIdx.foldl (fun m e => tset none m (a + e.2) (some e.1)) s.host
    hostBad := s.hostBad.filter (fun b => !(decide (a ≤ b) && decide (b < a + bs.length))) }

theorem readCompletion_received (f : FuncIx) (addr : BitVec 64) (all : List Byte) (s : State) :
    exec (.readCompletion f addr all) s = .next (s.received addr.toNat (all.take (maxRead s))) := by
  have puts (es : List (Byte × Nat)) : ∀ u : State, es.foldl (fun s e => putHost (addr.toNat + e.2) e.1.toNat 1 s) u =
      { u with host := es.foldl (fun m e => tset none m (addr.toNat + e.2) (some e.1)) u.host } := by
    induction es with
    | nil => exact fun _ => rfl
    | cons e es ih => exact fun u => by rw [List.foldl_cons, ih, putHost_byte, List.foldl_cons]
  exact congrArg _ (puts ..)

theorem hostByteAt_received (s : State) (a : Nat) (bs : List Byte) (x : Nat) :
    hostByteAt (s.received a bs) x = if a ≤ x ∧ x < a + bs.length then (bs[x - a]?).getD (Config.hostByte x) else hostByteAt s x := by
  rw [hostByteAt, State.received, tget_foldl_tset_zipIdx]
  simp only [Nat.add_zero]
  split <;> rfl

theorem mem_received_hostBad {s : State} {a x : Nat} {bs : List Byte} :
    x ∈ (s.received a bs).hostBad ↔ x ∈ s.hostBad ∧ ¬ (a ≤ x ∧ x < a + bs.length) := by
  simp only [State.received, List.mem_filter, Bool.not_eq_true', ← Bool.not_eq_true, Bool.and_eq_true, decide_eq_true_eq]

/-- R366: a failed read is counted, logged with its requester and found by it; memory stays. -/
theorem failRead_fails (f addr detail ctx va : Nat) {s : State} (h : s.errl.ring.length < 1024) :
    let n := if detail = 1 then 7 else 2
    let t := failRead f addr detail ctx va s
    tget 0 t.port.aer n = tget 0 s.port.aer n + 1 ∧ addr ∈ t.hostBad ∧
      t.errl.ring = s.errl.ring ++ [{ code := 0x0045, kind := 7, unit := f, addr := va, detail := detail, ctx := ctx, time := s.time, ue := true }] ∧
      t.mem = s.mem ∧ t.host = s.host := by
  intro n t
  have told := logErr_told true 0x0045 7 f va detail ctx s
  exact ⟨(countAer_aer ..).trans (by rw [told.aer]), List.mem_append_right _ (List.mem_singleton_self _), logErr_ring h, told.mem, told.quiet.host⟩

end
end Sys2Proof.Machine
end

section
open Sys2Proof Sys2Proof.Machine

/-- Settles O45: each message, link state, error and completion by the rule of what it leaves. -/
theorem portEvents : Obligations.PortEvents := by
  unfold Obligations.PortEvents
  intro f s fn
  refine ⟨fun vec hopen hv => ?unmask, fun he => ?resumes, fun v he hw hen hv hf hm => ?sends, fun he => if_neg (by rw [he]; exact Bool.false_ne_true),
    aspmL1Entry_enters, aspmL1Entry_stays, ?linkUp, ?counts, fun addr ctx va hl => ?fails, fun addr all => ?completes⟩
  case unmask =>
    have unmasks : exec (.vectorUnmask f vec) s = .next (setMask f vec.toNat false s) := (next_hostWrite_open _ hopen).trans (congrArg _ (if_pos hv))
    exact ⟨fun hm hf hp hen hb => ⟨_, unmasks, setMask_sends hm hf hp hen hb hv⟩, fun h => ⟨_, unmasks, setMask_silent h⟩⟩
  case resumes => exact ⟨_, if_pos he, resumeBus_bme, resumeBus_waits, (resumeBus_told f s).mem, (resumeBus_told f s).cores⟩
  case sends => exact ⟨_, if_pos he, resumeBus_sends hw hen hv hf hm⟩
  case linkUp => exact ⟨_, _, _, rfl, fun h => by rw [h]; exact Bool.or_true _⟩
  case counts =>
    refine ⟨?_, fun h => ?_, fun h => if_neg (by rw [h]; exact Bool.false_ne_true), ?_, ?_⟩
    case refine_2 => exact ⟨_, if_pos h, countAer_aer _ _, fun i hi => countAer_aer_other s hi, rfl, rfl, rfl⟩
    all_goals exact ⟨_, rfl, countAer_aer _ _, fun i hi => countAer_aer_other s hi, rfl, rfl, rfl⟩
  case fails =>
    exact ⟨fun h => ⟨_, if_neg (by rw [h]; exact Bool.false_ne_true), failRead_fails f addr.toNat 2 ctx.toNat va.toNat hl⟩, fun h => if_pos h,
      ⟨_, rfl, failRead_fails f addr.toNat 1 ctx.toNat va.toNat hl⟩⟩
  case completes =>
    intro data
    refine ⟨_, readCompletion_received f addr all s, fun i b hb => ?_, fun a ha => ?_, rfl, rfl⟩
    · obtain ⟨hi, -⟩ := List.getElem?_eq_some_iff.mp hb
      have inside : addr.toNat ≤ addr.toNat + i ∧ addr.toNat + i < addr.toNat + data.length := by omega
      rw [hostByteAt_received, if_pos inside, Nat.add_sub_cancel_left, hb]
      exact ⟨rfl, fun h => (mem_received_hostBad.mp h).2 inside⟩
    · have outside : ¬ (addr.toNat ≤ a ∧ a < addr.toNat + data.length) := by omega
      rw [hostByteAt_received, if_neg outside, mem_received_hostBad]
      exact ⟨rfl, and_iff_left outside⟩

end

/-! ## What work, messages and log entries leave of the module's course -/

section
namespace Sys2Proof.Machine

/-- What the module's own work leaves as it found it: its variant, straps, time, firmware, whether configuration space is open and the dispatcher
fetches, and its supply but for what requests a wake (R477, R543). -/
structure Going (z s : State) : Prop where
  variant : s.variant = z.variant
  straps : s.straps = z.straps
  tick : s.tick = z.tick
  flash : s.flash = z.flash
  cfg : s.port.cfg = z.port.cfg
  fetching : s.disp.fetching = z.disp.fetching
  power : s.power = { z.power with pme := s.power.pme, wakePin := s.power.wakePin }

namespace Going

variable {x y z s : State}

theorem refl (s : State) : Going s s := ⟨rfl, rfl, rfl, rfl, rfl, rfl, rfl⟩

theorem trans (h : Going x y) (g : Going y z) : Going x z :=
  ⟨g.variant.trans h.variant, g.straps.trans h.straps, g.tick.trans h.tick, g.flash.trans h.flash, g.cfg.trans h.cfg, g.fetching.trans h.fetching,
   by rw [g.power, h.power]⟩

/-- An update of other fields. -/
theorem upd {co be me er cx at_ fu ho hb se sr sl pa sc sd sw dr pe} {po : Port} {di : Disp} (h : Going z s) (hc : po.cfg = s.port.cfg) (hf : di.fetching = s.disp.fetching) :
    Going z (State.mk s.variant s.straps s.tick co be me er cx at_ fu po ho hb se di sr sl pa s.power sc s.flash sd sw dr pe) :=
  ⟨h.variant, h.straps, h.tick, h.flash, hc.trans h.cfg, hf.trans h.fetching, h.power⟩

/-- A request of a wake. -/
theorem wakes (h : Going z s) (pme wakePin : Bool) : Going z { s with power := { s.power with pme := pme, wakePin := wakePin } } :=
  ⟨h.variant, h.straps, h.tick, h.flash, h.cfg, h.fetching, by rw [h.power]⟩

theorem foldl {α : Type} {f : State → α → State} (hf : ∀ u x, Going z u → Going z (f u x)) (l : List α) : ∀ {s}, Going z s → Going z (l.foldl f s) := by
  induction l with
  | nil => exact fun h => h
  | cons x l ih => exact fun h => ih (hf _ x h)

theorem phase (h : Going z s) : s.power.phase = z.power.phase := by rw [h.power]

theorem fault (h : Going z s) : s.power.fault = z.power.fault := by rw [h.power]

end Going

section
variable {z s : State}

theorem sendVec_going {f v : Nat} (h : Going z s) : Going z (sendVec f v s) := by
  unfold sendVec
  dsimp only
  split
  · exact h
  · split
    · exact h.upd rfl rfl
    · split <;> exact h.upd rfl rfl

theorem requestWake_going (h : Going z s) : Going z (requestWake s) := by
  unfold requestWake
  split
  · exact h.wakes true _
  · split
    · exact h.wakes _ true
    · exact h

theorem fireSrc_going {n : Nat} {bits : Word} (h : Going z s) : Going z (fireSrc n bits s) := by
  have fired : Going z (s.setSrc n ((s.src n).fire bits)) := h.upd rfl rfl
  unfold fireSrc
  dsimp only
  split
  · exact requestWake_going fired
  · exact fired

theorem fireModule_going {n : Nat} (h : Going z s) : Going z (fireModule n s) := by
  unfold fireModule
  split
  · exact fireSrc_going h
  · exact h

theorem errInterrupt_going {ue : Bool} (h : Going z s) : Going z (errInterrupt ue s) := by
  unfold errInterrupt
  dsimp only
  split
  · exact sendVec_going (fireModule_going h)
  · exact fireModule_going h

theorem queueEvent_going {n : PollEvent} (h : Going z s) : Going z (queueEvent n s) := h.upd rfl rfl

theorem copyEntry_going {e : ErrEntry} (h : Going z s) : Going z (copyEntry e s) := h.upd rfl rfl

theorem logEntry_going {e : ErrEntry} (h : Going z s) : Going z (logEntry e s) := by
  unfold logEntry
  split
  · extract_lets queued
    have h : Going z queued := queueEvent_going (copyEntry_going h)
    clear_value queued
    split
    · exact errInterrupt_going (h.upd rfl rfl)
    · split
      · exact errInterrupt_going (h.upd rfl rfl)
      · exact h.upd rfl rfl
  · extract_lets +onlyGivenNames sec rate
    clear_value rate
    dsimp only
    split
    · exact h.upd rfl rfl
    · split
      · exact errInterrupt_going (h.upd rfl rfl)
      · exact h.upd rfl rfl

theorem logErr_going {ue code kind unit addr detail ctx} (h : Going z s) : Going z (logErr ue code kind unit addr detail ctx s) := logEntry_going h

end

/-! ### Links that change their state (R504 to R507) -/

/-- Nothing changed but the links, the event sources and the requests of a wake. -/
def LinksOnly (z s : State) : Prop :=
  s = { z with scarf := s.scarf, srcs := s.srcs, power := { z.power with pme := s.power.pme, wakePin := s.power.wakePin } }

namespace LinksOnly

variable {x y z s : State}

theorem refl (s : State) : LinksOnly s s := rfl

theorem eq (h : LinksOnly z s) : ∃ scarf srcs pme wakePin,
    s = { z with scarf := scarf, srcs := srcs, power := { z.power with pme := pme, wakePin := wakePin } } := ⟨_, _, _, _, h⟩

theorem trans (h : LinksOnly x y) (g : LinksOnly y z) : LinksOnly x z := by
  rw [LinksOnly, g, h]

theorem foldl {α : Type} {f : State → α → State} (hf : ∀ u x, LinksOnly u (f u x)) (l : List α) : ∀ s, LinksOnly s (l.foldl f s) := by
  induction l with
  | nil => exact refl
  | cons x l ih => exact fun s => (hf s x).trans (ih _)

end LinksOnly

theorem requestWake_linksOnly (s : State) : LinksOnly s (requestWake s) := by
  unfold requestWake
  split
  · rfl
  · split <;> rfl

theorem fireSrc_linksOnly (n : Nat) (bits : Word) (s : State) : LinksOnly s (fireSrc n bits s) := by
  have fired : LinksOnly s (s.setSrc n ((s.src n).fire bits)) := rfl
  unfold fireSrc
  dsimp only
  split
  · exact fired.trans (requestWake_linksOnly _)
  · exact fired

theorem changeLink_linksOnly (l : Nat) (f : Link → Link) (s : State) : LinksOnly s (changeLink l f s) := by
  have changed : LinksOnly s (s.setLink l (f (s.link l))) := rfl
  unfold changeLink
  dsimp only
  split
  · exact changed
  · exact changed.trans (fireSrc_linksOnly _ _ _)

/-- Each link that meets a condition changes. -/
theorem changeLinks_linksOnly {p : State → Nat → Prop} [∀ s l, Decidable (p s l)] (f : Link → Link) (ls : List Nat) :
    ∀ s, LinksOnly s (ls.foldl (fun s l => if p s l then changeLink l f s else s) s) :=
  LinksOnly.foldl (fun s l => by
    split
    · exact changeLink_linksOnly l f s
    · exact LinksOnly.refl s) ls

theorem startLinks_linksOnly (s : State) : LinksOnly s (startLinks s) := changeLinks_linksOnly _ _ s

theorem idleLinks_linksOnly (s : State) : LinksOnly s (idleLinks s) := changeLinks_linksOnly _ _ s

theorem wakeLinks_linksOnly (s : State) : LinksOnly s (wakeLinks s) := changeLinks_linksOnly _ _ s

end Sys2Proof.Machine
end

/-! ## Precharge, boot, raising and the ways down (R364, R493, R527 to R530, R550 to R555) -/

section
namespace Sys2Proof.Machine

/-! ### The phase (R541, R542) -/

/-- A change of phase queues at most an event for polling. -/
theorem setPhase_eq (p : Phase) (s : State) :
    ∃ polled alert, setPhase p s = { s with power := { s.power with phase := p }, steward := { s.steward with polled := polled, alert := alert } } := by
  unfold setPhase
  dsimp only
  split
  · exact ⟨_, _, rfl⟩
  · exact ⟨_, _, rfl⟩

section
variable {mv : Nat} {straps : Straps} {s : State}

/-! ### Precharge and boot (R527, R528, R551) -/

/-- The state in which VIN54 is applied. -/
def supplied (mv : Nat) (s : State) : State :=
  { s with power := { s.power with vin := mv, precharged := s.power.precharged || decide (44000 ≤ mv) } }

theorem precharge_raisable (hs : s.power.phase = .stopped) (hmv : 44000 ≤ mv) : exec (.precharge mv) s =
    let t := setPhase .aux (supplied mv s)
    .next (setClkreq { t with power := { t.power with fault := false } }) :=
  congrArg (fun t => Host.Outcome.next (setClkreq t)) (if_pos ⟨hs, hmv⟩)

theorem precharge_supplied (h : ¬ (s.power.phase = .stopped ∧ 44000 ≤ mv)) : exec (.precharge mv) s = .next (setClkreq (supplied mv s)) :=
  congrArg (fun t => Host.Outcome.next (setClkreq t)) (if_neg h)

theorem precharge_charges : ∃ t, exec (.precharge mv) s = .next t ∧ t.power.vin = mv ∧ (44000 ≤ mv → t.power.precharged = true) ∧
    (mv < 44000 → t.power.precharged = s.power.precharged ∧ t.power.phase = s.power.phase) ∧
    (s.power.phase = .stopped → 44000 ≤ mv → t.power.phase = .aux ∧ t.power.fault = false) ∧ t.mem = s.mem := by
  have high (h : 44000 ≤ mv) : (supplied mv s).power.precharged = true := by simp [supplied, h]
  have low (h : mv < 44000) : (supplied mv s).power.precharged = s.power.precharged := by simp [supplied, Nat.not_le.mpr h]
  by_cases h : s.power.phase = .stopped ∧ 44000 ≤ mv
  · obtain ⟨polled, alert, e⟩ := setPhase_eq .aux (supplied mv s)
    rw [precharge_raisable h.1 h.2, e]
    exact ⟨_, rfl, rfl, high, fun hlow => absurd h.2 (by omega), fun _ _ => ⟨rfl, rfl⟩, rfl⟩
  · rw [precharge_supplied h]
    exact ⟨_, rfl, rfl, high, fun hlow => ⟨low hlow, rfl⟩, fun hs hmv => absurd ⟨hs, hmv⟩ h, rfl⟩

theorem logSigFail_told (b : Bool) (s : State) : Told s (logSigFail b s) := logErr_told ..

theorem logSigFail_going {z : State} {b : Bool} (h : Going z s) : Going z (logSigFail b s) := logErr_going h

/-- Whether a slot verifies depends on the firmware and the variant alone. -/
theorem verifySlot_congr {t : State} (hf : t.flash = s.flash) (hv : t.variant = s.variant) (b : Bool) : verifySlot t b = verifySlot s b := by
  have bytes : slotByte t = slotByte s := by
    funext b off
    unfold slotByte
    rw [hf]
  unfold verifySlot authentic slotVariants slotSvn slotLength slotBytes
  rw [bytes, hf, hv]

/-- The state in which VAUX33 has come and the boot ROM begins. -/
def booting (straps : Straps) (s : State) : State :=
  { s with power := { s.power with phase := .aux }, steward := { s.steward with smbAddr := straps.smbAddr } }

theorem verifySlot_booting (b : Bool) : verifySlot (booting straps s) b = verifySlot s b := verifySlot_congr rfl rfl b

theorem boot_runs (h : s.power.phase = .off) : exec (.boot straps) s = .next (setClkreq (bootRom (booting straps s))) :=
  if_neg (fun g => g h)

/-- The image of slot b runs. -/
def runSlot (b : Bool) (s : State) : State :=
  { s with flash := { s.flash with running := b }, steward := { s.steward with recovery := false } }

theorem bootRom_active (h : verifySlot s s.flash.active = 0) : bootRom s = runSlot s.flash.active s := if_pos h

theorem bootRom_other (h : verifySlot s s.flash.active ≠ 0) (g : verifySlot s (!s.flash.active) = 0) :
    bootRom s = runSlot (!s.flash.active) (logErr true 0x0060 6 0 0 (slotNo (!s.flash.active)) 0 (logSigFail s.flash.active s)) :=
  (if_neg h).trans (if_pos g)

theorem bootRom_none (h : verifySlot s s.flash.active ≠ 0) (g : verifySlot s (!s.flash.active) ≠ 0) :
    bootRom s = enterRecovery (runSlot s.flash.active (logSigFail (!s.flash.active) (logSigFail s.flash.active s))) :=
  (if_neg h).trans (if_neg g)

theorem boot_active (hp : s.power.phase = .off) (h : verifySlot s s.flash.active = 0) :
    ∃ t, exec (.boot straps) s = .next t ∧ t.power.phase = .aux ∧ t.flash.running = s.flash.active ∧ t.steward.smbAddr = straps.smbAddr ∧
      t.steward.recovery = false ∧ t.mem = s.mem := by
  rw [boot_runs hp, bootRom_active ((verifySlot_booting _).trans h)]
  exact ⟨_, rfl, rfl, rfl, rfl, rfl, rfl⟩

theorem boot_other (hp : s.power.phase = .off) (h : verifySlot s s.flash.active ≠ 0) (g : verifySlot s (!s.flash.active) = 0) :
    ∃ t, exec (.boot straps) s = .next t ∧ t.power.phase = .aux ∧ t.flash.running = !s.flash.active ∧ t.mem = s.mem := by
  have booted : bootRom (booting straps s) =
      runSlot (!s.flash.active) (logErr true 0x0060 6 0 0 (slotNo (!s.flash.active)) 0 (logSigFail s.flash.active (booting straps s))) :=
    bootRom_other (by rw [verifySlot_booting]; exact h) ((verifySlot_booting _).trans g)
  have G := logErr_going (ue := true) (code := 0x0060) (kind := 6) (unit := 0) (addr := 0) (detail := slotNo (!s.flash.active)) (ctx := 0)
    (logSigFail_going (b := s.flash.active) (Going.refl (booting straps s)))
  have M := (logErr_told true 0x0060 6 0 0 (slotNo (!s.flash.active)) 0 (logSigFail s.flash.active (booting straps s))).mem.trans (logSigFail_told ..).mem
  rw [boot_runs hp, booted]
  generalize logErr true 0x0060 6 0 0 (slotNo (!s.flash.active)) 0 (logSigFail s.flash.active (booting straps s)) = logged at G M ⊢
  exact ⟨_, rfl, G.phase, rfl, M⟩

theorem boot_none (hp : s.power.phase = .off) (h : verifySlot s s.flash.active ≠ 0) (g : verifySlot s (!s.flash.active) ≠ 0) :
    ∃ t, exec (.boot straps) s = .next t ∧ t.power.phase = .recovery ∧ t.power.fault = true ∧ t.steward.recovery = true ∧ t.mem = s.mem := by
  have booted : bootRom (booting straps s) =
      enterRecovery (runSlot s.flash.active (logSigFail (!s.flash.active) (logSigFail s.flash.active (booting straps s)))) :=
    bootRom_none (by rw [verifySlot_booting]; exact h) (by rw [verifySlot_booting]; exact g)
  have M := (logSigFail_told (!s.flash.active) (logSigFail s.flash.active (booting straps s))).mem.trans (logSigFail_told ..).mem
  rw [boot_runs hp, booted]
  generalize logSigFail (!s.flash.active) (logSigFail s.flash.active (booting straps s)) = logged at M ⊢
  obtain ⟨polled, alert, e⟩ := setPhase_eq .recovery (runSlot s.flash.active logged)
  rw [enterRecovery, e]
  exact ⟨_, rfl, rfl, rfl, rfl, M⟩

end

/-! ### Bents that are cleared (R88, R212) -/

section
variable {l j : Nat} {run : Bool} {s : State}

/-- Bent l is cleared, with its service store from slot run. -/
structure BentReady (l : Nat) (run : Bool) (s : State) : Prop where
  primary : s.core (2 * l) = Core.reset
  shadow : s.core (2 * l + 1) = Core.reset
  bent : s.bent l = { Bent.reset with service := some run }

theorem readyBent_ready (l : Nat) (s : State) : BentReady l s.flash.running (readyBent l s) := by
  refine ⟨?_, ?_, State.setBent_bent ..⟩
  · rw [readyBent, State.setBent_read_core, State.setCore_core_other _ _ (by omega), State.setCore_core]
  · rw [readyBent, State.setBent_read_core, State.setCore_core]

theorem BentReady.readyBent (h : BentReady l run s) (hr : s.flash.running = run) (j : Nat) : BentReady l run (readyBent j s) := by
  by_cases hj : l = j
  · rw [← hr, hj]
    exact readyBent_ready j s
  · obtain ⟨primary, shadow, bent⟩ := h
    refine ⟨?_, ?_, (State.setBent_bent_other _ _ hj).trans bent⟩
    · rw [Machine.readyBent, State.setBent_read_core, State.setCore_core_other _ _ (by omega), State.setCore_core_other _ _ (by omega), primary]
    · rw [Machine.readyBent, State.setBent_read_core, State.setCore_core_other _ _ (by omega), State.setCore_core_other _ _ (by omega), shadow]

/-- Clearing bents touches only cores and bents. -/
theorem readyBents_eq (ls : List Nat) : ∀ s, ∃ co be, ls.foldl (fun s l => readyBent l s) s = { s with cores := co, bents := be } := by
  induction ls with
  | nil => exact fun s => ⟨_, _, rfl⟩
  | cons j ls ih => exact fun s => ih _

theorem readyBents_ready (ls : List Nat) : ∀ s : State, s.flash.running = run → l ∈ ls ∨ BentReady l run s →
    BentReady l run (ls.foldl (fun s l => readyBent l s) s) := by
  induction ls with
  | nil => exact fun s _ h => h.resolve_left List.not_mem_nil
  | cons j ls ih =>
    intro s hr h
    refine ih _ hr ?_
    rcases h with h | h
    · rcases List.mem_cons.mp h with rfl | h
      · exact .inr (hr ▸ readyBent_ready l s)
      · exact .inl h
    · exact .inr (h.readyBent hr j)

theorem clearBents_eq (s : State) : ∃ co be, clearBents s = { s with cores := co, bents := be } := readyBents_eq _ s

theorem clearBents_going {z : State} (h : Going z s) : Going z (clearBents s) := by
  obtain ⟨co, be, e⟩ := clearBents_eq s
  rw [e]
  exact h.upd rfl rfl

theorem clearBents_pair : (clearBents s).pair = s.pair := by
  obtain ⟨co, be, e⟩ := clearBents_eq s
  rw [e]

theorem clearBents_ready (h : l ∈ inService s) : BentReady l s.flash.running (clearBents s) := readyBents_ready _ s rfl (.inl h)

theorem mem_inService : l ∈ inService s ↔ l < s.variant.bents ∧ (tget none s.pair.lmap l).isSome = true := by
  rw [inService, List.mem_filter, List.mem_range]

end

/-! ### The map of the bents at raising (R444, R446, R529) -/

section
variable {p q reason : Nat} {s : State}

theorem markRetired_going {z : State} (h : Going z s) : Going z (markRetired p reason s) :=
  queueEvent_going (logErr_going ((fireModule_going (h.upd rfl rfl)).upd rfl rfl))

/-- Physical bent p is retired for a reason. -/
def Retired (p reason : Nat) (s : State) : Prop := (s.phys p).state = 3 ∧ (s.phys p).reason = reason

theorem markRetired_physTable (p reason : Nat) (s : State) :
    (markRetired p reason s).pair.phys = (s.setPhys p { s.phys p with reason := reason, lbent := 0, state := 3 }).pair.phys := by
  have fired := congrArg Pair.phys (fireModule_told 7 (s.setPhys p { s.phys p with reason := reason, lbent := 0, state := 3 })).quiet.pair
  unfold markRetired
  extract_lets marked q retired
  have logged := congrArg Pair.phys (logErr_told true 0x004B 0 p 0 reason 0 retired).quiet.pair
  exact logged.trans fired

theorem markRetired_phys (p q reason : Nat) (s : State) :
    (markRetired p reason s).phys q = (s.setPhys p { s.phys p with reason := reason, lbent := 0, state := 3 }).phys q :=
  congrArg (tget Phys.absent · q) (markRetired_physTable p reason s)

theorem State.setPhys_phys_other (s : State) (v : Phys) (h : q ≠ p) : (s.setPhys p v).phys q = s.phys q := by
  rw [State.phys, State.setPhys]
  exact tget_tset_other _ _ _ h

theorem markRetired_retired (p reason : Nat) (s : State) : Retired p reason (markRetired p reason s) := by
  rw [Retired, markRetired_phys, State.setPhys_phys]
  exact ⟨rfl, rfl⟩

theorem Retired.markRetired (h : Retired p reason s) (q : Nat) : Retired p reason (markRetired q reason s) := by
  by_cases e : p = q
  · exact e ▸ markRetired_retired q reason s
  · rw [Retired, markRetired_phys, State.setPhys_phys_other _ _ e]
    exact h

theorem markRetireds_retired (ps : List Nat) : ∀ s, p ∈ ps ∨ Retired p reason s → Retired p reason (ps.foldl (fun s p => markRetired p reason s) s) := by
  induction ps with
  | nil => exact fun s h => h.resolve_left List.not_mem_nil
  | cons q ps ih =>
    intro s h
    refine ih _ ?_
    rcases h with h | h
    · rcases List.mem_cons.mp h with rfl | h
      · exact .inr (markRetired_retired p reason s)
      · exact .inl h
    · exact .inr (h.markRetired q)

/-- A physical bent that gets no number keeps its entry. -/
theorem assignBents_phys {n : Nat} (ps : List Nat) : ∀ (l : Nat) (x : Pair), p ∉ ps → tget Phys.absent (assignBents n l ps x).phys p = tget Phys.absent x.phys p := by
  induction ps with
  | nil => exact fun _ _ _ => rfl
  | cons q ps ih =>
    intro l x h
    obtain ⟨hq, hps⟩ : p ≠ q ∧ p ∉ ps := by simpa using h
    rw [assignBents, ih _ _ hps]
    split
    · exact tget_tset_other Phys.absent x.phys { tget Phys.absent x.phys q with state := 1, lbent := l } hq
    · exact tget_tset_other Phys.absent x.phys { tget Phys.absent x.phys q with state := 2, lbent := 0 } hq

theorem mapBents_going {z : State} {failed : List Nat} (h : Going z s) : Going z (mapBents failed s) :=
  (Going.foldl (fun _ _ => markRetired_going) _ h).upd rfl rfl

/-- R444: a bent not in the retired list that fails self-test is retired with REASON 5. -/
theorem mapBents_retired {failed : List Nat} (hp : p < s.variant.physBents) (hf : p ∈ failed) (hr : tget false s.pair.retiredList p = false) :
    Retired p 5 (mapBents failed s) := by
  unfold mapBents
  extract_lets tested retired
  have listed : p ∈ tested.filter (fun p => failed.contains p) := by
    simp only [tested, List.mem_filter, List.mem_range, List.contains_eq_mem, decide_eq_true_eq]
    exact ⟨⟨hp, by rw [hr]; rfl⟩, hf⟩
  have unassigned : p ∉ tested.filter (fun p => !failed.contains p) := by simp [List.mem_filter, hf]
  have kept : tget Phys.absent (assignBents retired.variant.bents 0 (tested.filter (fun p => !failed.contains p)) { retired.pair with lmap := [] }).phys p =
      retired.phys p := assignBents_phys _ _ _ unassigned
  have done : Retired p 5 retired := markRetireds_retired _ s (.inl listed)
  rw [Retired, State.phys] at done ⊢
  rw [kept]
  exact done

end

/-! ### Raising (R529, R530) -/

section
variable {straps : Straps} {failed : List Nat} {s : State}

/-- What raising starts from: PERST# released, FAULT# clear. -/
def raisingFrom (straps : Straps) (s : State) : State :=
  { s with straps := { straps with smbAddr := s.straps.smbAddr }, power := { s.power with fault := false }, tick := 0 }

/-- The state in which raising maps the bents: the links train, the oscillator is trimmed and configuration space is open. -/
def raisingAt (straps : Straps) (s : State) : State :=
  let s := trimClock (startLinks (raisingFrom straps s))
  { s with port := { s.port with cfg := true } }

theorem raise_completes : raise straps failed 10 s = setPhase .raised (clearBents (mapBents failed (raisingAt straps s))) := by
  simp only [raise, Nat.reduceLT, if_true, raisingAt, raisingFrom]

theorem raising_completes (hp : s.power.phase = .aux) (hf : s.power.fault = false) (hc : s.power.precharged = true) (hr : s.power.reserve = true)
    (hv : 44000 ≤ s.power.vin) (hrec : s.steward.recovery = false) (ha : s.flash.active = s.flash.running) :
    exec (.raising straps failed none) s = .next (setPhase .raised (clearBents (mapBents failed (raisingAt straps s)))) := by
  have booted : bootIfNeeded s = s := if_neg (by simp [hrec, ha])
  rw [exec_raising]
  unfold execRaising
  simp only [hp, hf, hc, hr, booted, hrec, Nat.not_lt.mpr hv, Bool.false_eq_true, Bool.true_eq_false, and_self, true_or, not_true, or_self, if_false]
  exact congrArg _ raise_completes

theorem raising_waits {n : Option Nat} (h : s.power.phase = .ready ∨ s.power.precharged = false ∨ s.power.reserve = false ∨ s.power.vin < 44000) :
    exec (.raising straps failed n) s = .next s := by
  rw [exec_raising]
  unfold execRaising
  refine if_pos ?_
  rcases h with h | h
  · exact .inl (by simp [h])
  · exact .inr h

/-- What every step before the map leaves. -/
theorem raisingAt_eq (straps : Straps) (s : State) : (raisingAt straps s).variant = s.variant ∧ (raisingAt straps s).straps.modId = straps.modId ∧
    (raisingAt straps s).tick = 0 ∧ (raisingAt straps s).flash = s.flash ∧ (raisingAt straps s).pair = s.pair ∧ (raisingAt straps s).power.fault = false := by
  obtain ⟨scarf, srcs, pme, wakePin, links⟩ := (startLinks_linksOnly (raisingFrom straps s)).eq
  rw [raisingAt, links]
  exact ⟨rfl, rfl, rfl, rfl, rfl, rfl⟩

/-- R529: raising that completes. -/
theorem raising_raises (hp : s.power.phase = .aux) (hf : s.power.fault = false) (hc : s.power.precharged = true) (hr : s.power.reserve = true)
    (hv : 44000 ≤ s.power.vin) (hrec : s.steward.recovery = false) (ha : s.flash.active = s.flash.running) :
    ∃ t, exec (.raising straps failed none) s = .next t ∧ t.power.phase = .raised ∧ t.power.fault = false ∧ t.tick = 0 ∧ t.port.cfg = true ∧
      t.straps.modId = straps.modId ∧ (∀ p, p < s.variant.physBents → p ∈ failed → tget false s.pair.retiredList p = false → Retired p 5 t) ∧
      ∀ l, (tget none t.pair.lmap l).isSome = true → l < s.variant.bents → BentReady l s.flash.running t := by
  obtain ⟨variant, modId, tick, flash, pair, fault⟩ := raisingAt_eq straps s
  have G : Going (raisingAt straps s) (mapBents failed (raisingAt straps s)) := mapBents_going (Going.refl _)
  have C := clearBents_going G
  have retired (p : Nat) (h1 : p < s.variant.physBents) (h2 : p ∈ failed) (h3 : tget false s.pair.retiredList p = false) :
      Retired p 5 (clearBents (mapBents failed (raisingAt straps s))) := by
    have r := mapBents_retired (s := raisingAt straps s) (variant ▸ h1) h2 (pair ▸ h3)
    rw [Retired, State.phys, clearBents_pair]
    exact r
  have ready (l : Nat) (h1 : (tget none (clearBents (mapBents failed (raisingAt straps s))).pair.lmap l).isSome = true) (h2 : l < s.variant.bents) :
      BentReady l s.flash.running (clearBents (mapBents failed (raisingAt straps s))) := by
    rw [clearBents_pair] at h1
    have r := clearBents_ready (mem_inService.mpr ⟨by rw [G.variant, variant]; exact h2, h1⟩)
    rwa [G.flash, flash] at r
  rw [raising_completes hp hf hc hr hv hrec ha]
  generalize clearBents (mapBents failed (raisingAt straps s)) = cleared at C retired ready ⊢
  obtain ⟨polled, alert, raised⟩ := setPhase_eq .raised cleared
  rw [raised]
  exact ⟨_, rfl, rfl, C.fault.trans fault, C.tick.trans tick, C.cfg, (congrArg Straps.modId C.straps).trans modId, retired,
    fun l h1 h2 => ⟨(ready l h1 h2).primary, (ready l h1 h2).shadow, (ready l h1 h2).bent⟩⟩

end

/-! ### The main rails go (R364, R493, R550, R554) -/

section
variable {s t : State}

/-- Everything but the auxiliary domain has returned to reset. -/
def Lost (s t : State) : Prop :=
  t.mem.words = [] ∧ t.mem.yard = [] ∧ t.disp = Disp.reset ∧ t.ctxs = [] ∧ t.cores = [] ∧ t.tick = 0 ∧ t.mem.dead = s.mem.dead ∧
    t.pair.retiredList = s.pair.retiredList ∧ t.variant = s.variant ∧ t.host = s.host ∧ t.flash.minSvn = s.flash.minSvn

/-- Telling the outside before the loss makes no difference to it. -/
theorem Lost.of_told {u : State} (h : Lost u t) (T : Told s u) : Lost s t := by
  obtain ⟨words, yard, disp, ctxs, cores, tick, dead, retired, variant, host, minSvn⟩ := h
  rw [T.mem] at dead
  rw [T.quiet.pair] at retired
  rw [T.quiet.flash] at minSvn
  exact ⟨words, yard, disp, ctxs, cores, tick, dead, retired, variant.trans T.quiet.variant, host.trans T.quiet.host, minSvn⟩

/-- A failed update changes no more than the slots. -/
theorem failUpdate_eq (s : State) : ∃ fl : Flash, failUpdate s = { s with flash := fl } ∧ fl.minSvn = s.flash.minSvn := by
  unfold failUpdate
  split <;> exact ⟨_, rfl, rfl⟩

theorem loseMain_lost (s : State) : Lost s (loseMain s) := by
  obtain ⟨fl, e, hm⟩ := failUpdate_eq s
  rw [loseMain, e]
  exact ⟨rfl, rfl, rfl, rfl, rfl, rfl, rfl, rfl, rfl, rfl, hm⟩

theorem loseMain_steward (s : State) : (loseMain s).steward = { s.steward with writes := 0, update := .idle } := by
  obtain ⟨fl, e, -⟩ := failUpdate_eq s
  rw [loseMain, e]

theorem perstAssert_lost (h : s.power.phase ≠ .off) :
    ∃ t, exec .perstAssert s = .next t ∧ Lost s t ∧ t.power.phase = (if s.steward.recovery then .recovery else .aux) := by
  obtain ⟨polled, alert, e⟩ := setPhase_eq (if (loseMain s).steward.recovery then .recovery else .aux) (loseMain s)
  refine ⟨_, if_neg h, ?_⟩
  dsimp only
  rw [e]
  refine ⟨loseMain_lost s, ?_⟩
  rw [loseMain_steward]

theorem vauxLoss_lost : ∃ t, exec .vauxLoss s = .next t ∧ Lost s t ∧ t.power.phase = .off ∧ t.power.reserve = false :=
  ⟨_, rfl, loseMain_lost s, rfl, rfl⟩

theorem mainOn_iff : mainOn s = true ↔ s.power.phase = .raised ∨ s.power.phase = .ready ∨ s.power.phase = .dormant := by
  simp [mainOn, or_assoc]

/-- The entry with which a stop of the module is logged. -/
def stopEntry (code : Nat) (s : State) : ErrEntry := { code := code, kind := 6, unit := 0, addr := 0, detail := 0, ctx := 0, time := s.time, ue := true }

/-- What a stop of the module leaves (R493, R550). -/
structure Stopped (code : Nat) (s t : State) : Prop where
  lost : Lost s t
  phase : t.power.phase = .stopped
  fault : t.power.fault = true
  stopPrev : t.power.stopPrev = true
  log : t.steward.log = (s.steward.log ++ [stopEntry code s]).drop (s.steward.log.length - 524287)

/-- The state that a stop takes the main rails from: its entry is in the journal copy and queued for polling. -/
def stopLogged (code : Nat) (s : State) : State := queueEvent (.entry code) (copyEntry (stopEntry code s) s)

theorem stopModule_eq (code : Nat) (s : State) : stopModule code s =
    let t := setPhase .stopped (loseMain (stopLogged code s))
    { t with power := { t.power with fault := true, stopPrev := true } } := by
  simp only [stopModule, stopLogged, stopEntry]

theorem stopModule_stopped (code : Nat) (s : State) : Stopped code s (stopModule code s) := by
  have lost : Lost s (loseMain (stopLogged code s)) := (loseMain_lost _).of_told ((copyEntry_told _ s).trans (queueEvent_told _ _))
  have log : (loseMain (stopLogged code s)).steward.log = (s.steward.log ++ [stopEntry code s]).drop (s.steward.log.length - 524287) := by
    rw [loseMain_steward, stopLogged, queueEvent, copyEntry]
  rw [stopModule_eq]
  generalize loseMain (stopLogged code s) = m at lost log ⊢
  obtain ⟨polled, alert, e⟩ := setPhase_eq .stopped m
  rw [e]
  exact ⟨lost, rfl, rfl, rfl, log⟩

end
end Sys2Proof.Machine
end

section
open Sys2Proof Sys2Proof.Machine

/-- Settles O53: each way up by what it sets, each way down by what the loss of the main rails leaves. -/
theorem comingUpAndDown : Obligations.ComingUpAndDown := by
  unfold Obligations.ComingUpAndDown
  intro straps mv s lost stopEntry on
  have stopped : on ↔ mainOn s = true := mainOn_iff.symm
  refine ⟨precharge_charges, fun h => ⟨if_pos h, if_neg h⟩, fun h => ⟨if_pos h, boot_active h, boot_other h, boot_none h⟩,
    fun failed hp hf hc hr hv hrec ha => ?raises, fun failed n h => raising_waits h, perstAssert_lost, fun h => if_pos h, vauxLoss_lost,
    fun h => ?safe, fun h => ?unpowered, fun h => ?overvoltage⟩
  case raises =>
    obtain ⟨t, e, phase, fault, tick, cfg, modId, retired, ready⟩ := raising_raises (straps := straps) (failed := failed) hp hf hc hr hv hrec ha
    exact ⟨t, e, phase, fault, tick, cfg, modId, retired, fun l h1 h2 => ⟨(ready l h1 h2).primary, (ready l h1 h2).shadow, (ready l h1 h2).bent⟩⟩
  case safe =>
    obtain ⟨lost, phase, fault, stopPrev, log⟩ := stopModule_stopped 0x0053 s
    exact ⟨_, if_pos (stopped.mp h), lost, phase, fault, stopPrev, rfl, Nat.mod_lt _ (by decide), log⟩
  case unpowered => exact ⟨_, if_neg (fun g => h (stopped.mpr g)), rfl, rfl, rfl⟩
  case overvoltage =>
    obtain ⟨lost, phase, fault, -, -⟩ := stopModule_stopped 0x0053 s
    exact ⟨_, if_pos (stopped.mp h), lost, phase, fault, by show 62000 < 62001 + _; omega⟩

end

/-! ## What the draining of the module leaves of its course (R362, R490) -/

section
namespace Sys2Proof.Machine

/-! ### Writes of blocks and pages, requests that wait (R65 to R70, R75, R133) -/

section
variable {z s : State}

theorem Going.ite {c : Prop} {inst : Decidable c} {a b : State} (ha : Going z a) (hb : Going z b) : Going z (if c then a else b) := by
  split
  · exact ha
  · exact hb

theorem drawn_going (h : Going z s) : Going z s.drawn := h.upd rfl rfl

theorem setPoison_going {blk : Nat} {p : Bool} (h : Going z s) : Going z (setPoison blk p s) := h.upd rfl rfl

theorem countErr_going {n : Nat} (h : Going z s) : Going z (countErr n s) := h.upd rfl rfl

theorem afterBlockWrite_going {blk : Nat} (h : Going z s) : Going z (afterBlockWrite blk s) := by
  unfold afterBlockWrite
  extract_lets fetched marked e
  have marks : Going z marked := setPoison_going (h.upd rfl rfl)
  clear_value marked
  split
  · exact logErr_going (marks.upd rfl rfl)
  · exact marks.upd rfl rfl

theorem storeBlock_going {blk : Nat} {ws : List (Nat × Word)} (h : Going z s) : Going z (storeBlock blk ws s) := by
  unfold storeBlock
  split <;> exact h.upd rfl rfl

theorem dropMerge_going {blk : Nat} (h : Going z s) : Going z (dropMerge blk s) := h.upd rfl rfl

theorem fullBlockWrite_going {blk : Nat} {ws : List (Nat × Word)} (h : Going z s) : Going z (fullBlockWrite blk ws s) :=
  afterBlockWrite_going (storeBlock_going (setPoison_going (dropMerge_going h)))

theorem noteFound_going {blk a : Nat} {f : Found} (h : Going z s) : Going z (noteFound blk a f s) := by
  have corrected (n : Nat) : Going z (noteCe blk a n s) := logErr_going (countErr_going h)
  have uncorrected : Going z (noteUe blk a s) := logErr_going (countErr_going (setPoison_going h))
  cases f with
  | clean => exact h
  | corrected n => exact corrected n
  | bad => exact uncorrected
  | wrong d n =>
    rw [noteFound]
    split
    · exact h
    · exact corrected n

theorem decodeBlock_going {fails : Bool} {blk : Nat} (h : Going z s) : Going z (decodeBlock fails s blk).2 := by
  have drew := drawn_going h
  unfold decodeBlock
  split
  case h_1 | h_2 | h_3 => exact h
  case h_4 =>
    split
    · exact drew
    · split <;> exact drew
  case h_5 => split <;> exact drew

theorem fetchBlock_going {fails : Bool} {blk a : Nat} (h : Going z s) : Going z (fetchBlock fails blk a s).2 := by
  unfold fetchBlock
  split
  · exact h
  · exact (noteFound_going (decodeBlock_going h)).upd rfl rfl

theorem rmwStore_going {blk : Nat} {ws : List (Nat × Word)} {f : Found} (h : Going z s) : Going z (rmwStore blk f ws s) := by
  refine afterBlockWrite_going (storeBlock_going ?_)
  cases f with
  | wrong n _ => exact storeBlock_going h
  | clean | corrected _ | bad => exact h

theorem mergeRetire_going {blk : Nat} (h : Going z s) : Going z (mergeRetire blk s) := by
  unfold mergeRetire
  split
  · exact h
  · extract_lets ws dropped r logged
    have found : Going z r.2 := by
      dsimp only [r]
      split
      · exact dropMerge_going h
      · exact fetchBlock_going (dropMerge_going h)
    split
    · exact fullBlockWrite_going h
    · refine rmwStore_going ?_
      dsimp only [logged]
      split
      · exact logErr_going found
      · exact found

theorem blkWrite_going {blk : Nat} {ws : List (Nat × Word)} (h : Going z s) : Going z (blkWrite blk ws s) := by
  unfold blkWrite
  split
  · dsimp only
    split
    · exact fullBlockWrite_going h
    · split
      · exact mergeRetire_going (h.upd rfl rfl)
      · exact h.upd rfl rfl
  · dsimp only
    split
    · exact fullBlockWrite_going h
    · split
      · exact h
      · refine Going.upd ?_ rfl rfl
        split
        · split
          · exact mergeRetire_going h
          · exact h
        · exact h

theorem putHost_going (n : Nat) : ∀ {a v : Nat} {s : State}, Going z s → Going z (putHost a v n s) := by
  induction n with
  | zero => exact fun h => h
  | succ n ih => exact fun h => ih (h.upd rfl rfl)

theorem writeSmall_going {b : Nat} {w : Word} {p : Place} (h : Going z s) : Going z (writeSmall b p w s) := by
  cases p with
  | dev _ => exact h
  | yard _ => exact h.upd rfl rfl
  | bench _ => exact h.upd rfl rfl
  | host a => exact (putHost_going 4 h).upd rfl rfl

theorem writePlaces_going {b : Nat} {ws : List (Place × Word)} (h : Going z s) : Going z (writePlaces b ws s) := by
  refine Going.foldl (fun _ _ => writeSmall_going) _ (Going.foldl (fun _ _ g => ?_) _ h)
  split
  · exact blkWrite_going g
  · exact g

theorem savePage_going {a : Nat} (h : Going z s) : Going z (savePage a s) := by
  unfold savePage
  extract_lets zeroed mem saved
  have stands : Going z saved := h.upd rfl rfl
  split
  · exact afterBlockWrite_going stands
  · exact stands

theorem flushMerge_going (h : Going z s) : Going z (flushMerge s) := Going.foldl (fun _ _ => mergeRetire_going) _ h

theorem markLane_going {c j blk : Nat} (h : Going z s) : Going z (markLane c j blk s) := by
  unfold markLane
  dsimp only
  split
  · exact h
  · exact logErr_going (h.upd rfl rfl)

theorem readBlock_going {fails : Bool} {blk a : Nat} (h : Going z s) : Going z (if poisoned s blk then s else (fetchBlock fails blk a s).2) := by
  split
  · exact h
  · exact fetchBlock_going h

theorem serveReq_going {r : ChanReq} (h : Going z s) : Going z (serveReq r s) := by
  cases r with
  | read blk lane =>
    cases lane with
    | none => exact readBlock_going h
    | some j => exact readBlock_going (markLane_going h)
  | write blk words parity =>
    have checked : Going z (if 0 < parity.val then logErr false 0x0012 1 (channelOf s.variant blk) (64 * blk) 0 0 (countErr 4 s) else s) := by
      split
      · exact logErr_going (countErr_going h)
      · exact h
    unfold serveReq
    dsimp only
    split
    · exact logErr_going (setPoison_going (blkWrite_going checked))
    · exact blkWrite_going checked

theorem serveAll_going (h : Going z s) : Going z (serveAll s) :=
  Going.foldl (fun _ _ => Going.foldl (fun _ _ => serveReq_going) _) _ (h.upd rfl rfl)

end

/-! ### Cores that stop (R149, R226, R230, R437, R440) -/

section
variable {z s : State} {k l : Nat}

theorem setCore_going {c : Core} (h : Going z s) : Going z (s.setCore k c) := h.upd rfl rfl

theorem setArch_going {a : Arch} (h : Going z s) : Going z (s.setArch k a) := h.upd rfl rfl

theorem setBent_going {b : Bent} (h : Going z s) : Going z (s.setBent l b) := h.upd rfl rfl

theorem setRegion_going {r : Nat} {v : Region} (h : Going z s) : Going z (s.setRegion l r v) := by
  unfold State.setRegion
  split
  · exact h
  · exact h.upd rfl rfl

/-- A control-register write changes the core, its bent or a region of the yard. -/
theorem applyCtl_going {idx : Nat} {v : W40} (h : Going z s) : Going z (applyCtl k idx v s) := by
  have core (c : Core) : Going z (s.setCore k c) := setCore_going h
  have arch (a : Arch) : Going z (s.setArch k a) := setArch_going h
  have bent (b : Bent) : Going z (s.setBent (k / 2) b) := setBent_going h
  have region (r : Nat) (v : Region) : Going z (s.setRegion (k / 2) r v) := setRegion_going h
  unfold applyCtl
  extract_lets c a w l
  exact .ite (.ite (setBent_going (arch _)) (arch _)) <| .ite (arch _) <| .ite (bent _) <| .ite (arch _) <| .ite (arch _) <| .ite (arch _) <| .ite (core _) <|
    .ite (core _) <| .ite (core _) <| .ite (core _) <| .ite (arch _) <| .ite (arch _) <| .ite (arch _) <| .ite (arch _) <| .ite (setBent_going (core _)) <|
    .ite (bent _) <| .ite (arch _) <| .ite (core _) <| .ite (arch _) <| .ite (core _) <| .ite (.ite (region _ _) (.ite (region _ _) (region _ _))) h

theorem settle_going (h : Going z s) : Going z (settle k s) :=
  Going.foldl (fun _ _ => applyCtl_going) _ (setArch_going (setArch_going h))

theorem restage_going {e : CtlWrite} (h : Going z s) : Going z (restage k e s) := by
  unfold restage
  extract_lets l r
  split
  · exact setBent_going h
  · split
    · exact setBent_going h
    · split
      · exact h
      · split
        · exact setRegion_going h
        · split
          · exact setRegion_going h
          · exact h

theorem rollback_going (h : Going z s) : Going z (rollback k s) := setCore_going (Going.foldl (fun _ _ => restage_going) _ h)

theorem countPair_going {p n : Nat} (h : Going z s) : Going z (countPair p n s) := h.upd rfl rfl

theorem forcedEvent_going (h : Going z s) : Going z (forcedEvent k s) :=
  logErr_going (logErr_going (countPair_going (countPair_going (countPair_going (rollback_going (h.upd rfl rfl))))))

theorem checkpoint_going (h : Going z s) : Going z (checkpoint k s) := by
  unfold checkpoint
  split
  · exact h
  · split
    · exact forcedEvent_going h
    · extract_lets c
      split <;> exact setCore_going h

theorem lineUpdate_going (ws : List (Place × Word)) : ∀ {s : State}, Going z s → Going z (lineUpdate l ws s) := by
  induction ws with
  | nil => exact fun h => h
  | cons e ws ih =>
    intro s h
    obtain ⟨p, w⟩ := e
    cases p with
    | dev a =>
      rw [lineUpdate]
      split
      · exact ih h
      · exact ih (setBent_going h)
    | yard _ | bench _ | host _ => exact ih h

theorem performEntry_going {e : StoreEntry} (h : Going z s) : Going z (performEntry k e s) := lineUpdate_going _ (writePlaces_going h)

theorem drainAll_going (h : Going z s) : Going z (drainAll k s) :=
  Going.foldl (fun _ _ => performEntry_going) _ (setCore_going (checkpoint_going h))

theorem noteCounts_going {o : StreamOp} (h : Going z s) : Going z (noteCounts k o s) := by
  unfold noteCounts
  split
  · exact setBent_going h
  · exact h

theorem stopStream_going (h : Going z s) : Going z (stopStream k s) := by
  unfold stopStream
  extract_lets c
  split
  · exact h
  · exact noteCounts_going (setCore_going h)

theorem stopPipes_going (h : Going z s) : Going z (stopPipes k s) := setCore_going (stopStream_going h)

theorem setJob_going {j : Nat} {v : Option Job} (h : Going z s) : Going z (s.setJob j v) := h.upd rfl rfl

theorem saveShare_going {i j : Nat} (h : Going z s) : Going z (saveShare j i l s) := by
  unfold saveShare
  split
  · exact h
  · next job _ =>
    extract_lets sh placed saved cleared
    have pages : Going z saved := by
      refine Going.foldl (fun _ _ g => ?_) _ (setJob_going h)
      split
      · exact savePage_going g
      · exact g
    clear_value saved
    exact (setBent_going (setCore_going (setCore_going pages))).upd rfl rfl

theorem trySave_going (h : Going z s) : Going z (trySave l s) := by
  unfold trySave
  split
  · exact h
  · split
    · exact h
    · split
      · exact saveShare_going h
      · exact h

theorem stopCore_going (h : Going z s) : Going z (stopCore k s) := by
  unfold stopCore
  extract_lets settled agreed stopped
  have settles : Going z settled := settle_going h
  have agrees : Going z agreed := .ite (checkpoint_going settles) settles
  have stops : Going z stopped := stopPipes_going (drainAll_going (settle_going agrees))
  clear_value stopped
  exact trySave_going (setCore_going stops)

theorem askStop_going {n : Nat} (h : Going z s) : Going z (askStop k n s) := by
  unfold askStop dueStop
  dsimp only
  split
  · exact setCore_going h
  · exact stopCore_going (setCore_going h)

/-! ### Shares that are pre-empted, and the drain (R230, R362, R396) -/

theorem preemptCore_going {why : BitVec 4} (h : Going z s) : Going z (preemptCore why k s) := by
  unfold preemptCore
  dsimp only
  split
  · exact h
  · split
    · exact setCore_going (stopPipes_going h)
    · exact askStop_going (stopPipes_going h)

theorem preemptJob_going {why : BitVec 4} {awaits : List (Option (BitVec 20) × Nat)} {j : Nat} (h : Going z s) : Going z (preemptJob why awaits j s) := by
  unfold preemptJob
  split
  · exact h
  · exact Going.foldl (fun _ _ g => trySave_going (preemptCore_going (preemptCore_going g))) _ (setJob_going h)

theorem sendModerated_going {q : Nat} (h : Going z s) : Going z (sendModerated q s) := by
  unfold sendModerated
  split
  · exact sendVec_going (h.upd rfl rfl)
  · exact h

/-- R362: from the end of fetching on. -/
theorem drainJobs_going (s : State) : Going { s with disp := { s.disp with fetching := false } } (drainJobs s) := by
  unfold drainJobs
  extract_lets disp stopped preempted due
  have shares : Going stopped preempted := by
    refine Going.foldl (fun _ _ g => ?_) _ (Going.refl stopped)
    split
    · exact g
    · exact preemptJob_going g
  exact flushMerge_going (serveAll_going (Going.foldl (fun _ _ => sendModerated_going) _ shares))

end
end Sys2Proof.Machine
end

/-! ## The dormant state, the wake and the sequencer (R361, R362, R486, R487, R490, R491, R517) -/

section
namespace Sys2Proof.Machine

section
variable {on : Bool} {s t : State}

/-- The islands that go with the main supply are all on, or all off. -/
def IslandsPowered (on : Bool) (s : State) : Prop := ∀ i, i < 44 → (s.island i).powered = on

/-- One island goes on or off; one that goes on takes its held pair (R484). -/
def switchIsland (on : Bool) (s : State) (i : Nat) : State :=
  let v := s.island i
  let (src, div) := if on then v.heldPair.getD (v.src, v.div) else (v.src, v.div)
  s.setIsland i { v with powered := on, running := on, src := src, div := div, heldPair := if on then none else v.heldPair }

theorem switchIsland_powered (on : Bool) (s : State) (i : Nat) : ((switchIsland on s i).island i).powered = on :=
  congrArg Island.powered (State.setIsland_island ..)

theorem switchIsland_island_other (on : Bool) (s : State) {i j : Nat} (h : j ≠ i) : (switchIsland on s i).island j = s.island j :=
  tget_tset_other _ _ _ h

theorem switchIslands_eq (on : Bool) (is : List Nat) : ∀ s : State, ∃ island, is.foldl (switchIsland on) s = { s with power := { s.power with island := island } } := by
  induction is with
  | nil => exact fun s => ⟨_, rfl⟩
  | cons i is ih => exact fun s => ih (switchIsland on s i)

theorem switchIslands_powered {j : Nat} (is : List Nat) : ∀ s : State, j ∈ is ∨ (s.island j).powered = on → ((is.foldl (switchIsland on) s).island j).powered = on := by
  induction is with
  | nil => exact fun s h => h.resolve_left List.not_mem_nil
  | cons i is ih =>
    intro s h
    refine ih _ ?_
    by_cases hj : j = i
    · exact .inr (hj ▸ switchIsland_powered on s i)
    · rw [switchIsland_island_other on s hj]
      exact h.imp_left fun h => (List.mem_cons.mp h).resolve_left hj

theorem powerMain_eq (on : Bool) (s : State) : ∃ island, powerMain on s = { s with power := { s.power with island := island } } := switchIslands_eq on _ s

theorem powerMain_powered (on : Bool) (s : State) : IslandsPowered on (powerMain on s) := fun _ hi =>
  switchIslands_powered _ s (.inl (List.mem_range.mpr hi))

/-! ### Entry (R361, R362, R490) -/

/-- The module is dormant: nothing is asked of the sequencer, and the islands of bents and memory are off. -/
structure Dormant (t : State) : Prop where
  phase : t.power.phase = .dormant
  seqQueue : t.power.seqQueue = []
  islands : IslandsPowered false t

theorem enterDormant_dormant (s : State) : Dormant (enterDormant s) ∧ (enterDormant s).disp = s.disp := by
  obtain ⟨scarf, srcs, pme, wakePin, idle⟩ := (idleLinks_linksOnly s).eq
  have off := powerMain_powered false (idleLinks s)
  obtain ⟨island, e⟩ := powerMain_eq false (idleLinks s)
  rw [e, idle] at off
  unfold enterDormant
  dsimp only
  rw [e, idle]
  obtain ⟨polled, alert, dormant⟩ := setPhase_eq .dormant
    { s with scarf := scarf, srcs := srcs, power := { s.power with pme := pme, wakePin := wakePin, island := island, seqQueue := [] } }
  rw [dormant]
  exact ⟨⟨rfl, rfl, off⟩, rfl⟩

/-- What a request of the dormant state leads to on state z: nothing is fetched, and the module is dormant once all is drained. -/
def Drops (z : State) (out : Host.Outcome State Fault Refusal) : Prop :=
  ∃ t, out = .next t ∧ t.disp.fetching = false ∧ (t.power.phase = .dormant ∨ t.power.phase = .ready) ∧
    (drained (drainJobs z) = true → t.power.phase = .dormant ∧ t.power.seqQueue = [] ∧ IslandsPowered false t)

theorem goDormant_drops (h : s.power.phase = .ready) : Drops s (.next (goDormant s)) := by
  have G := drainJobs_going s
  refine ⟨_, rfl, ?_⟩
  by_cases hd : drained (drainJobs s) = true
  · obtain ⟨dormant, disp⟩ := enterDormant_dormant (drainJobs s)
    have enters : goDormant s = enterDormant (drainJobs s) := if_pos hd
    rw [enters, disp]
    exact ⟨G.fetching, .inl dormant.phase, fun _ => ⟨dormant.phase, dormant.seqQueue, dormant.islands⟩⟩
  · have drains : goDormant s = drainJobs s := if_neg hd
    rw [drains]
    exact ⟨G.fetching, .inr (G.phase.trans h), fun g => absurd g hd⟩

theorem d3hot_drops (hp : s.power.phase = .ready) (hm : isMember s = false) :
    Drops { s with port := { s.port with d3hot := true } } (exec .powerstateD3hot s) := by
  have entry : exec .powerstateD3hot s = .next (goDormant { s with port := { s.port with d3hot := true } }) := by
    rw [exec_powerstateD3hot, execPowerstateD3hot, toD3hot, if_neg (not_not_intro hp)]
    exact congrArg _ (if_neg (by rw [show isMember { s with port := { s.port with d3hot := true } } = isMember s from rfl, hm]; exact Bool.false_ne_true))
  rw [entry]
  exact goDormant_drops hp

theorem d3hot_member (hp : s.power.phase = .ready) (hm : isMember s = true) :
    exec .powerstateD3hot s = .next { s with port := { s.port with d3hot := true } } := by
  rw [exec_powerstateD3hot, execPowerstateD3hot, toD3hot, if_neg (not_not_intro hp)]
  exact congrArg _ (if_pos hm)

theorem cascadeDormant_drops (hp : s.power.phase = .ready) (hm : isMember s = true) : Drops s (exec .cascadeDormantRequest s) := by
  have entry : exec .cascadeDormantRequest s = .next (goDormant s) := if_pos (by rw [hp, hm]; rfl)
  rw [entry]
  exact goDormant_drops hp

theorem cascadeDormant_stays (h : s.power.phase ≠ .ready ∨ isMember s = false) : exec .cascadeDormantRequest s = .next s := by
  refine if_neg ?_
  rcases h with h | h <;> simp [h]

/-! ### Held page responses (R128, R490) -/

theorem pageSuccess_only (f : Nat) (pasid : Option (BitVec 20)) (page : Nat) (s : State) : AtsOnly s (pageSuccess f pasid page s) := by
  unfold pageSuccess
  split <;> rfl

theorem pageInvalid_only (f : Nat) (pasid : Option (BitVec 20)) (page : Nat) (s : State) : AtsOnly s (pageInvalid f pasid page s) := by
  unfold pageInvalid
  split
  · exact pageFails_only _
  · rfl

theorem pageFailure_only (f : Nat) (pasid : Option (BitVec 20)) (page : Nat) (s : State) : AtsOnly s (pageFailure f pasid page s) := by
  unfold pageFailure
  split
  · dsimp only
    rw [failReqs_eq]
    rfl
  · rfl

theorem actHeld_only (e : Nat × Nat × Option (BitVec 20) × Nat) (s : State) : AtsOnly s (actHeld e s) := by
  unfold actHeld
  split
  · exact pageSuccess_only ..
  · split
    · exact pageInvalid_only ..
    · exact pageFailure_only ..

theorem actAllHeld_only (s : State) : AtsOnly s (actAllHeld s) := by
  have acts (es : List (Nat × Nat × Option (BitVec 20) × Nat)) : ∀ u : State, AtsOnly u (es.foldl (fun s e => actHeld e s) u) := by
    induction es with
    | nil => exact fun _ => rfl
    | cons e es ih => exact fun u => (actHeld_only e u).trans (ih _)
  exact AtsOnly.trans (y := { s with ats := { s.ats with held := [] } }) rfl (acts s.ats.held _)

/-! ### The wake (R88, R490, R491, R497) -/

/-- What a wake from state s leaves. -/
def Woken (s t : State) : Prop :=
  t.power.phase = .ready ∧ t.disp.fetching = true ∧ t.power.wakes = (if s.power.wakes = 65535 then 65535 else s.power.wakes + 1) ∧
    t.power.wakeUs.toNat ≤ 250 ∧ IslandsPowered true t ∧ t.mem.words = s.mem.words ∧ ∀ l ∈ inService s, t.core (2 * l) = Core.reset

/-- The wake until the bents are cleared. -/
def wakeCleared (s : State) : State :=
  let s := setPhase .ready s
  clearBents (powerMain true { s with mem := { s.mem with yard := [], yardBad := [] } })

theorem wakeCleared_cleared (s : State) : IslandsPowered true (wakeCleared s) ∧ (wakeCleared s).power.phase = .ready ∧ (wakeCleared s).power.wakes = s.power.wakes ∧
    (wakeCleared s).mem.words = s.mem.words ∧ ∀ l ∈ inService s, (wakeCleared s).core (2 * l) = Core.reset := by
  obtain ⟨polled, alert, phase⟩ := setPhase_eq .ready s
  rw [wakeCleared, phase]
  dsimp only
  generalize hy : ({ s with power := { s.power with phase := Phase.ready }, steward := { s.steward with polled := polled, alert := alert }, mem := { s.mem with yard := [], yardBad := [] } } : State) = y
  have on := powerMain_powered true y
  obtain ⟨island, powered⟩ := powerMain_eq true y
  have ready {l : Nat} (h : l ∈ inService (powerMain true y)) := (clearBents_ready h).primary
  obtain ⟨co, be, cleared⟩ := clearBents_eq (powerMain true y)
  rw [cleared] at ready ⊢
  rw [powered] at on ready ⊢
  subst hy
  exact ⟨on, rfl, rfl, rfl, fun l h => ready h⟩

/-- The last of the wake: the module fetches again and counts it. -/
def wakeCounted (t : State) : State :=
  let w := t.power.wakes
  { t with
    disp := { t.disp with fetching := true }
    power := { t.power with
      pme := false, wakes := if w = 65535 then w else w + 1, wakeUs := BitVec.ofNat 16 (Config.freeNat t.draw 0 % 251) }
    draw := t.draw + 1 }

theorem wake_eq (s : State) : wake s = wakeCounted (actAllHeld (wakeLinks (wakeCleared s))) := by
  unfold wake wakeCounted wakeCleared
  with_reducible rfl

theorem wakeCounted_wakes (t : State) : (wakeCounted t).power.wakes = if t.power.wakes = 65535 then 65535 else t.power.wakes + 1 := by
  rw [wakeCounted]
  dsimp only
  split
  · next h => exact h
  · rfl

theorem wakeCounted_wakeUs (t : State) : (wakeCounted t).power.wakeUs.toNat ≤ 250 := by
  have short : Config.freeNat t.draw 0 % 251 < 251 := Nat.mod_lt _ (by decide)
  rw [wakeCounted, BitVec.toNat_ofNat]
  omega

theorem wake_woken (s : State) : Woken s (wake s) := by
  obtain ⟨on, phase, wakes, words, cores⟩ := wakeCleared_cleared s
  rw [wake_eq]
  generalize wakeCleared s = c at on phase wakes words cores ⊢
  obtain ⟨scarf, srcs, pme, wakePin, links⟩ := (wakeLinks_linksOnly c).eq
  have held := actAllHeld_only (wakeLinks c)
  generalize actAllHeld (wakeLinks c) = t at held ⊢
  rw [AtsOnly, links] at held
  have counted := wakeCounted_wakes t
  have us := wakeCounted_wakeUs t
  generalize t.ats = ats at held
  subst held
  exact ⟨phase, rfl, counted.trans (by rw [← wakes]), us, on, words, cores⟩

/-- What a write of D0 finds: the PowerState field at D0. -/
theorem toD0_port (s : State) : ∃ port : Port, port.d3hot = false ∧ (if s.port.d3hot then { s with port := { s.port with d3hot := false } } else s) = { s with port := port } := by
  cases h : s.port.d3hot with
  | true => exact ⟨_, rfl, rfl⟩
  | false => exact ⟨s.port, h, rfl⟩

theorem d0_wakes (hp : s.power.phase = .dormant) (hm : isMember s = false) : ∃ t, exec .powerstateD0 s = .next t ∧ Woken s t := by
  obtain ⟨port, -, e⟩ := toD0_port s
  have wakes : exec .powerstateD0 s = .next (wake { s with port := port }) := by
    rw [exec_powerstateD0, execPowerstateD0, toD0]
    dsimp only
    rw [e]
    exact congrArg _ ((if_neg (fun g => Bool.false_ne_true (hm.symm.trans g))).trans (if_pos hp))
  exact ⟨_, wakes, wake_woken { s with port := port }⟩

theorem d0_ready (hp : s.power.phase = .ready) (hm : isMember s = false) :
    ∃ t, exec .powerstateD0 s = .next t ∧ t.port.d3hot = false ∧ t.disp = { s.disp with fetching := true } ∧ t.mem = s.mem ∧ t.cores = s.cores := by
  obtain ⟨port, hd, e⟩ := toD0_port s
  have fetches : exec .powerstateD0 s = .next { s with port := port, disp := { s.disp with fetching := true } } := by
    rw [exec_powerstateD0, execPowerstateD0, toD0]
    dsimp only
    rw [e]
    exact congrArg _ ((if_neg (fun g => Bool.false_ne_true (hm.symm.trans g))).trans ((if_neg (fun g => by rw [hp] at g; cases g)).trans (if_pos hp)))
  exact ⟨_, fetches, hd, rfl, rfl, rfl⟩

theorem cascadeWake_wakes (hp : s.power.phase = .dormant) (hm : isMember s = true) : ∃ t, exec .cascadeWakeRequest s = .next t ∧ Woken s t := by
  refine ⟨_, ?_, wake_woken s⟩
  rw [exec_cascadeWakeRequest, execCascadeWakeRequest, hm, if_neg (by decide), if_pos hp]

theorem cascadeWake_head (hm : isMember s = false) : exec .cascadeWakeRequest s = .next s := if_pos (by rw [hm]; rfl)

end

/-! ### The sequencer (R486, R487) -/

section
variable {i l : Nat} {r : List (Bool × Nat)} {s : State}

/-- The state with the sequencer's queue r. -/
def State.queued (s : State) (r : List (Bool × Nat)) : State := { s with power := { s.power with seqQueue := r } }

theorem admission_up (h : s.power.seqQueue = (true, i) :: r) : exec .sequencerAdmission s = .next (powerUp i (s.queued r)) := by
  simp only [exec_sequencerAdmission, execSequencerAdmission, h, State.queued, if_true]

theorem admission_down (h : s.power.seqQueue = (false, i) :: r) : exec .sequencerAdmission s = .next (powerDown i (s.queued r)) := by
  simp only [exec_sequencerAdmission, execSequencerAdmission, h, State.queued, Bool.false_eq_true, if_false]

theorem admission_idle (h : s.power.seqQueue = []) : exec .sequencerAdmission s = .next s := by
  simp only [exec_sequencerAdmission, execSequencerAdmission, h]

/-- An island that comes up, with the pair that was held for it. -/
def Island.up (v : Island) : Island :=
  { v with powered := true, running := true, src := (v.heldPair.getD (v.src, v.div)).1, div := (v.heldPair.getD (v.src, v.div)).2, heldPair := none }

/-- A bent without a share comes up cleared. -/
theorem powerUp_clears (hl : logicalOf i s = some l) (hs : (s.bent l).share = none) : powerUp i s = readyBent l (s.setIsland i (s.island i).up) := by
  have logical : logicalOf i (s.setIsland i (s.island i).up) = some l := hl
  have free : ((s.setIsland i (s.island i).up).bent l).share.isNone = true := by rw [State.setIsland_read_bent, hs]; rfl
  have powers : powerUp i s = match logicalOf i (s.setIsland i (s.island i).up) with
      | some l => if ((s.setIsland i (s.island i).up).bent l).share.isNone then readyBent l (s.setIsland i (s.island i).up) else s.setIsland i (s.island i).up
      | none => s.setIsland i (s.island i).up := rfl
  rw [powers, logical]
  exact if_pos free

theorem powerDown_assigned (hl : logicalOf i s = some l) (hs : (s.bent l).share ≠ none) : powerDown i s = s := by
  have assigned : (s.bent l).share.isSome = true := Option.isSome_iff_ne_none.mpr hs
  simp only [powerDown, hl, assigned, Bool.true_or, if_true]

theorem powerDown_free (hl : logicalOf i s = some l) (hs : (s.bent l).share = none) (ht : takingOver s l = false) :
    powerDown i s = s.setIsland i { s.island i with powered := false, running := false } := by
  simp only [powerDown, hl, hs, ht, Option.isSome_none, Bool.or_self, Bool.false_eq_true, if_false]

/-- A request to come up is admitted. -/
theorem admission_powersUp (hl : logicalOf i s = some l) (h : s.power.seqQueue = (true, i) :: r) (hs : (s.bent l).share = none) :
    ∃ t, exec .sequencerAdmission s = .next t ∧ (t.island i).powered = true ∧ t.power.seqQueue = r ∧ t.core (2 * l) = Core.reset ∧
      t.bent l = { Bent.reset with service := some s.flash.running } ∧ t.mem = s.mem := by
  let t := (s.queued r).setIsland i ((s.queued r).island i).up
  obtain ⟨primary, -, bent⟩ := readyBent_ready l t
  have powered : (t.island i).powered = true := congrArg Island.powered (State.setIsland_island ..)
  exact ⟨_, (admission_up h).trans (congrArg _ (powerUp_clears (s := s.queued r) hl hs)), powered, rfl, primary, bent, rfl⟩

/-- A request to go down is admitted for a bent without a share. -/
theorem admission_powersDown (hl : logicalOf i s = some l) (h : s.power.seqQueue = (false, i) :: r) (hs : (s.bent l).share = none) (ht : takingOver s l = false) :
    ∃ t, exec .sequencerAdmission s = .next t ∧ (t.island i).powered = false ∧ t.power.seqQueue = r ∧ t.cores = s.cores := by
  rw [admission_down h, powerDown_free (s := s.queued r) hl hs ht]
  exact ⟨_, rfl, congrArg Island.powered (State.setIsland_island ..), rfl, rfl⟩

theorem admission_refuses (hl : logicalOf i s = some l) (h : s.power.seqQueue = (false, i) :: r) (hs : (s.bent l).share ≠ none) :
    exec .sequencerAdmission s = .next { s with power := { s.power with seqQueue := r } } :=
  (admission_down h).trans (congrArg _ (powerDown_assigned (s := s.queued r) hl hs))

theorem bentPowerDown_asks (hl : l < 32) (hp : s.power.phase = .ready) (hi : s.power.idle ≠ 0) (hin : l ∈ inService s) (hs : (s.bent l).share = none)
    (ht : takingOver s l = false) (hon : (s.island (s.physOf l)).powered = true) (hq : (false, s.physOf l) ∉ s.power.seqQueue) :
    exec (.bentPowerDown l) s = .next (s.queued (s.power.seqQueue ++ [(false, s.physOf l)])) := by
  rw [exec_bentPowerDown, execBentPowerDown, if_neg (Nat.not_le.mpr hl)]
  exact if_pos ⟨⟨hp, hi, List.contains_iff_mem.mpr hin, hs, ht⟩, hon, by simpa using hq⟩

theorem bentPowerDown_stays (hl : l < 32) (h : s.power.idle = 0 ∨ (s.bent l).share ≠ none) : exec (.bentPowerDown l) s = .next s := by
  rw [exec_bentPowerDown, execBentPowerDown, if_neg (Nat.not_le.mpr hl)]
  refine if_neg fun g => ?_
  obtain ⟨⟨-, hi, -, hs, -⟩, -, -⟩ := g
  exact h.elim hi (fun h => h hs)

end
end Sys2Proof.Machine
end

section
open Sys2Proof Sys2Proof.Machine

/-- Settles O54: entry, wake and the sequencer's requests, each by the rule of what it leaves. -/
theorem powerStates : Obligations.PowerStates := by
  unfold Obligations.PowerStates
  intro s drops wakes
  exact ⟨d3hot_drops, fun hp hm => ⟨d3hot_member hp hm, cascadeDormant_drops hp hm⟩, fun hp => ⟨congrArg _ (if_pos hp), cascadeDormant_stays (.inl hp)⟩,
    fun hm => ⟨cascadeDormant_stays (.inr hm), cascadeWake_head hm⟩, fun hp => ⟨d0_wakes hp, cascadeWake_wakes hp⟩, d0_ready, admission_idle,
    fun i r l hl => ⟨admission_powersUp hl, admission_powersDown hl, admission_refuses hl⟩, fun l hl => if_pos hl,
    fun l hl hp hi hin hs ht hon hq => bentPowerDown_asks hl hp hi hin hs ht hon hq, fun l hl h => bentPowerDown_stays hl h⟩

end
